-- ==== Sys2Proof/Word.lean ====
section
/-!
DEFINITION. The words of the machine: bytes and 64-bit register words (R14, R15 of 00_scope.md).
-/

namespace Sys2Proof

/-- One byte. -/
abbrev Byte := BitVec 8

/-- One register or object entry, zero above its own width. -/
abbrev Word := BitVec 64

end Sys2Proof
end

