-- ==== Sys2Proof/Config.lean ====
section
/-!
DEFINITION. The free values of the model: results and memory contents that the spec leaves open (R883, R273 and the
points named in the assumption log). Each is a constant without a body, so no proof can see a value of it.
-/

namespace Sys2Proof.Config

/-- What a byte of an extent that a rule calls undefined reads as (R883): `stamp` numbers the event that made the
extent undefined, `addr` is the byte's address. FREE VALUE, assumption log 3. -/
opaque undefByte (stamp addr : Nat) : Byte

/-- Whether a 64 B line of an undefined extent holds poison (R883). FREE VALUE, assumption log 3. -/
opaque undefPoison (stamp line : Nat) : Bool

/-- A number the spec does not give (which data of two the controller uses, a random nonce): `stamp` numbers the
occasion. FREE VALUE, assumption log 4. -/
opaque freeNat (stamp : Nat) : Nat

/-- A byte the spec does not give, of a sequence made on one occasion. FREE VALUE, assumption log 4. -/
opaque freeByte (stamp k : Nat) : Byte

/-- A byte of a line that a caching agent of the coherent domain owns, as the agent returns it to the home's snoop on an
access that is not a coherent request (R436, R437): `stamp` numbers the access. FREE VALUE, assumption log 4. -/
opaque agentByte (stamp addr : Nat) : Byte

/-- Which of the values within 1 ulp of the exact result the special-function lane returns for 2^x (R272, R273: a fixed
function of the input bits, its last place not given): 0 the lower, 1 the upper neighbour, 2 the exact value where it is
representable. FREE VALUE, assumption log 5. -/
opaque exp2Sel (x : BitVec 32) : Fin 3

/-- As `exp2Sel`, for the reciprocal square root. FREE VALUE, assumption log 5. -/
opaque rsqrtSel (x : BitVec 32) : Fin 3

/-- What the decoder makes of a word with more wrong symbols than its code corrects (R656, R659, R694): nothing, or other data with the
positions it took for wrong. `symbols` names the code, `d` is the data, `err` the wrong symbols. FREE VALUE, assumption log 69. -/
opaque beyondLimit (symbols : Nat) (d : List Byte) (poisoned : Bool) (err : List Byte) : Option (List Byte × List Nat)

/-- Byte `k` of the 64 B header of a life log snapshot, which holds MAGIC, SEQ, LENGTH and calendar time in places the spec does not give
(R850). FREE VALUE, assumption log 45. -/
opaque snapHeader (magic seq len utcNs k : Nat) : Byte

/-- The syndrome of an uncorrectable codeword, as an error record holds it (R659, R689). FREE VALUE, assumption log 69. -/
opaque syndrome (symbols : Nat) (err : List Byte) : Word

/-- The rank of its channel that holds a line of tier 1 (R847). FREE VALUE, assumption log 69. -/
opaque t1Rank (off : Nat) : Nat

/-- The traffic class of requests of the management context, which R635 gives to partitions only. FREE VALUE, assumption
log 4. -/
opaque mgmtTc : BitVec 3

/-- Byte `k` of this controller's DeviceID public key, which its PUF gives (R832, R833). FREE VALUE, assumption log 6. -/
opaque devicePk (k : Nat) : Byte

/-- Byte `k` of the Alias public key of a half whose MEAS1 is `meas` (R833). FREE VALUE, assumption log 6. -/
opaque aliasPk (meas : List Byte) (k : Nat) : Byte

/-- Byte `k` of the endorsement of the factory block (R834). FREE VALUE, assumption log 6. -/
opaque endorsement (k : Nat) : Byte

/-- Byte `k` of the DeviceID signature of an identity credential whose signed part is `body` (R834). FREE VALUE, assumption
log 6. -/
opaque credSig (body : List Byte) (k : Nat) : Byte

/-- The manufacture date of the factory block, in UTC seconds (R820, R847). FREE VALUE, assumption log 6. -/
opaque manufacture : Nat

/-- Byte `k` of the digest of the Starter ROM (R836). FREE VALUE, assumption log 6. -/
opaque romDigest (k : Nat) : Byte

/-- Byte `k` of what Scale is made with (R805, R814): 0 the digest of its first firmware, 1 that of its first parameter
block, 2 that of the metrology key, 3 SCL_FW_ID. FREE VALUE, assumption log 6. -/
opaque sclFactory (which k : Nat) : Byte

end Sys2Proof.Config
end

