-- ==== Sys2Proof/Syntax.lean ====
section
/-!
DEFINITION. The commands of the block: one constructor of `Instr` for each row of spec/opcode_table.json, with the
operands the rule of that row gives the command, and the small types of those operands.
-/

namespace Sys2Proof

/-- The two logic dies (R19). -/
inductive Half where
  | east | west
  deriving DecidableEq, Repr

/-- A row of data-path SRAM (R656) that a command reads: a 64 B line of the payload of a received packet, a line of the tile in a mover
channel, or a row of an array's own memories. -/
inductive SramRow where
  | payload (k line : Nat)
  | mover (ch line : Nat)
  | array (a : Nat)
  deriving DecidableEq, Repr

/-- A word of control SRAM (R656): the directory entry of a line, the k-th entry of a half's range lookaside or residency cache, a
counting table or the Proofer's staging directory, or the entry of a row in a holder table. -/
inductive CtlWord where
  | dir (line : Nat)
  | look (h : Half) (k : Nat)
  | residency (h : Half) (k : Nat)
  | table
  | holder (row : Nat)
  deriving DecidableEq, Repr

/-- Memories that lie outside the block; and, as `cell`, `sram` and `control`, what the block's own memories deliver with an error. -/
inductive Space where
  | host              -- host memory, by IOVA
  | node (n : Nat)    -- memory homed at another node, by local offset
  | drive (d : Nat)   -- NVMe drive, by byte (LBA × 4,096)
  | flash             -- board flash, by byte
  | cell              -- the wrong symbols of a codeword of tier 0 or tier 1, by local offset (R656)
  | sram (r : SramRow)     -- the wrong symbols of a row of data-path SRAM
  | control (w : CtlWord)  -- the wrong symbols of a word of control SRAM
  deriving DecidableEq, Repr

/-- What one read of an outside memory answers: the bytes from `addr` on, which of their 64 B lines are poisoned
(counted from the first byte), an error status, or the refusal of the region key (R93, R97). -/
structure EnvRead where
  space  : Space
  addr   : Nat
  data   : List Byte
  poison : List Nat := []
  err    : Bool := false
  key    : Bool := false
  deriving DecidableEq, Repr

/-- What the outside answers to the reads of one command. A read that no entry covers answers an error status. -/
abbrev Env := List EnvRead

/-- Who writes or reads a register or entry (the SOURCE codes of MGT_REFUSE_LAST, 16_object_dictionary.md R754). -/
inductive Source where
  | pf                  -- host, physical function
  | vf (p : Nat)        -- host, virtual function p + 1
  | net (slot : Nat)    -- network session
  | mbx                 -- mailbox session
  | fw                  -- management firmware
  | load                -- configuration load
  deriving DecidableEq, Repr


/-- What a check of an array's run reports beside what its results show: nothing, a failed checksum comparison (lanes
failing, D_b of the first), or a residue that differs (the two residues). -/
inductive RunCheck where
  | none
  | csum (lanes diff : Nat)
  | residue (syndrome : Nat)
  deriving DecidableEq, Repr

/-- How the hardware ran an item: `diff` is 0 where the results are those the rules define, and numbers a wrong result
otherwise (two wrong results with one number agree bit for bit); what the array's checks report; and whether the
combiner finds a residue error when it adds the partials (R669). -/
structure RunHw where
  diff  : Nat := 0
  check : RunCheck := .none
  comb  : Bool := false
  deriving DecidableEq, Repr

/-- A firmware slot whose header fields hold (R822, R823): VERSION, SVN, the SHA3-512 of header and body, and whether the
digest of KEY and SIG verify. -/
structure Img where
  version : Nat
  svn     : Nat
  digest  : List Byte
  keyOk   : Bool
  sigOk   : Bool
  deriving DecidableEq, Repr

/-- A JXV-M datagram of the management segment (R773): its header fields, the address it comes from, its body in plain text, and
whether its tag verifies under the keys of its session (R782, R783). -/
structure Dgram where
  from_   : Nat
  magic   : Nat := 0x4A58
  version : Nat := 0x30
  flags   : Nat := 1
  frag    : Nat := 0
  session : Nat := 0
  seq     : Nat := 0
  reqId   : Nat := 0
  total   : Nat := 0
  /-- The reserved bits of FLAGS are in `flags`; the reserved bytes at 0x1E. -/
  rsv     : Nat := 0
  /-- LEN agrees with the body bytes that the datagram holds. -/
  lenOk   : Bool := true
  body    : List Byte := []
  tagOk   : Bool := true
  /-- The frame names the controller's own MAC address (R772). -/
  toMac   : Bool := true
  deriving DecidableEq, Repr

/-- What a drive answers during its initialisation (R134): the NVMe version (VS: major, minor and tertiary in 16, 8 and 8 bits), whether
it has the NVM command set, the LBA size, metadata bytes and LBAs of namespace 1, and the depth of its queues. The I/O queue pairs that
it grants stand beside it. -/
structure DriveId where
  version  : Nat
  nvm      : Bool
  lbaBytes : Nat
  metadata : Nat
  lbas     : Nat
  depth    : Nat
  deriving DecidableEq, Repr

/-- The packet of the inbox that a command performs, by its place, and the wrong symbols that the words it reads have (R656). -/
structure InboxRead where
  k   : Nat
  env : Env
  deriving DecidableEq, Repr

/-- The commands: one constructor for each row of spec/opcode_table.json; those whose operands number an instance
come first. -/
inductive Instr where
  /-- COLD_RESET_RELEASE (R824): Release of cold_rst_n starts each half's Starter at the ROM stage. -/
  | coldResetRelease (straps : Nat)
  /-- BRIDGE_LANE_FAIL (R31): A failed bridge lane switches its group to the spare lane and replays in-flight traffic. -/
  | bridgeLaneFail (dir g : Nat)
  /-- BRIDGE_SECOND_LANE_FAIL (R32): A second failed lane takes a bridge group out of service. -/
  | bridgeSecondLaneFail (dir g : Nat)
  /-- BRIDGE_ENDPOINT_LOST (R34): Detection of a lost bridge endpoint starts a half reset of that half, or a chip warm reset if both are lost. -/
  | bridgeEndpointLost (east west : Bool) (env : Env)
  /-- CHIP_WARM_RESET (R639): RST_CTRL.CHIP or JXV-M resets both halves, I/O dies and links and reloads configuration. -/
  | chipWarmReset (src : Source) (confirm : Nat)
  /-- HALF_RESET (R46): RST_CTRL.HALF_E or HALF_W puts one half into RESETTING, taking its links down and collapsing its domains. -/
  | halfReset (src : Source) (h : Half) (confirm : Nat) (env : Env)
  /-- REGISTER_WRITE (R7): A write to a register or entry without a row of its own acts under its access code, or is refused or discarded. -/
  | registerWrite (src : Source) (off size : Nat) (v : Word) (lease : Option (Half × Nat)) (env : Env)
  /-- TBL_COMMIT (R75): XLT_TBL_COMMIT copies and checks a context's range table into its inactive shadow. -/
  | tblCommit (src : Source) (c : Nat) (env : Env)
  /-- TBL_ACTIVATE (R80): A checked table becomes active once in-progress migration commands complete, and the epoch increments. -/
  | tblActivate (c : Nat)
  /-- OLD_EPOCH_DRAINED (R78): The last access translated under the old epoch completes and OLD_DRAINED becomes 1. -/
  | oldEpochDrained (c : Nat)
  /-- FAULT_RECORD_VISIBLE (R102): A fault record write lands in host memory and VEC_FAULT is raised unless already raised. -/
  | faultRecordVisible (c : Nat)
  /-- FAULT_RECORD_WRITE_FAIL (R107): A failed fault record write clears EN, rewinds FLTQ_TAIL and returns later faults to unqueued. -/
  | faultRecordWriteFail (c : Nat)
  /-- DEFERRED_FAULT_RECORD (R105): When a queue slot frees with EN set, the oldest unqueued fault is recorded. -/
  | deferredFaultRecord (c : Nat)
  /-- FLTQ_HEAD_WRITE (R101): A write of FLTQ_HEAD frees slots and rearms the vector, or is ignored with HEAD_ERR. -/
  | fltqHeadWrite (src : Source) (p v : Nat)
  /-- FLTQ_RESUME_REPLAY (R108): FLTQ_RESUME with ACTION 0 re-presents the held access against the active table. -/
  | fltqResumeReplay (src : Source) (p tag : Nat) (env : Env)
  /-- FLTQ_RESUME_ABORT (R111): FLTQ_RESUME with ACTION 1 completes the held access with an error. -/
  | fltqResumeAbort (src : Source) (p tag : Nat) (env : Env)
  /-- MIG_GO (R86): XLT_MIG_GO queues a migration command, or drops it with FULL. -/
  | migGo (src : Source) (p : Nat) (v : Word)
  /-- MIG_TO_DEVICE (R87): A queued command toward the device checks its pages and reads non-resident pages into the pool. -/
  | migToDevice (c : Nat) (env : Env)
  /-- MIG_TO_HOST (R88): A queued command toward the host clears residency bits and waits for accesses to drain. -/
  | migToHost (c : Nat)
  /-- MIG_DRAIN_DONE (R88): Accesses to a page have drained and the pool page is written to its host IOVA. -/
  | migDrainDone (c : Nat)
  /-- MIG_TRANSFER_FAIL (R90): A failed host or pool transfer stops the command with LAST_ERR and an XLT error record. -/
  | migTransferFail (c err k : Nat) (env : Env)
  /-- MIG_COMMAND_DONE (R87): A migration command completes, sets residency, raises VEC_MIG and resumes its TAG if asked. -/
  | migCommandDone (c : Nat) (env : Env)
  /-- STAGE_COMMIT (R121): TIER_T0_COMMIT checks and applies new staging sizes, or rejects with IN_USE. -/
  | stageCommit (src : Source)
  /-- MEM_RUNTIME_FAIL (R132): A stack or channel losing PHY or training enters FAILED with an error record. -/
  | memRuntimeFail (dev : Nat)
  /-- DRIVE_LINK_UP (R141): A port link comes up with a drive present and initialisation begins. -/
  | driveLinkUp (d width gen : Nat)
  /-- DRIVE_INIT_DONE (R141): Drive initialisation completes and the drive enters READY or FAILED. -/
  | driveInitDone (d pairs : Nat) (id : Option DriveId)
  /-- DRIVE_INIT_TIMEOUT (R141): Initialisation exceeding 5 s fails the drive. -/
  | driveInitTimeout (d : Nat)
  /-- NVME_COMMAND_TIMEOUT (R141): A command exceeding 2 s aborts and resets the drive into RECOVER. -/
  | nvmeCommandTimeout (d : Nat)
  /-- DRIVE_RECOVER_DONE (R141): Re-initialisation returns the drive to READY or fails it. -/
  | driveRecoverDone (d : Nat) (id : Option (Nat × DriveId))
  /-- DRIVE_OFFLINE (R141): TIER_N_CTRL.OFFLINE set to 1 refuses new moves and shuts the drive down. -/
  | driveOffline (src : Source) (d : Nat)
  /-- DRIVE_ONLINE (R141): TIER_N_CTRL.OFFLINE set to 0 returns the drive to INIT. -/
  | driveOnline (src : Source) (d : Nat)
  /-- DRIVE_RESET (R141): TIER_N_CTRL.RESET resets a FAILED drive into INIT. -/
  | driveReset (src : Source) (d : Nat)
  /-- DRIVE_SURPRISE_DOWN (R141): Surprise link down completes outstanding commands with T2_ERROR and makes the drive ABSENT. -/
  | driveSurpriseDown (d : Nat)
  /-- SMART_POLL (R138): Every 60 s the health log of each READY drive is read into TIER_N_HEALTH. -/
  | smartPoll (d warn used temp : Nat)
  /-- NVME_COMPLETION (R137): An NVMe completion entry arrives for a tile mover command. -/
  | nvmeCompletion (ch : Nat) (ok : Bool) (env : Env)
  /-- TILE_SOURCE_READ_DONE (R154): Payload and side data are in the channel buffer; CRC is checked and destination writes are issued. -/
  | tileSourceReadDone (ch : Nat) (env : Env)
  /-- TILE_WRITES_ACKED (R154): Every payload write is acknowledged and the header is written last. -/
  | tileWritesAcked (ch : Nat) (ok : Bool)
  /-- T2_BODY_WRITE_DONE (R156): The first FUA Write completes and the header LBA is written. -/
  | t2BodyWriteDone (ch : Nat)
  /-- TILE_HEADER_WRITTEN (R154): The header write completes, INV runs if set, and the move completes. -/
  | tileHeaderWritten (ch : Nat) (ok : Bool)
  /-- TSP_INBOUND_TILE_TAKEN (R157): A waiting TSP-source descriptor takes the next inbound tile of its stream. -/
  | tspInboundTileTaken (ch : Nat)
  /-- COMPLETION_RECORD_PERFORMED (R620): A completion record write is performed, HIF_CQ_TAIL advances and VEC is raised under R622. -/
  | completionRecordPerformed (p q : Nat) (ok : Bool)
  /-- PHASE_COMPLETE (R171): The last results of a phase are written and the cursor advances. -/
  | phaseComplete (n : Nat) (env : Env)
  /-- SPEC_ROUTING_DONE (R203): Speculative routing finishes and expert tiles for the union are issued. -/
  | specRoutingDone (n : Nat) (guess : List (List Nat))
  /-- CUR_MATCH_ARM (R225): CUR_MATCH_CTRL.EN written 1 arms the match, raising at once if already satisfied. -/
  | curMatchArm (src : Source) (n vec : Nat)
  /-- LOAD (R281): DA_CMD LOAD reads and checks a program and moves it to LOADING. -/
  | loadProgram (src : Source) (n part : Nat) (env : Env)
  /-- START (R178): DA_CMD START makes a PARKED program schedulable. -/
  | startProgram (src : Source) (n part : Nat)
  /-- PARK (R178): DA_CMD PARK parks the program at its next step boundary. -/
  | parkProgram (src : Source) (n part : Nat)
  /-- UNLOAD (R178): DA_CMD UNLOAD frees staging and empties the program. -/
  | unloadProgram (src : Source) (n part : Nat)
  /-- ADMIT (R290): DA_CMD ADMIT copies a sequence entry into a slot. -/
  | admitSeq (src : Source) (n part slot : Nat) (env : Env)
  /-- REMOVE (R287): DA_CMD REMOVE frees a sequence slot. -/
  | remove (src : Source) (n part slot : Nat)
  /-- DA_CMD_RESERVED_OP (R326): A DA_CMD with a reserved OP completes with ENCODING. -/
  | daCmdReservedOp (src : Source) (op : Nat)
  /-- ARRAY_GRANT (R309): An idle array is granted to a program and its next item starts. -/
  | arrayGrant (a : Nat) (env : Env)
  /-- ITEM_COMPLETE (R312): An item finishes and sends its partials and flags to the owning combiner. -/
  | itemComplete (a : Nat) (hw : RunHw)
  /-- ITEM_OVERTIME (R315): An item exceeding twice its phase median gets one duplicate on an idle array. -/
  | itemOvertime (a : Nat) (env : Env)
  /-- RESTORE (R319): DA_ARR_CTRL.RESTORE sweeps a SLOW array. -/
  | restore (src : Source) (a : Nat)
  /-- ARRAY_OFFLINE (R319): DA_ARR_CTRL.OFFLINE written 1 takes the array out of the pool after its item. -/
  | arrayOffline (src : Source) (a : Nat)
  /-- ARRAY_ONLINE (R319): DA_ARR_CTRL.OFFLINE written 0 returns the array to POOL. -/
  | arrayOnline (src : Source) (a : Nat)
  /-- RING_HEAD_WRITE (R294): DA_PROG_RING_HEAD advance frees ring room and releases a RING_WAIT park. -/
  | ringHeadWrite (src : Source) (n v : Nat)
  /-- SCOOP_ROW_RETURN (R331): A row read returns and is written to its destination. -/
  | scoopRowReturn (g : Nat) (env : Env)
  /-- SCOOP_COMMAND_COMPLETE (R352): A Scoop command completes with its status and FAIL_INDEX. -/
  | scoopCommandComplete (g : Nat) (env : Env)
  /-- DEFINE (R339): SCP_CMD DEFINE reads and stages a table descriptor. -/
  | define (src : Source) (t part : Nat) (env : Env)
  /-- FLIP (R341): SCP_CMD FLIP activates the staged bank and drops replicas. -/
  | flip (src : Source) (t part : Nat) (inv : Bool)
  /-- RETIRE (R347): SCP_CMD RETIRE clears VALID and STAGED of a table. -/
  | retire (src : Source) (t part : Nat)
  /-- SCP_CMD_RESERVED_OP (R377): An SCP_CMD with a reserved OP completes with ENCODING. -/
  | scpCmdReservedOp (src : Source) (op : Nat)
  /-- TABLE_OLD_DRAINED (R344): The last command of the previous bank completes; OLD_DRAINED becomes 1 and a retired table becomes free. -/
  | tableOldDrained (t : Nat)
  /-- REPLICA_INSTALL_DONE (R362): An install attempt returns and the slot becomes VALID or FREE. -/
  | replicaInstallDone (h j : Nat)
  /-- SCOOP_ENGINE_FAIL (R369): A failed engine's commands restart from entry 0 on another engine. -/
  | scoopEngineFail (g : Nat) (env : Env)
  /-- SCP_REPL_COMMIT (R376): SCP_REPL_COMMIT evicts all replicas and applies the new replica pool, or rejects. -/
  | scpReplCommit (src : Source)
  /-- ACQUIRE_POLL (R406): At most 500 ns later the flag is read again and compared. -/
  | acquirePoll (p q : Nat) (env : Env)
  /-- ACQUIRE_WAIT_TIMEOUT (R406): TIMEOUT_US elapses and the entry completes with TIMEOUT. -/
  | acquireWaitTimeout (p q : Nat)
  /-- INV_COMPLETE (R400): No line of the range remains and the invalidate completes. -/
  | invComplete (p q : Nat)
  /-- BAR2_WRITE (R412): A host BAR2 write reaches its home in order, or is refused. -/
  | bar2Write (x : Nat) (d : List Byte) (poisoned : Bool)
  /-- BAR2_READ (R413): A host BAR2 read returns after earlier BAR2 writes are performed. -/
  | bar2Read (x n : Nat)
  /-- BAR2_ATOMIC (R591): A PCIe atomic to BAR2 is performed at the home. -/
  | bar2Atomic (x atop : Nat) (d : List Byte)
  /-- SNOOP_TIMEOUT (R443): A snoop without response for 100 µs detects a dead agent and collapses the domain. -/
  | snoopTimeout (k slot : Nat)
  /-- COLLAPSE (R444): COH_DOM_CTRL.COLLAPSE collapses an UP domain. -/
  | collapse (src : Source)
  /-- REINIT (R448): COH_DOM_CTRL.REINIT poisons owned lines and clears the domain's directory. -/
  | reinit (src : Source)
  /-- COH_COMMIT (R450): COH_COMMIT checks and applies the coherence group. -/
  | cohCommit (src : Source)
  /-- YL_CFG_COMMIT (R507): YL_CFG_COMMIT locks the link configuration and enabled links leave DISABLED. -/
  | ylCfgCommit (src : Source)
  /-- DETECT_SIGNAL (R461): Signal on both receive lanes moves a link to EQUALIZE. -/
  | detectSignal (l : Nat)
  /-- DETECT_ONE_LANE_TIMEOUT (R461): Signal on one lane for 10 ms trains that lane alone. -/
  | detectOneLaneTimeout (l lane : Nat)
  /-- EQUALIZE_CONVERGED (R461): Equalisation converges and the link enters LOCK. -/
  | equalizeConverged (l : Nat)
  /-- EQUALIZE_TIMEOUT (R461): No convergence in 100 ms fails the link with TRAIN. -/
  | equalizeTimeout (l : Nat)
  /-- LOCK_ACHIEVED (R461): Alignment and codeword lock move the link to NEGOTIATE. -/
  | lockAchieved (l : Nat)
  /-- LOCK_TIMEOUT (R461): No lock within 1 ms fails the link with LOCK. -/
  | lockTimeout (l : Nat)
  /-- NEGOTIATE_TIMEOUT (R462): NEGOTIATE beyond 100 µs fails with VERSION. -/
  | negotiateTimeout (l : Nat)
  /-- FLIT_RECEIVE (R482): A FLIT is decoded and accepted or discarded, and its link units take effect. -/
  | flitReceive (l : Nat) (b : List Byte) (uncorrectable : Bool) (cw s0 s1 : Nat)
  /-- ACK_TIMER (R482): The 100 ns or 16-FLIT acknowledgement limit sends an ACK. -/
  | ackTimer (l : Nat)
  /-- NAK_REPEAT (R483): Every 200 ns the NAK LCW is repeated until the expected FLIT arrives. -/
  | nakRepeat (l : Nat)
  /-- RECEIVE_LANE_LOSS (R492): A receive lane loses signal, lock or exceeds its SER and is dropped or faults the link. -/
  | receiveLaneLoss (l mask : Nat)
  /-- FLIT_ACCEPT_TIMEOUT (R486): No FLIT accepted for 1 µs is a link fault. -/
  | flitAcceptTimeout (l : Nat)
  /-- REPLAY_ACK_TIMEOUT (R486): A FLIT unacknowledged for 2 µs is a link fault. -/
  | replayAckTimeout (l : Nat)
  /-- RETRAIN (R486): YL_LINK_CTRL.RETRAIN faults an UP link or retries a FAILED one. -/
  | retrain (src : Source) (l : Nat)
  /-- FAST_RETRAIN_DONE (R461): A fast retrain passes or fails, returning the link or retrying or training fully. -/
  | fastRetrainDone (l : Nat) (ok : Bool) (caps : List Nat) (lane : Nat)
  /-- FAILED_RETRY (R461): After 10 s with RETRY_EN a FAILED link returns to DETECT. -/
  | failedRetry (l : Nat)
  /-- LINK_DISABLE (R461): YL_LINK_CTRL.DISABLE written 1 hands back and holds the link DISABLED. -/
  | linkDisable (src : Source) (l : Nat)
  /-- LINK_DISABLE_CLEAR (R461): DISABLE written 0 lets an enabled link leave DISABLED. -/
  | linkDisableClear (src : Source) (l : Nat)
  /-- ONE_LANE_MARKER (R494): A marker of the one-lane stream gives provisional lock or confirms it. -/
  | oneLaneMarker (l : Nat) (ok : Bool)
  /-- LANE_DROP_LOCK_TIMEOUT (R494): No marker within 10 µs of LANE_DROP is a link fault. -/
  | laneDropLockTimeout (l : Nat)
  /-- LANE_TEST (R495): Once per second the dropped lane is tested and LANE_RESTORE sent if it holds. -/
  | laneTest (l : Nat) (hold : Bool) (ser0 ser1 : Nat)
  /-- REACH_PERIODIC (R497): Every 1 ms a REACH unit is sent on each peer link. -/
  | reachPeriodic (l : Nat)
  /-- REACH_STALE (R497): No REACH from a peer for 3 ms zeroes its map. -/
  | reachStale (l : Nat)
  /-- REACH_HOLD (R496): A peer link UP for 1 ms sets its reach map bit. -/
  | reachHold (l : Nat)
  /-- DETOUR_PACKET (R500): A packet with a DETOUR prefix is delivered, forwarded or discarded at an intermediate. -/
  | detourPacket (l : Nat)
  /-- PACKET_INGRESS (R554): A packet enters the switch core, is buffered and sequenced or discarded. -/
  | packetIngress (l : Nat)
  /-- PACKET_EGRESS (R556): An egress port with credits chooses and sends its next packet. -/
  | packetEgress (l : Nat)
  /-- SRD (R526): An SRD runs a stamped read attempt or waiting read at the home. -/
  | srd (k stamp len : Nat)
  /-- RETX_TIMEOUT (R534): The oldest uncovered packet times out and the stream is resent. -/
  | retxTimeout (n vc : Nat)
  /-- SACK_TIMER (R532): Every 1 µs with arrivals a SACK is sent. -/
  | sackTimer (n vc : Nat)
  /-- TSP_DISABLE_CLEAR (R590): TSP_PORT_CTRL.DISABLE written 0 starts training. -/
  | tspDisableClear (src : Source) (t : Nat)
  /-- TSP_DISABLE (R590): DISABLE written 1 completes waiting descriptors with TSP_DOWN and disables the port. -/
  | tspDisable (src : Source) (t : Nat)
  /-- TSP_TRAIN_DONE (R590): Lanes lock within the limits and the port negotiates. -/
  | tspTrainDone (t lanes : Nat)
  /-- TSP_TRAIN_TIMEOUT (R590): A training limit is exceeded and the port fails. -/
  | tspTrainTimeout (t : Nat) (lock : Bool)
  /-- TSP_NEGOTIATE_TIMEOUT (R578): Negotiation beyond its limit fails the port with VERSION. -/
  | tspNegotiateTimeout (t : Nat)
  /-- TSP_FLIT_RECEIVE (R573): A port FLIT is accepted and its TCW and CAPS units take effect. -/
  | tspFlitReceive (t : Nat) (b : List Byte) (uncorrectable : Bool)
  /-- TILE (R588): A whole inbound TILE unit is held in the receive buffer or discarded as duplicate. -/
  | tileUnit (t : Nat)
  /-- TSP_TILE_SEND (R585): The port sends the next ready tile with credits, round robin by stream. -/
  | tspTileSend (t : Nat)
  /-- TSP_LANE_LOSS (R579): A lost receive lane moves the direction to two-lane mode or faults the port. -/
  | tspLaneLoss (t mask : Nat)
  /-- TSP_RECOVER_DONE (R590): Recovery passes and unacknowledged tiles are resent, or the port fails. -/
  | tspRecoverDone (t : Nat) (ok : Bool) (caps : List Nat) (lanes : Nat)
  /-- TSP_RETRY (R590): After 10 s or RETRAIN a FAILED port trains again. -/
  | tspRetry (src : Option Source) (t : Nat)
  /-- TSP_REFCLK_LOSS (R572): Loss of a pair reference takes both ports to TRAIN with REFCLK. -/
  | tspRefclkLoss (k : Nat)
  /-- TSP_REFCLK_RETURN (R572): Return of the pair reference lets both ports train. -/
  | tspRefclkReturn (k : Nat)
  /-- TSP_PORT_COMMIT (R613): TSP_PORT_COMMIT checks and stages stream credits for the next NEGOTIATE. -/
  | tspPortCommit (src : Source) (t : Nat)
  /-- PERST_RELEASE (R595): Release of perst_n starts the configuration-lock window. -/
  | perstRelease (gen width : Nat)
  /-- VF_FLR (R596): Function Level Reset of VF p + 1 resets partition p. -/
  | vfFlr (p : Nat) (env : Env)
  /-- VF_ENABLE (R594): The first VF Enable write after perst_n fixes NumVFs. -/
  | vfEnable (n : Nat)
  /-- PCIE_CPL_TIMEOUT (R593): A host read request meets its completion timeout and the access errors. -/
  | pcieCplTimeout (ch : Option Nat) (row : Option (Nat × Nat))
  /-- SQ_DOORBELL (R602): A write of HIF_SQ_TAIL announces entries or is ignored with DB_ERR. -/
  | sqDoorbell (src : Source) (p q v : Nat)
  /-- QUEUE_FETCH (R604): A fetched entry is dispatched by OP when completion room allows. -/
  | queueFetch (p : Nat) (env : Env)
  /-- SQ_ENABLE (R608): EN changed 0 to 1 resets the queue indices and starts fetching. -/
  | sqEnable (src : Source) (p q : Nat) (v : Word)
  /-- SQ_DISABLE (R608): EN written 0 stops fetching. -/
  | sqDisable (src : Source) (p q : Nat) (v : Word)
  /-- RESUME (R605): HIF_SQ_CTRL.RESUME refetches the bad entry. -/
  | resume (src : Source) (p q : Nat)
  /-- RESUME_SKIP (R605): RESUME with SKIP steps past the bad entry. -/
  | resumeSkip (src : Source) (p q : Nat)
  /-- CQ_HEAD_WRITE (R622): A write of HIF_CQ_HEAD frees records and rearms the completion vector. -/
  | cqHeadWrite (src : Source) (p q v : Nat)
  /-- MSIX_UNMASK (R624): Unmasking a pending vector sends one message and clears its pending bit. -/
  | msixUnmask (src : Source) (fn vec : Nat)
  /-- PARTITION_RESET (R641): A partition reset request stops issue, aborts faults and enters DRAINING. -/
  | partitionReset (src : Source) (p : Nat) (env : Env)
  /-- PARTITION_DRAINED (R641): No work of the partition remains and it enters CLEARING. -/
  | partitionDrained (p : Nat)
  /-- PARTITION_DRAIN_TIMEOUT (R645): At 10 ms remaining work is ended and TIMEOUT set. -/
  | partitionDrainTimeout (p : Nat) (env : Env)
  /-- PARTITION_CLEARED (R649): Page registers reset, LAST_US written and PTN_RST_VEC raised. -/
  | partitionCleared (p : Nat) (env : Env)
  /-- QOS_COMMIT (R636): QOS_COMMIT checks and applies shares, caps and traffic classes. -/
  | qosCommit (src : Source)
  /-- MR_ENABLE (R628): PTN_MR_CTRL.EN changed to 1 checks the ring and resets its indices. -/
  | mrEnable (src : Source) (p r : Nat) (v : Word)
  /-- MR_HEAD_WRITE (R626): A write of PTN_MR_HEAD frees slots and rearms the ring vector. -/
  | mrHeadWrite (src : Source) (p r v : Nat)
  /-- MR_RECORD_PERFORMED (R626): A message record is performed, PTN_MR_TAIL advances and VEC is raised. -/
  | mrRecordPerformed (p r : Nat)
  /-- ENGINE_RESET (R650): RST_ENGINE starts a single-engine reset. -/
  | engineReset (src : Source) (cls inst : Nat) (env : Env)
  /-- ENGINE_FAILURE (R650): An engine failure makes the controller start a single-engine reset. -/
  | engineFailure (cls inst : Nat) (env : Env)
  /-- ENGINE_RESET_DONE (R650): The single-engine reset completes and the engine's work continues. -/
  | engineResetDone (cls inst : Nat) (env : Env)
  /-- ARBITRATION_RUN_DONE (R673): An arbitration run completes and the result and charge are decided. -/
  | arbitrationRunDone (a : Nat) (hw : RunHw)
  /-- UNCOMPARED_TIMEOUT (R671): A duplicate not complete after 4 medians is abandoned uncompared. -/
  | uncomparedTimeout (a : Nat)
  /-- TASTER_SLOT_DONE (R685): A slot's results are compared and a mismatch arbitrated. -/
  | tasterSlotDone (a res : Nat)
  /-- RETEST_SLOT_DONE (R680): A retest slot ends, confirming, retiring or clearing the array. -/
  | retestSlotDone (a res : Nat)
  /-- RETEST_TIMEOUT (R680): 1 s without a retest slot counts as a passing slot. -/
  | retestTimeout (a : Nat)
  /-- SWEEP (R687): TST_SWEEP_CTRL starts a full sweep of a half's pool arrays. -/
  | sweep (src : Source) (v : Word)
  /-- SWEEP_STAGE_END (R687): A 30 s sweep stage ends and the next starts or the sweep reports. -/
  | sweepStageEnd (k : Nat) (charged : List Nat)
  /-- ERR_RING_HEAD_WRITE (R697): A write of ERR_RING_HEAD frees slots and rearms VEC. -/
  | errRingHeadWrite (src : Source) (v : Nat)
  /-- CNT_COMMIT (R700): CNT_COMMIT locks continuity settings and pairing begins. -/
  | cntCommit (src : Source)
  /-- MIRROR_PUSH_DONE (R707): All pushes of a step are performed and bank entries are written. -/
  | mirrorPushDone (n : Nat)
  /-- MIRROR_BANK_WRITTEN (R707): Bank entries are performed and the region header is written. -/
  | mirrorBankWritten (n : Nat)
  /-- MIRROR_COMMITTED (R707): The header write is performed, committing the step and releasing a mirror-wait park. -/
  | mirrorCommitted (n : Nat)
  /-- SEQUENCE_COPY_DONE (R708): A sequence's initial KV copy to the partner is performed. -/
  | sequenceCopyDone (n slot : Nat)
  /-- TAKEOVER (R716): CNT_CTRL.TAKEOVER declares the partner lost. -/
  | takeover (src : Source) (confirm : Nat)
  /-- RESTART (R702): CNT_CTRL.RESTART moves ALONE to PAIRING. -/
  | restart (src : Source) (confirm : Nat)
  /-- FROZEN_POLL (R721): The region header is polled until FROZEN is 1. -/
  | frozenPoll (n : Nat) (env : Env)
  /-- DELTA_PULL_DONE (R721): The delta pull completes, the program is admitted and started, and HANDBACK_DONE sent. -/
  | deltaPullDone (n : Nat) (env : Env)
  /-- LEASE_RENEW (R734): Every 10 µs the leading half renews the lease. -/
  | leaseRenew (h : Half) (epoch : Nat)
  /-- OPEN (R788): A mailbox OPEN opens the mailbox session. -/
  | openSession (reqId : Nat)
  /-- HANDSHAKE_TIMEOUT (R780): A handshake without AUTH within 2 s is discarded. -/
  | handshakeTimeout (k : Nat)
  /-- SESSION_IDLE_TIMEOUT (R784): A session without an accepted datagram for 60 s closes. -/
  | sessionIdleTimeout (k : Nat)
  /-- MBX_DOORBELL (R787): MGT_MBX_DOORBELL performs the mailbox request and raises VEC. -/
  | mbxDoorbell (src : Source) (v : Word) (env : Env)
  /-- MGT_NET_COMMIT (R762): MGT_NET_COMMIT applies network settings and closes network sessions. -/
  | mgtNetCommit (src : Source)
  /-- MGT_ANCHOR_COMMIT (R762): MGT_ANCHOR_COMMIT applies anchor slots and closes affected sessions. -/
  | mgtAnchorCommit (src : Source)
  /-- MGT_DELEG_COMMIT (R764): MGT_DELEG_COMMIT applies delegation ranges and changes ownership. -/
  | mgtDelegCommit (src : Source)
  /-- COMP (R802): A COMP message records a change of a metered value. -/
  | compMsg (p c : Nat)
  /-- TOKENS (R802): A TOKENS message adds records to a partition's count. -/
  | tokensMsg (p : Nat)
  /-- SCL_OFFER (R815): An SCL_OFFER chunk is accepted or ignored; the last starts verification. -/
  | sclOffer (src : Source) (off tot : Nat) (data : List Byte)
  /-- OFFER_VERIFY_DONE (R815): Offer verification accepts or rejects the offer. -/
  | offerVerifyDone (sigOk : Bool) (kind version : Nat) (meter : List Byte) (classes : Nat)
  /-- MEMORY_TRAINED (R824): The half's memory training ends and the half becomes UP. -/
  | memoryTrained (h : Half) (badCh badSt rate dimm : Nat) (same : Bool) (ew we : Nat)
  /-- SERDES_DONE (R824): The half's SerDes calibration ends. -/
  | serdesDone (h : Half) (failed : Nat)
  /-- BOOT_SVN_COMMIT (R841): BOOT_SVN_COMMIT raises the RPMC counter to the running SVN. -/
  | bootSvnCommit (src : Source) (v : Word)
  /-- FW_OFFER (R840): A firmware offer chunk is written into the unused slot. -/
  | fwOffer (src : Source) (off tot : Nat) (data : List Byte)
  /-- BOOT_TIME_SYNC (R844): A SYNC write latches device time at its frame. -/
  | bootTimeSync (src : Source) (n : Nat)
  /-- BOOT_TIME_FOLLOW (R844): A matching FOLLOW supplies t1 and forms a time sample. -/
  | bootTimeFollow (src : Source) (n t1 : Nat)
  /-- BOOT_TIME_HOST (R844): A host UTC write forms a time sample. -/
  | bootTimeHost (src : Source) (u : Word)
  /-- ATTEST_NONCE (R838): A nonce write starts an attestation report. -/
  | attestNonce (src : Source) (host : Bool) (nonce : List Byte)
  /-- PERSIST_NOW (R850): LIFE_CTRL.PERSIST_NOW writes a snapshot. -/
  | persistNow (src : Source)
  /-- SHUTDOWN (R852): LIFE_CTRL.SHUTDOWN parks programs, snapshots and cuts Scale's SHUTDOWN record. -/
  | shutdown (src : Source) (confirm : Nat)
  /-- LIFE_SERVICE_ADD (R850): A service record is added and a snapshot written. -/
  | lifeServiceAdd (src : Source) (v : Word)
  /-- PMBUS_POLL (R863): Every 2 ms regulator voltage and current are read into the sensor entries. -/
  | pmbusPoll (rails : List (Option (Nat × Nat)))
  /-- SENSOR_READ (R872): Every 10 µs junction sensors are read and Tj formed. -/
  | sensorRead (dies : List Int)
  /-- QUAD_REFCLK_LOSS (R44): Loss of a SerDes quad reference takes both links of that quad down, to be repaired as a link failure. -/
  | quadRefclkLoss (io q : Nat)
  /-- REGISTER_READ (R222): A host BAR0 or VF page read with behaviour of its own: a 32-bit low-half read latches the high half, and a misaligned or wrong-size read is answered Unsupported Request and counted in HIF_BAR0_BAD. -/
  | registerRead (src : Source) (off size : Nat)
  /-- DROPPED_FRAME (R785): A management-segment frame or datagram with an FCS error, of another protocol, unauthenticated, or beyond rate limits is dropped and counted. -/
  | droppedFrame (why : Nat)
  /-- COLD_RESET_ASSERT (R639): cold_rst_n driven low performs a package cold reset of everything. -/
  | coldResetAssert
  /-- SYSREF_LOSS (R45): Loss of the 25 MHz system reference holds the controller in package cold reset. -/
  | sysrefLoss
  /-- SYSREF_RETURN (R45): Return of the system reference releases the held package cold reset. -/
  | sysrefReturn
  /-- HALF_RESET_TIMEOUT (R46): A half not out of RESETTING within 2 s enters FAILED with an error record. -/
  | halfResetTimeout (h : Half)
  /-- CURSOR_DELIVERY (R58): A cursor update reaches a subscriber in its own or the other half and fires events keyed to it. -/
  | cursorDelivery (h : Half)
  /-- MGMT_FAULT_SERVICE (R882): Management firmware records and aborts a context-128 fault within 100 µs. -/
  | mgmtFaultService (env : Env)
  /-- SCRUB_READ (R129): The scrub timer reads a codeword and writes back corrections or poison. -/
  | scrubRead (off : Nat) (err : List Byte)
  /-- COPY_TILE (R154): A COPY_TILE descriptor starts on a channel, checks extents and reads the source header. -/
  | copyTile (fw : List Byte) (env : Env)
  /-- COPY_RAW (R150): A COPY_RAW descriptor starts on a channel and moves exact bytes. -/
  | copyRaw (fw : List Byte) (env : Env)
  /-- PROOFER_MOVE_COMPLETE (R199): A Proofer move completes and the tile becomes present or is re-issued from the next source. -/
  | prooferMoveComplete
  /-- STAGING_SPACE_RELEASE (R196): The last array read of a freed tile completes and its space becomes reusable. -/
  | stagingSpaceRelease
  /-- PARTIALS_ARRIVE (R312): Partials from the other half arrive at the owning combiner across the bridge. -/
  | partialsArrive (h : Half)
  /-- GATHER (R349): A GATHER command latches its table bank and issues row reads in list order. -/
  | gather (fw : List Byte) (env : Env)
  /-- ROW_UPDATE (R355): A ROW_UPDATE reads its source row and sends the update to the row's home. -/
  | rowUpdate (fw : List Byte) (env : Env)
  /-- ATTEMPT_READ_RETURN (R358): A stamp or row read of a stamped attempt returns at the home and the next read is issued. -/
  | attemptReadReturn (id : Nat)
  /-- WAITING_READ_RELEASE (R359): No update of the row remains and the home runs the held waiting read. -/
  | waitingReadRelease (id : Nat)
  /-- UPDATE_STAMP_ACKED (R355): The odd stamp write is acknowledged and replica invalidations are sent. -/
  | updateStampAcked (id : Nat) (ok : Bool)
  /-- UPDATE_INVALIDATES_ACKED (R355): All replica invalidations are acknowledged and the row is written. -/
  | updateInvalidatesAcked (id : Nat)
  /-- UPDATE_ROW_ACKED (R355): The row write is acknowledged and the even stamp is written. -/
  | updateRowAcked (id : Nat) (ok : Bool)
  /-- UPDATE_FINAL_STAMP_ACKED (R355): The final stamp write is acknowledged and the update completes. -/
  | updateFinalStampAcked (id : Nat) (ok : Bool)
  /-- HOT_COUNT_DECAY (R361): Each DECAY_US the counting table's counts are halved. -/
  | hotCountDecay (h : Half)
  /-- RELEASE_WRITE (R405): A RELEASE_WRITE entry writes its flag as a release store after earlier entries. -/
  | releaseWrite
  /-- ACQUIRE_WAIT (R406): An ACQUIRE_WAIT entry reads its flag as an acquire load and compares. -/
  | acquireWait (env : Env)
  /-- FENCE (R408): A FENCE entry performs a fence at its scope after earlier entries. -/
  | fenceEntry
  /-- INV (R409): An INV entry translates its range and invalidates engine-cache lines. -/
  | invRange
  /-- RDSHARED (R431): A RdShared request is served at the home. -/
  | rdshared (q : InboxRead)
  /-- RDOWN (R431): A RdOwn request is served at the home. -/
  | rdown (k : Nat)
  /-- UPGRADE (R431): An Upgrade request is served at the home. -/
  | upgrade (k : Nat)
  /-- WBDATA (R439): A WbData arrives at the home and ends the agent's ownership. -/
  | wbdata (k : Nat)
  /-- EVICTCLEAN (R440): An EvictClean arrives at the home and is acknowledged. -/
  | evictclean (k : Nat)
  /-- SNOOP_ACK (R433): A snoop response Ack arrives; after the last, the grant Ack is sent. -/
  | snoopAck (k : Nat)
  /-- SNPRESPWBPENDING (R439): A SnpRespWbPending arrives and the home awaits the WbData. -/
  | snprespwbpending (k : Nat)
  /-- FWDDATA (R436): FwdData arrives at the home acting as requester for a non-coherent read. -/
  | fwddata (k : Nat)
  /-- REINIT_DONE (R444): The directory is cleared and the domain returns to UP. -/
  | reinitDone
  /-- MIRROR_RECORD_PERFORMED (R562): A capture record write is performed and SWC_MIR_TAIL advances. -/
  | mirrorRecordPerformed
  /-- RD (R521): A RD request is served at the home or control window. -/
  | rd (q : InboxRead)
  /-- WR (R521): A WR request is performed at the home, including doorbell and mirror effects. -/
  | wr (k : Nat) (env : Env)
  /-- ATOM (R523): An ATOM request is performed at the home. -/
  | atom (k : Nat)
  /-- FENCE_REQUEST (R524): A FENCE packet is answered after earlier requests of its stream are performed. -/
  | fenceRequest (k : Nat)
  /-- SUPD (R527): A SUPD part is collected; the last starts the update at the home. -/
  | supd (k stamp : Nat)
  /-- RINV (R528): A RINV invalidates the holder's replica slot and is acknowledged. -/
  | rinv (k : Nat)
  /-- RDEREG (R528): An RDEREG removes the sender as a holder of the row. -/
  | rdereg (k : Nat)
  /-- MSG (R545): A MSG is written into its message ring or refused, and answered with MSG_ACK. -/
  | msg (k : Nat)
  /-- MGMT_SYNC (R536): A received SYNC resets every stream with that node. -/
  | mgmtSync (k : Nat)
  /-- MGMT_COLLAPSE (R446): A received collapse notice collapses the domain. -/
  | mgmtCollapse (k : Nat)
  /-- MGMT_TELEMETRY (R519): A TELEMETRY management packet is received. -/
  | mgmtTelemetry (k : Nat)
  /-- SACK (R533): A SACK covers packets of a stream in the retransmission store. -/
  | sack (k : Nat)
  /-- RD_DATA (R520): A read response completes the engine access with data, poison or error. -/
  | rdData (k : Nat)
  /-- WR_ACK (R537): A write response completes the access and counts toward waiting fences. -/
  | wrAck (k : Nat)
  /-- ATOM_DATA (R523): An atomic response returns the old value. -/
  | atomData (k : Nat)
  /-- FENCE_ACK (R537): A fence response arrives at the issuer. -/
  | fenceAck (k : Nat)
  /-- SRD_DATA (R359): A stamped read part returns; a failed attempt is retried or becomes a waiting read. -/
  | srdData (k : Nat)
  /-- SUPD_ACK (R527): A row update response completes the ROW_UPDATE. -/
  | supdAck (k : Nat)
  /-- RINV_ACK (R355): A holder acknowledges a replica invalidation. -/
  | rinvAck (k : Nat)
  /-- MSG_ACK (R546): A MSG_ACK completes the message send with its status. -/
  | msgAck (k : Nat)
  /-- MSG_ACK_TIMEOUT (R546): No MSG_ACK within 1 ms completes the send with UNREACHABLE. -/
  | msgAckTimeout (tag : Nat)
  /-- PERST_ASSERT (R596): Assertion of perst_n resets every partition and HIF_BAR2_MAP. -/
  | perstAssert (env : Env)
  /-- HOST_LINK_LOSS (R596): Loss of the host link resets every partition. -/
  | hostLinkLoss (env : Env)
  /-- PF_FLR (R596): Function Level Reset of the PF resets every partition. -/
  | pfFlr (env : Env)
  /-- CONFIG_REQUEST (R595): A PCIe configuration request is answered, with RRS until locked. -/
  | configRequest (relaxed : Option Bool)
  /-- VEC_CFG_LOCK_TIMEOUT (R595): 900 ms after perst_n release HIF_VEC_CFG locks with its held values. -/
  | vecCfgLockTimeout
  /-- CSUM_RECOMPUTE_DONE (R675): The Taster's recomputed checksum decides a tie or halts the program. -/
  | csumRecomputeDone
  /-- TASTER_IDLE_SLOT (R683): With no program running, each Taster takes a slot every 10 µs. -/
  | tasterIdleSlot
  /-- ERR_RING_WRITE_DONE (R693): An error ring write completes, advancing the tail or clearing EN. -/
  | errRingWriteDone (ok : Bool)
  /-- CORR_HOUR_ROLLOVER (R658): Per-device hourly corrected counts restart. -/
  | corrHourRollover
  /-- PAIRING_READ_DONE (R701): The partner's CNT block read returns and pairing passes or waits. -/
  | pairingReadDone (env : Env)
  /-- PAIRING_RETRY (R701): Every 100 ms the partner is read again. -/
  | pairingRetry
  /-- PARTNER_LOSS_TIMER (R716): The partner absent with no detour for LOSS_US is declared lost and takeover runs. -/
  | partnerLossTimer
  /-- PEER_TAKEOVER (R719): The partner's TAKEOVER command takes over the named programs. -/
  | peerTakeover
  /-- HANDBACK_REQ (R723): HANDBACK_REQ parks the shadow program and commits it FROZEN. -/
  | handbackReq
  /-- HANDBACK_DONE (R723): HANDBACK_DONE removes returned sequences and the region reverts to mirror use. -/
  | handbackDone
  /-- RETURN_SWEEP_DONE (R721): The return sweep ends and the bulk pull starts, or the state becomes ALONE. -/
  | returnSweepDone (env : Env)
  /-- BULK_PULL_DONE (R721): The bulk pull completes and HANDBACK_REQ is sent. -/
  | bulkPullDone (env : Env)
  /-- HANDOFF_MIRROR_WRITTEN (R728): The handoff mirror write is performed and ATOM_DATA is sent. -/
  | handoffMirrorWritten
  /-- LEASE_EXPIRY (R732): The lease expires 30 µs after renewal and is granted to a standing request. -/
  | leaseExpiry
  /-- DISCOVER (R775): A DISCOVER datagram is answered with DISCOVER_REPLY. -/
  | discover (d : Dgram)
  /-- HELLO (R780): A HELLO starts a handshake answered with HELLO_REPLY. -/
  | helloMsg (d : Dgram)
  /-- AUTH (R780): AUTH verifies the manager credential and opens a session with a role. -/
  | authMsg (d : Dgram) (sigOk prov : Bool)
  /-- READ (R776): A JXV-M READ returns the listed entries. -/
  | readEntries (d : Dgram) (env : Env)
  /-- WRITE (R777): A JXV-M WRITE applies its items in order. -/
  | writeEntries (d : Dgram) (env : Env)
  /-- COMMIT (R756): A JXV-M COMMIT commits a group. -/
  | commitGroup (d : Dgram) (env : Env)
  /-- DISCARD (R760): A JXV-M DISCARD copies active values into staged values. -/
  | discardGroup (d : Dgram) (env : Env)
  /-- DESCRIBE (R744): A JXV-M DESCRIBE returns entry descriptors. -/
  | describeEntries (d : Dgram) (env : Env)
  /-- SAVE (R795): A JXV-M SAVE starts writing the configuration image to flash. -/
  | saveConfig (d : Dgram) (env : Env)
  /-- SAVE_FLASH_DONE (R795): Erase, program and read-back finish and SAVE_RSP is sent. -/
  | saveFlashDone (ok : Bool)
  /-- KEEPALIVE (R784): A KEEPALIVE keeps a session open. -/
  | keepalive (d : Dgram) (env : Env)
  /-- CLOSE (R784): A CLOSE ends a session. -/
  | closeSession (d : Dgram) (env : Env)
  /-- FRAGMENT_TIMEOUT (R774): An incomplete fragmented message is discarded after 500 ms. -/
  | fragmentTimeout (k : Nat)
  /-- NEIGHBOR_SOLICITATION (R772): An ICMPv6 Neighbor Solicitation for the address is answered. -/
  | neighborSolicitation (target : List Byte) (toMac : Bool)
  /-- ECHO_REQUEST (R772): An ICMPv6 Echo Request is answered. -/
  | echoRequest (target data : List Byte) (toMac : Bool)
  /-- DAD_COMPLETE (R772): Duplicate Address Detection ends and DUP is set if a duplicate was found. -/
  | dadComplete (duplicate : Bool)
  /-- BEACON_LOSS (R771): No BEACON for 2 ms falls back to CSMA/CD. -/
  | beaconLoss
  /-- BEACON_SEEN (R771): A BEACON is seen; two consecutive return to PLCA. -/
  | beaconSeen
  /-- COMMIT_SAFE_POINT (R758): An accepted commit's members take their snapshot values and BUSY clears. -/
  | commitSafePoint (idx sub : Nat)
  /-- TICK (R798): Each 1 ms tick adds class values to every partition total. -/
  | tick
  /-- RECORD_PERSISTED (R811): A signed record is persisted in Scale flash and copied to the mirror. -/
  | recordPersisted
  /-- TIME (R807): A TIME message disciplines Scale's tick length. -/
  | timeMsg (resid : Nat) (want : Int)
  /-- SCALE_TIME_TIMEOUT (R808): No TIME message for 10 s makes Scale FREE. -/
  | scaleTimeTimeout
  /-- OFFER_FLASH_DONE (R816): The offer image is written and read back, the counter persisted and the image installed. -/
  | offerFlashDone (ok : Bool)
  /-- SCALE_LOAD_DONE (R806): Scale firmware verification ends and Scale meters or fails. -/
  | scaleLoadDone (ok : Bool)
  /-- SCALE_SRAM_UNCORR (R803): An uncorrectable Scale SRAM codeword restarts Scale. -/
  | scaleSramUncorr
  /-- ROM_STAGE_DONE (R824): The ROM stage ends and the lease holder reads an image slot. -/
  | romStageDone (h : Half) (uds : Bool)
  /-- IMAGE_READ_DONE (R825): The image slot has been read and verification begins. -/
  | imageReadDone (h : Half) (a b : Option Img)
  /-- VERIFY_DONE (R823): Image verification ends; the half starts training or fails. -/
  | verifyDone (h : Half) (rpmc : Bool)
  /-- MEMORY_TIMEOUT (R830): MEMORY not finished within 5 s fails the half. -/
  | memoryTimeout (h : Half)
  /-- CONFIG_LOAD (R793): Once both halves finish SERDES the lease holder loads configuration and raises boot_done. -/
  | configLoad (env : Env)
  /-- FW_OFFER_VERIFY_DONE (R840): Verification of a completed firmware offer is reported in BOOT_OFFER. -/
  | fwOfferVerifyDone (written : Bool) (img : Option Img)
  /-- ATTEST_REPORT_READY (R838): The signed attestation report becomes readable. -/
  | attestReportReady (host : Bool)
  /-- LIFE_SNAPSHOT_TIMER (R850): Every 600 s the lease holder writes a life log snapshot. -/
  | lifeSnapshotTimer
  /-- SNAPSHOT_WRITE_DONE (R851): A snapshot write completes or fails with PERSIST_FAIL. -/
  | snapshotWriteDone (ok : Bool)
  /-- THROTTLE_STEP (R874): Every 100 µs the throttle duty steps down or up. -/
  | throttleStep
  /-- PROCHOT (R874): prochot_n low sets duty 1/8 in both halves. -/
  | prochot (low : Bool)
  /-- AVS_ADJUST (R864): At most every 100 µs the core setpoints are adjusted by VOUT_COMMAND. -/
  | avsAdjust (east west : Nat)
  /-- DEVICE_TIME_UNDISCIPLINED (R846): Device time leaves DISCIPLINED when no sample has been accepted for 4 s, clearing BOOT_TIME_STATUS.DISCIPLINED and the state carried to Scale. -/
  | deviceTimeUndisciplined
  deriving DecidableEq, Repr

end Sys2Proof
end

