-- ==== Sys2Proof/Machine/RegNames.lean ====
section
/-!
DEFINITION. The names of every register the spec lays out (one constructor each) and of every field of them.
Each group of names cites the rule of spec/ whose table lists it.
-/

namespace Sys2Proof.Machine

/-- Every register of the controller, under the spec's own name. A register that exists once per link, program,
context and so on is one name here; `inst` numbers its instances. -/
inductive Reg where
  -- R54
  | PKG_DEVICE_ID
  | PKG_IF_VERSION
  | PKG_LAYOUT_VERSION
  | PKG_NODE_ID
  | PKG_HALF_STATUS
  | PKG_IODIE_STATUS
  | PKG_BRIDGE_STATUS
  | PKG_DISCARD_CNT
  | PKG_BRIDGE_BYTES_EW
  | PKG_BRIDGE_BYTES_WE
  | PKG_BRIDGE_REPAIR_CNT
  | PKG_CLK_STATUS
  -- R113
  | XLT_CAPS
  | XLT_UNQUEUED
  | XLT_RLB_HIT
  | XLT_RLB_MISS
  | XLT_RES_MISS
  | XLT_CTL_REFUSED
  -- R114
  | XLT_TBL_SRC
  | XLT_TBL_COUNT
  | XLT_TBL_COMMIT
  | XLT_TBL_STATUS
  | XLT_POOL_BASE
  | XLT_POOL_PAGES
  | XLT_KEY
  -- R115
  | FLTQ_BASE
  | FLTQ_CTRL
  | FLTQ_STATUS
  | FLTQ_TAIL
  | FLTQ_HEAD
  | FLTQ_RESUME
  | FLTQ_QUEUE_FULL
  | FLTQ_BAD_RESUME
  | XLT_MIG_VA
  | XLT_MIG_GO
  | XLT_MIG_STATUS
  -- R166
  | TIER_CAPS
  | TIER_T0_STATUS
  | TIER_T1_STATUS
  | TIER_T2_STATUS
  | TIER_T1_INFO
  | TIER_T0_STAGE
  | TIER_T0_COMMIT
  | TIER_T0_CFG_STATUS
  | TIER_STAGE_REFUSED
  | TIER_SCRUB_CTRL
  | TIER_T0_BYTES_RD
  | TIER_T0_BYTES_WR
  | TIER_T1_BYTES_RD
  | TIER_T1_BYTES_WR
  | TIER_T2_BYTES_RD
  | TIER_T2_BYTES_WR
  | TIER_CORR_T0
  | TIER_CORR_T1
  | TIER_UNCORR
  | TIER_T2_TIMEOUT_CNT
  | TILE_BUSY
  | TILE_MOVES
  | TILE_ERR_CNT
  | TILE_CRC_CNT
  | TIER_T2WIN_BASE
  | TIER_T2WIN_COUNT
  -- R167
  | TIER_N_STATE
  | TIER_N_HEALTH
  | TIER_N_CAPACITY
  | TIER_N_CTRL
  | TIER_N_CMD_ERR
  -- R219
  | PRF_CAPS
  | PRF_CH_MASK
  | PRF_MOVES_ISSUED
  | PRF_REFETCH_CNT
  | PRF_REDIRECT_CNT
  | PRF_STAGE_FREE
  -- R220
  | CUR_VALUE
  | CUR_STATE
  | PRF_PROG_CFG
  | CUR_MATCH
  | CUR_MATCH_CTRL
  | PRF_LOAD_STATUS
  | PRF_HALT
  | PRF_SPEC_HIT
  | PRF_SPEC_MISS_TILES
  | PRF_SPEC_WASTE
  | PRF_STAGED_BYTES
  | PRF_STAGE_QUOTA
  | PRF_SPEC_QUOTA
  | PRF_STALL_CNT
  -- R323
  | DA_CAPS
  | DA_CMD
  | DA_CMD_ARG
  | DA_CMD_STATUS
  | DA_POOL_CNT
  | DA_REISSUE_CNT
  | DA_REISSUE_MISMATCH
  | DA_SLOW_CNT
  | DA_ITEMS_DONE
  | DA_BUSY_CYCLES
  -- R324
  | DA_PROG_DESC
  | DA_PROG_STATUS
  | DA_PROG_NUMSTAT
  | DA_PROG_ERR
  | DA_PROG_ITEMS
  | DA_PROG_TOKENS
  | DA_PROG_RING_TAIL
  | DA_PROG_RING_HEAD
  -- R325
  | DA_ARR_STATUS
  | DA_ARR_CTRL
  | DA_ARR_ITEMS
  | DA_ARR_REISSUES
  | DA_ARR_DETECT
  -- R375
  | SCP_CAPS
  | SCP_CMD
  | SCP_CMD_ARG
  | SCP_CMD_STATUS
  | SCP_HOT_CTRL
  | SCP_REPL_BASE_E
  | SCP_REPL_BASE_W
  | SCP_REPL_SLOTS
  | SCP_REPL_COMMIT
  | SCP_REPL_STATUS
  | SCP_STAMP_ODD_CNT
  | SCP_ROWS
  | SCP_RETRIES
  | SCP_WAITS
  | SCP_UPDATES
  | SCP_REPL_HITS
  | SCP_REPL_INSTALLS
  | SCP_ABANDON_CNT
  | SCP_OOR_CNT
  | SCP_ENG_STATUS
  | SCP_ENG_CTRL
  | SCP_ENG_LINES
  | SCP_TBL_STATUS
  -- R451
  | COH_CAPS
  | COH_CFG
  | COH_HOMES
  | COH_COMMIT
  | COH_CFG_STATUS
  | COH_DOM_STATUS
  | COH_DOM_CTRL
  | COH_DIR_OCC
  | COH_POISONED
  | COH_REQS
  | COH_SNOOPS
  | COH_BACKINV
  | COH_WBPEND_CNT
  | COH_REFUSED_CNT
  | COH_PROTO_CNT
  | COH_MEMBER
  | COH_WIN_BASE
  | COH_WIN_LEN
  -- R508
  | YL_CAPS
  | YL_RACK_ID
  | YL_CFG_COMMIT
  | YL_CFG_STATUS
  | YL_DETOUR_CFG
  | YL_DETOUR_DROP
  | YL_REACH
  | YL_DETOUR_ACTIVE
  | YL_LINK_UP
  -- R509
  | YL_LINK_CFG
  | YL_LINK_CTRL
  | YL_LINK_STATUS
  | YL_LINK_NEG
  | YL_LANE_STATUS
  | YL_RETRAIN_CNT
  | YL_FEC_CORR_CW
  | YL_FEC_SYM0
  | YL_FEC_SYM1
  | YL_FEC_UNCORR
  | YL_CRC_ERR
  | YL_REPLAY_CNT
  | YL_DEGRADE_CNT
  | YL_FAULT_CNT
  | YL_UNIT_ERR
  | YL_TX_FLITS
  | YL_RX_FLITS
  | YL_DETOUR_FWD
  | YL_CREDIT_STALL
  | YL_CREDIT_AVAIL
  -- R565
  | YT_CAPS
  | YT_RETX
  | YT_HDR_ERR
  | YT_SRC_ERR
  | YT_KEY_REFUSED
  | YT_NOT_MSG
  | YT_SEQ_DUP
  | YT_SEQ_WINDOW
  | YT_PKT_CRC
  | YT_UNREACH_CNT
  | YT_RETX_CNT
  | YT_PKTS_IN
  | YT_PKTS_OUT
  | YT_AGENT_HOME
  | YT_RKEY
  | YT_RKEY_BASE
  | YT_RKEY_LEN
  | YT_RKEY_CTRL
  | YT_RACK_ROUTE
  | SWC_CAPS
  | SWC_CFG
  | SWC_TC_WEIGHT
  | SWC_RSV
  | SWC_BUF_USED
  | SWC_CT_PKTS
  | SWC_SF_PKTS
  | SWC_PORT_MODE
  | SWC_MIR_BASE
  | SWC_MIR_SIZE
  | SWC_MIR_CTRL
  | SWC_MIR_PORTS_LO
  | SWC_MIR_PORTS_HI
  | SWC_MIR_TAIL
  | SWC_MIR_HEAD
  | SWC_MIR_DROP
  -- R612
  | TSP_CAPS
  | TSP_REF_STATUS
  | TSP_TILES_OUT
  | TSP_TILES_IN
  | HIF_CAPS
  | HIF_LINK_STATUS
  | HIF_BAR2_MAP
  | HIF_VEC_CFG
  | HIF_BAR0_BAD
  | HIF_BAR2_REFUSED
  | HIF_VEC_DROP
  | HIF_CPL_TIMEOUT
  -- R613
  | TSP_PORT_CTRL
  | TSP_PORT_STATUS
  | TSP_PORT_NEG
  | TSP_LANE_STATUS
  | TSP_PORT_COMMIT
  | TSP_CRED_STATUS
  | TSP_FAULT_CNT
  | TSP_DEGRADE_CNT
  | TSP_REPLAY_CNT
  | TSP_DUP_CNT
  | TSP_TX_BYTES
  | TSP_RX_BYTES
  | TSP_STREAM_CFG
  | TSP_STREAM_CRED
  | TSP_STREAM_STATUS
  -- R614
  | HIF_SQ_BASE
  | HIF_SQ_CTRL
  | HIF_SQ_STATUS
  | HIF_SQ_TAIL
  | HIF_SQ_HEAD
  | HIF_CQ_BASE
  | HIF_CQ_SIZE
  | HIF_CQ_TAIL
  | HIF_CQ_HEAD
  | HIF_SQ_DBADDR
  -- R651
  | PTN_CAPS
  | QOS_COMMIT
  | QOS_STATUS
  | RST_CTRL
  | RST_ENGINE
  | RST_STATUS
  | PTN_RST_VEC
  | PTN_DRAINING_LO
  | PTN_DRAINING_HI
  | QOS_T0
  | QOS_T1
  | QOS_FAB
  | QOS_DA
  | QOS_SCP
  | QOS_TC
  -- R652
  | PTN_ID
  | PTN_CTRL
  | PTN_STATUS
  | PTN_IRQ_DROP
  | PTN_RST_CNT
  | PTN_MR_BASE
  | PTN_MR_CTRL
  | PTN_MR_TAIL
  | PTN_MR_HEAD
  | PTN_MR_DROP
  -- R695
  | ERR_CAPS
  | ERR_CFG
  | ERR_LOG_SEQ
  | ERR_RING_BASE
  | ERR_RING_CTRL
  | ERR_RING_TAIL
  | ERR_RING_HEAD
  | ERR_RING_DROP
  | ERR_DETECT_CNT
  | ERR_ARB_CNT
  | ERR_CSUM_PATH_CNT
  | ERR_NODECIDE_CNT
  | ERR_UNCOMPARED
  | ERR_RESIDUE_CNT
  | ERR_POISON_RD
  | ERR_RETIRED
  | TST_CTRL
  | TST_STATUS
  | TST_SLOTS
  | TST_CYCLES
  | TST_MISMATCH
  | TST_RETEST_CNT
  | TST_SWEEP_CTRL
  -- R739
  | CNT_CAPS
  | CNT_CFG
  | CNT_MIRROR_BASE
  | CNT_MIRROR_SIZE
  | CNT_COMMIT
  | CNT_HOFF_BASE
  | CNT_HOFF_LEN
  | CNT_CFG_STATUS
  | CNT_STATE
  | CNT_CTRL
  | CNT_PEER_MASK
  | CNT_PEER_CMD
  | CNT_PROG_TAKEN
  | CNT_MIRROR_WAIT
  | CNT_MIRRORED
  | CNT_LEASE_STATUS
  | CNT_TAKEOVER_CNT
  | CNT_DOUBLE_LOSS_CNT
  | CNT_LEASE_REFUSED
  | CNT_HOFF_TIE_CNT
  | CNT_MIRROR_REFUSED
  | CNT_MIRROR_BYTES
  | CNT_PROG_MIR
  | CNT_SHADOW
  -- R797
  | MGT_CAPS
  | MGT_MBX_CTRL
  | MGT_MBX_DOORBELL
  | MGT_MBX_STATUS
  | MGT_REFUSE_LAST
  | MGT_CFG_STATUS
  | MGT_REFUSE_CNT
  | MGT_NET_MAC
  | MGT_NET_PLCA
  | MGT_NET_COMMIT
  | MGT_NET_CFG_STATUS
  | MGT_NET_STATUS
  | MGT_NET_FCS_ERR
  | MGT_NET_UNAUTH
  | MGT_NET_OTHER
  | MGT_NET_LIMITED
  | MGT_NET_COLLISIONS
  | MGT_NET_BEACON_LOSS
  | MGT_NET_RX_FRAMES
  | MGT_NET_TX_FRAMES
  | MGT_ANCHOR_COMMIT
  | MGT_ANCHOR_STATUS
  | MGT_DELEG
  | MGT_DELEG_COMMIT
  | MGT_DELEG_STATUS
  -- R818
  | SCL_STATUS
  | SCL_EVENT_CNT
  | SCL_LAST_SEQ
  | SCL_TICK
  | SCL_DISC
  | SCL_IN_DROP
  | SCL_OFFER_STATUS
  | SCL_FW_VERSION
  -- R853
  | BOOT_STATUS
  | BOOT_FW
  | BOOT_SVN
  | BOOT_SVN_COMMIT
  | BOOT_OFFER
  | BOOT_TIME_NS
  | BOOT_UTC_OFFSET
  | BOOT_TIME_HOST
  | BOOT_TIME_STATUS
  | LIFE_CTRL
  | LIFE_STATUS
  | LIFE_SERVICE_ADD
  | LIFE_POWER_ON_S
  | BOOT_TIME_CTRL
  -- R877
  | PKG_THERM_CFG
  | PKG_PWR_LIMIT
  | PKG_AVS_CTRL
  | PKG_THROTTLE_STATUS
  | PKG_THROTTLE_CYCLES
  | PKG_STRAPS
  -- R611
  | MSIX_ADDR
  | MSIX_DATA
  | MSIX_CTRL
  | MSIX_PEND
  deriving DecidableEq, Repr

/-- A field of a register: its lowest bit and its width. -/
structure Fld where
  reg : Reg
  lo  : Nat
  w   : Nat
  deriving DecidableEq, Repr

end Sys2Proof.Machine

namespace Sys2Proof.Machine.F

abbrev PKG_DEVICE_ID_PART : Fld := ⟨.PKG_DEVICE_ID, 16, 16⟩
abbrev PKG_DEVICE_ID_STEP_MAJOR : Fld := ⟨.PKG_DEVICE_ID, 8, 8⟩
abbrev PKG_DEVICE_ID_STEP_MINOR : Fld := ⟨.PKG_DEVICE_ID, 0, 8⟩
abbrev PKG_IF_VERSION_YL_MAJOR : Fld := ⟨.PKG_IF_VERSION, 24, 8⟩
abbrev PKG_IF_VERSION_YL_MINOR : Fld := ⟨.PKG_IF_VERSION, 16, 8⟩
abbrev PKG_IF_VERSION_TSP_MAJOR : Fld := ⟨.PKG_IF_VERSION, 12, 4⟩
abbrev PKG_IF_VERSION_TSP_MINOR : Fld := ⟨.PKG_IF_VERSION, 8, 4⟩
abbrev PKG_IF_VERSION_JXVM_MAJOR : Fld := ⟨.PKG_IF_VERSION, 4, 4⟩
abbrev PKG_IF_VERSION_JXVM_MINOR : Fld := ⟨.PKG_IF_VERSION, 0, 4⟩
abbrev PKG_LAYOUT_VERSION_OD_LAYOUT : Fld := ⟨.PKG_LAYOUT_VERSION, 8, 8⟩
abbrev PKG_LAYOUT_VERSION_TILE_HDR : Fld := ⟨.PKG_LAYOUT_VERSION, 0, 8⟩
abbrev PKG_NODE_ID_VALID : Fld := ⟨.PKG_NODE_ID, 8, 1⟩
abbrev PKG_NODE_ID_NODE : Fld := ⟨.PKG_NODE_ID, 0, 8⟩
abbrev PKG_HALF_STATUS_WEST_STATE : Fld := ⟨.PKG_HALF_STATUS, 4, 4⟩
abbrev PKG_HALF_STATUS_EAST_STATE : Fld := ⟨.PKG_HALF_STATUS, 0, 4⟩
abbrev PKG_IODIE_STATUS_IO3_UP : Fld := ⟨.PKG_IODIE_STATUS, 3, 1⟩
abbrev PKG_IODIE_STATUS_IO2_UP : Fld := ⟨.PKG_IODIE_STATUS, 2, 1⟩
abbrev PKG_IODIE_STATUS_IO1_UP : Fld := ⟨.PKG_IODIE_STATUS, 1, 1⟩
abbrev PKG_IODIE_STATUS_IO0_UP : Fld := ⟨.PKG_IODIE_STATUS, 0, 1⟩
abbrev PKG_BRIDGE_STATUS_WE_GROUPS : Fld := ⟨.PKG_BRIDGE_STATUS, 16, 16⟩
abbrev PKG_BRIDGE_STATUS_EW_GROUPS : Fld := ⟨.PKG_BRIDGE_STATUS, 0, 16⟩
abbrev PKG_DISCARD_CNT_COUNT : Fld := ⟨.PKG_DISCARD_CNT, 0, 32⟩
abbrev PKG_BRIDGE_BYTES_EW_BYTES : Fld := ⟨.PKG_BRIDGE_BYTES_EW, 0, 64⟩
abbrev PKG_BRIDGE_BYTES_WE_BYTES : Fld := ⟨.PKG_BRIDGE_BYTES_WE, 0, 64⟩
abbrev PKG_BRIDGE_REPAIR_CNT_GROUPS_LOST : Fld := ⟨.PKG_BRIDGE_REPAIR_CNT, 16, 16⟩
abbrev PKG_BRIDGE_REPAIR_CNT_SPARES_USED : Fld := ⟨.PKG_BRIDGE_REPAIR_CNT, 0, 16⟩
abbrev PKG_CLK_STATUS_DDR_LOCK : Fld := ⟨.PKG_CLK_STATUS, 6, 1⟩
abbrev PKG_CLK_STATUS_HBM_LOCK : Fld := ⟨.PKG_CLK_STATUS, 5, 1⟩
abbrev PKG_CLK_STATUS_MGT_LOCK : Fld := ⟨.PKG_CLK_STATUS, 4, 1⟩
abbrev PKG_CLK_STATUS_NOC_LOCK : Fld := ⟨.PKG_CLK_STATUS, 3, 1⟩
abbrev PKG_CLK_STATUS_SWC_LOCK : Fld := ⟨.PKG_CLK_STATUS, 2, 1⟩
abbrev PKG_CLK_STATUS_ARITH_LOCK : Fld := ⟨.PKG_CLK_STATUS, 1, 1⟩
abbrev PKG_CLK_STATUS_SYSREF_OK : Fld := ⟨.PKG_CLK_STATUS, 0, 1⟩
abbrev XLT_CAPS_VA_BITS : Fld := ⟨.XLT_CAPS, 24, 8⟩
abbrev XLT_CAPS_PAGE_SHIFT : Fld := ⟨.XLT_CAPS, 16, 8⟩
abbrev XLT_CAPS_MAX_RANGES : Fld := ⟨.XLT_CAPS, 0, 13⟩
abbrev XLT_UNQUEUED_COUNT : Fld := ⟨.XLT_UNQUEUED, 0, 9⟩
abbrev XLT_RLB_HIT_COUNT : Fld := ⟨.XLT_RLB_HIT, 0, 64⟩
abbrev XLT_RLB_MISS_COUNT : Fld := ⟨.XLT_RLB_MISS, 0, 64⟩
abbrev XLT_RES_MISS_COUNT : Fld := ⟨.XLT_RES_MISS, 0, 64⟩
abbrev XLT_CTL_REFUSED_COUNT : Fld := ⟨.XLT_CTL_REFUSED, 0, 32⟩
abbrev XLT_TBL_SRC_ADDR : Fld := ⟨.XLT_TBL_SRC, 6, 58⟩
abbrev XLT_TBL_SRC_KIND : Fld := ⟨.XLT_TBL_SRC, 0, 1⟩
abbrev XLT_TBL_COUNT_COUNT : Fld := ⟨.XLT_TBL_COUNT, 0, 13⟩
abbrev XLT_TBL_COMMIT_GO : Fld := ⟨.XLT_TBL_COMMIT, 0, 1⟩
abbrev XLT_TBL_STATUS_FAIL_INDEX : Fld := ⟨.XLT_TBL_STATUS, 20, 12⟩
abbrev XLT_TBL_STATUS_RESULT : Fld := ⟨.XLT_TBL_STATUS, 16, 4⟩
abbrev XLT_TBL_STATUS_EPOCH : Fld := ⟨.XLT_TBL_STATUS, 8, 8⟩
abbrev XLT_TBL_STATUS_OLD_DRAINED : Fld := ⟨.XLT_TBL_STATUS, 2, 1⟩
abbrev XLT_TBL_STATUS_BUSY : Fld := ⟨.XLT_TBL_STATUS, 0, 1⟩
abbrev XLT_POOL_BASE_PAGE : Fld := ⟨.XLT_POOL_BASE, 16, 40⟩
abbrev XLT_POOL_PAGES_PAGES : Fld := ⟨.XLT_POOL_PAGES, 0, 21⟩
abbrev XLT_KEY_KEY : Fld := ⟨.XLT_KEY, 0, 64⟩
abbrev FLTQ_BASE_IOVA : Fld := ⟨.FLTQ_BASE, 15, 49⟩
abbrev FLTQ_CTRL_VEC_MIG : Fld := ⟨.FLTQ_CTRL, 15, 5⟩
abbrev FLTQ_CTRL_VEC_OVF : Fld := ⟨.FLTQ_CTRL, 10, 5⟩
abbrev FLTQ_CTRL_VEC_FAULT : Fld := ⟨.FLTQ_CTRL, 5, 5⟩
abbrev FLTQ_CTRL_EN : Fld := ⟨.FLTQ_CTRL, 0, 1⟩
abbrev FLTQ_STATUS_WR_ERR : Fld := ⟨.FLTQ_STATUS, 18, 1⟩
abbrev FLTQ_STATUS_HEAD_ERR : Fld := ⟨.FLTQ_STATUS, 17, 1⟩
abbrev FLTQ_STATUS_OVERFLOW : Fld := ⟨.FLTQ_STATUS, 16, 1⟩
abbrev FLTQ_STATUS_UNQUEUED : Fld := ⟨.FLTQ_STATUS, 0, 9⟩
abbrev FLTQ_TAIL_INDEX : Fld := ⟨.FLTQ_TAIL, 0, 11⟩
abbrev FLTQ_HEAD_INDEX : Fld := ⟨.FLTQ_HEAD, 0, 11⟩
abbrev FLTQ_RESUME_ACTION : Fld := ⟨.FLTQ_RESUME, 16, 1⟩
abbrev FLTQ_RESUME_TAG : Fld := ⟨.FLTQ_RESUME, 0, 16⟩
abbrev FLTQ_QUEUE_FULL_COUNT : Fld := ⟨.FLTQ_QUEUE_FULL, 0, 32⟩
abbrev FLTQ_BAD_RESUME_COUNT : Fld := ⟨.FLTQ_BAD_RESUME, 0, 32⟩
abbrev XLT_MIG_VA_VA_PAGE : Fld := ⟨.XLT_MIG_VA, 0, 40⟩
abbrev XLT_MIG_GO_TAG : Fld := ⟨.XLT_MIG_GO, 16, 16⟩
abbrev XLT_MIG_GO_COUNT_M1 : Fld := ⟨.XLT_MIG_GO, 8, 8⟩
abbrev XLT_MIG_GO_RESUME_EN : Fld := ⟨.XLT_MIG_GO, 2, 1⟩
abbrev XLT_MIG_GO_INV : Fld := ⟨.XLT_MIG_GO, 1, 1⟩
abbrev XLT_MIG_GO_DIR : Fld := ⟨.XLT_MIG_GO, 0, 1⟩
abbrev XLT_MIG_STATUS_LAST_ERR : Fld := ⟨.XLT_MIG_STATUS, 28, 4⟩
abbrev XLT_MIG_STATUS_QUEUED : Fld := ⟨.XLT_MIG_STATUS, 16, 5⟩
abbrev XLT_MIG_STATUS_DONE_CNT : Fld := ⟨.XLT_MIG_STATUS, 0, 16⟩
abbrev TIER_CAPS_T0_GIB : Fld := ⟨.TIER_CAPS, 16, 16⟩
abbrev TIER_CAPS_T1_CHANNELS : Fld := ⟨.TIER_CAPS, 8, 8⟩
abbrev TIER_CAPS_T2_DRIVES : Fld := ⟨.TIER_CAPS, 0, 8⟩
abbrev TIER_T0_STATUS_STAGE_W_AVAIL : Fld := ⟨.TIER_T0_STATUS, 17, 1⟩
abbrev TIER_T0_STATUS_STAGE_E_AVAIL : Fld := ⟨.TIER_T0_STATUS, 16, 1⟩
abbrev TIER_T0_STATUS_H : Fld := ⟨.TIER_T0_STATUS, 0, 16⟩
abbrev TIER_T1_STATUS_CH : Fld := ⟨.TIER_T1_STATUS, 0, 32⟩
abbrev TIER_T2_STATUS_N : Fld := ⟨.TIER_T2_STATUS, 0, 32⟩
abbrev TIER_T1_INFO_POPULATED : Fld := ⟨.TIER_T1_INFO, 31, 1⟩
abbrev TIER_T1_INFO_RATE : Fld := ⟨.TIER_T1_INFO, 16, 4⟩
abbrev TIER_T1_INFO_DIMM_GIB : Fld := ⟨.TIER_T1_INFO, 0, 16⟩
abbrev TIER_T0_STAGE_WEST_GIB : Fld := ⟨.TIER_T0_STAGE, 16, 7⟩
abbrev TIER_T0_STAGE_EAST_GIB : Fld := ⟨.TIER_T0_STAGE, 0, 7⟩
abbrev TIER_T0_COMMIT_GO : Fld := ⟨.TIER_T0_COMMIT, 0, 1⟩
abbrev TIER_T0_CFG_STATUS_BUSY : Fld := ⟨.TIER_T0_CFG_STATUS, 8, 1⟩
abbrev TIER_T0_CFG_STATUS_RESULT : Fld := ⟨.TIER_T0_CFG_STATUS, 0, 4⟩
abbrev TIER_STAGE_REFUSED_COUNT : Fld := ⟨.TIER_STAGE_REFUSED, 0, 32⟩
abbrev TIER_SCRUB_CTRL_T1_HOURS : Fld := ⟨.TIER_SCRUB_CTRL, 16, 16⟩
abbrev TIER_SCRUB_CTRL_T0_HOURS : Fld := ⟨.TIER_SCRUB_CTRL, 0, 16⟩
abbrev TIER_T0_BYTES_RD_COUNT : Fld := ⟨.TIER_T0_BYTES_RD, 0, 64⟩
abbrev TIER_T0_BYTES_WR_COUNT : Fld := ⟨.TIER_T0_BYTES_WR, 0, 64⟩
abbrev TIER_T1_BYTES_RD_COUNT : Fld := ⟨.TIER_T1_BYTES_RD, 0, 64⟩
abbrev TIER_T1_BYTES_WR_COUNT : Fld := ⟨.TIER_T1_BYTES_WR, 0, 64⟩
abbrev TIER_T2_BYTES_RD_COUNT : Fld := ⟨.TIER_T2_BYTES_RD, 0, 64⟩
abbrev TIER_T2_BYTES_WR_COUNT : Fld := ⟨.TIER_T2_BYTES_WR, 0, 64⟩
abbrev TIER_CORR_T0_COUNT : Fld := ⟨.TIER_CORR_T0, 0, 64⟩
abbrev TIER_CORR_T1_COUNT : Fld := ⟨.TIER_CORR_T1, 0, 64⟩
abbrev TIER_UNCORR_COUNT : Fld := ⟨.TIER_UNCORR, 0, 32⟩
abbrev TIER_T2_TIMEOUT_CNT_COUNT : Fld := ⟨.TIER_T2_TIMEOUT_CNT, 0, 32⟩
abbrev TILE_BUSY_CH : Fld := ⟨.TILE_BUSY, 0, 64⟩
abbrev TILE_MOVES_COUNT : Fld := ⟨.TILE_MOVES, 0, 64⟩
abbrev TILE_ERR_CNT_COUNT : Fld := ⟨.TILE_ERR_CNT, 0, 32⟩
abbrev TILE_CRC_CNT_COUNT : Fld := ⟨.TILE_CRC_CNT, 0, 32⟩
abbrev TIER_T2WIN_BASE_EN : Fld := ⟨.TIER_T2WIN_BASE, 63, 1⟩
abbrev TIER_T2WIN_BASE_LBA_BASE : Fld := ⟨.TIER_T2WIN_BASE, 0, 48⟩
abbrev TIER_T2WIN_COUNT_LBA_COUNT : Fld := ⟨.TIER_T2WIN_COUNT, 0, 40⟩
abbrev TIER_N_STATE_STATE : Fld := ⟨.TIER_N_STATE, 28, 4⟩
abbrev TIER_N_STATE_LINK_WIDTH : Fld := ⟨.TIER_N_STATE, 16, 8⟩
abbrev TIER_N_STATE_LINK_GEN : Fld := ⟨.TIER_N_STATE, 8, 8⟩
abbrev TIER_N_STATE_IOQ : Fld := ⟨.TIER_N_STATE, 0, 8⟩
abbrev TIER_N_HEALTH_CRIT_WARN : Fld := ⟨.TIER_N_HEALTH, 24, 8⟩
abbrev TIER_N_HEALTH_PCT_USED : Fld := ⟨.TIER_N_HEALTH, 16, 8⟩
abbrev TIER_N_HEALTH_TEMP_K : Fld := ⟨.TIER_N_HEALTH, 0, 16⟩
abbrev TIER_N_CAPACITY_LBAS : Fld := ⟨.TIER_N_CAPACITY, 0, 64⟩
abbrev TIER_N_CTRL_OFFLINE : Fld := ⟨.TIER_N_CTRL, 1, 1⟩
abbrev TIER_N_CTRL_RESET : Fld := ⟨.TIER_N_CTRL, 0, 1⟩
abbrev TIER_N_CMD_ERR_COUNT : Fld := ⟨.TIER_N_CMD_ERR, 0, 32⟩
abbrev PRF_CAPS_MAX_LEAD : Fld := ⟨.PRF_CAPS, 24, 8⟩
abbrev PRF_CAPS_MAX_PHASES_M1 : Fld := ⟨.PRF_CAPS, 18, 6⟩
abbrev PRF_CAPS_MAX_LAYERS_M1 : Fld := ⟨.PRF_CAPS, 8, 10⟩
abbrev PRF_CAPS_MAX_PROGS : Fld := ⟨.PRF_CAPS, 0, 8⟩
abbrev PRF_CH_MASK_CH : Fld := ⟨.PRF_CH_MASK, 0, 64⟩
abbrev PRF_MOVES_ISSUED_COUNT : Fld := ⟨.PRF_MOVES_ISSUED, 0, 64⟩
abbrev PRF_REFETCH_CNT_COUNT : Fld := ⟨.PRF_REFETCH_CNT, 0, 32⟩
abbrev PRF_REDIRECT_CNT_COUNT : Fld := ⟨.PRF_REDIRECT_CNT, 0, 32⟩
abbrev PRF_STAGE_FREE_WEST_MIB : Fld := ⟨.PRF_STAGE_FREE, 32, 32⟩
abbrev PRF_STAGE_FREE_EAST_MIB : Fld := ⟨.PRF_STAGE_FREE, 0, 32⟩
abbrev CUR_VALUE_PROG : Fld := ⟨.CUR_VALUE, 56, 8⟩
abbrev CUR_VALUE_STEP : Fld := ⟨.CUR_VALUE, 16, 40⟩
abbrev CUR_VALUE_LAYER : Fld := ⟨.CUR_VALUE, 6, 10⟩
abbrev CUR_VALUE_PHASE : Fld := ⟨.CUR_VALUE, 0, 6⟩
abbrev CUR_STATE_CAUSE : Fld := ⟨.CUR_STATE, 16, 4⟩
abbrev CUR_STATE_PARTITION : Fld := ⟨.CUR_STATE, 8, 8⟩
abbrev CUR_STATE_STATE : Fld := ⟨.CUR_STATE, 0, 3⟩
abbrev PRF_PROG_CFG_FOLLOW_EN : Fld := ⟨.PRF_PROG_CFG, 23, 1⟩
abbrev PRF_PROG_CFG_FOLLOWER : Fld := ⟨.PRF_PROG_CFG, 16, 6⟩
abbrev PRF_PROG_CFG_SPEC_EXTRA : Fld := ⟨.PRF_PROG_CFG, 12, 4⟩
abbrev PRF_PROG_CFG_SPEC_EN : Fld := ⟨.PRF_PROG_CFG, 11, 1⟩
abbrev PRF_PROG_CFG_LEAD : Fld := ⟨.PRF_PROG_CFG, 0, 4⟩
abbrev CUR_MATCH_POS : Fld := ⟨.CUR_MATCH, 0, 56⟩
abbrev CUR_MATCH_CTRL_VEC : Fld := ⟨.CUR_MATCH_CTRL, 1, 5⟩
abbrev CUR_MATCH_CTRL_EN : Fld := ⟨.CUR_MATCH_CTRL, 0, 1⟩
abbrev PRF_LOAD_STATUS_RESULT : Fld := ⟨.PRF_LOAD_STATUS, 28, 4⟩
abbrev PRF_LOAD_STATUS_FAIL_LAYER : Fld := ⟨.PRF_LOAD_STATUS, 18, 10⟩
abbrev PRF_LOAD_STATUS_FAIL_ENTRY : Fld := ⟨.PRF_LOAD_STATUS, 0, 12⟩
abbrev PRF_HALT_CODE : Fld := ⟨.PRF_HALT, 28, 4⟩
abbrev PRF_HALT_LAYER : Fld := ⟨.PRF_HALT, 18, 10⟩
abbrev PRF_HALT_ENTRY : Fld := ⟨.PRF_HALT, 0, 12⟩
abbrev PRF_SPEC_HIT_COUNT : Fld := ⟨.PRF_SPEC_HIT, 0, 64⟩
abbrev PRF_SPEC_MISS_TILES_COUNT : Fld := ⟨.PRF_SPEC_MISS_TILES, 0, 64⟩
abbrev PRF_SPEC_WASTE_COUNT : Fld := ⟨.PRF_SPEC_WASTE, 0, 64⟩
abbrev PRF_STAGED_BYTES_COUNT : Fld := ⟨.PRF_STAGED_BYTES, 0, 64⟩
abbrev PRF_STAGE_QUOTA_WEST_MIB : Fld := ⟨.PRF_STAGE_QUOTA, 32, 32⟩
abbrev PRF_STAGE_QUOTA_EAST_MIB : Fld := ⟨.PRF_STAGE_QUOTA, 0, 32⟩
abbrev PRF_SPEC_QUOTA_WEST_MIB : Fld := ⟨.PRF_SPEC_QUOTA, 32, 32⟩
abbrev PRF_SPEC_QUOTA_EAST_MIB : Fld := ⟨.PRF_SPEC_QUOTA, 0, 32⟩
abbrev PRF_STALL_CNT_COUNT : Fld := ⟨.PRF_STALL_CNT, 0, 64⟩
abbrev DA_CAPS_ARRAYS_M1 : Fld := ⟨.DA_CAPS, 24, 8⟩
abbrev DA_CAPS_MAX_PROGS : Fld := ⟨.DA_CAPS, 16, 8⟩
abbrev DA_CAPS_MAX_SEQS_M1 : Fld := ⟨.DA_CAPS, 6, 10⟩
abbrev DA_CMD_SLOT : Fld := ⟨.DA_CMD, 18, 10⟩
abbrev DA_CMD_PARTITION : Fld := ⟨.DA_CMD, 10, 8⟩
abbrev DA_CMD_PROG : Fld := ⟨.DA_CMD, 4, 6⟩
abbrev DA_CMD_OP : Fld := ⟨.DA_CMD, 0, 4⟩
abbrev DA_CMD_ARG_VA : Fld := ⟨.DA_CMD_ARG, 6, 50⟩
abbrev DA_CMD_STATUS_RESULT : Fld := ⟨.DA_CMD_STATUS, 28, 4⟩
abbrev DA_CMD_STATUS_FAIL_LAYER : Fld := ⟨.DA_CMD_STATUS, 18, 10⟩
abbrev DA_CMD_STATUS_FAIL_PHASE : Fld := ⟨.DA_CMD_STATUS, 12, 6⟩
abbrev DA_CMD_STATUS_BUSY : Fld := ⟨.DA_CMD_STATUS, 0, 1⟩
abbrev DA_POOL_CNT_WEST : Fld := ⟨.DA_POOL_CNT, 16, 16⟩
abbrev DA_POOL_CNT_EAST : Fld := ⟨.DA_POOL_CNT, 0, 16⟩
abbrev DA_REISSUE_CNT_COUNT : Fld := ⟨.DA_REISSUE_CNT, 0, 32⟩
abbrev DA_REISSUE_MISMATCH_COUNT : Fld := ⟨.DA_REISSUE_MISMATCH, 0, 32⟩
abbrev DA_SLOW_CNT_COUNT : Fld := ⟨.DA_SLOW_CNT, 0, 32⟩
abbrev DA_ITEMS_DONE_COUNT : Fld := ⟨.DA_ITEMS_DONE, 0, 64⟩
abbrev DA_BUSY_CYCLES_COUNT : Fld := ⟨.DA_BUSY_CYCLES, 0, 64⟩
abbrev DA_PROG_DESC_VA : Fld := ⟨.DA_PROG_DESC, 0, 64⟩
abbrev DA_PROG_STATUS_RING_WAIT : Fld := ⟨.DA_PROG_STATUS, 27, 1⟩
abbrev DA_PROG_STATUS_PENDING : Fld := ⟨.DA_PROG_STATUS, 16, 11⟩
abbrev DA_PROG_STATUS_ACTIVE : Fld := ⟨.DA_PROG_STATUS, 0, 11⟩
abbrev DA_PROG_NUMSTAT_FLAGS : Fld := ⟨.DA_PROG_NUMSTAT, 0, 4⟩
abbrev DA_PROG_ERR_CODE : Fld := ⟨.DA_PROG_ERR, 28, 4⟩
abbrev DA_PROG_ERR_LAYER : Fld := ⟨.DA_PROG_ERR, 18, 10⟩
abbrev DA_PROG_ERR_PHASE : Fld := ⟨.DA_PROG_ERR, 12, 6⟩
abbrev DA_PROG_ERR_SLOT : Fld := ⟨.DA_PROG_ERR, 0, 12⟩
abbrev DA_PROG_ITEMS_COUNT : Fld := ⟨.DA_PROG_ITEMS, 0, 64⟩
abbrev DA_PROG_TOKENS_COUNT : Fld := ⟨.DA_PROG_TOKENS, 0, 64⟩
abbrev DA_PROG_RING_TAIL_INDEX : Fld := ⟨.DA_PROG_RING_TAIL, 0, 17⟩
abbrev DA_PROG_RING_HEAD_INDEX : Fld := ⟨.DA_PROG_RING_HEAD, 0, 17⟩
abbrev DA_ARR_STATUS_FOLD : Fld := ⟨.DA_ARR_STATUS, 12, 4⟩
abbrev DA_ARR_STATUS_HALF : Fld := ⟨.DA_ARR_STATUS, 8, 1⟩
abbrev DA_ARR_STATUS_STATE : Fld := ⟨.DA_ARR_STATUS, 0, 4⟩
abbrev DA_ARR_CTRL_RESTORE : Fld := ⟨.DA_ARR_CTRL, 1, 1⟩
abbrev DA_ARR_CTRL_OFFLINE : Fld := ⟨.DA_ARR_CTRL, 0, 1⟩
abbrev DA_ARR_ITEMS_COUNT : Fld := ⟨.DA_ARR_ITEMS, 0, 64⟩
abbrev DA_ARR_REISSUES_COUNT : Fld := ⟨.DA_ARR_REISSUES, 0, 32⟩
abbrev DA_ARR_DETECT_COUNT : Fld := ⟨.DA_ARR_DETECT, 0, 32⟩
abbrev SCP_CAPS_OUTSTANDING : Fld := ⟨.SCP_CAPS, 19, 13⟩
abbrev SCP_CAPS_ENGINES : Fld := ⟨.SCP_CAPS, 14, 5⟩
abbrev SCP_CAPS_MAX_ROW_UNITS_M1 : Fld := ⟨.SCP_CAPS, 4, 10⟩
abbrev SCP_CMD_PARTITION : Fld := ⟨.SCP_CMD, 19, 8⟩
abbrev SCP_CMD_TABLE : Fld := ⟨.SCP_CMD, 9, 10⟩
abbrev SCP_CMD_INV : Fld := ⟨.SCP_CMD, 4, 1⟩
abbrev SCP_CMD_OP : Fld := ⟨.SCP_CMD, 0, 4⟩
abbrev SCP_CMD_ARG_VA : Fld := ⟨.SCP_CMD_ARG, 6, 50⟩
abbrev SCP_CMD_STATUS_RESULT : Fld := ⟨.SCP_CMD_STATUS, 28, 4⟩
abbrev SCP_CMD_STATUS_BUSY : Fld := ⟨.SCP_CMD_STATUS, 0, 1⟩
abbrev SCP_HOT_CTRL_DECAY_US : Fld := ⟨.SCP_HOT_CTRL, 16, 16⟩
abbrev SCP_HOT_CTRL_THRESH : Fld := ⟨.SCP_HOT_CTRL, 8, 8⟩
abbrev SCP_HOT_CTRL_EN : Fld := ⟨.SCP_HOT_CTRL, 0, 1⟩
abbrev SCP_REPL_BASE_E_PAGE : Fld := ⟨.SCP_REPL_BASE_E, 16, 40⟩
abbrev SCP_REPL_BASE_W_PAGE : Fld := ⟨.SCP_REPL_BASE_W, 16, 40⟩
abbrev SCP_REPL_SLOTS_WEST : Fld := ⟨.SCP_REPL_SLOTS, 16, 16⟩
abbrev SCP_REPL_SLOTS_EAST : Fld := ⟨.SCP_REPL_SLOTS, 0, 16⟩
abbrev SCP_REPL_COMMIT_GO : Fld := ⟨.SCP_REPL_COMMIT, 0, 1⟩
abbrev SCP_REPL_STATUS_BUSY : Fld := ⟨.SCP_REPL_STATUS, 8, 1⟩
abbrev SCP_REPL_STATUS_RESULT : Fld := ⟨.SCP_REPL_STATUS, 0, 4⟩
abbrev SCP_STAMP_ODD_CNT_COUNT : Fld := ⟨.SCP_STAMP_ODD_CNT, 0, 32⟩
abbrev SCP_ROWS_COUNT : Fld := ⟨.SCP_ROWS, 0, 64⟩
abbrev SCP_RETRIES_COUNT : Fld := ⟨.SCP_RETRIES, 0, 64⟩
abbrev SCP_WAITS_COUNT : Fld := ⟨.SCP_WAITS, 0, 64⟩
abbrev SCP_UPDATES_COUNT : Fld := ⟨.SCP_UPDATES, 0, 64⟩
abbrev SCP_REPL_HITS_COUNT : Fld := ⟨.SCP_REPL_HITS, 0, 64⟩
abbrev SCP_REPL_INSTALLS_COUNT : Fld := ⟨.SCP_REPL_INSTALLS, 0, 64⟩
abbrev SCP_ABANDON_CNT_COUNT : Fld := ⟨.SCP_ABANDON_CNT, 0, 32⟩
abbrev SCP_OOR_CNT_COUNT : Fld := ⟨.SCP_OOR_CNT, 0, 32⟩
abbrev SCP_ENG_STATUS_OUTSTANDING : Fld := ⟨.SCP_ENG_STATUS, 16, 13⟩
abbrev SCP_ENG_STATUS_PARTITION : Fld := ⟨.SCP_ENG_STATUS, 8, 8⟩
abbrev SCP_ENG_STATUS_STATE : Fld := ⟨.SCP_ENG_STATUS, 0, 3⟩
abbrev SCP_ENG_CTRL_OFFLINE : Fld := ⟨.SCP_ENG_CTRL, 0, 1⟩
abbrev SCP_ENG_LINES_COUNT : Fld := ⟨.SCP_ENG_LINES, 0, 64⟩
abbrev SCP_TBL_STATUS_PARTITION : Fld := ⟨.SCP_TBL_STATUS, 24, 8⟩
abbrev SCP_TBL_STATUS_VERSION : Fld := ⟨.SCP_TBL_STATUS, 16, 8⟩
abbrev SCP_TBL_STATUS_STAGED : Fld := ⟨.SCP_TBL_STATUS, 3, 1⟩
abbrev SCP_TBL_STATUS_OLD_DRAINED : Fld := ⟨.SCP_TBL_STATUS, 2, 1⟩
abbrev SCP_TBL_STATUS_ACTIVE_BANK : Fld := ⟨.SCP_TBL_STATUS, 1, 1⟩
abbrev SCP_TBL_STATUS_VALID : Fld := ⟨.SCP_TBL_STATUS, 0, 1⟩
abbrev COH_CAPS_MAX_AGENTS : Fld := ⟨.COH_CAPS, 24, 8⟩
abbrev COH_CAPS_MAX_WINDOWS : Fld := ⟨.COH_CAPS, 16, 8⟩
abbrev COH_CAPS_DIR_WAYS : Fld := ⟨.COH_CAPS, 8, 8⟩
abbrev COH_CAPS_DIR_SETS_LOG2 : Fld := ⟨.COH_CAPS, 0, 8⟩
abbrev COH_CFG_EN : Fld := ⟨.COH_CFG, 31, 1⟩
abbrev COH_CFG_DOMAIN : Fld := ⟨.COH_CFG, 0, 6⟩
abbrev COH_HOMES_NODES : Fld := ⟨.COH_HOMES, 0, 64⟩
abbrev COH_COMMIT_GO : Fld := ⟨.COH_COMMIT, 0, 1⟩
abbrev COH_CFG_STATUS_BUSY : Fld := ⟨.COH_CFG_STATUS, 8, 1⟩
abbrev COH_CFG_STATUS_RESULT : Fld := ⟨.COH_CFG_STATUS, 0, 4⟩
abbrev COH_DOM_STATUS_STATE : Fld := ⟨.COH_DOM_STATUS, 28, 4⟩
abbrev COH_DOM_STATUS_CAUSE : Fld := ⟨.COH_DOM_STATUS, 24, 4⟩
abbrev COH_DOM_STATUS_DEAD_VALID : Fld := ⟨.COH_DOM_STATUS, 20, 1⟩
abbrev COH_DOM_STATUS_DEAD_SLOT : Fld := ⟨.COH_DOM_STATUS, 16, 4⟩
abbrev COH_DOM_STATUS_EPOCH : Fld := ⟨.COH_DOM_STATUS, 0, 16⟩
abbrev COH_DOM_CTRL_COLLAPSE : Fld := ⟨.COH_DOM_CTRL, 1, 1⟩
abbrev COH_DOM_CTRL_REINIT : Fld := ⟨.COH_DOM_CTRL, 0, 1⟩
abbrev COH_DIR_OCC_ENTRIES : Fld := ⟨.COH_DIR_OCC, 0, 23⟩
abbrev COH_POISONED_COUNT : Fld := ⟨.COH_POISONED, 0, 32⟩
abbrev COH_REQS_COUNT : Fld := ⟨.COH_REQS, 0, 64⟩
abbrev COH_SNOOPS_COUNT : Fld := ⟨.COH_SNOOPS, 0, 64⟩
abbrev COH_BACKINV_COUNT : Fld := ⟨.COH_BACKINV, 0, 64⟩
abbrev COH_WBPEND_CNT_COUNT : Fld := ⟨.COH_WBPEND_CNT, 0, 32⟩
abbrev COH_REFUSED_CNT_COUNT : Fld := ⟨.COH_REFUSED_CNT, 0, 32⟩
abbrev COH_PROTO_CNT_COUNT : Fld := ⟨.COH_PROTO_CNT, 0, 32⟩
abbrev COH_MEMBER_VALID : Fld := ⟨.COH_MEMBER, 31, 1⟩
abbrev COH_MEMBER_NODE : Fld := ⟨.COH_MEMBER, 0, 8⟩
abbrev COH_WIN_BASE_VALID : Fld := ⟨.COH_WIN_BASE, 63, 1⟩
abbrev COH_WIN_BASE_PAGE : Fld := ⟨.COH_WIN_BASE, 16, 32⟩
abbrev COH_WIN_LEN_PAGES : Fld := ⟨.COH_WIN_LEN, 0, 32⟩
abbrev YL_CAPS_LINKS : Fld := ⟨.YL_CAPS, 24, 8⟩
abbrev YL_CAPS_VER : Fld := ⟨.YL_CAPS, 16, 8⟩
abbrev YL_CAPS_MAX_MINOR_1 : Fld := ⟨.YL_CAPS, 8, 8⟩
abbrev YL_CAPS_FEATURES : Fld := ⟨.YL_CAPS, 0, 8⟩
abbrev YL_RACK_ID_RACK : Fld := ⟨.YL_RACK_ID, 0, 16⟩
abbrev YL_CFG_COMMIT_GO : Fld := ⟨.YL_CFG_COMMIT, 0, 1⟩
abbrev YL_CFG_STATUS_FAIL_LINK : Fld := ⟨.YL_CFG_STATUS, 8, 7⟩
abbrev YL_CFG_STATUS_RESULT : Fld := ⟨.YL_CFG_STATUS, 0, 4⟩
abbrev YL_DETOUR_CFG_WAYS : Fld := ⟨.YL_DETOUR_CFG, 0, 4⟩
abbrev YL_DETOUR_DROP_COUNT : Fld := ⟨.YL_DETOUR_DROP, 0, 32⟩
abbrev YL_REACH_NODES : Fld := ⟨.YL_REACH, 0, 64⟩
abbrev YL_DETOUR_ACTIVE_NODES : Fld := ⟨.YL_DETOUR_ACTIVE, 0, 64⟩
abbrev YL_LINK_UP_LINKS : Fld := ⟨.YL_LINK_UP, 0, 32⟩
abbrev YL_LINK_CFG_EN : Fld := ⟨.YL_LINK_CFG, 31, 1⟩
abbrev YL_LINK_CFG_DEGRADE_EN : Fld := ⟨.YL_LINK_CFG, 30, 1⟩
abbrev YL_LINK_CFG_TRANSIT_EN : Fld := ⟨.YL_LINK_CFG, 29, 1⟩
abbrev YL_LINK_CFG_EXPECT_VALID : Fld := ⟨.YL_LINK_CFG, 15, 1⟩
abbrev YL_LINK_CFG_EXPECT_NODE : Fld := ⟨.YL_LINK_CFG, 0, 8⟩
abbrev YL_LINK_CTRL_RETRY_EN : Fld := ⟨.YL_LINK_CTRL, 2, 1⟩
abbrev YL_LINK_CTRL_RETRAIN : Fld := ⟨.YL_LINK_CTRL, 1, 1⟩
abbrev YL_LINK_CTRL_DISABLE : Fld := ⟨.YL_LINK_CTRL, 0, 1⟩
abbrev YL_LINK_STATUS_STATE : Fld := ⟨.YL_LINK_STATUS, 28, 4⟩
abbrev YL_LINK_STATUS_FAIL_CAUSE : Fld := ⟨.YL_LINK_STATUS, 24, 4⟩
abbrev YL_LINK_STATUS_TX_L1 : Fld := ⟨.YL_LINK_STATUS, 23, 1⟩
abbrev YL_LINK_STATUS_TX_L0 : Fld := ⟨.YL_LINK_STATUS, 22, 1⟩
abbrev YL_LINK_STATUS_RX_L1 : Fld := ⟨.YL_LINK_STATUS, 21, 1⟩
abbrev YL_LINK_STATUS_RX_L0 : Fld := ⟨.YL_LINK_STATUS, 20, 1⟩
abbrev YL_LINK_STATUS_ROLE : Fld := ⟨.YL_LINK_STATUS, 16, 4⟩
abbrev YL_LINK_STATUS_NEIGHBOUR : Fld := ⟨.YL_LINK_STATUS, 8, 8⟩
abbrev YL_LINK_STATUS_VER_MAJOR : Fld := ⟨.YL_LINK_STATUS, 4, 4⟩
abbrev YL_LINK_STATUS_VER_MINOR : Fld := ⟨.YL_LINK_STATUS, 0, 4⟩
abbrev YL_LINK_NEG_NEIGHBOUR_RACK : Fld := ⟨.YL_LINK_NEG, 16, 16⟩
abbrev YL_LINK_NEG_FEATURES : Fld := ⟨.YL_LINK_NEG, 0, 16⟩
abbrev YL_LANE_STATUS_RX1_LOCK : Fld := ⟨.YL_LANE_STATUS, 17, 1⟩
abbrev YL_LANE_STATUS_RX0_LOCK : Fld := ⟨.YL_LANE_STATUS, 16, 1⟩
abbrev YL_LANE_STATUS_RX1_SER : Fld := ⟨.YL_LANE_STATUS, 8, 8⟩
abbrev YL_LANE_STATUS_RX0_SER : Fld := ⟨.YL_LANE_STATUS, 0, 8⟩
abbrev YL_RETRAIN_CNT_FULL : Fld := ⟨.YL_RETRAIN_CNT, 16, 16⟩
abbrev YL_RETRAIN_CNT_FAST : Fld := ⟨.YL_RETRAIN_CNT, 0, 16⟩
abbrev YL_FEC_CORR_CW_COUNT : Fld := ⟨.YL_FEC_CORR_CW, 0, 64⟩
abbrev YL_FEC_SYM0_COUNT : Fld := ⟨.YL_FEC_SYM0, 0, 64⟩
abbrev YL_FEC_SYM1_COUNT : Fld := ⟨.YL_FEC_SYM1, 0, 64⟩
abbrev YL_FEC_UNCORR_COUNT : Fld := ⟨.YL_FEC_UNCORR, 0, 32⟩
abbrev YL_CRC_ERR_COUNT : Fld := ⟨.YL_CRC_ERR, 0, 32⟩
abbrev YL_REPLAY_CNT_COUNT : Fld := ⟨.YL_REPLAY_CNT, 0, 32⟩
abbrev YL_DEGRADE_CNT_COUNT : Fld := ⟨.YL_DEGRADE_CNT, 0, 32⟩
abbrev YL_FAULT_CNT_COUNT : Fld := ⟨.YL_FAULT_CNT, 0, 32⟩
abbrev YL_UNIT_ERR_COUNT : Fld := ⟨.YL_UNIT_ERR, 0, 32⟩
abbrev YL_TX_FLITS_COUNT : Fld := ⟨.YL_TX_FLITS, 0, 64⟩
abbrev YL_RX_FLITS_COUNT : Fld := ⟨.YL_RX_FLITS, 0, 64⟩
abbrev YL_DETOUR_FWD_COUNT : Fld := ⟨.YL_DETOUR_FWD, 0, 64⟩
abbrev YL_CREDIT_STALL_COUNT : Fld := ⟨.YL_CREDIT_STALL, 0, 64⟩
abbrev YL_CREDIT_AVAIL_TRANSIT : Fld := ⟨.YL_CREDIT_AVAIL, 16, 16⟩
abbrev YL_CREDIT_AVAIL_ORDINARY : Fld := ⟨.YL_CREDIT_AVAIL, 0, 16⟩
abbrev YT_CAPS_KEYS_M1 : Fld := ⟨.YT_CAPS, 24, 8⟩
abbrev YT_CAPS_WINDOW : Fld := ⟨.YT_CAPS, 14, 10⟩
abbrev YT_CAPS_RACK_ROUTES : Fld := ⟨.YT_CAPS, 0, 8⟩
abbrev YT_RETX_RETRIES : Fld := ⟨.YT_RETX, 16, 4⟩
abbrev YT_RETX_TIMEOUT_US : Fld := ⟨.YT_RETX, 0, 16⟩
abbrev YT_HDR_ERR_COUNT : Fld := ⟨.YT_HDR_ERR, 0, 32⟩
abbrev YT_SRC_ERR_COUNT : Fld := ⟨.YT_SRC_ERR, 0, 32⟩
abbrev YT_KEY_REFUSED_COUNT : Fld := ⟨.YT_KEY_REFUSED, 0, 32⟩
abbrev YT_NOT_MSG_COUNT : Fld := ⟨.YT_NOT_MSG, 0, 32⟩
abbrev YT_SEQ_DUP_COUNT : Fld := ⟨.YT_SEQ_DUP, 0, 32⟩
abbrev YT_SEQ_WINDOW_COUNT : Fld := ⟨.YT_SEQ_WINDOW, 0, 32⟩
abbrev YT_PKT_CRC_COUNT : Fld := ⟨.YT_PKT_CRC, 0, 32⟩
abbrev YT_UNREACH_CNT_COUNT : Fld := ⟨.YT_UNREACH_CNT, 0, 32⟩
abbrev YT_RETX_CNT_COUNT : Fld := ⟨.YT_RETX_CNT, 0, 64⟩
abbrev YT_PKTS_IN_COUNT : Fld := ⟨.YT_PKTS_IN, 0, 64⟩
abbrev YT_PKTS_OUT_COUNT : Fld := ⟨.YT_PKTS_OUT, 0, 64⟩
abbrev YT_AGENT_HOME_ENTRY : Fld := ⟨.YT_AGENT_HOME, 0, 64⟩
abbrev YT_RKEY_KEY : Fld := ⟨.YT_RKEY, 0, 64⟩
abbrev YT_RKEY_BASE_PAGE : Fld := ⟨.YT_RKEY_BASE, 16, 32⟩
abbrev YT_RKEY_LEN_PAGES : Fld := ⟨.YT_RKEY_LEN, 0, 32⟩
abbrev YT_RKEY_CTRL_VALID : Fld := ⟨.YT_RKEY_CTRL, 31, 1⟩
abbrev YT_RKEY_CTRL_PARTITION : Fld := ⟨.YT_RKEY_CTRL, 8, 8⟩
abbrev YT_RKEY_CTRL_MSG : Fld := ⟨.YT_RKEY_CTRL, 4, 1⟩
abbrev YT_RKEY_CTRL_ATOMIC : Fld := ⟨.YT_RKEY_CTRL, 3, 1⟩
abbrev YT_RKEY_CTRL_WRITE : Fld := ⟨.YT_RKEY_CTRL, 2, 1⟩
abbrev YT_RKEY_CTRL_READ : Fld := ⟨.YT_RKEY_CTRL, 1, 1⟩
abbrev YT_RACK_ROUTE_VALID : Fld := ⟨.YT_RACK_ROUTE, 63, 1⟩
abbrev YT_RACK_ROUTE_LINKS : Fld := ⟨.YT_RACK_ROUTE, 16, 8⟩
abbrev YT_RACK_ROUTE_RACK : Fld := ⟨.YT_RACK_ROUTE, 0, 16⟩
abbrev SWC_CAPS_PORTS : Fld := ⟨.SWC_CAPS, 24, 8⟩
abbrev SWC_CAPS_VCS : Fld := ⟨.SWC_CAPS, 20, 4⟩
abbrev SWC_CAPS_TCS : Fld := ⟨.SWC_CAPS, 16, 4⟩
abbrev SWC_CAPS_BUF_MIB : Fld := ⟨.SWC_CAPS, 0, 16⟩
abbrev SWC_CFG_ALPHA : Fld := ⟨.SWC_CFG, 0, 3⟩
abbrev SWC_TC_WEIGHT_WEIGHT : Fld := ⟨.SWC_TC_WEIGHT, 0, 64⟩
abbrev SWC_RSV_TRN : Fld := ⟨.SWC_RSV, 16, 16⟩
abbrev SWC_RSV_ORD : Fld := ⟨.SWC_RSV, 0, 16⟩
abbrev SWC_BUF_USED_CELLS : Fld := ⟨.SWC_BUF_USED, 0, 22⟩
abbrev SWC_CT_PKTS_COUNT : Fld := ⟨.SWC_CT_PKTS, 0, 64⟩
abbrev SWC_SF_PKTS_COUNT : Fld := ⟨.SWC_SF_PKTS, 0, 64⟩
abbrev SWC_PORT_MODE_CT : Fld := ⟨.SWC_PORT_MODE, 0, 8⟩
abbrev SWC_MIR_BASE_OFFSET : Fld := ⟨.SWC_MIR_BASE, 12, 36⟩
abbrev SWC_MIR_SIZE_LOG2_RECORDS : Fld := ⟨.SWC_MIR_SIZE, 0, 5⟩
abbrev SWC_MIR_CTRL_EN : Fld := ⟨.SWC_MIR_CTRL, 31, 1⟩
abbrev SWC_MIR_CTRL_STOP : Fld := ⟨.SWC_MIR_CTRL, 30, 1⟩
abbrev SWC_MIR_CTRL_SAMPLE : Fld := ⟨.SWC_MIR_CTRL, 20, 4⟩
abbrev SWC_MIR_CTRL_DIR : Fld := ⟨.SWC_MIR_CTRL, 18, 2⟩
abbrev SWC_MIR_CTRL_TC : Fld := ⟨.SWC_MIR_CTRL, 8, 8⟩
abbrev SWC_MIR_CTRL_VC : Fld := ⟨.SWC_MIR_CTRL, 0, 6⟩
abbrev SWC_MIR_PORTS_LO_PORTS : Fld := ⟨.SWC_MIR_PORTS_LO, 0, 64⟩
abbrev SWC_MIR_PORTS_HI_PORTS : Fld := ⟨.SWC_MIR_PORTS_HI, 0, 64⟩
abbrev SWC_MIR_TAIL_COUNT : Fld := ⟨.SWC_MIR_TAIL, 0, 32⟩
abbrev SWC_MIR_HEAD_COUNT : Fld := ⟨.SWC_MIR_HEAD, 0, 32⟩
abbrev SWC_MIR_DROP_COUNT : Fld := ⟨.SWC_MIR_DROP, 0, 32⟩
abbrev TSP_CAPS_PORTS : Fld := ⟨.TSP_CAPS, 24, 8⟩
abbrev TSP_CAPS_STREAMS : Fld := ⟨.TSP_CAPS, 16, 8⟩
abbrev TSP_CAPS_VERSION : Fld := ⟨.TSP_CAPS, 8, 8⟩
abbrev TSP_CAPS_RX_KIB : Fld := ⟨.TSP_CAPS, 0, 8⟩
abbrev TSP_REF_STATUS_PAIR_OK : Fld := ⟨.TSP_REF_STATUS, 0, 8⟩
abbrev TSP_TILES_OUT_COUNT : Fld := ⟨.TSP_TILES_OUT, 0, 64⟩
abbrev TSP_TILES_IN_COUNT : Fld := ⟨.TSP_TILES_IN, 0, 64⟩
abbrev HIF_CAPS_MAX_VFS : Fld := ⟨.HIF_CAPS, 24, 8⟩
abbrev HIF_CAPS_QUEUES : Fld := ⟨.HIF_CAPS, 16, 8⟩
abbrev HIF_CAPS_VECTORS : Fld := ⟨.HIF_CAPS, 0, 16⟩
abbrev HIF_LINK_STATUS_UP : Fld := ⟨.HIF_LINK_STATUS, 31, 1⟩
abbrev HIF_LINK_STATUS_GEN : Fld := ⟨.HIF_LINK_STATUS, 20, 4⟩
abbrev HIF_LINK_STATUS_WIDTH : Fld := ⟨.HIF_LINK_STATUS, 8, 8⟩
abbrev HIF_LINK_STATUS_NUM_VFS : Fld := ⟨.HIF_LINK_STATUS, 0, 8⟩
abbrev HIF_BAR2_MAP_BASE : Fld := ⟨.HIF_BAR2_MAP, 36, 12⟩
abbrev HIF_BAR2_MAP_PARTITION : Fld := ⟨.HIF_BAR2_MAP, 0, 8⟩
abbrev HIF_VEC_CFG_PF_VECS : Fld := ⟨.HIF_VEC_CFG, 16, 11⟩
abbrev HIF_VEC_CFG_VF_VECS : Fld := ⟨.HIF_VEC_CFG, 0, 6⟩
abbrev HIF_BAR0_BAD_COUNT : Fld := ⟨.HIF_BAR0_BAD, 0, 32⟩
abbrev HIF_BAR2_REFUSED_COUNT : Fld := ⟨.HIF_BAR2_REFUSED, 0, 32⟩
abbrev HIF_VEC_DROP_COUNT : Fld := ⟨.HIF_VEC_DROP, 0, 32⟩
abbrev HIF_CPL_TIMEOUT_COUNT : Fld := ⟨.HIF_CPL_TIMEOUT, 0, 32⟩
abbrev TSP_PORT_CTRL_DEGRADE_EN : Fld := ⟨.TSP_PORT_CTRL, 3, 1⟩
abbrev TSP_PORT_CTRL_RETRY_EN : Fld := ⟨.TSP_PORT_CTRL, 2, 1⟩
abbrev TSP_PORT_CTRL_RETRAIN : Fld := ⟨.TSP_PORT_CTRL, 1, 1⟩
abbrev TSP_PORT_CTRL_DISABLE : Fld := ⟨.TSP_PORT_CTRL, 0, 1⟩
abbrev TSP_PORT_STATUS_STATE : Fld := ⟨.TSP_PORT_STATUS, 28, 4⟩
abbrev TSP_PORT_STATUS_FAIL_CAUSE : Fld := ⟨.TSP_PORT_STATUS, 24, 4⟩
abbrev TSP_PORT_STATUS_TX_LANES : Fld := ⟨.TSP_PORT_STATUS, 20, 4⟩
abbrev TSP_PORT_STATUS_RX_LANES : Fld := ⟨.TSP_PORT_STATUS, 16, 4⟩
abbrev TSP_PORT_STATUS_VER_MAJOR : Fld := ⟨.TSP_PORT_STATUS, 4, 4⟩
abbrev TSP_PORT_STATUS_VER_MINOR : Fld := ⟨.TSP_PORT_STATUS, 0, 4⟩
abbrev TSP_PORT_NEG_FEATURES : Fld := ⟨.TSP_PORT_NEG, 0, 16⟩
abbrev TSP_LANE_STATUS_RX_SER : Fld := ⟨.TSP_LANE_STATUS, 0, 32⟩
abbrev TSP_PORT_COMMIT_GO : Fld := ⟨.TSP_PORT_COMMIT, 0, 1⟩
abbrev TSP_CRED_STATUS_BUSY : Fld := ⟨.TSP_CRED_STATUS, 8, 1⟩
abbrev TSP_CRED_STATUS_RESULT : Fld := ⟨.TSP_CRED_STATUS, 0, 4⟩
abbrev TSP_FAULT_CNT_COUNT : Fld := ⟨.TSP_FAULT_CNT, 0, 32⟩
abbrev TSP_DEGRADE_CNT_COUNT : Fld := ⟨.TSP_DEGRADE_CNT, 0, 32⟩
abbrev TSP_REPLAY_CNT_COUNT : Fld := ⟨.TSP_REPLAY_CNT, 0, 32⟩
abbrev TSP_DUP_CNT_COUNT : Fld := ⟨.TSP_DUP_CNT, 0, 32⟩
abbrev TSP_TX_BYTES_COUNT : Fld := ⟨.TSP_TX_BYTES, 0, 64⟩
abbrev TSP_RX_BYTES_COUNT : Fld := ⟨.TSP_RX_BYTES, 0, 64⟩
abbrev TSP_STREAM_CFG_EN : Fld := ⟨.TSP_STREAM_CFG, 31, 1⟩
abbrev TSP_STREAM_CFG_PARTITION : Fld := ⟨.TSP_STREAM_CFG, 8, 8⟩
abbrev TSP_STREAM_CRED_TILES : Fld := ⟨.TSP_STREAM_CRED, 12, 4⟩
abbrev TSP_STREAM_CRED_BLOCKS : Fld := ⟨.TSP_STREAM_CRED, 0, 12⟩
abbrev TSP_STREAM_STATUS_TOO_BIG : Fld := ⟨.TSP_STREAM_STATUS, 31, 1⟩
abbrev TSP_STREAM_STATUS_RX_HELD : Fld := ⟨.TSP_STREAM_STATUS, 20, 4⟩
abbrev TSP_STREAM_STATUS_TX_TILES : Fld := ⟨.TSP_STREAM_STATUS, 16, 4⟩
abbrev TSP_STREAM_STATUS_TX_BLOCKS : Fld := ⟨.TSP_STREAM_STATUS, 0, 12⟩
abbrev HIF_SQ_BASE_VA : Fld := ⟨.HIF_SQ_BASE, 6, 50⟩
abbrev HIF_SQ_CTRL_EN : Fld := ⟨.HIF_SQ_CTRL, 31, 1⟩
abbrev HIF_SQ_CTRL_DB_MEM : Fld := ⟨.HIF_SQ_CTRL, 30, 1⟩
abbrev HIF_SQ_CTRL_VEC : Fld := ⟨.HIF_SQ_CTRL, 25, 5⟩
abbrev HIF_SQ_CTRL_LOG2_ENTRIES : Fld := ⟨.HIF_SQ_CTRL, 16, 5⟩
abbrev HIF_SQ_CTRL_BURST : Fld := ⟨.HIF_SQ_CTRL, 8, 8⟩
abbrev HIF_SQ_CTRL_SKIP : Fld := ⟨.HIF_SQ_CTRL, 2, 1⟩
abbrev HIF_SQ_CTRL_RESUME : Fld := ⟨.HIF_SQ_CTRL, 1, 1⟩
abbrev HIF_SQ_STATUS_ERR : Fld := ⟨.HIF_SQ_STATUS, 28, 4⟩
abbrev HIF_SQ_STATUS_HALTED : Fld := ⟨.HIF_SQ_STATUS, 27, 1⟩
abbrev HIF_SQ_STATUS_IDLE : Fld := ⟨.HIF_SQ_STATUS, 26, 1⟩
abbrev HIF_SQ_STATUS_DB_ERR : Fld := ⟨.HIF_SQ_STATUS, 25, 1⟩
abbrev HIF_SQ_STATUS_INFLIGHT : Fld := ⟨.HIF_SQ_STATUS, 0, 17⟩
abbrev HIF_SQ_TAIL_INDEX : Fld := ⟨.HIF_SQ_TAIL, 0, 17⟩
abbrev HIF_SQ_HEAD_INDEX : Fld := ⟨.HIF_SQ_HEAD, 0, 17⟩
abbrev HIF_CQ_BASE_VA : Fld := ⟨.HIF_CQ_BASE, 6, 50⟩
abbrev HIF_CQ_SIZE_LOG2_RECORDS : Fld := ⟨.HIF_CQ_SIZE, 0, 5⟩
abbrev HIF_CQ_TAIL_INDEX : Fld := ⟨.HIF_CQ_TAIL, 0, 17⟩
abbrev HIF_CQ_HEAD_INDEX : Fld := ⟨.HIF_CQ_HEAD, 0, 17⟩
abbrev HIF_SQ_DBADDR_OFFSET : Fld := ⟨.HIF_SQ_DBADDR, 3, 45⟩
abbrev PTN_CAPS_PARTITIONS : Fld := ⟨.PTN_CAPS, 24, 8⟩
abbrev PTN_CAPS_QUEUES : Fld := ⟨.PTN_CAPS, 16, 8⟩
abbrev PTN_CAPS_RINGS : Fld := ⟨.PTN_CAPS, 8, 8⟩
abbrev QOS_COMMIT_GO : Fld := ⟨.QOS_COMMIT, 0, 1⟩
abbrev QOS_STATUS_FAIL_PART : Fld := ⟨.QOS_STATUS, 24, 8⟩
abbrev QOS_STATUS_BUSY : Fld := ⟨.QOS_STATUS, 8, 1⟩
abbrev QOS_STATUS_RESULT : Fld := ⟨.QOS_STATUS, 0, 4⟩
abbrev RST_CTRL_CONFIRM : Fld := ⟨.RST_CTRL, 8, 8⟩
abbrev RST_CTRL_HALF_W : Fld := ⟨.RST_CTRL, 2, 1⟩
abbrev RST_CTRL_HALF_E : Fld := ⟨.RST_CTRL, 1, 1⟩
abbrev RST_CTRL_CHIP : Fld := ⟨.RST_CTRL, 0, 1⟩
abbrev RST_ENGINE_ENGINE_ID : Fld := ⟨.RST_ENGINE, 8, 8⟩
abbrev RST_ENGINE_CLASS : Fld := ⟨.RST_ENGINE, 0, 4⟩
abbrev RST_STATUS_ENG_BUSY : Fld := ⟨.RST_STATUS, 31, 1⟩
abbrev RST_STATUS_LAST_CAUSE : Fld := ⟨.RST_STATUS, 24, 4⟩
abbrev RST_STATUS_TIMEOUT_CNT : Fld := ⟨.RST_STATUS, 0, 16⟩
abbrev PTN_RST_VEC_VEC : Fld := ⟨.PTN_RST_VEC, 1, 5⟩
abbrev PTN_RST_VEC_EN : Fld := ⟨.PTN_RST_VEC, 0, 1⟩
abbrev PTN_DRAINING_LO_PARTS : Fld := ⟨.PTN_DRAINING_LO, 0, 64⟩
abbrev PTN_DRAINING_HI_PARTS : Fld := ⟨.PTN_DRAINING_HI, 0, 64⟩
abbrev QOS_T0_CAP : Fld := ⟨.QOS_T0, 16, 11⟩
abbrev QOS_T0_SHARE : Fld := ⟨.QOS_T0, 0, 11⟩
abbrev QOS_T1_CAP : Fld := ⟨.QOS_T1, 16, 11⟩
abbrev QOS_T1_SHARE : Fld := ⟨.QOS_T1, 0, 11⟩
abbrev QOS_FAB_CAP : Fld := ⟨.QOS_FAB, 16, 11⟩
abbrev QOS_FAB_SHARE : Fld := ⟨.QOS_FAB, 0, 11⟩
abbrev QOS_DA_CAP : Fld := ⟨.QOS_DA, 16, 11⟩
abbrev QOS_DA_SHARE : Fld := ⟨.QOS_DA, 0, 11⟩
abbrev QOS_SCP_CAP : Fld := ⟨.QOS_SCP, 16, 11⟩
abbrev QOS_SCP_SHARE : Fld := ⟨.QOS_SCP, 0, 11⟩
abbrev QOS_TC_TC : Fld := ⟨.QOS_TC, 0, 3⟩
abbrev PTN_ID_VF_EN : Fld := ⟨.PTN_ID, 8, 1⟩
abbrev PTN_ID_PARTITION : Fld := ⟨.PTN_ID, 0, 8⟩
abbrev PTN_CTRL_RESET : Fld := ⟨.PTN_CTRL, 0, 1⟩
abbrev PTN_STATUS_STATE : Fld := ⟨.PTN_STATUS, 28, 4⟩
abbrev PTN_STATUS_TIMEOUT : Fld := ⟨.PTN_STATUS, 27, 1⟩
abbrev PTN_STATUS_LAST_US : Fld := ⟨.PTN_STATUS, 0, 16⟩
abbrev PTN_IRQ_DROP_COUNT : Fld := ⟨.PTN_IRQ_DROP, 0, 32⟩
abbrev PTN_RST_CNT_COUNT : Fld := ⟨.PTN_RST_CNT, 0, 32⟩
abbrev PTN_MR_BASE_VA : Fld := ⟨.PTN_MR_BASE, 6, 50⟩
abbrev PTN_MR_CTRL_EN : Fld := ⟨.PTN_MR_CTRL, 31, 1⟩
abbrev PTN_MR_CTRL_VEC : Fld := ⟨.PTN_MR_CTRL, 21, 5⟩
abbrev PTN_MR_CTRL_SLOT_LOG2 : Fld := ⟨.PTN_MR_CTRL, 16, 4⟩
abbrev PTN_MR_CTRL_LOG2_SLOTS : Fld := ⟨.PTN_MR_CTRL, 0, 5⟩
abbrev PTN_MR_TAIL_INDEX : Fld := ⟨.PTN_MR_TAIL, 0, 17⟩
abbrev PTN_MR_HEAD_INDEX : Fld := ⟨.PTN_MR_HEAD, 0, 17⟩
abbrev PTN_MR_DROP_ERR : Fld := ⟨.PTN_MR_DROP, 31, 1⟩
abbrev PTN_MR_DROP_COUNT : Fld := ⟨.PTN_MR_DROP, 0, 24⟩
abbrev ERR_CAPS_LOG_RECORDS : Fld := ⟨.ERR_CAPS, 16, 16⟩
abbrev ERR_CAPS_REC_BYTES : Fld := ⟨.ERR_CAPS, 8, 8⟩
abbrev ERR_CAPS_CLASSES : Fld := ⟨.ERR_CAPS, 0, 8⟩
abbrev ERR_CFG_CORR_THRESH : Fld := ⟨.ERR_CFG, 0, 16⟩
abbrev ERR_LOG_SEQ_SEQ : Fld := ⟨.ERR_LOG_SEQ, 0, 32⟩
abbrev ERR_RING_BASE_IOVA : Fld := ⟨.ERR_RING_BASE, 12, 52⟩
abbrev ERR_RING_CTRL_EN : Fld := ⟨.ERR_RING_CTRL, 31, 1⟩
abbrev ERR_RING_CTRL_VEC : Fld := ⟨.ERR_RING_CTRL, 21, 5⟩
abbrev ERR_RING_CTRL_LOG2_RECORDS : Fld := ⟨.ERR_RING_CTRL, 16, 5⟩
abbrev ERR_RING_CTRL_WR_ERR : Fld := ⟨.ERR_RING_CTRL, 15, 1⟩
abbrev ERR_RING_TAIL_INDEX : Fld := ⟨.ERR_RING_TAIL, 0, 17⟩
abbrev ERR_RING_HEAD_INDEX : Fld := ⟨.ERR_RING_HEAD, 0, 17⟩
abbrev ERR_RING_DROP_COUNT : Fld := ⟨.ERR_RING_DROP, 0, 32⟩
abbrev ERR_DETECT_CNT_COUNT : Fld := ⟨.ERR_DETECT_CNT, 0, 32⟩
abbrev ERR_ARB_CNT_COUNT : Fld := ⟨.ERR_ARB_CNT, 0, 32⟩
abbrev ERR_CSUM_PATH_CNT_COUNT : Fld := ⟨.ERR_CSUM_PATH_CNT, 0, 32⟩
abbrev ERR_NODECIDE_CNT_COUNT : Fld := ⟨.ERR_NODECIDE_CNT, 0, 32⟩
abbrev ERR_UNCOMPARED_COUNT : Fld := ⟨.ERR_UNCOMPARED, 0, 32⟩
abbrev ERR_RESIDUE_CNT_COUNT : Fld := ⟨.ERR_RESIDUE_CNT, 0, 32⟩
abbrev ERR_POISON_RD_COUNT : Fld := ⟨.ERR_POISON_RD, 0, 64⟩
abbrev ERR_RETIRED_ARRAYS : Fld := ⟨.ERR_RETIRED, 0, 64⟩
abbrev TST_CTRL_EN : Fld := ⟨.TST_CTRL, 31, 1⟩
abbrev TST_CTRL_PER_BOUNDARY : Fld := ⟨.TST_CTRL, 16, 6⟩
abbrev TST_CTRL_BUDGET : Fld := ⟨.TST_CTRL, 0, 8⟩
abbrev TST_STATUS_SWEEP_W : Fld := ⟨.TST_STATUS, 28, 4⟩
abbrev TST_STATUS_SWEEP_E : Fld := ⟨.TST_STATUS, 24, 4⟩
abbrev TST_STATUS_STAGE : Fld := ⟨.TST_STATUS, 16, 2⟩
abbrev TST_STATUS_RETEST_PENDING : Fld := ⟨.TST_STATUS, 8, 8⟩
abbrev TST_SLOTS_COUNT : Fld := ⟨.TST_SLOTS, 0, 64⟩
abbrev TST_CYCLES_COUNT : Fld := ⟨.TST_CYCLES, 0, 64⟩
abbrev TST_MISMATCH_COUNT : Fld := ⟨.TST_MISMATCH, 0, 32⟩
abbrev TST_RETEST_CNT_CONFIRMED : Fld := ⟨.TST_RETEST_CNT, 16, 16⟩
abbrev TST_RETEST_CNT_UNCONFIRMED : Fld := ⟨.TST_RETEST_CNT, 0, 16⟩
abbrev TST_SWEEP_CTRL_HALF_W : Fld := ⟨.TST_SWEEP_CTRL, 1, 1⟩
abbrev TST_SWEEP_CTRL_HALF_E : Fld := ⟨.TST_SWEEP_CTRL, 0, 1⟩
abbrev CNT_CAPS_PROGS : Fld := ⟨.CNT_CAPS, 24, 8⟩
abbrev CNT_CAPS_LEASE_US : Fld := ⟨.CNT_CAPS, 16, 8⟩
abbrev CNT_CAPS_RENEW_US : Fld := ⟨.CNT_CAPS, 8, 8⟩
abbrev CNT_CFG_EN : Fld := ⟨.CNT_CFG, 31, 1⟩
abbrev CNT_CFG_LOSS_US : Fld := ⟨.CNT_CFG, 16, 8⟩
abbrev CNT_CFG_STRIPE : Fld := ⟨.CNT_CFG, 8, 8⟩
abbrev CNT_CFG_PARTNER : Fld := ⟨.CNT_CFG, 0, 8⟩
abbrev CNT_MIRROR_BASE_GIB : Fld := ⟨.CNT_MIRROR_BASE, 30, 18⟩
abbrev CNT_MIRROR_SIZE_GIB : Fld := ⟨.CNT_MIRROR_SIZE, 0, 14⟩
abbrev CNT_COMMIT_GO : Fld := ⟨.CNT_COMMIT, 0, 1⟩
abbrev CNT_HOFF_BASE_VALID : Fld := ⟨.CNT_HOFF_BASE, 63, 1⟩
abbrev CNT_HOFF_BASE_PAGE : Fld := ⟨.CNT_HOFF_BASE, 16, 32⟩
abbrev CNT_HOFF_LEN_PAGES : Fld := ⟨.CNT_HOFF_LEN, 0, 15⟩
abbrev CNT_CFG_STATUS_BUSY : Fld := ⟨.CNT_CFG_STATUS, 8, 1⟩
abbrev CNT_CFG_STATUS_RESULT : Fld := ⟨.CNT_CFG_STATUS, 0, 4⟩
abbrev CNT_STATE_STATE : Fld := ⟨.CNT_STATE, 28, 4⟩
abbrev CNT_STATE_LAST_LOSS : Fld := ⟨.CNT_STATE, 24, 4⟩
abbrev CNT_CTRL_CONFIRM : Fld := ⟨.CNT_CTRL, 8, 8⟩
abbrev CNT_CTRL_RESTART : Fld := ⟨.CNT_CTRL, 1, 1⟩
abbrev CNT_CTRL_TAKEOVER : Fld := ⟨.CNT_CTRL, 0, 1⟩
abbrev CNT_PEER_MASK_MASK : Fld := ⟨.CNT_PEER_MASK, 0, 64⟩
abbrev CNT_PEER_CMD_OP : Fld := ⟨.CNT_PEER_CMD, 0, 4⟩
abbrev CNT_PROG_TAKEN_PROGS : Fld := ⟨.CNT_PROG_TAKEN, 0, 64⟩
abbrev CNT_MIRROR_WAIT_PROGS : Fld := ⟨.CNT_MIRROR_WAIT, 0, 64⟩
abbrev CNT_MIRRORED_PROGS : Fld := ⟨.CNT_MIRRORED, 0, 64⟩
abbrev CNT_LEASE_STATUS_EPOCH : Fld := ⟨.CNT_LEASE_STATUS, 32, 32⟩
abbrev CNT_LEASE_STATUS_HOLDER : Fld := ⟨.CNT_LEASE_STATUS, 30, 2⟩
abbrev CNT_LEASE_STATUS_AGE_NS : Fld := ⟨.CNT_LEASE_STATUS, 0, 16⟩
abbrev CNT_TAKEOVER_CNT_COUNT : Fld := ⟨.CNT_TAKEOVER_CNT, 0, 32⟩
abbrev CNT_DOUBLE_LOSS_CNT_COUNT : Fld := ⟨.CNT_DOUBLE_LOSS_CNT, 0, 32⟩
abbrev CNT_LEASE_REFUSED_COUNT : Fld := ⟨.CNT_LEASE_REFUSED, 0, 32⟩
abbrev CNT_HOFF_TIE_CNT_COUNT : Fld := ⟨.CNT_HOFF_TIE_CNT, 0, 32⟩
abbrev CNT_MIRROR_REFUSED_COUNT : Fld := ⟨.CNT_MIRROR_REFUSED, 0, 32⟩
abbrev CNT_MIRROR_BYTES_COUNT : Fld := ⟨.CNT_MIRROR_BYTES, 0, 64⟩
abbrev CNT_PROG_MIR_EN : Fld := ⟨.CNT_PROG_MIR, 31, 1⟩
abbrev CNT_PROG_MIR_SLOT_MIB : Fld := ⟨.CNT_PROG_MIR, 16, 12⟩
abbrev CNT_PROG_MIR_REGION_GIB : Fld := ⟨.CNT_PROG_MIR, 0, 12⟩
abbrev CNT_SHADOW_EN : Fld := ⟨.CNT_SHADOW, 63, 1⟩
abbrev CNT_SHADOW_LOCAL_PROG : Fld := ⟨.CNT_SHADOW, 56, 6⟩
abbrev CNT_SHADOW_VA : Fld := ⟨.CNT_SHADOW, 16, 40⟩
abbrev MGT_CAPS_OD_LAYOUT : Fld := ⟨.MGT_CAPS, 24, 8⟩
abbrev MGT_CAPS_JXVM : Fld := ⟨.MGT_CAPS, 16, 8⟩
abbrev MGT_CAPS_SESSIONS : Fld := ⟨.MGT_CAPS, 8, 8⟩
abbrev MGT_CAPS_ANCHORS : Fld := ⟨.MGT_CAPS, 0, 8⟩
abbrev MGT_MBX_CTRL_EN : Fld := ⟨.MGT_MBX_CTRL, 31, 1⟩
abbrev MGT_MBX_CTRL_VEC : Fld := ⟨.MGT_MBX_CTRL, 21, 5⟩
abbrev MGT_MBX_DOORBELL_LEN : Fld := ⟨.MGT_MBX_DOORBELL, 0, 15⟩
abbrev MGT_MBX_STATUS_BUSY : Fld := ⟨.MGT_MBX_STATUS, 31, 1⟩
abbrev MGT_MBX_STATUS_DONE : Fld := ⟨.MGT_MBX_STATUS, 30, 1⟩
abbrev MGT_MBX_STATUS_RSP_LEN : Fld := ⟨.MGT_MBX_STATUS, 0, 15⟩
abbrev MGT_REFUSE_LAST_INDEX : Fld := ⟨.MGT_REFUSE_LAST, 48, 16⟩
abbrev MGT_REFUSE_LAST_SUBINDEX : Fld := ⟨.MGT_REFUSE_LAST, 40, 8⟩
abbrev MGT_REFUSE_LAST_CAUSE : Fld := ⟨.MGT_REFUSE_LAST, 32, 8⟩
abbrev MGT_REFUSE_LAST_SOURCE : Fld := ⟨.MGT_REFUSE_LAST, 28, 4⟩
abbrev MGT_REFUSE_LAST_FUNC : Fld := ⟨.MGT_REFUSE_LAST, 8, 8⟩
abbrev MGT_CFG_STATUS_GENERATION : Fld := ⟨.MGT_CFG_STATUS, 32, 32⟩
abbrev MGT_CFG_STATUS_DEFAULTED : Fld := ⟨.MGT_CFG_STATUS, 31, 1⟩
abbrev MGT_CFG_STATUS_SAVE_BUSY : Fld := ⟨.MGT_CFG_STATUS, 30, 1⟩
abbrev MGT_CFG_STATUS_SOURCE : Fld := ⟨.MGT_CFG_STATUS, 28, 2⟩
abbrev MGT_CFG_STATUS_A_STATE : Fld := ⟨.MGT_CFG_STATUS, 24, 4⟩
abbrev MGT_CFG_STATUS_B_STATE : Fld := ⟨.MGT_CFG_STATUS, 20, 4⟩
abbrev MGT_CFG_STATUS_FAIL_RECORD : Fld := ⟨.MGT_CFG_STATUS, 0, 20⟩
abbrev MGT_REFUSE_CNT_COUNT : Fld := ⟨.MGT_REFUSE_CNT, 0, 32⟩
abbrev MGT_NET_MAC_ADDR : Fld := ⟨.MGT_NET_MAC, 0, 48⟩
abbrev MGT_NET_PLCA_EN : Fld := ⟨.MGT_NET_PLCA, 31, 1⟩
abbrev MGT_NET_PLCA_ID : Fld := ⟨.MGT_NET_PLCA, 16, 8⟩
abbrev MGT_NET_PLCA_MAX_BURST : Fld := ⟨.MGT_NET_PLCA, 8, 8⟩
abbrev MGT_NET_PLCA_TO_TIMER : Fld := ⟨.MGT_NET_PLCA, 0, 8⟩
abbrev MGT_NET_COMMIT_GO : Fld := ⟨.MGT_NET_COMMIT, 0, 1⟩
abbrev MGT_NET_CFG_STATUS_BUSY : Fld := ⟨.MGT_NET_CFG_STATUS, 8, 1⟩
abbrev MGT_NET_CFG_STATUS_RESULT : Fld := ⟨.MGT_NET_CFG_STATUS, 0, 4⟩
abbrev MGT_NET_STATUS_PLCA_ACTIVE : Fld := ⟨.MGT_NET_STATUS, 31, 1⟩
abbrev MGT_NET_STATUS_BEACON : Fld := ⟨.MGT_NET_STATUS, 30, 1⟩
abbrev MGT_NET_STATUS_DUP : Fld := ⟨.MGT_NET_STATUS, 29, 1⟩
abbrev MGT_NET_STATUS_SESSIONS : Fld := ⟨.MGT_NET_STATUS, 20, 4⟩
abbrev MGT_NET_STATUS_HANDSHAKES : Fld := ⟨.MGT_NET_STATUS, 18, 2⟩
abbrev MGT_NET_STATUS_MBX_SESSION : Fld := ⟨.MGT_NET_STATUS, 17, 1⟩
abbrev MGT_NET_FCS_ERR_COUNT : Fld := ⟨.MGT_NET_FCS_ERR, 0, 32⟩
abbrev MGT_NET_UNAUTH_COUNT : Fld := ⟨.MGT_NET_UNAUTH, 0, 32⟩
abbrev MGT_NET_OTHER_COUNT : Fld := ⟨.MGT_NET_OTHER, 0, 32⟩
abbrev MGT_NET_LIMITED_COUNT : Fld := ⟨.MGT_NET_LIMITED, 0, 32⟩
abbrev MGT_NET_COLLISIONS_COUNT : Fld := ⟨.MGT_NET_COLLISIONS, 0, 32⟩
abbrev MGT_NET_BEACON_LOSS_COUNT : Fld := ⟨.MGT_NET_BEACON_LOSS, 0, 32⟩
abbrev MGT_NET_RX_FRAMES_COUNT : Fld := ⟨.MGT_NET_RX_FRAMES, 0, 64⟩
abbrev MGT_NET_TX_FRAMES_COUNT : Fld := ⟨.MGT_NET_TX_FRAMES, 0, 64⟩
abbrev MGT_ANCHOR_COMMIT_GO : Fld := ⟨.MGT_ANCHOR_COMMIT, 0, 1⟩
abbrev MGT_ANCHOR_STATUS_BUSY : Fld := ⟨.MGT_ANCHOR_STATUS, 8, 1⟩
abbrev MGT_ANCHOR_STATUS_RESULT : Fld := ⟨.MGT_ANCHOR_STATUS, 0, 4⟩
abbrev MGT_DELEG_VALID : Fld := ⟨.MGT_DELEG, 63, 1⟩
abbrev MGT_DELEG_LAST : Fld := ⟨.MGT_DELEG, 16, 16⟩
abbrev MGT_DELEG_FIRST : Fld := ⟨.MGT_DELEG, 0, 16⟩
abbrev MGT_DELEG_COMMIT_GO : Fld := ⟨.MGT_DELEG_COMMIT, 0, 1⟩
abbrev MGT_DELEG_STATUS_BUSY : Fld := ⟨.MGT_DELEG_STATUS, 8, 1⟩
abbrev MGT_DELEG_STATUS_RESULT : Fld := ⟨.MGT_DELEG_STATUS, 0, 4⟩
abbrev SCL_STATUS_SATURATED : Fld := ⟨.SCL_STATUS, 7, 1⟩
abbrev SCL_STATUS_DISCIPLINED : Fld := ⟨.SCL_STATUS, 6, 1⟩
abbrev SCL_STATUS_STATE : Fld := ⟨.SCL_STATUS, 0, 3⟩
abbrev SCL_EVENT_CNT_COUNT : Fld := ⟨.SCL_EVENT_CNT, 0, 32⟩
abbrev SCL_LAST_SEQ_VALUE : Fld := ⟨.SCL_LAST_SEQ, 0, 64⟩
abbrev SCL_TICK_VALUE : Fld := ⟨.SCL_TICK, 0, 64⟩
abbrev SCL_DISC_CORR : Fld := ⟨.SCL_DISC, 16, 16⟩
abbrev SCL_DISC_RESID : Fld := ⟨.SCL_DISC, 0, 16⟩
abbrev SCL_IN_DROP_COUNT : Fld := ⟨.SCL_IN_DROP, 0, 32⟩
abbrev SCL_OFFER_STATUS_RESULT : Fld := ⟨.SCL_OFFER_STATUS, 28, 4⟩
abbrev SCL_OFFER_STATUS_HELD : Fld := ⟨.SCL_OFFER_STATUS, 0, 21⟩
abbrev SCL_FW_VERSION_PARAM_VERSION : Fld := ⟨.SCL_FW_VERSION, 16, 16⟩
abbrev SCL_FW_VERSION_FW_VERSION : Fld := ⟨.SCL_FW_VERSION, 0, 16⟩
abbrev BOOT_STATUS_WEST_STAGE : Fld := ⟨.BOOT_STATUS, 28, 4⟩
abbrev BOOT_STATUS_EAST_STAGE : Fld := ⟨.BOOT_STATUS, 24, 4⟩
abbrev BOOT_STATUS_ID_VALID : Fld := ⟨.BOOT_STATUS, 19, 1⟩
abbrev BOOT_STATUS_SLOT : Fld := ⟨.BOOT_STATUS, 18, 1⟩
abbrev BOOT_STATUS_WARM : Fld := ⟨.BOOT_STATUS, 17, 1⟩
abbrev BOOT_STATUS_BOOT_MS : Fld := ⟨.BOOT_STATUS, 0, 16⟩
abbrev BOOT_FW_VERSION : Fld := ⟨.BOOT_FW, 0, 32⟩
abbrev BOOT_SVN_IMAGE_SVN : Fld := ⟨.BOOT_SVN, 16, 16⟩
abbrev BOOT_SVN_COUNTER : Fld := ⟨.BOOT_SVN, 0, 16⟩
abbrev BOOT_SVN_COMMIT_CONFIRM : Fld := ⟨.BOOT_SVN_COMMIT, 8, 8⟩
abbrev BOOT_SVN_COMMIT_GO : Fld := ⟨.BOOT_SVN_COMMIT, 0, 1⟩
abbrev BOOT_OFFER_RESULT : Fld := ⟨.BOOT_OFFER, 28, 4⟩
abbrev BOOT_OFFER_HELD : Fld := ⟨.BOOT_OFFER, 0, 23⟩
abbrev BOOT_TIME_NS_VALUE : Fld := ⟨.BOOT_TIME_NS, 0, 64⟩
abbrev BOOT_UTC_OFFSET_VALUE : Fld := ⟨.BOOT_UTC_OFFSET, 0, 64⟩
abbrev BOOT_TIME_HOST_UTC_NS : Fld := ⟨.BOOT_TIME_HOST, 0, 64⟩
abbrev BOOT_TIME_STATUS_RESTORED : Fld := ⟨.BOOT_TIME_STATUS, 31, 1⟩
abbrev BOOT_TIME_STATUS_DISCIPLINED : Fld := ⟨.BOOT_TIME_STATUS, 30, 1⟩
abbrev BOOT_TIME_STATUS_SOURCE : Fld := ⟨.BOOT_TIME_STATUS, 28, 2⟩
abbrev BOOT_TIME_STATUS_REJECTS : Fld := ⟨.BOOT_TIME_STATUS, 16, 12⟩
abbrev BOOT_TIME_STATUS_FREQ_CORR : Fld := ⟨.BOOT_TIME_STATUS, 0, 16⟩
abbrev LIFE_CTRL_CONFIRM : Fld := ⟨.LIFE_CTRL, 8, 8⟩
abbrev LIFE_CTRL_SHUTDOWN : Fld := ⟨.LIFE_CTRL, 1, 1⟩
abbrev LIFE_CTRL_PERSIST_NOW : Fld := ⟨.LIFE_CTRL, 0, 1⟩
abbrev LIFE_STATUS_PERSIST_BUSY : Fld := ⟨.LIFE_STATUS, 31, 1⟩
abbrev LIFE_STATUS_LAST_FAIL : Fld := ⟨.LIFE_STATUS, 30, 1⟩
abbrev LIFE_STATUS_EMPTY : Fld := ⟨.LIFE_STATUS, 29, 1⟩
abbrev LIFE_STATUS_SHUTDOWN_READY : Fld := ⟨.LIFE_STATUS, 28, 1⟩
abbrev LIFE_STATUS_AGE_S : Fld := ⟨.LIFE_STATUS, 0, 16⟩
abbrev LIFE_SERVICE_ADD_UTC_S : Fld := ⟨.LIFE_SERVICE_ADD, 24, 40⟩
abbrev LIFE_SERVICE_ADD_CODE : Fld := ⟨.LIFE_SERVICE_ADD, 16, 8⟩
abbrev LIFE_POWER_ON_S_COUNT : Fld := ⟨.LIFE_POWER_ON_S, 0, 64⟩
abbrev BOOT_TIME_CTRL_EN_NET : Fld := ⟨.BOOT_TIME_CTRL, 31, 1⟩
abbrev BOOT_TIME_CTRL_EN_HOST : Fld := ⟨.BOOT_TIME_CTRL, 30, 1⟩
abbrev BOOT_TIME_CTRL_DELAY_NS : Fld := ⟨.BOOT_TIME_CTRL, 0, 16⟩
abbrev PKG_THERM_CFG_TH_C : Fld := ⟨.PKG_THERM_CFG, 0, 8⟩
abbrev PKG_PWR_LIMIT_EN : Fld := ⟨.PKG_PWR_LIMIT, 31, 1⟩
abbrev PKG_PWR_LIMIT_LIMIT_W : Fld := ⟨.PKG_PWR_LIMIT, 0, 11⟩
abbrev PKG_AVS_CTRL_EN : Fld := ⟨.PKG_AVS_CTRL, 31, 1⟩
abbrev PKG_AVS_CTRL_SET_W_MV : Fld := ⟨.PKG_AVS_CTRL, 12, 12⟩
abbrev PKG_AVS_CTRL_SET_E_MV : Fld := ⟨.PKG_AVS_CTRL, 0, 12⟩
abbrev PKG_THROTTLE_STATUS_STATE_W : Fld := ⟨.PKG_THROTTLE_STATUS, 28, 4⟩
abbrev PKG_THROTTLE_STATUS_STATE_E : Fld := ⟨.PKG_THROTTLE_STATUS, 24, 4⟩
abbrev PKG_THROTTLE_STATUS_DUTY_W : Fld := ⟨.PKG_THROTTLE_STATUS, 20, 4⟩
abbrev PKG_THROTTLE_STATUS_DUTY_E : Fld := ⟨.PKG_THROTTLE_STATUS, 16, 4⟩
abbrev PKG_THROTTLE_STATUS_PROCHOT : Fld := ⟨.PKG_THROTTLE_STATUS, 3, 1⟩
abbrev PKG_THROTTLE_STATUS_POWER : Fld := ⟨.PKG_THROTTLE_STATUS, 2, 1⟩
abbrev PKG_THROTTLE_STATUS_THERM_W : Fld := ⟨.PKG_THROTTLE_STATUS, 1, 1⟩
abbrev PKG_THROTTLE_STATUS_THERM_E : Fld := ⟨.PKG_THROTTLE_STATUS, 0, 1⟩
abbrev PKG_THROTTLE_CYCLES_COUNT : Fld := ⟨.PKG_THROTTLE_CYCLES, 0, 64⟩
abbrev PKG_STRAPS_STRAP : Fld := ⟨.PKG_STRAPS, 0, 8⟩
abbrev MSIX_ADDR_ADDR : Fld := ⟨.MSIX_ADDR, 0, 64⟩
abbrev MSIX_DATA_DATA : Fld := ⟨.MSIX_DATA, 0, 32⟩
abbrev MSIX_CTRL_MASK : Fld := ⟨.MSIX_CTRL, 0, 1⟩
abbrev MSIX_PEND_PEND : Fld := ⟨.MSIX_PEND, 0, 1⟩

end Sys2Proof.Machine.F
end

