-- ==== Sys2Proof/Machine/RegTable.lean ====
section
/-!
DEFINITION. The register tables of the spec: width, place in BAR0 (or the partition page), place in the object
dictionary, how the instances are laid out, and every field with its access code (R7 to R10) and reset value.
-/

namespace Sys2Proof.Machine

/-- The access codes of the spec (rules R7 to R10). -/
inductive Access where
  | ro | rw | wo | w1c | w1s | rws | rol
  deriving DecidableEq, Repr

/-- One row of a register's field table. -/
structure FieldInfo where
  lo    : Nat
  w     : Nat
  acc   : Access
  reset : Nat
  deriving DecidableEq, Repr

/-- One dimension of a register's instances: how many, and the step of the BAR0 offset, of the object index and
of the subindex from one to the next. -/
structure Dim where
  count : Nat
  off   : Nat
  idx   : Nat
  sub   : Nat
  deriving DecidableEq, Repr

/-- Where a register stands: its width in bits, the BAR0 offset of instance 0 (none: the register has no BAR0
address), its object index and subindex (index 0: none), and the dimensions of its instances, outermost first. -/
structure RegPlace where
  width : Nat
  off   : Option Nat
  idx   : Nat
  sub   : Nat
  dims  : List Dim
  deriving DecidableEq, Repr

/-- The register maps of the spec. -/
def Reg.place : Reg → RegPlace
  | .PKG_DEVICE_ID => ⟨32, some 0x0, 0x1000, 0x1, []⟩
  | .PKG_IF_VERSION => ⟨32, some 0x4, 0x1000, 0x2, []⟩
  | .PKG_LAYOUT_VERSION => ⟨32, some 0x8, 0x1000, 0x3, []⟩
  | .PKG_NODE_ID => ⟨32, some 0xc, 0x1000, 0x4, []⟩
  | .PKG_HALF_STATUS => ⟨32, some 0x10, 0x1001, 0x1, []⟩
  | .PKG_IODIE_STATUS => ⟨32, some 0x14, 0x1001, 0x2, []⟩
  | .PKG_BRIDGE_STATUS => ⟨32, some 0x18, 0x1001, 0x3, []⟩
  | .PKG_DISCARD_CNT => ⟨32, some 0x1c, 0x1001, 0x4, []⟩
  | .PKG_BRIDGE_BYTES_EW => ⟨64, some 0x20, 0x1001, 0x5, []⟩
  | .PKG_BRIDGE_BYTES_WE => ⟨64, some 0x28, 0x1001, 0x6, []⟩
  | .PKG_BRIDGE_REPAIR_CNT => ⟨32, some 0x30, 0x1001, 0x7, []⟩
  | .PKG_CLK_STATUS => ⟨32, some 0x34, 0x1001, 0x8, []⟩
  | .XLT_CAPS => ⟨32, some 0x10000, 0x2100, 0x1, []⟩
  | .XLT_UNQUEUED => ⟨32, some 0x10004, 0x2100, 0x2, []⟩
  | .XLT_RLB_HIT => ⟨64, some 0x10008, 0x2100, 0x3, []⟩
  | .XLT_RLB_MISS => ⟨64, some 0x10010, 0x2100, 0x4, []⟩
  | .XLT_RES_MISS => ⟨64, some 0x10018, 0x2100, 0x5, []⟩
  | .XLT_CTL_REFUSED => ⟨32, some 0x10020, 0x2100, 0x6, []⟩
  | .XLT_TBL_SRC => ⟨64, some 0x11000, 0x3002, 0x1, [⟨129, 0x100, 16, 0⟩]⟩
  | .XLT_TBL_COUNT => ⟨32, some 0x11008, 0x3002, 0x2, [⟨129, 0x100, 16, 0⟩]⟩
  | .XLT_TBL_COMMIT => ⟨32, some 0x1100c, 0x3002, 0x3, [⟨129, 0x100, 16, 0⟩]⟩
  | .XLT_TBL_STATUS => ⟨32, some 0x11010, 0x3002, 0x4, [⟨129, 0x100, 16, 0⟩]⟩
  | .XLT_POOL_BASE => ⟨64, some 0x11018, 0x3002, 0x5, [⟨129, 0x100, 16, 0⟩]⟩
  | .XLT_POOL_PAGES => ⟨32, some 0x11020, 0x3002, 0x6, [⟨129, 0x100, 16, 0⟩]⟩
  | .XLT_KEY => ⟨64, some 0x11080, 0x3002, 0x10, [⟨129, 0x100, 16, 0⟩, ⟨16, 0x8, 0, 1⟩]⟩
  | .FLTQ_BASE => ⟨64, some 0x1000100, 0x3003, 0x1, [⟨128, 0x40000, 16, 0⟩]⟩
  | .FLTQ_CTRL => ⟨32, some 0x1000108, 0x3003, 0x2, [⟨128, 0x40000, 16, 0⟩]⟩
  | .FLTQ_STATUS => ⟨32, some 0x100010c, 0x3003, 0x3, [⟨128, 0x40000, 16, 0⟩]⟩
  | .FLTQ_TAIL => ⟨32, some 0x1000110, 0x3003, 0x4, [⟨128, 0x40000, 16, 0⟩]⟩
  | .FLTQ_HEAD => ⟨32, some 0x1000114, 0x3003, 0x5, [⟨128, 0x40000, 16, 0⟩]⟩
  | .FLTQ_RESUME => ⟨32, some 0x1000118, 0x3003, 0x6, [⟨128, 0x40000, 16, 0⟩]⟩
  | .FLTQ_QUEUE_FULL => ⟨32, some 0x100011c, 0x3003, 0x7, [⟨128, 0x40000, 16, 0⟩]⟩
  | .FLTQ_BAD_RESUME => ⟨32, some 0x1000120, 0x3003, 0x8, [⟨128, 0x40000, 16, 0⟩]⟩
  | .XLT_MIG_VA => ⟨64, some 0x1000128, 0x3003, 0x9, [⟨128, 0x40000, 16, 0⟩]⟩
  | .XLT_MIG_GO => ⟨32, some 0x1000130, 0x3003, 0xa, [⟨128, 0x40000, 16, 0⟩]⟩
  | .XLT_MIG_STATUS => ⟨32, some 0x1000134, 0x3003, 0xb, [⟨128, 0x40000, 16, 0⟩]⟩
  | .TIER_CAPS => ⟨32, some 0x20000, 0x2200, 0x1, []⟩
  | .TIER_T0_STATUS => ⟨32, some 0x20004, 0x2200, 0x2, []⟩
  | .TIER_T1_STATUS => ⟨32, some 0x20008, 0x2200, 0x3, []⟩
  | .TIER_T2_STATUS => ⟨32, some 0x2000c, 0x2200, 0x4, []⟩
  | .TIER_T1_INFO => ⟨32, some 0x20010, 0x2200, 0x5, []⟩
  | .TIER_T0_STAGE => ⟨32, some 0x20014, 0x2200, 0x6, []⟩
  | .TIER_T0_COMMIT => ⟨32, some 0x20018, 0x2200, 0x7, []⟩
  | .TIER_T0_CFG_STATUS => ⟨32, some 0x2001c, 0x2200, 0x8, []⟩
  | .TIER_STAGE_REFUSED => ⟨32, some 0x20020, 0x2200, 0x9, []⟩
  | .TIER_SCRUB_CTRL => ⟨32, some 0x20024, 0x2200, 0xa, []⟩
  | .TIER_T0_BYTES_RD => ⟨64, some 0x20030, 0x2200, 0xb, []⟩
  | .TIER_T0_BYTES_WR => ⟨64, some 0x20038, 0x2200, 0xc, []⟩
  | .TIER_T1_BYTES_RD => ⟨64, some 0x20040, 0x2200, 0xd, []⟩
  | .TIER_T1_BYTES_WR => ⟨64, some 0x20048, 0x2200, 0xe, []⟩
  | .TIER_T2_BYTES_RD => ⟨64, some 0x20050, 0x2200, 0xf, []⟩
  | .TIER_T2_BYTES_WR => ⟨64, some 0x20058, 0x2200, 0x10, []⟩
  | .TIER_CORR_T0 => ⟨64, some 0x20060, 0x2200, 0x11, []⟩
  | .TIER_CORR_T1 => ⟨64, some 0x20068, 0x2200, 0x12, []⟩
  | .TIER_UNCORR => ⟨32, some 0x20070, 0x2200, 0x13, []⟩
  | .TIER_T2_TIMEOUT_CNT => ⟨32, some 0x20074, 0x2200, 0x14, []⟩
  | .TILE_BUSY => ⟨64, some 0x20078, 0x2200, 0x15, []⟩
  | .TILE_MOVES => ⟨64, some 0x20080, 0x2200, 0x16, []⟩
  | .TILE_ERR_CNT => ⟨32, some 0x20088, 0x2200, 0x17, []⟩
  | .TILE_CRC_CNT => ⟨32, some 0x2008c, 0x2200, 0x18, []⟩
  | .TIER_T2WIN_BASE => ⟨64, some 0x21000, 0x3004, 0x1, [⟨128, 0x80, 16, 0⟩, ⟨8, 0x10, 0, 2⟩]⟩
  | .TIER_T2WIN_COUNT => ⟨64, some 0x21008, 0x3004, 0x2, [⟨128, 0x80, 16, 0⟩, ⟨8, 0x10, 0, 2⟩]⟩
  | .TIER_N_STATE => ⟨32, some 0x25000, 0x2210, 0x1, [⟨8, 0x100, 1, 0⟩]⟩
  | .TIER_N_HEALTH => ⟨32, some 0x25004, 0x2210, 0x2, [⟨8, 0x100, 1, 0⟩]⟩
  | .TIER_N_CAPACITY => ⟨64, some 0x25008, 0x2210, 0x3, [⟨8, 0x100, 1, 0⟩]⟩
  | .TIER_N_CTRL => ⟨32, some 0x25010, 0x2210, 0x4, [⟨8, 0x100, 1, 0⟩]⟩
  | .TIER_N_CMD_ERR => ⟨32, some 0x25014, 0x2210, 0x5, [⟨8, 0x100, 1, 0⟩]⟩
  | .PRF_CAPS => ⟨32, some 0x30000, 0x2300, 0x1, []⟩
  | .PRF_CH_MASK => ⟨64, some 0x30008, 0x2300, 0x3, []⟩
  | .PRF_MOVES_ISSUED => ⟨64, some 0x30010, 0x2300, 0x4, []⟩
  | .PRF_REFETCH_CNT => ⟨32, some 0x30018, 0x2300, 0x5, []⟩
  | .PRF_REDIRECT_CNT => ⟨32, some 0x3001c, 0x2300, 0x6, []⟩
  | .PRF_STAGE_FREE => ⟨64, some 0x30020, 0x2300, 0x2, []⟩
  | .CUR_VALUE => ⟨64, some 0x31000, 0x2310, 0x1, [⟨64, 0x100, 1, 0⟩]⟩
  | .CUR_STATE => ⟨32, some 0x31008, 0x2310, 0x2, [⟨64, 0x100, 1, 0⟩]⟩
  | .PRF_PROG_CFG => ⟨32, some 0x3100c, 0x2310, 0x3, [⟨64, 0x100, 1, 0⟩]⟩
  | .CUR_MATCH => ⟨64, some 0x31018, 0x2310, 0x6, [⟨64, 0x100, 1, 0⟩]⟩
  | .CUR_MATCH_CTRL => ⟨32, some 0x31020, 0x2310, 0x7, [⟨64, 0x100, 1, 0⟩]⟩
  | .PRF_LOAD_STATUS => ⟨32, some 0x31024, 0x2310, 0x8, [⟨64, 0x100, 1, 0⟩]⟩
  | .PRF_HALT => ⟨32, some 0x31028, 0x2310, 0x9, [⟨64, 0x100, 1, 0⟩]⟩
  | .PRF_SPEC_HIT => ⟨64, some 0x31070, 0x2310, 0x18, [⟨64, 0x100, 1, 0⟩]⟩
  | .PRF_SPEC_MISS_TILES => ⟨64, some 0x31078, 0x2310, 0x19, [⟨64, 0x100, 1, 0⟩]⟩
  | .PRF_SPEC_WASTE => ⟨64, some 0x31080, 0x2310, 0x1a, [⟨64, 0x100, 1, 0⟩]⟩
  | .PRF_STAGED_BYTES => ⟨64, some 0x31088, 0x2310, 0x1b, [⟨64, 0x100, 1, 0⟩]⟩
  | .PRF_STAGE_QUOTA => ⟨64, some 0x31090, 0x2310, 0x4, [⟨64, 0x100, 1, 0⟩]⟩
  | .PRF_SPEC_QUOTA => ⟨64, some 0x31098, 0x2310, 0x5, [⟨64, 0x100, 1, 0⟩]⟩
  | .PRF_STALL_CNT => ⟨64, some 0x31030, 0x2310, 0x10, [⟨64, 0x100, 1, 0⟩, ⟨8, 0x8, 0, 1⟩]⟩
  | .DA_CAPS => ⟨32, some 0x40000, 0x2400, 0x1, []⟩
  | .DA_CMD => ⟨32, some 0x40004, 0x2400, 0x2, []⟩
  | .DA_CMD_ARG => ⟨64, some 0x40008, 0x2400, 0x3, []⟩
  | .DA_CMD_STATUS => ⟨32, some 0x40010, 0x2400, 0x4, []⟩
  | .DA_POOL_CNT => ⟨32, some 0x40014, 0x2400, 0x5, []⟩
  | .DA_REISSUE_CNT => ⟨32, some 0x40018, 0x2400, 0x6, []⟩
  | .DA_REISSUE_MISMATCH => ⟨32, some 0x4001c, 0x2400, 0x7, []⟩
  | .DA_SLOW_CNT => ⟨32, some 0x40020, 0x2400, 0x8, []⟩
  | .DA_ITEMS_DONE => ⟨64, some 0x40028, 0x2400, 0x9, []⟩
  | .DA_BUSY_CYCLES => ⟨64, some 0x40030, 0x2400, 0xa, []⟩
  | .DA_PROG_DESC => ⟨64, some 0x41000, 0x2410, 0x1, [⟨64, 0x40, 1, 0⟩]⟩
  | .DA_PROG_STATUS => ⟨32, some 0x41008, 0x2410, 0x2, [⟨64, 0x40, 1, 0⟩]⟩
  | .DA_PROG_NUMSTAT => ⟨32, some 0x4100c, 0x2410, 0x3, [⟨64, 0x40, 1, 0⟩]⟩
  | .DA_PROG_ERR => ⟨32, some 0x41010, 0x2410, 0x4, [⟨64, 0x40, 1, 0⟩]⟩
  | .DA_PROG_ITEMS => ⟨64, some 0x41018, 0x2410, 0x5, [⟨64, 0x40, 1, 0⟩]⟩
  | .DA_PROG_TOKENS => ⟨64, some 0x41020, 0x2410, 0x6, [⟨64, 0x40, 1, 0⟩]⟩
  | .DA_PROG_RING_TAIL => ⟨32, some 0x41028, 0x2410, 0x7, [⟨64, 0x40, 1, 0⟩]⟩
  | .DA_PROG_RING_HEAD => ⟨32, some 0x4102c, 0x2410, 0x8, [⟨64, 0x40, 1, 0⟩]⟩
  | .DA_ARR_STATUS => ⟨32, some 0x100000, 0x2500, 0x1, [⟨256, 0x1000, 1, 0⟩]⟩
  | .DA_ARR_CTRL => ⟨32, some 0x100004, 0x2500, 0x2, [⟨256, 0x1000, 1, 0⟩]⟩
  | .DA_ARR_ITEMS => ⟨64, some 0x100008, 0x2500, 0x3, [⟨256, 0x1000, 1, 0⟩]⟩
  | .DA_ARR_REISSUES => ⟨32, some 0x100010, 0x2500, 0x4, [⟨256, 0x1000, 1, 0⟩]⟩
  | .DA_ARR_DETECT => ⟨32, some 0x100014, 0x2500, 0x5, [⟨256, 0x1000, 1, 0⟩]⟩
  | .SCP_CAPS => ⟨32, some 0x50000, 0x2600, 0x1, []⟩
  | .SCP_CMD => ⟨32, some 0x50004, 0x2600, 0x2, []⟩
  | .SCP_CMD_ARG => ⟨64, some 0x50008, 0x2600, 0x3, []⟩
  | .SCP_CMD_STATUS => ⟨32, some 0x50010, 0x2600, 0x4, []⟩
  | .SCP_HOT_CTRL => ⟨32, some 0x50014, 0x2600, 0x5, []⟩
  | .SCP_REPL_BASE_E => ⟨64, some 0x50018, 0x2600, 0x6, []⟩
  | .SCP_REPL_BASE_W => ⟨64, some 0x50020, 0x2600, 0x7, []⟩
  | .SCP_REPL_SLOTS => ⟨32, some 0x50028, 0x2600, 0x8, []⟩
  | .SCP_REPL_COMMIT => ⟨32, some 0x5002c, 0x2600, 0x9, []⟩
  | .SCP_REPL_STATUS => ⟨32, some 0x50030, 0x2600, 0xa, []⟩
  | .SCP_STAMP_ODD_CNT => ⟨32, some 0x50034, 0x2600, 0xb, []⟩
  | .SCP_ROWS => ⟨64, some 0x50038, 0x2600, 0xc, []⟩
  | .SCP_RETRIES => ⟨64, some 0x50040, 0x2600, 0xd, []⟩
  | .SCP_WAITS => ⟨64, some 0x50048, 0x2600, 0xe, []⟩
  | .SCP_UPDATES => ⟨64, some 0x50050, 0x2600, 0xf, []⟩
  | .SCP_REPL_HITS => ⟨64, some 0x50058, 0x2600, 0x10, []⟩
  | .SCP_REPL_INSTALLS => ⟨64, some 0x50060, 0x2600, 0x11, []⟩
  | .SCP_ABANDON_CNT => ⟨32, some 0x50068, 0x2600, 0x12, []⟩
  | .SCP_OOR_CNT => ⟨32, some 0x5006c, 0x2600, 0x13, []⟩
  | .SCP_ENG_STATUS => ⟨32, some 0x50100, 0x2620, 0x1, [⟨16, 0x10, 1, 0⟩]⟩
  | .SCP_ENG_CTRL => ⟨32, some 0x50104, 0x2620, 0x2, [⟨16, 0x10, 1, 0⟩]⟩
  | .SCP_ENG_LINES => ⟨64, some 0x50108, 0x2620, 0x3, [⟨16, 0x10, 1, 0⟩]⟩
  | .SCP_TBL_STATUS => ⟨32, some 0x51000, 0x2610, 0x1, [⟨8, 0x200, 1, 0⟩, ⟨128, 0x4, 0, 1⟩]⟩
  | .COH_CAPS => ⟨32, some 0x60000, 0x2700, 0x1, []⟩
  | .COH_CFG => ⟨32, some 0x60004, 0x2700, 0x2, []⟩
  | .COH_HOMES => ⟨64, some 0x60008, 0x2700, 0x3, []⟩
  | .COH_COMMIT => ⟨32, some 0x60010, 0x2700, 0x4, []⟩
  | .COH_CFG_STATUS => ⟨32, some 0x60014, 0x2700, 0x5, []⟩
  | .COH_DOM_STATUS => ⟨32, some 0x60018, 0x2700, 0x6, []⟩
  | .COH_DOM_CTRL => ⟨32, some 0x6001c, 0x2700, 0x7, []⟩
  | .COH_DIR_OCC => ⟨32, some 0x60020, 0x2700, 0x8, []⟩
  | .COH_POISONED => ⟨32, some 0x60024, 0x2700, 0x9, []⟩
  | .COH_REQS => ⟨64, some 0x60028, 0x2700, 0xa, []⟩
  | .COH_SNOOPS => ⟨64, some 0x60030, 0x2700, 0xb, []⟩
  | .COH_BACKINV => ⟨64, some 0x60038, 0x2700, 0xc, []⟩
  | .COH_WBPEND_CNT => ⟨32, some 0x60040, 0x2700, 0xd, []⟩
  | .COH_REFUSED_CNT => ⟨32, some 0x60044, 0x2700, 0xe, []⟩
  | .COH_PROTO_CNT => ⟨32, some 0x60048, 0x2700, 0xf, []⟩
  | .COH_MEMBER => ⟨32, some 0x60100, 0x2701, 0x1, [⟨16, 0x4, 0, 1⟩]⟩
  | .COH_WIN_BASE => ⟨64, some 0x60200, 0x2702, 0x1, [⟨16, 0x10, 0, 2⟩]⟩
  | .COH_WIN_LEN => ⟨64, some 0x60208, 0x2702, 0x2, [⟨16, 0x10, 0, 2⟩]⟩
  | .YL_CAPS => ⟨32, some 0x70000, 0x2800, 0x1, []⟩
  | .YL_RACK_ID => ⟨32, some 0x70004, 0x2800, 0x2, []⟩
  | .YL_CFG_COMMIT => ⟨32, some 0x70008, 0x2800, 0x3, []⟩
  | .YL_CFG_STATUS => ⟨32, some 0x7000c, 0x2800, 0x4, []⟩
  | .YL_DETOUR_CFG => ⟨32, some 0x70010, 0x2800, 0x5, []⟩
  | .YL_DETOUR_DROP => ⟨32, some 0x70014, 0x2800, 0x6, []⟩
  | .YL_REACH => ⟨64, some 0x70018, 0x2800, 0x7, []⟩
  | .YL_DETOUR_ACTIVE => ⟨64, some 0x70020, 0x2800, 0x8, []⟩
  | .YL_LINK_UP => ⟨32, some 0x70028, 0x2800, 0x9, [⟨3, 0x4, 0, 1⟩]⟩
  | .YL_LINK_CFG => ⟨32, some 0x200000, 0x2900, 0x1, [⟨96, 0x800, 1, 0⟩]⟩
  | .YL_LINK_CTRL => ⟨32, some 0x200004, 0x2900, 0x2, [⟨96, 0x800, 1, 0⟩]⟩
  | .YL_LINK_STATUS => ⟨32, some 0x200008, 0x2900, 0x3, [⟨96, 0x800, 1, 0⟩]⟩
  | .YL_LINK_NEG => ⟨32, some 0x20000c, 0x2900, 0x4, [⟨96, 0x800, 1, 0⟩]⟩
  | .YL_LANE_STATUS => ⟨32, some 0x200010, 0x2900, 0x5, [⟨96, 0x800, 1, 0⟩]⟩
  | .YL_RETRAIN_CNT => ⟨32, some 0x200014, 0x2900, 0x6, [⟨96, 0x800, 1, 0⟩]⟩
  | .YL_FEC_CORR_CW => ⟨64, some 0x200018, 0x2900, 0x7, [⟨96, 0x800, 1, 0⟩]⟩
  | .YL_FEC_SYM0 => ⟨64, some 0x200020, 0x2900, 0x8, [⟨96, 0x800, 1, 0⟩]⟩
  | .YL_FEC_SYM1 => ⟨64, some 0x200028, 0x2900, 0x9, [⟨96, 0x800, 1, 0⟩]⟩
  | .YL_FEC_UNCORR => ⟨32, some 0x200030, 0x2900, 0xa, [⟨96, 0x800, 1, 0⟩]⟩
  | .YL_CRC_ERR => ⟨32, some 0x200034, 0x2900, 0xb, [⟨96, 0x800, 1, 0⟩]⟩
  | .YL_REPLAY_CNT => ⟨32, some 0x200038, 0x2900, 0xc, [⟨96, 0x800, 1, 0⟩]⟩
  | .YL_DEGRADE_CNT => ⟨32, some 0x20003c, 0x2900, 0xd, [⟨96, 0x800, 1, 0⟩]⟩
  | .YL_FAULT_CNT => ⟨32, some 0x200040, 0x2900, 0xe, [⟨96, 0x800, 1, 0⟩]⟩
  | .YL_UNIT_ERR => ⟨32, some 0x200044, 0x2900, 0xf, [⟨96, 0x800, 1, 0⟩]⟩
  | .YL_TX_FLITS => ⟨64, some 0x200048, 0x2900, 0x10, [⟨96, 0x800, 1, 0⟩]⟩
  | .YL_RX_FLITS => ⟨64, some 0x200050, 0x2900, 0x11, [⟨96, 0x800, 1, 0⟩]⟩
  | .YL_DETOUR_FWD => ⟨64, some 0x200058, 0x2900, 0x12, [⟨96, 0x800, 1, 0⟩]⟩
  | .YL_CREDIT_STALL => ⟨64, some 0x200060, 0x2900, 0x13, [⟨96, 0x800, 1, 0⟩, ⟨6, 0x8, 0, 1⟩]⟩
  | .YL_CREDIT_AVAIL => ⟨32, some 0x200090, 0x2900, 0x19, [⟨96, 0x800, 1, 0⟩, ⟨6, 0x4, 0, 1⟩]⟩
  | .YT_CAPS => ⟨32, some 0x80000, 0x2a00, 0x1, []⟩
  | .YT_RETX => ⟨32, some 0x80004, 0x2a00, 0x2, []⟩
  | .YT_HDR_ERR => ⟨32, some 0x80008, 0x2a00, 0x3, []⟩
  | .YT_SRC_ERR => ⟨32, some 0x8000c, 0x2a00, 0x4, []⟩
  | .YT_KEY_REFUSED => ⟨32, some 0x80010, 0x2a00, 0x5, []⟩
  | .YT_NOT_MSG => ⟨32, some 0x80014, 0x2a00, 0x6, []⟩
  | .YT_SEQ_DUP => ⟨32, some 0x80018, 0x2a00, 0x7, []⟩
  | .YT_SEQ_WINDOW => ⟨32, some 0x8001c, 0x2a00, 0x8, []⟩
  | .YT_PKT_CRC => ⟨32, some 0x80020, 0x2a00, 0x9, []⟩
  | .YT_UNREACH_CNT => ⟨32, some 0x80024, 0x2a00, 0xa, []⟩
  | .YT_RETX_CNT => ⟨64, some 0x80028, 0x2a00, 0xb, []⟩
  | .YT_PKTS_IN => ⟨64, some 0x80030, 0x2a00, 0xc, []⟩
  | .YT_PKTS_OUT => ⟨64, some 0x80038, 0x2a00, 0xd, []⟩
  | .YT_AGENT_HOME => ⟨64, some 0x80100, 0x2a01, 0x1, [⟨16, 0x8, 0, 1⟩]⟩
  | .YT_RKEY => ⟨64, some 0x81000, 0x2b00, 0x1, [⟨256, 0x20, 1, 0⟩]⟩
  | .YT_RKEY_BASE => ⟨64, some 0x81008, 0x2b00, 0x2, [⟨256, 0x20, 1, 0⟩]⟩
  | .YT_RKEY_LEN => ⟨32, some 0x81010, 0x2b00, 0x3, [⟨256, 0x20, 1, 0⟩]⟩
  | .YT_RKEY_CTRL => ⟨32, some 0x81014, 0x2b00, 0x4, [⟨256, 0x20, 1, 0⟩]⟩
  | .YT_RACK_ROUTE => ⟨64, some 0x83000, 0x2a02, 0x1, [⟨16, 0x8, 0, 1⟩]⟩
  | .SWC_CAPS => ⟨32, some 0x84000, 0x2a03, 0x1, []⟩
  | .SWC_CFG => ⟨32, some 0x84004, 0x2a03, 0x2, []⟩
  | .SWC_TC_WEIGHT => ⟨64, some 0x84008, 0x2a03, 0x3, []⟩
  | .SWC_RSV => ⟨32, some 0x84010, 0x2a03, 0x4, []⟩
  | .SWC_BUF_USED => ⟨32, some 0x84014, 0x2a03, 0x5, []⟩
  | .SWC_CT_PKTS => ⟨64, some 0x84018, 0x2a03, 0x6, []⟩
  | .SWC_SF_PKTS => ⟨64, some 0x84020, 0x2a03, 0x7, []⟩
  | .SWC_PORT_MODE => ⟨32, some 0x84100, 0x2a04, 0x1, [⟨98, 0x4, 0, 1⟩]⟩
  | .SWC_MIR_BASE => ⟨64, some 0x84300, 0x2a05, 0x1, []⟩
  | .SWC_MIR_SIZE => ⟨32, some 0x84308, 0x2a05, 0x2, []⟩
  | .SWC_MIR_CTRL => ⟨32, some 0x8430c, 0x2a05, 0x3, []⟩
  | .SWC_MIR_PORTS_LO => ⟨64, some 0x84310, 0x2a05, 0x4, []⟩
  | .SWC_MIR_PORTS_HI => ⟨64, some 0x84318, 0x2a05, 0x5, []⟩
  | .SWC_MIR_TAIL => ⟨32, some 0x84320, 0x2a05, 0x6, []⟩
  | .SWC_MIR_HEAD => ⟨32, some 0x84324, 0x2a05, 0x7, []⟩
  | .SWC_MIR_DROP => ⟨32, some 0x84328, 0x2a05, 0x8, []⟩
  | .TSP_CAPS => ⟨32, some 0x90000, 0x2c00, 0x1, []⟩
  | .TSP_REF_STATUS => ⟨32, some 0x90004, 0x2c00, 0x2, []⟩
  | .TSP_TILES_OUT => ⟨64, some 0x90008, 0x2c00, 0x3, []⟩
  | .TSP_TILES_IN => ⟨64, some 0x90010, 0x2c00, 0x4, []⟩
  | .HIF_CAPS => ⟨32, some 0x98000, 0x2d00, 0x1, []⟩
  | .HIF_LINK_STATUS => ⟨32, some 0x98004, 0x2d00, 0x2, []⟩
  | .HIF_BAR2_MAP => ⟨64, some 0x98008, 0x2d00, 0x3, []⟩
  | .HIF_VEC_CFG => ⟨32, some 0x98010, 0x2d00, 0x4, []⟩
  | .HIF_BAR0_BAD => ⟨32, some 0x98014, 0x2d00, 0x5, []⟩
  | .HIF_BAR2_REFUSED => ⟨32, some 0x98018, 0x2d00, 0x6, []⟩
  | .HIF_VEC_DROP => ⟨32, some 0x9801c, 0x2d00, 0x7, []⟩
  | .HIF_CPL_TIMEOUT => ⟨32, some 0x98020, 0x2d00, 0x8, []⟩
  | .TSP_PORT_CTRL => ⟨32, some 0x230000, 0x2c10, 0x1, [⟨16, 0x1000, 1, 0⟩]⟩
  | .TSP_PORT_STATUS => ⟨32, some 0x230004, 0x2c10, 0x2, [⟨16, 0x1000, 1, 0⟩]⟩
  | .TSP_PORT_NEG => ⟨32, some 0x230008, 0x2c10, 0x3, [⟨16, 0x1000, 1, 0⟩]⟩
  | .TSP_LANE_STATUS => ⟨32, some 0x23000c, 0x2c10, 0x4, [⟨16, 0x1000, 1, 0⟩]⟩
  | .TSP_PORT_COMMIT => ⟨32, some 0x230010, 0x2c10, 0x5, [⟨16, 0x1000, 1, 0⟩]⟩
  | .TSP_CRED_STATUS => ⟨32, some 0x230014, 0x2c10, 0x6, [⟨16, 0x1000, 1, 0⟩]⟩
  | .TSP_FAULT_CNT => ⟨32, some 0x230018, 0x2c10, 0x7, [⟨16, 0x1000, 1, 0⟩]⟩
  | .TSP_DEGRADE_CNT => ⟨32, some 0x23001c, 0x2c10, 0x8, [⟨16, 0x1000, 1, 0⟩]⟩
  | .TSP_REPLAY_CNT => ⟨32, some 0x230020, 0x2c10, 0x9, [⟨16, 0x1000, 1, 0⟩]⟩
  | .TSP_DUP_CNT => ⟨32, some 0x230024, 0x2c10, 0xa, [⟨16, 0x1000, 1, 0⟩]⟩
  | .TSP_TX_BYTES => ⟨64, some 0x230028, 0x2c10, 0xb, [⟨16, 0x1000, 1, 0⟩]⟩
  | .TSP_RX_BYTES => ⟨64, some 0x230030, 0x2c10, 0xc, [⟨16, 0x1000, 1, 0⟩]⟩
  | .TSP_STREAM_CFG => ⟨32, some 0x230100, 0x2c10, 0x10, [⟨16, 0x1000, 1, 0⟩, ⟨16, 0x8, 0, 2⟩]⟩
  | .TSP_STREAM_CRED => ⟨32, some 0x230104, 0x2c10, 0x11, [⟨16, 0x1000, 1, 0⟩, ⟨16, 0x8, 0, 2⟩]⟩
  | .TSP_STREAM_STATUS => ⟨32, some 0x230180, 0x2c10, 0x30, [⟨16, 0x1000, 1, 0⟩, ⟨16, 0x4, 0, 1⟩]⟩
  | .HIF_SQ_BASE => ⟨64, some 0x1001000, 0x3005, 0x1, [⟨128, 0x40000, 16, 0⟩, ⟨2, 0x200, 1, 0⟩, ⟨8, 0x40, 0, 16⟩]⟩
  | .HIF_SQ_CTRL => ⟨32, some 0x1001008, 0x3005, 0x2, [⟨128, 0x40000, 16, 0⟩, ⟨2, 0x200, 1, 0⟩, ⟨8, 0x40, 0, 16⟩]⟩
  | .HIF_SQ_STATUS => ⟨32, some 0x100100c, 0x3005, 0x3, [⟨128, 0x40000, 16, 0⟩, ⟨2, 0x200, 1, 0⟩, ⟨8, 0x40, 0, 16⟩]⟩
  | .HIF_SQ_TAIL => ⟨32, some 0x1001010, 0x3005, 0x4, [⟨128, 0x40000, 16, 0⟩, ⟨2, 0x200, 1, 0⟩, ⟨8, 0x40, 0, 16⟩]⟩
  | .HIF_SQ_HEAD => ⟨32, some 0x1001014, 0x3005, 0x5, [⟨128, 0x40000, 16, 0⟩, ⟨2, 0x200, 1, 0⟩, ⟨8, 0x40, 0, 16⟩]⟩
  | .HIF_CQ_BASE => ⟨64, some 0x1001018, 0x3005, 0x6, [⟨128, 0x40000, 16, 0⟩, ⟨2, 0x200, 1, 0⟩, ⟨8, 0x40, 0, 16⟩]⟩
  | .HIF_CQ_SIZE => ⟨32, some 0x1001020, 0x3005, 0x7, [⟨128, 0x40000, 16, 0⟩, ⟨2, 0x200, 1, 0⟩, ⟨8, 0x40, 0, 16⟩]⟩
  | .HIF_CQ_TAIL => ⟨32, some 0x1001024, 0x3005, 0x8, [⟨128, 0x40000, 16, 0⟩, ⟨2, 0x200, 1, 0⟩, ⟨8, 0x40, 0, 16⟩]⟩
  | .HIF_CQ_HEAD => ⟨32, some 0x1001028, 0x3005, 0x9, [⟨128, 0x40000, 16, 0⟩, ⟨2, 0x200, 1, 0⟩, ⟨8, 0x40, 0, 16⟩]⟩
  | .HIF_SQ_DBADDR => ⟨64, some 0x1001030, 0x3005, 0xa, [⟨128, 0x40000, 16, 0⟩, ⟨2, 0x200, 1, 0⟩, ⟨8, 0x40, 0, 16⟩]⟩
  | .PTN_CAPS => ⟨32, some 0xa0000, 0x2e00, 0x1, []⟩
  | .QOS_COMMIT => ⟨32, some 0xa0004, 0x2e00, 0x2, []⟩
  | .QOS_STATUS => ⟨32, some 0xa0008, 0x2e00, 0x3, []⟩
  | .RST_CTRL => ⟨32, some 0xa000c, 0x2e00, 0x4, []⟩
  | .RST_ENGINE => ⟨32, some 0xa0010, 0x2e00, 0x5, []⟩
  | .RST_STATUS => ⟨32, some 0xa0014, 0x2e00, 0x6, []⟩
  | .PTN_RST_VEC => ⟨32, some 0xa0018, 0x2e00, 0x7, []⟩
  | .PTN_DRAINING_LO => ⟨64, some 0xa0020, 0x2e00, 0x8, []⟩
  | .PTN_DRAINING_HI => ⟨64, some 0xa0028, 0x2e00, 0x9, []⟩
  | .QOS_T0 => ⟨32, some 0xa1000, 0x3001, 0x1, [⟨128, 0x20, 16, 0⟩]⟩
  | .QOS_T1 => ⟨32, some 0xa1004, 0x3001, 0x2, [⟨128, 0x20, 16, 0⟩]⟩
  | .QOS_FAB => ⟨32, some 0xa1008, 0x3001, 0x3, [⟨128, 0x20, 16, 0⟩]⟩
  | .QOS_DA => ⟨32, some 0xa100c, 0x3001, 0x4, [⟨128, 0x20, 16, 0⟩]⟩
  | .QOS_SCP => ⟨32, some 0xa1010, 0x3001, 0x5, [⟨128, 0x20, 16, 0⟩]⟩
  | .QOS_TC => ⟨32, some 0xa1014, 0x3001, 0x6, [⟨128, 0x20, 16, 0⟩]⟩
  | .PTN_ID => ⟨32, some 0x1000000, 0x3000, 0x1, [⟨128, 0x40000, 16, 0⟩]⟩
  | .PTN_CTRL => ⟨32, some 0x1000004, 0x3000, 0x2, [⟨128, 0x40000, 16, 0⟩]⟩
  | .PTN_STATUS => ⟨32, some 0x1000008, 0x3000, 0x3, [⟨128, 0x40000, 16, 0⟩]⟩
  | .PTN_IRQ_DROP => ⟨32, some 0x100000c, 0x3000, 0x4, [⟨128, 0x40000, 16, 0⟩]⟩
  | .PTN_RST_CNT => ⟨32, some 0x1000010, 0x3000, 0x5, [⟨128, 0x40000, 16, 0⟩]⟩
  | .PTN_MR_BASE => ⟨64, some 0x1002000, 0x3007, 0x1, [⟨128, 0x40000, 16, 0⟩, ⟨8, 0x20, 0, 16⟩]⟩
  | .PTN_MR_CTRL => ⟨32, some 0x1002008, 0x3007, 0x2, [⟨128, 0x40000, 16, 0⟩, ⟨8, 0x20, 0, 16⟩]⟩
  | .PTN_MR_TAIL => ⟨32, some 0x100200c, 0x3007, 0x3, [⟨128, 0x40000, 16, 0⟩, ⟨8, 0x20, 0, 16⟩]⟩
  | .PTN_MR_HEAD => ⟨32, some 0x1002010, 0x3007, 0x4, [⟨128, 0x40000, 16, 0⟩, ⟨8, 0x20, 0, 16⟩]⟩
  | .PTN_MR_DROP => ⟨32, some 0x1002014, 0x3007, 0x5, [⟨128, 0x40000, 16, 0⟩, ⟨8, 0x20, 0, 16⟩]⟩
  | .ERR_CAPS => ⟨32, some 0xb0000, 0x2f00, 0x1, []⟩
  | .ERR_CFG => ⟨32, some 0xb0004, 0x2f00, 0x2, []⟩
  | .ERR_LOG_SEQ => ⟨32, some 0xb0008, 0x2f00, 0x3, []⟩
  | .ERR_RING_BASE => ⟨64, some 0xb0010, 0x2f00, 0x4, []⟩
  | .ERR_RING_CTRL => ⟨32, some 0xb0018, 0x2f00, 0x5, []⟩
  | .ERR_RING_TAIL => ⟨32, some 0xb001c, 0x2f00, 0x6, []⟩
  | .ERR_RING_HEAD => ⟨32, some 0xb0020, 0x2f00, 0x7, []⟩
  | .ERR_RING_DROP => ⟨32, some 0xb0024, 0x2f00, 0x8, []⟩
  | .ERR_DETECT_CNT => ⟨32, some 0xb0028, 0x2f00, 0x9, []⟩
  | .ERR_ARB_CNT => ⟨32, some 0xb002c, 0x2f00, 0xa, []⟩
  | .ERR_CSUM_PATH_CNT => ⟨32, some 0xb0030, 0x2f00, 0xb, []⟩
  | .ERR_NODECIDE_CNT => ⟨32, some 0xb0034, 0x2f00, 0xc, []⟩
  | .ERR_UNCOMPARED => ⟨32, some 0xb0038, 0x2f00, 0xd, []⟩
  | .ERR_RESIDUE_CNT => ⟨32, some 0xb003c, 0x2f00, 0xe, []⟩
  | .ERR_POISON_RD => ⟨64, some 0xb0040, 0x2f00, 0xf, []⟩
  | .ERR_RETIRED => ⟨64, some 0xb0800, 0x2f00, 0x10, [⟨4, 0x8, 0, 1⟩]⟩
  | .TST_CTRL => ⟨32, some 0xb8000, 0x2f01, 0x1, []⟩
  | .TST_STATUS => ⟨32, some 0xb8004, 0x2f01, 0x2, []⟩
  | .TST_SLOTS => ⟨64, some 0xb8008, 0x2f01, 0x3, []⟩
  | .TST_CYCLES => ⟨64, some 0xb8010, 0x2f01, 0x4, []⟩
  | .TST_MISMATCH => ⟨32, some 0xb8018, 0x2f01, 0x5, []⟩
  | .TST_RETEST_CNT => ⟨32, some 0xb801c, 0x2f01, 0x6, []⟩
  | .TST_SWEEP_CTRL => ⟨32, some 0xb8020, 0x2f01, 0x7, []⟩
  | .CNT_CAPS => ⟨32, some 0xc0000, 0x2f20, 0x1, []⟩
  | .CNT_CFG => ⟨32, some 0xc0004, 0x2f20, 0x2, []⟩
  | .CNT_MIRROR_BASE => ⟨64, some 0xc0008, 0x2f20, 0x3, []⟩
  | .CNT_MIRROR_SIZE => ⟨32, some 0xc0010, 0x2f20, 0x4, []⟩
  | .CNT_COMMIT => ⟨32, some 0xc0014, 0x2f20, 0x5, []⟩
  | .CNT_HOFF_BASE => ⟨64, some 0xc0018, 0x2f20, 0x6, []⟩
  | .CNT_HOFF_LEN => ⟨32, some 0xc0020, 0x2f20, 0x7, []⟩
  | .CNT_CFG_STATUS => ⟨32, some 0xc0024, 0x2f20, 0x8, []⟩
  | .CNT_STATE => ⟨32, some 0xc0028, 0x2f20, 0x9, []⟩
  | .CNT_CTRL => ⟨32, some 0xc002c, 0x2f20, 0xa, []⟩
  | .CNT_PEER_MASK => ⟨64, some 0xc0030, 0x2f20, 0xb, []⟩
  | .CNT_PEER_CMD => ⟨32, some 0xc0038, 0x2f20, 0xc, []⟩
  | .CNT_PROG_TAKEN => ⟨64, some 0xc0040, 0x2f20, 0xd, []⟩
  | .CNT_MIRROR_WAIT => ⟨64, some 0xc0048, 0x2f20, 0xe, []⟩
  | .CNT_MIRRORED => ⟨64, some 0xc0050, 0x2f20, 0xf, []⟩
  | .CNT_LEASE_STATUS => ⟨64, some 0xc0058, 0x2f20, 0x10, []⟩
  | .CNT_TAKEOVER_CNT => ⟨32, some 0xc0060, 0x2f20, 0x11, []⟩
  | .CNT_DOUBLE_LOSS_CNT => ⟨32, some 0xc0064, 0x2f20, 0x12, []⟩
  | .CNT_LEASE_REFUSED => ⟨32, some 0xc0068, 0x2f20, 0x13, []⟩
  | .CNT_HOFF_TIE_CNT => ⟨32, some 0xc006c, 0x2f20, 0x14, []⟩
  | .CNT_MIRROR_REFUSED => ⟨32, some 0xc0070, 0x2f20, 0x15, []⟩
  | .CNT_MIRROR_BYTES => ⟨64, some 0xc0078, 0x2f20, 0x16, []⟩
  | .CNT_PROG_MIR => ⟨32, some 0xc0100, 0x2fa0, 0x1, [⟨64, 0x10, 1, 0⟩]⟩
  | .CNT_SHADOW => ⟨64, some 0xc0108, 0x2fa0, 0x2, [⟨64, 0x10, 1, 0⟩]⟩
  | .MGT_CAPS => ⟨32, some 0xd0000, 0x1100, 0x1, []⟩
  | .MGT_MBX_CTRL => ⟨32, some 0xd0004, 0x1100, 0x2, []⟩
  | .MGT_MBX_DOORBELL => ⟨32, some 0xd0008, 0x1100, 0x3, []⟩
  | .MGT_MBX_STATUS => ⟨32, some 0xd000c, 0x1100, 0x4, []⟩
  | .MGT_REFUSE_LAST => ⟨64, some 0xd0010, 0x1100, 0x5, []⟩
  | .MGT_CFG_STATUS => ⟨64, some 0xd0018, 0x1100, 0x6, []⟩
  | .MGT_REFUSE_CNT => ⟨32, some 0xd0020, 0x1100, 0x7, []⟩
  | .MGT_NET_MAC => ⟨64, some 0xd0028, 0x1101, 0x1, []⟩
  | .MGT_NET_PLCA => ⟨32, some 0xd0030, 0x1101, 0x2, []⟩
  | .MGT_NET_COMMIT => ⟨32, some 0xd0034, 0x1101, 0x3, []⟩
  | .MGT_NET_CFG_STATUS => ⟨32, some 0xd0038, 0x1101, 0x4, []⟩
  | .MGT_NET_STATUS => ⟨32, some 0xd003c, 0x1101, 0x5, []⟩
  | .MGT_NET_FCS_ERR => ⟨32, some 0xd0040, 0x1101, 0x6, []⟩
  | .MGT_NET_UNAUTH => ⟨32, some 0xd0044, 0x1101, 0x7, []⟩
  | .MGT_NET_OTHER => ⟨32, some 0xd0048, 0x1101, 0x8, []⟩
  | .MGT_NET_LIMITED => ⟨32, some 0xd004c, 0x1101, 0x9, []⟩
  | .MGT_NET_COLLISIONS => ⟨32, some 0xd0050, 0x1101, 0xa, []⟩
  | .MGT_NET_BEACON_LOSS => ⟨32, some 0xd0054, 0x1101, 0xb, []⟩
  | .MGT_NET_RX_FRAMES => ⟨64, some 0xd0058, 0x1101, 0xc, []⟩
  | .MGT_NET_TX_FRAMES => ⟨64, some 0xd0060, 0x1101, 0xd, []⟩
  | .MGT_ANCHOR_COMMIT => ⟨32, some 0xd0068, 0x1102, 0x9, []⟩
  | .MGT_ANCHOR_STATUS => ⟨32, some 0xd006c, 0x1102, 0xa, []⟩
  | .MGT_DELEG => ⟨64, some 0xd0100, 0x1103, 0x1, [⟨16, 0x8, 0, 1⟩]⟩
  | .MGT_DELEG_COMMIT => ⟨32, some 0xd0180, 0x1103, 0x11, []⟩
  | .MGT_DELEG_STATUS => ⟨32, some 0xd0184, 0x1103, 0x12, []⟩
  | .SCL_STATUS => ⟨32, some 0xe0000, 0x6000, 0x1, []⟩
  | .SCL_EVENT_CNT => ⟨32, some 0xe0004, 0x6000, 0x2, []⟩
  | .SCL_LAST_SEQ => ⟨64, some 0xe0008, 0x6000, 0x3, []⟩
  | .SCL_TICK => ⟨64, some 0xe0010, 0x6000, 0x4, []⟩
  | .SCL_DISC => ⟨32, some 0xe0018, 0x6000, 0x5, []⟩
  | .SCL_IN_DROP => ⟨32, some 0xe001c, 0x6000, 0x6, []⟩
  | .SCL_OFFER_STATUS => ⟨32, some 0xe0020, 0x6000, 0x7, []⟩
  | .SCL_FW_VERSION => ⟨32, some 0xe0110, 0x6002, 0x2, []⟩
  | .BOOT_STATUS => ⟨32, some 0xf0000, 0x2f60, 0x1, []⟩
  | .BOOT_FW => ⟨32, some 0xf0004, 0x2f60, 0x2, []⟩
  | .BOOT_SVN => ⟨32, some 0xf0008, 0x2f60, 0x3, []⟩
  | .BOOT_SVN_COMMIT => ⟨32, some 0xf000c, 0x2f60, 0x4, []⟩
  | .BOOT_OFFER => ⟨32, some 0xf0010, 0x2f60, 0x5, []⟩
  | .BOOT_TIME_NS => ⟨64, some 0xf0018, 0x2f61, 0x1, []⟩
  | .BOOT_UTC_OFFSET => ⟨64, some 0xf0020, 0x2f61, 0x2, []⟩
  | .BOOT_TIME_HOST => ⟨64, some 0xf0028, 0x2f61, 0x4, []⟩
  | .BOOT_TIME_STATUS => ⟨32, some 0xf0030, 0x2f61, 0x3, []⟩
  | .LIFE_CTRL => ⟨32, some 0xf0034, 0x2f62, 0x1, []⟩
  | .LIFE_STATUS => ⟨32, some 0xf0038, 0x2f62, 0x2, []⟩
  | .LIFE_SERVICE_ADD => ⟨64, some 0xf0048, 0x2f62, 0x3, []⟩
  | .LIFE_POWER_ON_S => ⟨64, some 0xf0040, 0x5000, 0x1, []⟩
  | .BOOT_TIME_CTRL => ⟨32, none, 0x1104, 0x1, []⟩
  | .PKG_THERM_CFG => ⟨32, none, 0x2f80, 0x1, []⟩
  | .PKG_PWR_LIMIT => ⟨32, none, 0x2f80, 0x2, []⟩
  | .PKG_AVS_CTRL => ⟨32, none, 0x2f80, 0x3, []⟩
  | .PKG_THROTTLE_STATUS => ⟨32, none, 0x2f80, 0x4, []⟩
  | .PKG_THROTTLE_CYCLES => ⟨64, none, 0x2f80, 0x5, []⟩
  | .PKG_STRAPS => ⟨32, none, 0x2f80, 0x6, []⟩
  | .MSIX_ADDR => ⟨64, none, 0x0, 0x0, [⟨132096, 0x0, 0, 0⟩]⟩
  | .MSIX_DATA => ⟨32, none, 0x0, 0x0, [⟨132096, 0x0, 0, 0⟩]⟩
  | .MSIX_CTRL => ⟨32, none, 0x0, 0x0, [⟨132096, 0x0, 0, 0⟩]⟩
  | .MSIX_PEND => ⟨32, none, 0x0, 0x0, [⟨132096, 0x0, 0, 0⟩]⟩

/-- The field tables of the spec. -/
def Reg.fields : Reg → List FieldInfo
  | .PKG_DEVICE_ID => [⟨16, 16, .ro, 0x960⟩, ⟨8, 8, .ro, 0xb⟩, ⟨0, 8, .ro, 0⟩]
  | .PKG_IF_VERSION => [⟨24, 8, .ro, 2⟩, ⟨16, 8, .ro, 1⟩, ⟨12, 4, .ro, 1⟩, ⟨8, 4, .ro, 3⟩, ⟨4, 4, .ro, 3⟩, ⟨0, 4, .ro, 0⟩]
  | .PKG_LAYOUT_VERSION => [⟨8, 8, .ro, 3⟩, ⟨0, 8, .ro, 2⟩]
  | .PKG_NODE_ID => [⟨8, 1, .ro, 0⟩, ⟨0, 8, .ro, 0xff⟩]
  | .PKG_HALF_STATUS => [⟨4, 4, .ro, 0⟩, ⟨0, 4, .ro, 0⟩]
  | .PKG_IODIE_STATUS => [⟨3, 1, .ro, 0⟩, ⟨2, 1, .ro, 0⟩, ⟨1, 1, .ro, 0⟩, ⟨0, 1, .ro, 0⟩]
  | .PKG_BRIDGE_STATUS => [⟨16, 16, .ro, 0⟩, ⟨0, 16, .ro, 0⟩]
  | .PKG_DISCARD_CNT => [⟨0, 32, .w1c, 0⟩]
  | .PKG_BRIDGE_BYTES_EW => [⟨0, 64, .ro, 0⟩]
  | .PKG_BRIDGE_BYTES_WE => [⟨0, 64, .ro, 0⟩]
  | .PKG_BRIDGE_REPAIR_CNT => [⟨16, 16, .ro, 0⟩, ⟨0, 16, .ro, 0⟩]
  | .PKG_CLK_STATUS => [⟨6, 1, .ro, 0⟩, ⟨5, 1, .ro, 0⟩, ⟨4, 1, .ro, 0⟩, ⟨3, 1, .ro, 0⟩, ⟨2, 1, .ro, 0⟩, ⟨1, 1, .ro, 0⟩, ⟨0, 1, .ro, 0⟩]
  | .XLT_CAPS => [⟨24, 8, .ro, 0x38⟩, ⟨16, 8, .ro, 0x10⟩, ⟨0, 13, .ro, 0x1000⟩]
  | .XLT_UNQUEUED => [⟨0, 9, .ro, 0⟩]
  | .XLT_RLB_HIT => [⟨0, 64, .ro, 0⟩]
  | .XLT_RLB_MISS => [⟨0, 64, .ro, 0⟩]
  | .XLT_RES_MISS => [⟨0, 64, .ro, 0⟩]
  | .XLT_CTL_REFUSED => [⟨0, 32, .w1c, 0⟩]
  | .XLT_TBL_SRC => [⟨6, 58, .rws, 0⟩, ⟨0, 1, .rws, 0⟩]
  | .XLT_TBL_COUNT => [⟨0, 13, .rws, 0⟩]
  | .XLT_TBL_COMMIT => [⟨0, 1, .wo, 0⟩]
  | .XLT_TBL_STATUS => [⟨20, 12, .ro, 0⟩, ⟨16, 4, .ro, 0⟩, ⟨8, 8, .ro, 0⟩, ⟨2, 1, .ro, 1⟩, ⟨0, 1, .ro, 0⟩]
  | .XLT_POOL_BASE => [⟨16, 40, .rws, 0⟩]
  | .XLT_POOL_PAGES => [⟨0, 21, .rws, 0⟩]
  | .XLT_KEY => [⟨0, 64, .rw, 0⟩]
  | .FLTQ_BASE => [⟨15, 49, .rw, 0⟩]
  | .FLTQ_CTRL => [⟨15, 5, .rw, 0⟩, ⟨10, 5, .rw, 0⟩, ⟨5, 5, .rw, 0⟩, ⟨0, 1, .rw, 0⟩]
  | .FLTQ_STATUS => [⟨18, 1, .w1c, 0⟩, ⟨17, 1, .w1c, 0⟩, ⟨16, 1, .w1c, 0⟩, ⟨0, 9, .ro, 0⟩]
  | .FLTQ_TAIL => [⟨0, 11, .ro, 0⟩]
  | .FLTQ_HEAD => [⟨0, 11, .rw, 0⟩]
  | .FLTQ_RESUME => [⟨16, 1, .wo, 0⟩, ⟨0, 16, .wo, 0⟩]
  | .FLTQ_QUEUE_FULL => [⟨0, 32, .w1c, 0⟩]
  | .FLTQ_BAD_RESUME => [⟨0, 32, .w1c, 0⟩]
  | .XLT_MIG_VA => [⟨0, 40, .rw, 0⟩]
  | .XLT_MIG_GO => [⟨16, 16, .wo, 0⟩, ⟨8, 8, .wo, 0⟩, ⟨2, 1, .wo, 0⟩, ⟨1, 1, .wo, 0⟩, ⟨0, 1, .wo, 0⟩]
  | .XLT_MIG_STATUS => [⟨28, 4, .ro, 0⟩, ⟨16, 5, .ro, 0⟩, ⟨0, 16, .ro, 0⟩]
  | .TIER_CAPS => [⟨16, 16, .ro, 0x120⟩, ⟨8, 8, .ro, 0x10⟩, ⟨0, 8, .ro, 8⟩]
  | .TIER_T0_STATUS => [⟨17, 1, .ro, 0⟩, ⟨16, 1, .ro, 0⟩, ⟨0, 16, .ro, 0⟩]
  | .TIER_T1_STATUS => [⟨0, 32, .ro, 0⟩]
  | .TIER_T2_STATUS => [⟨0, 32, .ro, 0⟩]
  | .TIER_T1_INFO => [⟨31, 1, .ro, 0⟩, ⟨16, 4, .ro, 0⟩, ⟨0, 16, .ro, 0⟩]
  | .TIER_T0_STAGE => [⟨16, 7, .rws, 0x10⟩, ⟨0, 7, .rws, 0x10⟩]
  | .TIER_T0_COMMIT => [⟨0, 1, .wo, 0⟩]
  | .TIER_T0_CFG_STATUS => [⟨8, 1, .ro, 0⟩, ⟨0, 4, .ro, 0⟩]
  | .TIER_STAGE_REFUSED => [⟨0, 32, .w1c, 0⟩]
  | .TIER_SCRUB_CTRL => [⟨16, 16, .rw, 0x18⟩, ⟨0, 16, .rw, 4⟩]
  | .TIER_T0_BYTES_RD => [⟨0, 64, .ro, 0⟩]
  | .TIER_T0_BYTES_WR => [⟨0, 64, .ro, 0⟩]
  | .TIER_T1_BYTES_RD => [⟨0, 64, .ro, 0⟩]
  | .TIER_T1_BYTES_WR => [⟨0, 64, .ro, 0⟩]
  | .TIER_T2_BYTES_RD => [⟨0, 64, .ro, 0⟩]
  | .TIER_T2_BYTES_WR => [⟨0, 64, .ro, 0⟩]
  | .TIER_CORR_T0 => [⟨0, 64, .ro, 0⟩]
  | .TIER_CORR_T1 => [⟨0, 64, .ro, 0⟩]
  | .TIER_UNCORR => [⟨0, 32, .w1c, 0⟩]
  | .TIER_T2_TIMEOUT_CNT => [⟨0, 32, .w1c, 0⟩]
  | .TILE_BUSY => [⟨0, 64, .ro, 0⟩]
  | .TILE_MOVES => [⟨0, 64, .ro, 0⟩]
  | .TILE_ERR_CNT => [⟨0, 32, .w1c, 0⟩]
  | .TILE_CRC_CNT => [⟨0, 32, .w1c, 0⟩]
  | .TIER_T2WIN_BASE => [⟨63, 1, .rw, 0⟩, ⟨0, 48, .rw, 0⟩]
  | .TIER_T2WIN_COUNT => [⟨0, 40, .rw, 0⟩]
  | .TIER_N_STATE => [⟨28, 4, .ro, 0⟩, ⟨16, 8, .ro, 0⟩, ⟨8, 8, .ro, 0⟩, ⟨0, 8, .ro, 0⟩]
  | .TIER_N_HEALTH => [⟨24, 8, .ro, 0⟩, ⟨16, 8, .ro, 0⟩, ⟨0, 16, .ro, 0⟩]
  | .TIER_N_CAPACITY => [⟨0, 64, .ro, 0⟩]
  | .TIER_N_CTRL => [⟨1, 1, .rw, 0⟩, ⟨0, 1, .wo, 0⟩]
  | .TIER_N_CMD_ERR => [⟨0, 32, .w1c, 0⟩]
  | .PRF_CAPS => [⟨24, 8, .ro, 0xf⟩, ⟨18, 6, .ro, 0x3f⟩, ⟨8, 10, .ro, 0x3ff⟩, ⟨0, 8, .ro, 0x40⟩]
  | .PRF_CH_MASK => [⟨0, 64, .rw, 0xffff0000ffff⟩]
  | .PRF_MOVES_ISSUED => [⟨0, 64, .ro, 0⟩]
  | .PRF_REFETCH_CNT => [⟨0, 32, .w1c, 0⟩]
  | .PRF_REDIRECT_CNT => [⟨0, 32, .w1c, 0⟩]
  | .PRF_STAGE_FREE => [⟨32, 32, .ro, 0⟩, ⟨0, 32, .ro, 0⟩]
  | .CUR_VALUE => [⟨56, 8, .ro, 0xff⟩, ⟨16, 40, .ro, 0xffffffffff⟩, ⟨6, 10, .ro, 0x3ff⟩, ⟨0, 6, .ro, 0x3f⟩]
  | .CUR_STATE => [⟨16, 4, .ro, 0xf⟩, ⟨8, 8, .ro, 0⟩, ⟨0, 3, .ro, 0⟩]
  | .PRF_PROG_CFG => [⟨23, 1, .rw, 0⟩, ⟨16, 6, .rw, 0⟩, ⟨12, 4, .rw, 2⟩, ⟨11, 1, .rw, 1⟩, ⟨0, 4, .rw, 2⟩]
  | .CUR_MATCH => [⟨0, 56, .rw, 0⟩]
  | .CUR_MATCH_CTRL => [⟨1, 5, .rw, 0⟩, ⟨0, 1, .rw, 0⟩]
  | .PRF_LOAD_STATUS => [⟨28, 4, .ro, 0⟩, ⟨18, 10, .ro, 0⟩, ⟨0, 12, .ro, 0⟩]
  | .PRF_HALT => [⟨28, 4, .ro, 0⟩, ⟨18, 10, .ro, 0⟩, ⟨0, 12, .ro, 0⟩]
  | .PRF_SPEC_HIT => [⟨0, 64, .ro, 0⟩]
  | .PRF_SPEC_MISS_TILES => [⟨0, 64, .ro, 0⟩]
  | .PRF_SPEC_WASTE => [⟨0, 64, .ro, 0⟩]
  | .PRF_STAGED_BYTES => [⟨0, 64, .ro, 0⟩]
  | .PRF_STAGE_QUOTA => [⟨32, 32, .rw, 0⟩, ⟨0, 32, .rw, 0⟩]
  | .PRF_SPEC_QUOTA => [⟨32, 32, .rw, 0⟩, ⟨0, 32, .rw, 0⟩]
  | .PRF_STALL_CNT => [⟨0, 64, .ro, 0⟩]
  | .DA_CAPS => [⟨24, 8, .ro, 0xff⟩, ⟨16, 8, .ro, 0x40⟩, ⟨6, 10, .ro, 0x3ff⟩]
  | .DA_CMD => [⟨18, 10, .wo, 0⟩, ⟨10, 8, .wo, 0⟩, ⟨4, 6, .wo, 0⟩, ⟨0, 4, .wo, 0⟩]
  | .DA_CMD_ARG => [⟨6, 50, .rw, 0⟩]
  | .DA_CMD_STATUS => [⟨28, 4, .ro, 0⟩, ⟨18, 10, .ro, 0⟩, ⟨12, 6, .ro, 0⟩, ⟨0, 1, .ro, 0⟩]
  | .DA_POOL_CNT => [⟨16, 16, .ro, 0⟩, ⟨0, 16, .ro, 0⟩]
  | .DA_REISSUE_CNT => [⟨0, 32, .w1c, 0⟩]
  | .DA_REISSUE_MISMATCH => [⟨0, 32, .w1c, 0⟩]
  | .DA_SLOW_CNT => [⟨0, 32, .w1c, 0⟩]
  | .DA_ITEMS_DONE => [⟨0, 64, .ro, 0⟩]
  | .DA_BUSY_CYCLES => [⟨0, 64, .ro, 0⟩]
  | .DA_PROG_DESC => [⟨0, 64, .ro, 0⟩]
  | .DA_PROG_STATUS => [⟨27, 1, .ro, 0⟩, ⟨16, 11, .ro, 0⟩, ⟨0, 11, .ro, 0⟩]
  | .DA_PROG_NUMSTAT => [⟨0, 4, .w1c, 0⟩]
  | .DA_PROG_ERR => [⟨28, 4, .ro, 0⟩, ⟨18, 10, .ro, 0⟩, ⟨12, 6, .ro, 0⟩, ⟨0, 12, .ro, 0⟩]
  | .DA_PROG_ITEMS => [⟨0, 64, .ro, 0⟩]
  | .DA_PROG_TOKENS => [⟨0, 64, .ro, 0⟩]
  | .DA_PROG_RING_TAIL => [⟨0, 17, .ro, 0⟩]
  | .DA_PROG_RING_HEAD => [⟨0, 17, .rw, 0⟩]
  | .DA_ARR_STATUS => [⟨12, 4, .ro, 0⟩, ⟨8, 1, .ro, 0⟩, ⟨0, 4, .ro, 6⟩]
  | .DA_ARR_CTRL => [⟨1, 1, .wo, 0⟩, ⟨0, 1, .rw, 0⟩]
  | .DA_ARR_ITEMS => [⟨0, 64, .ro, 0⟩]
  | .DA_ARR_REISSUES => [⟨0, 32, .w1c, 0⟩]
  | .DA_ARR_DETECT => [⟨0, 32, .w1c, 0⟩]
  | .SCP_CAPS => [⟨19, 13, .ro, 0x1000⟩, ⟨14, 5, .ro, 0x10⟩, ⟨4, 10, .ro, 0x3ff⟩]
  | .SCP_CMD => [⟨19, 8, .wo, 0⟩, ⟨9, 10, .wo, 0⟩, ⟨4, 1, .wo, 0⟩, ⟨0, 4, .wo, 0⟩]
  | .SCP_CMD_ARG => [⟨6, 50, .rw, 0⟩]
  | .SCP_CMD_STATUS => [⟨28, 4, .ro, 0⟩, ⟨0, 1, .ro, 0⟩]
  | .SCP_HOT_CTRL => [⟨16, 16, .rw, 0x3e8⟩, ⟨8, 8, .rw, 0x20⟩, ⟨0, 1, .rw, 0⟩]
  | .SCP_REPL_BASE_E => [⟨16, 40, .rws, 0⟩]
  | .SCP_REPL_BASE_W => [⟨16, 40, .rws, 0⟩]
  | .SCP_REPL_SLOTS => [⟨16, 16, .rws, 0⟩, ⟨0, 16, .rws, 0⟩]
  | .SCP_REPL_COMMIT => [⟨0, 1, .wo, 0⟩]
  | .SCP_REPL_STATUS => [⟨8, 1, .ro, 0⟩, ⟨0, 4, .ro, 0⟩]
  | .SCP_STAMP_ODD_CNT => [⟨0, 32, .w1c, 0⟩]
  | .SCP_ROWS => [⟨0, 64, .ro, 0⟩]
  | .SCP_RETRIES => [⟨0, 64, .ro, 0⟩]
  | .SCP_WAITS => [⟨0, 64, .ro, 0⟩]
  | .SCP_UPDATES => [⟨0, 64, .ro, 0⟩]
  | .SCP_REPL_HITS => [⟨0, 64, .ro, 0⟩]
  | .SCP_REPL_INSTALLS => [⟨0, 64, .ro, 0⟩]
  | .SCP_ABANDON_CNT => [⟨0, 32, .w1c, 0⟩]
  | .SCP_OOR_CNT => [⟨0, 32, .w1c, 0⟩]
  | .SCP_ENG_STATUS => [⟨16, 13, .ro, 0⟩, ⟨8, 8, .ro, 0⟩, ⟨0, 3, .ro, 0⟩]
  | .SCP_ENG_CTRL => [⟨0, 1, .rw, 0⟩]
  | .SCP_ENG_LINES => [⟨0, 64, .ro, 0⟩]
  | .SCP_TBL_STATUS => [⟨24, 8, .ro, 0⟩, ⟨16, 8, .ro, 0⟩, ⟨3, 1, .ro, 0⟩, ⟨2, 1, .ro, 1⟩, ⟨1, 1, .ro, 0⟩, ⟨0, 1, .ro, 0⟩]
  | .COH_CAPS => [⟨24, 8, .ro, 0x10⟩, ⟨16, 8, .ro, 0x10⟩, ⟨8, 8, .ro, 0x10⟩, ⟨0, 8, .ro, 0x12⟩]
  | .COH_CFG => [⟨31, 1, .rws, 0⟩, ⟨0, 6, .rws, 0⟩]
  | .COH_HOMES => [⟨0, 64, .rws, 0⟩]
  | .COH_COMMIT => [⟨0, 1, .wo, 0⟩]
  | .COH_CFG_STATUS => [⟨8, 1, .ro, 0⟩, ⟨0, 4, .ro, 0⟩]
  | .COH_DOM_STATUS => [⟨28, 4, .ro, 0⟩, ⟨24, 4, .ro, 0⟩, ⟨20, 1, .ro, 0⟩, ⟨16, 4, .ro, 0⟩, ⟨0, 16, .ro, 0⟩]
  | .COH_DOM_CTRL => [⟨1, 1, .wo, 0⟩, ⟨0, 1, .wo, 0⟩]
  | .COH_DIR_OCC => [⟨0, 23, .ro, 0⟩]
  | .COH_POISONED => [⟨0, 32, .w1c, 0⟩]
  | .COH_REQS => [⟨0, 64, .ro, 0⟩]
  | .COH_SNOOPS => [⟨0, 64, .ro, 0⟩]
  | .COH_BACKINV => [⟨0, 64, .ro, 0⟩]
  | .COH_WBPEND_CNT => [⟨0, 32, .w1c, 0⟩]
  | .COH_REFUSED_CNT => [⟨0, 32, .w1c, 0⟩]
  | .COH_PROTO_CNT => [⟨0, 32, .w1c, 0⟩]
  | .COH_MEMBER => [⟨31, 1, .rws, 0⟩, ⟨0, 8, .rws, 0⟩]
  | .COH_WIN_BASE => [⟨63, 1, .rws, 0⟩, ⟨16, 32, .rws, 0⟩]
  | .COH_WIN_LEN => [⟨0, 32, .rws, 0⟩]
  | .YL_CAPS => [⟨24, 8, .ro, 0x60⟩, ⟨16, 8, .ro, 0x21⟩, ⟨8, 8, .ro, 4⟩, ⟨0, 8, .ro, 0xf⟩]
  | .YL_RACK_ID => [⟨0, 16, .rol, 0⟩]
  | .YL_CFG_COMMIT => [⟨0, 1, .wo, 0⟩]
  | .YL_CFG_STATUS => [⟨8, 7, .ro, 0⟩, ⟨0, 4, .ro, 0⟩]
  | .YL_DETOUR_CFG => [⟨0, 4, .rw, 4⟩]
  | .YL_DETOUR_DROP => [⟨0, 32, .w1c, 0⟩]
  | .YL_REACH => [⟨0, 64, .ro, 0⟩]
  | .YL_DETOUR_ACTIVE => [⟨0, 64, .ro, 0⟩]
  | .YL_LINK_UP => [⟨0, 32, .ro, 0⟩]
  | .YL_LINK_CFG => [⟨31, 1, .rol, 1⟩, ⟨30, 1, .rol, 1⟩, ⟨29, 1, .rol, 1⟩, ⟨15, 1, .rol, 0⟩, ⟨0, 8, .rol, 0⟩]
  | .YL_LINK_CTRL => [⟨2, 1, .rw, 1⟩, ⟨1, 1, .wo, 0⟩, ⟨0, 1, .rw, 0⟩]
  | .YL_LINK_STATUS => [⟨28, 4, .ro, 0⟩, ⟨24, 4, .ro, 0⟩, ⟨23, 1, .ro, 0⟩, ⟨22, 1, .ro, 0⟩, ⟨21, 1, .ro, 0⟩, ⟨20, 1, .ro, 0⟩, ⟨16, 4, .ro, 0⟩, ⟨8, 8, .ro, 0⟩, ⟨4, 4, .ro, 0⟩, ⟨0, 4, .ro, 0⟩]
  | .YL_LINK_NEG => [⟨16, 16, .ro, 0⟩, ⟨0, 16, .ro, 0⟩]
  | .YL_LANE_STATUS => [⟨17, 1, .ro, 0⟩, ⟨16, 1, .ro, 0⟩, ⟨8, 8, .ro, 0⟩, ⟨0, 8, .ro, 0⟩]
  | .YL_RETRAIN_CNT => [⟨16, 16, .ro, 0⟩, ⟨0, 16, .ro, 0⟩]
  | .YL_FEC_CORR_CW => [⟨0, 64, .ro, 0⟩]
  | .YL_FEC_SYM0 => [⟨0, 64, .ro, 0⟩]
  | .YL_FEC_SYM1 => [⟨0, 64, .ro, 0⟩]
  | .YL_FEC_UNCORR => [⟨0, 32, .w1c, 0⟩]
  | .YL_CRC_ERR => [⟨0, 32, .w1c, 0⟩]
  | .YL_REPLAY_CNT => [⟨0, 32, .w1c, 0⟩]
  | .YL_DEGRADE_CNT => [⟨0, 32, .w1c, 0⟩]
  | .YL_FAULT_CNT => [⟨0, 32, .w1c, 0⟩]
  | .YL_UNIT_ERR => [⟨0, 32, .w1c, 0⟩]
  | .YL_TX_FLITS => [⟨0, 64, .ro, 0⟩]
  | .YL_RX_FLITS => [⟨0, 64, .ro, 0⟩]
  | .YL_DETOUR_FWD => [⟨0, 64, .ro, 0⟩]
  | .YL_CREDIT_STALL => [⟨0, 64, .ro, 0⟩]
  | .YL_CREDIT_AVAIL => [⟨16, 16, .ro, 0⟩, ⟨0, 16, .ro, 0⟩]
  | .YT_CAPS => [⟨24, 8, .ro, 0xff⟩, ⟨14, 10, .ro, 0x200⟩, ⟨0, 8, .ro, 0x10⟩]
  | .YT_RETX => [⟨16, 4, .rw, 4⟩, ⟨0, 16, .rw, 8⟩]
  | .YT_HDR_ERR => [⟨0, 32, .w1c, 0⟩]
  | .YT_SRC_ERR => [⟨0, 32, .w1c, 0⟩]
  | .YT_KEY_REFUSED => [⟨0, 32, .w1c, 0⟩]
  | .YT_NOT_MSG => [⟨0, 32, .w1c, 0⟩]
  | .YT_SEQ_DUP => [⟨0, 32, .w1c, 0⟩]
  | .YT_SEQ_WINDOW => [⟨0, 32, .w1c, 0⟩]
  | .YT_PKT_CRC => [⟨0, 32, .w1c, 0⟩]
  | .YT_UNREACH_CNT => [⟨0, 32, .w1c, 0⟩]
  | .YT_RETX_CNT => [⟨0, 64, .ro, 0⟩]
  | .YT_PKTS_IN => [⟨0, 64, .ro, 0⟩]
  | .YT_PKTS_OUT => [⟨0, 64, .ro, 0⟩]
  | .YT_AGENT_HOME => [⟨0, 64, .rw, 0⟩]
  | .YT_RKEY => [⟨0, 64, .rw, 0⟩]
  | .YT_RKEY_BASE => [⟨16, 32, .rw, 0⟩]
  | .YT_RKEY_LEN => [⟨0, 32, .rw, 0⟩]
  | .YT_RKEY_CTRL => [⟨31, 1, .rw, 0⟩, ⟨8, 8, .rw, 0⟩, ⟨4, 1, .rw, 0⟩, ⟨3, 1, .rw, 0⟩, ⟨2, 1, .rw, 0⟩, ⟨1, 1, .rw, 0⟩]
  | .YT_RACK_ROUTE => [⟨63, 1, .rw, 0⟩, ⟨16, 8, .rw, 0⟩, ⟨0, 16, .rw, 0⟩]
  | .SWC_CAPS => [⟨24, 8, .ro, 0x62⟩, ⟨20, 4, .ro, 6⟩, ⟨16, 4, .ro, 8⟩, ⟨0, 16, .ro, 0xc0⟩]
  | .SWC_CFG => [⟨0, 3, .rw, 3⟩]
  | .SWC_TC_WEIGHT => [⟨0, 64, .rw, 0x101010101010101⟩]
  | .SWC_RSV => [⟨16, 16, .rw, 0xa0⟩, ⟨0, 16, .rw, 0x140⟩]
  | .SWC_BUF_USED => [⟨0, 22, .ro, 0⟩]
  | .SWC_CT_PKTS => [⟨0, 64, .ro, 0⟩]
  | .SWC_SF_PKTS => [⟨0, 64, .ro, 0⟩]
  | .SWC_PORT_MODE => [⟨0, 8, .rw, 0xff⟩]
  | .SWC_MIR_BASE => [⟨12, 36, .rw, 0⟩]
  | .SWC_MIR_SIZE => [⟨0, 5, .rw, 0xa⟩]
  | .SWC_MIR_CTRL => [⟨31, 1, .rw, 0⟩, ⟨30, 1, .rw, 0⟩, ⟨20, 4, .rw, 0⟩, ⟨18, 2, .rw, 1⟩, ⟨8, 8, .rw, 0xff⟩, ⟨0, 6, .rw, 0x3f⟩]
  | .SWC_MIR_PORTS_LO => [⟨0, 64, .rw, 0⟩]
  | .SWC_MIR_PORTS_HI => [⟨0, 64, .rw, 0⟩]
  | .SWC_MIR_TAIL => [⟨0, 32, .ro, 0⟩]
  | .SWC_MIR_HEAD => [⟨0, 32, .rw, 0⟩]
  | .SWC_MIR_DROP => [⟨0, 32, .w1c, 0⟩]
  | .TSP_CAPS => [⟨24, 8, .ro, 0x10⟩, ⟨16, 8, .ro, 0x10⟩, ⟨8, 8, .ro, 0x13⟩, ⟨0, 8, .ro, 0⟩]
  | .TSP_REF_STATUS => [⟨0, 8, .ro, 0⟩]
  | .TSP_TILES_OUT => [⟨0, 64, .ro, 0⟩]
  | .TSP_TILES_IN => [⟨0, 64, .ro, 0⟩]
  | .HIF_CAPS => [⟨24, 8, .ro, 0x80⟩, ⟨16, 8, .ro, 0x10⟩, ⟨0, 16, .ro, 0x1000⟩]
  | .HIF_LINK_STATUS => [⟨31, 1, .ro, 0⟩, ⟨20, 4, .ro, 0⟩, ⟨8, 8, .ro, 0⟩, ⟨0, 8, .ro, 0⟩]
  | .HIF_BAR2_MAP => [⟨36, 12, .rw, 0⟩, ⟨0, 8, .rw, 0xff⟩]
  | .HIF_VEC_CFG => [⟨16, 11, .rol, 0x80⟩, ⟨0, 6, .rol, 0x1f⟩]
  | .HIF_BAR0_BAD => [⟨0, 32, .w1c, 0⟩]
  | .HIF_BAR2_REFUSED => [⟨0, 32, .w1c, 0⟩]
  | .HIF_VEC_DROP => [⟨0, 32, .w1c, 0⟩]
  | .HIF_CPL_TIMEOUT => [⟨0, 32, .w1c, 0⟩]
  | .TSP_PORT_CTRL => [⟨3, 1, .rw, 1⟩, ⟨2, 1, .rw, 1⟩, ⟨1, 1, .wo, 0⟩, ⟨0, 1, .rw, 1⟩]
  | .TSP_PORT_STATUS => [⟨28, 4, .ro, 0⟩, ⟨24, 4, .ro, 0⟩, ⟨20, 4, .ro, 0⟩, ⟨16, 4, .ro, 0⟩, ⟨4, 4, .ro, 0⟩, ⟨0, 4, .ro, 0⟩]
  | .TSP_PORT_NEG => [⟨0, 16, .ro, 0⟩]
  | .TSP_LANE_STATUS => [⟨0, 32, .ro, 0⟩]
  | .TSP_PORT_COMMIT => [⟨0, 1, .wo, 0⟩]
  | .TSP_CRED_STATUS => [⟨8, 1, .ro, 0⟩, ⟨0, 4, .ro, 0⟩]
  | .TSP_FAULT_CNT => [⟨0, 32, .w1c, 0⟩]
  | .TSP_DEGRADE_CNT => [⟨0, 32, .w1c, 0⟩]
  | .TSP_REPLAY_CNT => [⟨0, 32, .w1c, 0⟩]
  | .TSP_DUP_CNT => [⟨0, 32, .w1c, 0⟩]
  | .TSP_TX_BYTES => [⟨0, 64, .ro, 0⟩]
  | .TSP_RX_BYTES => [⟨0, 64, .ro, 0⟩]
  | .TSP_STREAM_CFG => [⟨31, 1, .rw, 0⟩, ⟨8, 8, .rw, 0⟩]
  | .TSP_STREAM_CRED => [⟨12, 4, .rws, 0⟩, ⟨0, 12, .rws, 0⟩]
  | .TSP_STREAM_STATUS => [⟨31, 1, .w1c, 0⟩, ⟨20, 4, .ro, 0⟩, ⟨16, 4, .ro, 0⟩, ⟨0, 12, .ro, 0⟩]
  | .HIF_SQ_BASE => [⟨6, 50, .rw, 0⟩]
  | .HIF_SQ_CTRL => [⟨31, 1, .rw, 0⟩, ⟨30, 1, .rw, 0⟩, ⟨25, 5, .rw, 0⟩, ⟨16, 5, .rw, 6⟩, ⟨8, 8, .rw, 8⟩, ⟨2, 1, .wo, 0⟩, ⟨1, 1, .wo, 0⟩]
  | .HIF_SQ_STATUS => [⟨28, 4, .ro, 0⟩, ⟨27, 1, .ro, 0⟩, ⟨26, 1, .ro, 1⟩, ⟨25, 1, .w1c, 0⟩, ⟨0, 17, .ro, 0⟩]
  | .HIF_SQ_TAIL => [⟨0, 17, .rw, 0⟩]
  | .HIF_SQ_HEAD => [⟨0, 17, .ro, 0⟩]
  | .HIF_CQ_BASE => [⟨6, 50, .rw, 0⟩]
  | .HIF_CQ_SIZE => [⟨0, 5, .rw, 6⟩]
  | .HIF_CQ_TAIL => [⟨0, 17, .ro, 0⟩]
  | .HIF_CQ_HEAD => [⟨0, 17, .rw, 0⟩]
  | .HIF_SQ_DBADDR => [⟨3, 45, .rw, 0⟩]
  | .PTN_CAPS => [⟨24, 8, .ro, 0x80⟩, ⟨16, 8, .ro, 0x10⟩, ⟨8, 8, .ro, 8⟩]
  | .QOS_COMMIT => [⟨0, 1, .wo, 0⟩]
  | .QOS_STATUS => [⟨24, 8, .ro, 0⟩, ⟨8, 1, .ro, 0⟩, ⟨0, 4, .ro, 0⟩]
  | .RST_CTRL => [⟨8, 8, .wo, 0⟩, ⟨2, 1, .wo, 0⟩, ⟨1, 1, .wo, 0⟩, ⟨0, 1, .wo, 0⟩]
  | .RST_ENGINE => [⟨8, 8, .wo, 0⟩, ⟨0, 4, .wo, 0⟩]
  | .RST_STATUS => [⟨31, 1, .ro, 0⟩, ⟨24, 4, .ro, 0⟩, ⟨0, 16, .w1c, 0⟩]
  | .PTN_RST_VEC => [⟨1, 5, .rw, 0⟩, ⟨0, 1, .rw, 0⟩]
  | .PTN_DRAINING_LO => [⟨0, 64, .ro, 0⟩]
  | .PTN_DRAINING_HI => [⟨0, 64, .ro, 0⟩]
  | .QOS_T0 => [⟨16, 11, .rws, 0x400⟩, ⟨0, 11, .rws, 8⟩]
  | .QOS_T1 => [⟨16, 11, .rws, 0x400⟩, ⟨0, 11, .rws, 8⟩]
  | .QOS_FAB => [⟨16, 11, .rws, 0x400⟩, ⟨0, 11, .rws, 8⟩]
  | .QOS_DA => [⟨16, 11, .rws, 0x400⟩, ⟨0, 11, .rws, 8⟩]
  | .QOS_SCP => [⟨16, 11, .rws, 0x400⟩, ⟨0, 11, .rws, 8⟩]
  | .QOS_TC => [⟨0, 3, .rws, 0⟩]
  | .PTN_ID => [⟨8, 1, .ro, 0⟩, ⟨0, 8, .ro, 0⟩]
  | .PTN_CTRL => [⟨0, 1, .wo, 0⟩]
  | .PTN_STATUS => [⟨28, 4, .ro, 0⟩, ⟨27, 1, .w1c, 0⟩, ⟨0, 16, .ro, 0⟩]
  | .PTN_IRQ_DROP => [⟨0, 32, .w1c, 0⟩]
  | .PTN_RST_CNT => [⟨0, 32, .ro, 0⟩]
  | .PTN_MR_BASE => [⟨6, 50, .rw, 0⟩]
  | .PTN_MR_CTRL => [⟨31, 1, .rw, 0⟩, ⟨21, 5, .rw, 0⟩, ⟨16, 4, .rw, 0xc⟩, ⟨0, 5, .rw, 6⟩]
  | .PTN_MR_TAIL => [⟨0, 17, .ro, 0⟩]
  | .PTN_MR_HEAD => [⟨0, 17, .rw, 0⟩]
  | .PTN_MR_DROP => [⟨31, 1, .w1c, 0⟩, ⟨0, 24, .w1c, 0⟩]
  | .ERR_CAPS => [⟨16, 16, .ro, 0x1000⟩, ⟨8, 8, .ro, 0x40⟩, ⟨0, 8, .ro, 0x16⟩]
  | .ERR_CFG => [⟨0, 16, .rw, 0x10⟩]
  | .ERR_LOG_SEQ => [⟨0, 32, .ro, 0⟩]
  | .ERR_RING_BASE => [⟨12, 52, .rw, 0⟩]
  | .ERR_RING_CTRL => [⟨31, 1, .rw, 0⟩, ⟨21, 5, .rw, 0⟩, ⟨16, 5, .rw, 8⟩, ⟨15, 1, .w1c, 0⟩]
  | .ERR_RING_TAIL => [⟨0, 17, .ro, 0⟩]
  | .ERR_RING_HEAD => [⟨0, 17, .rw, 0⟩]
  | .ERR_RING_DROP => [⟨0, 32, .w1c, 0⟩]
  | .ERR_DETECT_CNT => [⟨0, 32, .w1c, 0⟩]
  | .ERR_ARB_CNT => [⟨0, 32, .w1c, 0⟩]
  | .ERR_CSUM_PATH_CNT => [⟨0, 32, .w1c, 0⟩]
  | .ERR_NODECIDE_CNT => [⟨0, 32, .w1c, 0⟩]
  | .ERR_UNCOMPARED => [⟨0, 32, .w1c, 0⟩]
  | .ERR_RESIDUE_CNT => [⟨0, 32, .w1c, 0⟩]
  | .ERR_POISON_RD => [⟨0, 64, .ro, 0⟩]
  | .ERR_RETIRED => [⟨0, 64, .ro, 0⟩]
  | .TST_CTRL => [⟨31, 1, .rw, 1⟩, ⟨16, 6, .rw, 4⟩, ⟨0, 8, .rw, 0xa⟩]
  | .TST_STATUS => [⟨28, 4, .ro, 0⟩, ⟨24, 4, .ro, 0⟩, ⟨16, 2, .ro, 0⟩, ⟨8, 8, .ro, 0⟩]
  | .TST_SLOTS => [⟨0, 64, .ro, 0⟩]
  | .TST_CYCLES => [⟨0, 64, .ro, 0⟩]
  | .TST_MISMATCH => [⟨0, 32, .w1c, 0⟩]
  | .TST_RETEST_CNT => [⟨16, 16, .ro, 0⟩, ⟨0, 16, .ro, 0⟩]
  | .TST_SWEEP_CTRL => [⟨1, 1, .wo, 0⟩, ⟨0, 1, .wo, 0⟩]
  | .CNT_CAPS => [⟨24, 8, .ro, 0x40⟩, ⟨16, 8, .ro, 0x1e⟩, ⟨8, 8, .ro, 0xa⟩]
  | .CNT_CFG => [⟨31, 1, .rol, 0⟩, ⟨16, 8, .rol, 0x32⟩, ⟨8, 8, .rol, 8⟩, ⟨0, 8, .rol, 0⟩]
  | .CNT_MIRROR_BASE => [⟨30, 18, .rol, 0⟩]
  | .CNT_MIRROR_SIZE => [⟨0, 14, .rol, 0⟩]
  | .CNT_COMMIT => [⟨0, 1, .wo, 0⟩]
  | .CNT_HOFF_BASE => [⟨63, 1, .rol, 0⟩, ⟨16, 32, .rol, 0⟩]
  | .CNT_HOFF_LEN => [⟨0, 15, .rol, 0⟩]
  | .CNT_CFG_STATUS => [⟨8, 1, .ro, 0⟩, ⟨0, 4, .ro, 0⟩]
  | .CNT_STATE => [⟨28, 4, .ro, 0⟩, ⟨24, 4, .ro, 0⟩]
  | .CNT_CTRL => [⟨8, 8, .wo, 0⟩, ⟨1, 1, .wo, 0⟩, ⟨0, 1, .wo, 0⟩]
  | .CNT_PEER_MASK => [⟨0, 64, .wo, 0⟩]
  | .CNT_PEER_CMD => [⟨0, 4, .wo, 0⟩]
  | .CNT_PROG_TAKEN => [⟨0, 64, .ro, 0⟩]
  | .CNT_MIRROR_WAIT => [⟨0, 64, .ro, 0⟩]
  | .CNT_MIRRORED => [⟨0, 64, .ro, 0⟩]
  | .CNT_LEASE_STATUS => [⟨32, 32, .ro, 0⟩, ⟨30, 2, .ro, 0⟩, ⟨0, 16, .ro, 0⟩]
  | .CNT_TAKEOVER_CNT => [⟨0, 32, .w1c, 0⟩]
  | .CNT_DOUBLE_LOSS_CNT => [⟨0, 32, .w1c, 0⟩]
  | .CNT_LEASE_REFUSED => [⟨0, 32, .w1c, 0⟩]
  | .CNT_HOFF_TIE_CNT => [⟨0, 32, .w1c, 0⟩]
  | .CNT_MIRROR_REFUSED => [⟨0, 32, .w1c, 0⟩]
  | .CNT_MIRROR_BYTES => [⟨0, 64, .ro, 0⟩]
  | .CNT_PROG_MIR => [⟨31, 1, .rw, 0⟩, ⟨16, 12, .rw, 0⟩, ⟨0, 12, .rw, 0⟩]
  | .CNT_SHADOW => [⟨63, 1, .rw, 0⟩, ⟨56, 6, .rw, 0⟩, ⟨16, 40, .rw, 0⟩]
  | .MGT_CAPS => [⟨24, 8, .ro, 3⟩, ⟨16, 8, .ro, 0x30⟩, ⟨8, 8, .ro, 4⟩, ⟨0, 8, .ro, 8⟩]
  | .MGT_MBX_CTRL => [⟨31, 1, .rw, 0⟩, ⟨21, 5, .rw, 0⟩]
  | .MGT_MBX_DOORBELL => [⟨0, 15, .wo, 0⟩]
  | .MGT_MBX_STATUS => [⟨31, 1, .ro, 0⟩, ⟨30, 1, .w1c, 0⟩, ⟨0, 15, .ro, 0⟩]
  | .MGT_REFUSE_LAST => [⟨48, 16, .ro, 0⟩, ⟨40, 8, .ro, 0⟩, ⟨32, 8, .ro, 0⟩, ⟨28, 4, .ro, 0⟩, ⟨8, 8, .ro, 0⟩]
  | .MGT_CFG_STATUS => [⟨32, 32, .ro, 0⟩, ⟨31, 1, .ro, 0⟩, ⟨30, 1, .ro, 0⟩, ⟨28, 2, .ro, 2⟩, ⟨24, 4, .ro, 7⟩, ⟨20, 4, .ro, 7⟩, ⟨0, 20, .ro, 0⟩]
  | .MGT_REFUSE_CNT => [⟨0, 32, .w1c, 0⟩]
  | .MGT_NET_MAC => [⟨0, 48, .rws, 0⟩]
  | .MGT_NET_PLCA => [⟨31, 1, .rws, 0⟩, ⟨16, 8, .rws, 0⟩, ⟨8, 8, .rws, 0⟩, ⟨0, 8, .rws, 0x20⟩]
  | .MGT_NET_COMMIT => [⟨0, 1, .wo, 0⟩]
  | .MGT_NET_CFG_STATUS => [⟨8, 1, .ro, 0⟩, ⟨0, 4, .ro, 0⟩]
  | .MGT_NET_STATUS => [⟨31, 1, .ro, 0⟩, ⟨30, 1, .ro, 0⟩, ⟨29, 1, .ro, 0⟩, ⟨20, 4, .ro, 0⟩, ⟨18, 2, .ro, 0⟩, ⟨17, 1, .ro, 0⟩]
  | .MGT_NET_FCS_ERR => [⟨0, 32, .w1c, 0⟩]
  | .MGT_NET_UNAUTH => [⟨0, 32, .w1c, 0⟩]
  | .MGT_NET_OTHER => [⟨0, 32, .w1c, 0⟩]
  | .MGT_NET_LIMITED => [⟨0, 32, .w1c, 0⟩]
  | .MGT_NET_COLLISIONS => [⟨0, 32, .w1c, 0⟩]
  | .MGT_NET_BEACON_LOSS => [⟨0, 32, .w1c, 0⟩]
  | .MGT_NET_RX_FRAMES => [⟨0, 64, .ro, 0⟩]
  | .MGT_NET_TX_FRAMES => [⟨0, 64, .ro, 0⟩]
  | .MGT_ANCHOR_COMMIT => [⟨0, 1, .wo, 0⟩]
  | .MGT_ANCHOR_STATUS => [⟨8, 1, .ro, 0⟩, ⟨0, 4, .ro, 0⟩]
  | .MGT_DELEG => [⟨63, 1, .rws, 0⟩, ⟨16, 16, .rws, 0⟩, ⟨0, 16, .rws, 0⟩]
  | .MGT_DELEG_COMMIT => [⟨0, 1, .wo, 0⟩]
  | .MGT_DELEG_STATUS => [⟨8, 1, .ro, 0⟩, ⟨0, 4, .ro, 0⟩]
  | .SCL_STATUS => [⟨7, 1, .ro, 0⟩, ⟨6, 1, .ro, 0⟩, ⟨0, 3, .ro, 0⟩]
  | .SCL_EVENT_CNT => [⟨0, 32, .ro, 0⟩]
  | .SCL_LAST_SEQ => [⟨0, 64, .ro, 0⟩]
  | .SCL_TICK => [⟨0, 64, .ro, 0⟩]
  | .SCL_DISC => [⟨16, 16, .ro, 0⟩, ⟨0, 16, .ro, 0⟩]
  | .SCL_IN_DROP => [⟨0, 32, .ro, 0⟩]
  | .SCL_OFFER_STATUS => [⟨28, 4, .ro, 0⟩, ⟨0, 21, .ro, 0⟩]
  | .SCL_FW_VERSION => [⟨16, 16, .ro, 0⟩, ⟨0, 16, .ro, 0⟩]
  | .BOOT_STATUS => [⟨28, 4, .ro, 0⟩, ⟨24, 4, .ro, 0⟩, ⟨19, 1, .ro, 0⟩, ⟨18, 1, .ro, 0⟩, ⟨17, 1, .ro, 0⟩, ⟨0, 16, .ro, 0⟩]
  | .BOOT_FW => [⟨0, 32, .ro, 0⟩]
  | .BOOT_SVN => [⟨16, 16, .ro, 0⟩, ⟨0, 16, .ro, 0⟩]
  | .BOOT_SVN_COMMIT => [⟨8, 8, .wo, 0⟩, ⟨0, 1, .wo, 0⟩]
  | .BOOT_OFFER => [⟨28, 4, .ro, 0⟩, ⟨0, 23, .ro, 0⟩]
  | .BOOT_TIME_NS => [⟨0, 64, .ro, 0⟩]
  | .BOOT_UTC_OFFSET => [⟨0, 64, .ro, 0⟩]
  | .BOOT_TIME_HOST => [⟨0, 64, .wo, 0⟩]
  | .BOOT_TIME_STATUS => [⟨31, 1, .ro, 0⟩, ⟨30, 1, .ro, 0⟩, ⟨28, 2, .ro, 0⟩, ⟨16, 12, .w1c, 0⟩, ⟨0, 16, .ro, 0⟩]
  | .LIFE_CTRL => [⟨8, 8, .wo, 0⟩, ⟨1, 1, .wo, 0⟩, ⟨0, 1, .wo, 0⟩]
  | .LIFE_STATUS => [⟨31, 1, .ro, 0⟩, ⟨30, 1, .ro, 0⟩, ⟨29, 1, .ro, 0⟩, ⟨28, 1, .ro, 0⟩, ⟨0, 16, .ro, 0⟩]
  | .LIFE_SERVICE_ADD => [⟨24, 40, .wo, 0⟩, ⟨16, 8, .wo, 0⟩]
  | .LIFE_POWER_ON_S => [⟨0, 64, .ro, 0⟩]
  | .BOOT_TIME_CTRL => [⟨31, 1, .rw, 1⟩, ⟨30, 1, .rw, 1⟩, ⟨0, 16, .rw, 0xc8⟩]
  | .PKG_THERM_CFG => [⟨0, 8, .rw, 0x64⟩]
  | .PKG_PWR_LIMIT => [⟨31, 1, .rw, 1⟩, ⟨0, 11, .rw, 0x578⟩]
  | .PKG_AVS_CTRL => [⟨31, 1, .rw, 1⟩, ⟨12, 12, .ro, 0⟩, ⟨0, 12, .ro, 0⟩]
  | .PKG_THROTTLE_STATUS => [⟨28, 4, .ro, 0⟩, ⟨24, 4, .ro, 0⟩, ⟨20, 4, .ro, 8⟩, ⟨16, 4, .ro, 8⟩, ⟨3, 1, .ro, 0⟩, ⟨2, 1, .ro, 0⟩, ⟨1, 1, .ro, 0⟩, ⟨0, 1, .ro, 0⟩]
  | .PKG_THROTTLE_CYCLES => [⟨0, 64, .ro, 0⟩]
  | .PKG_STRAPS => [⟨0, 8, .ro, 0⟩]
  | .MSIX_ADDR => [⟨0, 64, .rw, 0⟩]
  | .MSIX_DATA => [⟨0, 32, .rw, 0⟩]
  | .MSIX_CTRL => [⟨0, 1, .rw, 1⟩]
  | .MSIX_PEND => [⟨0, 1, .ro, 0⟩]

/-- Part of the list of registers. -/
def Reg.part0 : List Reg :=
  [.PKG_DEVICE_ID, .PKG_IF_VERSION, .PKG_LAYOUT_VERSION, .PKG_NODE_ID, .PKG_HALF_STATUS, .PKG_IODIE_STATUS, .PKG_BRIDGE_STATUS, .PKG_DISCARD_CNT, .PKG_BRIDGE_BYTES_EW, .PKG_BRIDGE_BYTES_WE, .PKG_BRIDGE_REPAIR_CNT, .PKG_CLK_STATUS, .XLT_CAPS, .XLT_UNQUEUED, .XLT_RLB_HIT, .XLT_RLB_MISS, .XLT_RES_MISS, .XLT_CTL_REFUSED, .XLT_TBL_SRC, .XLT_TBL_COUNT, .XLT_TBL_COMMIT, .XLT_TBL_STATUS, .XLT_POOL_BASE, .XLT_POOL_PAGES, .XLT_KEY, .FLTQ_BASE, .FLTQ_CTRL, .FLTQ_STATUS, .FLTQ_TAIL, .FLTQ_HEAD, .FLTQ_RESUME, .FLTQ_QUEUE_FULL, .FLTQ_BAD_RESUME, .XLT_MIG_VA, .XLT_MIG_GO, .XLT_MIG_STATUS, .TIER_CAPS, .TIER_T0_STATUS, .TIER_T1_STATUS, .TIER_T2_STATUS]

/-- Part of the list of registers. -/
def Reg.part1 : List Reg :=
  [.TIER_T1_INFO, .TIER_T0_STAGE, .TIER_T0_COMMIT, .TIER_T0_CFG_STATUS, .TIER_STAGE_REFUSED, .TIER_SCRUB_CTRL, .TIER_T0_BYTES_RD, .TIER_T0_BYTES_WR, .TIER_T1_BYTES_RD, .TIER_T1_BYTES_WR, .TIER_T2_BYTES_RD, .TIER_T2_BYTES_WR, .TIER_CORR_T0, .TIER_CORR_T1, .TIER_UNCORR, .TIER_T2_TIMEOUT_CNT, .TILE_BUSY, .TILE_MOVES, .TILE_ERR_CNT, .TILE_CRC_CNT, .TIER_T2WIN_BASE, .TIER_T2WIN_COUNT, .TIER_N_STATE, .TIER_N_HEALTH, .TIER_N_CAPACITY, .TIER_N_CTRL, .TIER_N_CMD_ERR, .PRF_CAPS, .PRF_CH_MASK, .PRF_MOVES_ISSUED, .PRF_REFETCH_CNT, .PRF_REDIRECT_CNT, .PRF_STAGE_FREE, .CUR_VALUE, .CUR_STATE, .PRF_PROG_CFG, .CUR_MATCH, .CUR_MATCH_CTRL, .PRF_LOAD_STATUS, .PRF_HALT]

/-- Part of the list of registers. -/
def Reg.part2 : List Reg :=
  [.PRF_SPEC_HIT, .PRF_SPEC_MISS_TILES, .PRF_SPEC_WASTE, .PRF_STAGED_BYTES, .PRF_STAGE_QUOTA, .PRF_SPEC_QUOTA, .PRF_STALL_CNT, .DA_CAPS, .DA_CMD, .DA_CMD_ARG, .DA_CMD_STATUS, .DA_POOL_CNT, .DA_REISSUE_CNT, .DA_REISSUE_MISMATCH, .DA_SLOW_CNT, .DA_ITEMS_DONE, .DA_BUSY_CYCLES, .DA_PROG_DESC, .DA_PROG_STATUS, .DA_PROG_NUMSTAT, .DA_PROG_ERR, .DA_PROG_ITEMS, .DA_PROG_TOKENS, .DA_PROG_RING_TAIL, .DA_PROG_RING_HEAD, .DA_ARR_STATUS, .DA_ARR_CTRL, .DA_ARR_ITEMS, .DA_ARR_REISSUES, .DA_ARR_DETECT, .SCP_CAPS, .SCP_CMD, .SCP_CMD_ARG, .SCP_CMD_STATUS, .SCP_HOT_CTRL, .SCP_REPL_BASE_E, .SCP_REPL_BASE_W, .SCP_REPL_SLOTS, .SCP_REPL_COMMIT, .SCP_REPL_STATUS]

/-- Part of the list of registers. -/
def Reg.part3 : List Reg :=
  [.SCP_STAMP_ODD_CNT, .SCP_ROWS, .SCP_RETRIES, .SCP_WAITS, .SCP_UPDATES, .SCP_REPL_HITS, .SCP_REPL_INSTALLS, .SCP_ABANDON_CNT, .SCP_OOR_CNT, .SCP_ENG_STATUS, .SCP_ENG_CTRL, .SCP_ENG_LINES, .SCP_TBL_STATUS, .COH_CAPS, .COH_CFG, .COH_HOMES, .COH_COMMIT, .COH_CFG_STATUS, .COH_DOM_STATUS, .COH_DOM_CTRL, .COH_DIR_OCC, .COH_POISONED, .COH_REQS, .COH_SNOOPS, .COH_BACKINV, .COH_WBPEND_CNT, .COH_REFUSED_CNT, .COH_PROTO_CNT, .COH_MEMBER, .COH_WIN_BASE, .COH_WIN_LEN, .YL_CAPS, .YL_RACK_ID, .YL_CFG_COMMIT, .YL_CFG_STATUS, .YL_DETOUR_CFG, .YL_DETOUR_DROP, .YL_REACH, .YL_DETOUR_ACTIVE, .YL_LINK_UP]

/-- Part of the list of registers. -/
def Reg.part4 : List Reg :=
  [.YL_LINK_CFG, .YL_LINK_CTRL, .YL_LINK_STATUS, .YL_LINK_NEG, .YL_LANE_STATUS, .YL_RETRAIN_CNT, .YL_FEC_CORR_CW, .YL_FEC_SYM0, .YL_FEC_SYM1, .YL_FEC_UNCORR, .YL_CRC_ERR, .YL_REPLAY_CNT, .YL_DEGRADE_CNT, .YL_FAULT_CNT, .YL_UNIT_ERR, .YL_TX_FLITS, .YL_RX_FLITS, .YL_DETOUR_FWD, .YL_CREDIT_STALL, .YL_CREDIT_AVAIL, .YT_CAPS, .YT_RETX, .YT_HDR_ERR, .YT_SRC_ERR, .YT_KEY_REFUSED, .YT_NOT_MSG, .YT_SEQ_DUP, .YT_SEQ_WINDOW, .YT_PKT_CRC, .YT_UNREACH_CNT, .YT_RETX_CNT, .YT_PKTS_IN, .YT_PKTS_OUT, .YT_AGENT_HOME, .YT_RKEY, .YT_RKEY_BASE, .YT_RKEY_LEN, .YT_RKEY_CTRL, .YT_RACK_ROUTE, .SWC_CAPS]

/-- Part of the list of registers. -/
def Reg.part5 : List Reg :=
  [.SWC_CFG, .SWC_TC_WEIGHT, .SWC_RSV, .SWC_BUF_USED, .SWC_CT_PKTS, .SWC_SF_PKTS, .SWC_PORT_MODE, .SWC_MIR_BASE, .SWC_MIR_SIZE, .SWC_MIR_CTRL, .SWC_MIR_PORTS_LO, .SWC_MIR_PORTS_HI, .SWC_MIR_TAIL, .SWC_MIR_HEAD, .SWC_MIR_DROP, .TSP_CAPS, .TSP_REF_STATUS, .TSP_TILES_OUT, .TSP_TILES_IN, .HIF_CAPS, .HIF_LINK_STATUS, .HIF_BAR2_MAP, .HIF_VEC_CFG, .HIF_BAR0_BAD, .HIF_BAR2_REFUSED, .HIF_VEC_DROP, .HIF_CPL_TIMEOUT, .TSP_PORT_CTRL, .TSP_PORT_STATUS, .TSP_PORT_NEG, .TSP_LANE_STATUS, .TSP_PORT_COMMIT, .TSP_CRED_STATUS, .TSP_FAULT_CNT, .TSP_DEGRADE_CNT, .TSP_REPLAY_CNT, .TSP_DUP_CNT, .TSP_TX_BYTES, .TSP_RX_BYTES, .TSP_STREAM_CFG]

/-- Part of the list of registers. -/
def Reg.part6 : List Reg :=
  [.TSP_STREAM_CRED, .TSP_STREAM_STATUS, .HIF_SQ_BASE, .HIF_SQ_CTRL, .HIF_SQ_STATUS, .HIF_SQ_TAIL, .HIF_SQ_HEAD, .HIF_CQ_BASE, .HIF_CQ_SIZE, .HIF_CQ_TAIL, .HIF_CQ_HEAD, .HIF_SQ_DBADDR, .PTN_CAPS, .QOS_COMMIT, .QOS_STATUS, .RST_CTRL, .RST_ENGINE, .RST_STATUS, .PTN_RST_VEC, .PTN_DRAINING_LO, .PTN_DRAINING_HI, .QOS_T0, .QOS_T1, .QOS_FAB, .QOS_DA, .QOS_SCP, .QOS_TC, .PTN_ID, .PTN_CTRL, .PTN_STATUS, .PTN_IRQ_DROP, .PTN_RST_CNT, .PTN_MR_BASE, .PTN_MR_CTRL, .PTN_MR_TAIL, .PTN_MR_HEAD, .PTN_MR_DROP, .ERR_CAPS, .ERR_CFG, .ERR_LOG_SEQ]

/-- Part of the list of registers. -/
def Reg.part7 : List Reg :=
  [.ERR_RING_BASE, .ERR_RING_CTRL, .ERR_RING_TAIL, .ERR_RING_HEAD, .ERR_RING_DROP, .ERR_DETECT_CNT, .ERR_ARB_CNT, .ERR_CSUM_PATH_CNT, .ERR_NODECIDE_CNT, .ERR_UNCOMPARED, .ERR_RESIDUE_CNT, .ERR_POISON_RD, .ERR_RETIRED, .TST_CTRL, .TST_STATUS, .TST_SLOTS, .TST_CYCLES, .TST_MISMATCH, .TST_RETEST_CNT, .TST_SWEEP_CTRL, .CNT_CAPS, .CNT_CFG, .CNT_MIRROR_BASE, .CNT_MIRROR_SIZE, .CNT_COMMIT, .CNT_HOFF_BASE, .CNT_HOFF_LEN, .CNT_CFG_STATUS, .CNT_STATE, .CNT_CTRL, .CNT_PEER_MASK, .CNT_PEER_CMD, .CNT_PROG_TAKEN, .CNT_MIRROR_WAIT, .CNT_MIRRORED, .CNT_LEASE_STATUS, .CNT_TAKEOVER_CNT, .CNT_DOUBLE_LOSS_CNT, .CNT_LEASE_REFUSED, .CNT_HOFF_TIE_CNT]

/-- Part of the list of registers. -/
def Reg.part8 : List Reg :=
  [.CNT_MIRROR_REFUSED, .CNT_MIRROR_BYTES, .CNT_PROG_MIR, .CNT_SHADOW, .MGT_CAPS, .MGT_MBX_CTRL, .MGT_MBX_DOORBELL, .MGT_MBX_STATUS, .MGT_REFUSE_LAST, .MGT_CFG_STATUS, .MGT_REFUSE_CNT, .MGT_NET_MAC, .MGT_NET_PLCA, .MGT_NET_COMMIT, .MGT_NET_CFG_STATUS, .MGT_NET_STATUS, .MGT_NET_FCS_ERR, .MGT_NET_UNAUTH, .MGT_NET_OTHER, .MGT_NET_LIMITED, .MGT_NET_COLLISIONS, .MGT_NET_BEACON_LOSS, .MGT_NET_RX_FRAMES, .MGT_NET_TX_FRAMES, .MGT_ANCHOR_COMMIT, .MGT_ANCHOR_STATUS, .MGT_DELEG, .MGT_DELEG_COMMIT, .MGT_DELEG_STATUS, .SCL_STATUS, .SCL_EVENT_CNT, .SCL_LAST_SEQ, .SCL_TICK, .SCL_DISC, .SCL_IN_DROP, .SCL_OFFER_STATUS, .SCL_FW_VERSION, .BOOT_STATUS, .BOOT_FW, .BOOT_SVN]

/-- Part of the list of registers. -/
def Reg.part9 : List Reg :=
  [.BOOT_SVN_COMMIT, .BOOT_OFFER, .BOOT_TIME_NS, .BOOT_UTC_OFFSET, .BOOT_TIME_HOST, .BOOT_TIME_STATUS, .LIFE_CTRL, .LIFE_STATUS, .LIFE_SERVICE_ADD, .LIFE_POWER_ON_S, .BOOT_TIME_CTRL, .PKG_THERM_CFG, .PKG_PWR_LIMIT, .PKG_AVS_CTRL, .PKG_THROTTLE_STATUS, .PKG_THROTTLE_CYCLES, .PKG_STRAPS, .MSIX_ADDR, .MSIX_DATA, .MSIX_CTRL, .MSIX_PEND]

/-- Every register, in the order of the tables. -/
def Reg.all : List Reg :=
  Reg.part0 ++ Reg.part1 ++ Reg.part2 ++ Reg.part3 ++ Reg.part4 ++ Reg.part5 ++ Reg.part6 ++ Reg.part7 ++ Reg.part8 ++ Reg.part9

end Sys2Proof.Machine
end

