-- ==== Sys2Proof/Machine/Sparse.lean ====
section
/-!
DEFINITION. Sparse maps from numbers, as plain data: a list of key and value pairs with rising keys and no entry equal
to the value an unlisted key reads as. Memory, the register files and every numbered table of the state are such lists.
-/

namespace Sys2Proof.Machine

/-- A sparse map. -/
abbrev Sparse (α : Type) := List (Nat × α)

/-- The value at a key; `d` where the key is not listed. -/
def sget {α : Type} (d : α) : Sparse α → Nat → α
  | [], _ => d
  | (k', v) :: r, k => if k' = k then v else sget d r k

/-- Write a value at a key; writing `d`, the value an unlisted key reads as, removes the entry. -/
def sput {α : Type} [DecidableEq α] (d : α) (k : Nat) (v : α) : Sparse α → Sparse α
  | [] => if v = d then [] else [(k, v)]
  | (k', v') :: r =>
    if k < k' then (if v = d then (k', v') :: r else (k, v) :: (k', v') :: r)
    else if k' = k then (if v = d then r else (k, v) :: r)
    else (k', v') :: sput d k v r

/-- Drop every entry whose key meets `p`. -/
def sdrop {α : Type} (p : Nat → Bool) (m : Sparse α) : Sparse α := m.filter fun e => !p e.1

/-- Keys strictly rising, each above `lo` (if given). -/
def srising {α : Type} : Option Nat → Sparse α → Bool
  | _, [] => true
  | lo, (k, _) :: r => (match lo with | none => true | some l => decide (l < k)) && srising (some k) r

/-- The canonical form: keys strictly rising, no entry equal to what its key reads as unlisted. -/
def swf {α : Type} [DecidableEq α] (d : Nat → α) (m : Sparse α) : Bool :=
  srising none m && m.all fun e => decide (e.2 ≠ d e.1)

/-- Insert into a strictly rising list of numbers. -/
def ninsert (k : Nat) : List Nat → List Nat
  | [] => [k]
  | x :: r => if k < x then k :: x :: r else if k = x then x :: r else x :: ninsert k r

end Sys2Proof.Machine
end

