-- ==== Sys2Proof/Machine/State.lean ====
section
/-!
DEFINITION. The state of the block as plain data, the reasons a step can stop, and the state after reset.
Registers live in two sparse files (`regs`, and `staged` for the members of commit groups), keyed by register and
instance; every other piece of state has a field of its own.
-/

namespace Sys2Proof.Machine

/-- Why the machine stops. -/
inductive Fault where
  /-- A command whose operands name an instance that the spec does not give the controller (a 97th link, a 17th port).
  Raised by every meaning through `run`. Safe: no such command exists on the hardware. -/
  | illFormed
  deriving DecidableEq, Repr

/-- Why a command has no meaning. -/
inductive Refusal where
  /-- The command is not modelled yet. Raised by Machine/Dispatch.lean alone. Safe. -/
  | notModelled (mnemonic : String)
  deriving DecidableEq, Repr

/-! ## Memory -/

/-- An extent whose content a rule calls undefined (R883): `stamp` numbers the event. -/
structure UndefExt where
  base  : Nat
  len   : Nat
  stamp : Nat
  deriving DecidableEq, Repr

/-- The controller's own memory by local offset (R63): listed bytes, lines stored as the poison word (R660), extents of
undefined content (R883), the lines of those extents that a whole-line write has replaced since, and the lines that the last command
found uncorrectable and has not delivered yet (R659). -/
structure Memory where
  cells  : List Host.Cell := []
  poison : List Nat := []
  undef  : List UndefExt := []
  clean  : List Nat := []
  fresh  : List Nat := []
  deriving DecidableEq, Repr

/-! ## What the block sends outward -/

/-- Everything the block puts on a wire: writes to host memory, interrupts, packets, frames, drive commands, pins.
`State.out` lists them, newest first. -/
inductive Output where
  /-- A zero-length read of a function of the host port (0 the physical function, p + 1 a virtual function), whose completion is awaited
  before the completion record that follows (R592). -/
  | zeroRead (fn : Nat)
  /-- A memory write to host memory at an IOVA: with the Relaxed Ordering attribute (R592), as a poisoned TLP (R663). -/
  | hostWrite (addr : Nat) (data : List Byte) (relaxed poisoned : Bool)
  /-- A FLIT on a link (R472): 256 bytes. -/
  | flit (link : Nat) (bytes : List Byte)
  /-- The alignment marker ahead of a group of codewords on each lane in use (R468): the group phase. -/
  | marker (link : Nat) (lanes : List Nat) (phase : Nat)
  /-- A codeword on a link (R467): the symbols that each lane carries. -/
  | codeword (link : Nat) (lanes : List (Nat × List Nat))
  /-- One MSI-X message of a function (0 the physical function, p + 1 a virtual function): table address and data. -/
  | msix (fn vec : Nat) (addr data : Word)
  /-- An NVMe Read of `n` LBAs on an I/O queue pair of a drive (R137). -/
  | driveRead (d pair lba n : Nat)
  /-- An NVMe Write on an I/O queue pair of a drive (byte address), with FUA as R156 asks, and its data. -/
  | driveWrite (d pair addr : Nat) (fua : Bool) (data : List Byte)
  /-- An admin command to a drive (R135), or a write of its controller's registers. -/
  | driveCmd (d : Nat) (name : String) (args : List Nat)
  /-- A write to board flash. -/
  | flashWrite (addr : Nat) (data : List Byte)
  /-- The value a host or fabric read of the block's registers or memory returns. -/
  | readValue (data : List Byte) (poisoned : Bool)
  /-- A PCIe answer without data. -/
  | pcieStatus (name : String)
  /-- A JXV-M datagram on the management segment, header and body before sealing. -/
  | datagram (isSealed : Bool) (bytes : List Byte)
  /-- An ICMPv6 message of the management segment. -/
  | icmp (name : String) (bytes : List Byte)
  /-- A signal pin driven to a level. -/
  | pin (name : String) (level : Bool)
  /-- A message to one of the units that the spec draws outside the block's registers (a regulator, a port's trainer). -/
  | note (name : String) (args : List Nat)
  deriving DecidableEq, Repr

/-! ## Halves and bridge (01_architecture.md) -/

/-- A commit in progress (R756): the commit entry's register and instance and the snapshot of its members. -/
structure CommitSt where
  key  : Nat
  snap : List (Nat × Word)
  deriving DecidableEq, Repr

/-! ## Translation (02_address_translation.md) -/

/-- A migration command in a context's queue (R86 to R91). `busy` are the pool pages whose move is in
progress, `moved` those whose move is complete. -/
structure MigCmd where
  toHost  : Bool
  vaPage  : Nat
  count   : Nat
  inv     : Bool
  resume  : Bool
  tag     : Nat
  started : Bool := false
  moved   : List Nat := []
  busy    : List Nat := []
  deriving DecidableEq, Repr

/-- One of the 129 translation contexts: the active shadow (entries of R69), the checked table that waits for its
activation (R80), the residency bitmap as a rising list of pool pages, whether the shadow was lost to poison (R667),
and the migration queue. -/
structure CtxSt where
  table    : List (BitVec 256) := []
  next     : Option (List (BitVec 256)) := none
  resident : List Nat := []
  lost     : Bool := false
  migs     : List MigCmd := []
  deriving DecidableEq, Repr

/-- Fault kinds (R93). -/
inductive FaultKind where
  | unmapped | protection | key | notResident
  deriving DecidableEq, Repr

/-- The states of an engine slot (R108); `waiting` is an access held while its page migrates (R89). -/
inductive FaultState where
  | run | queued | unqueued | waiting
  deriving DecidableEq, Repr

/-- What a fault record says of the access (R98). -/
structure FaultRec where
  ctx    : Nat := 0
  va     : Nat := 0
  kind   : FaultKind := .unmapped
  access : Nat := 0
  extent : Nat := 0
  more   : Bool := false
  long   : Bool := false
  cursor : Word := 0
  time   : Nat := 0
  tag    : Nat := 0
  deriving DecidableEq, Repr

/-- One of the 346 engine slots (R99): its state, the GEN of its next fault, the fault it holds, and the fault queue index
its record was written to. -/
structure EngSt where
  st   : FaultState := .run
  gen  : Nat := 0
  flt  : FaultRec := {}
  index : Nat := 0
  deriving DecidableEq, Repr

/-- A translation epoch whose accesses have not all completed (R78): the context, its table and the base of its pool, and the
engine slots whose access in progress was translated under it. -/
structure OldEpoch where
  ctx   : Nat
  table : List (BitVec 256)
  base  : Word
  slots : List Nat
  deriving DecidableEq, Repr

/-- The range lookaside and the residency cache of a half (R82 to R85): the ranges held, by context and VA_PAGE, and the
bitmap lines held, by context and number (512 pool pages each). -/
structure LookSt where
  ranges : List (Nat × Nat) := []
  bits   : List (Nat × Nat) := []
  deriving DecidableEq, Repr

/-- Records of a fault queue whose write has been issued and is not yet performed, oldest first (engine slot and index), and
whether VEC_FAULT was raised since the last write of FLTQ_HEAD (R102). -/
structure FltqSt where
  writes : List (Nat × Nat) := []
  raised : Bool := false
  deriving DecidableEq, Repr

/-! ## Tiers and tile mover (03_tiers_and_tiles.md) -/

/-- A tile move descriptor (R150). -/
structure Desc where
  op        : Nat := 1
  flags     : Nat := 0
  srcKind   : Nat := 0
  dstKind   : Nat := 0
  extent    : Nat := 0
  src       : Nat := 0
  dst       : Nat := 0
  cookie    : Nat := 0
  expectId  : Nat := 0
  expectVer : Nat := 0
  /-- Did the check of R139 at the fetch find the tier 2 source or destination outside its window (R168). -/
  srcOut    : Bool := false
  dstOut    : Bool := false
  deriving DecidableEq, Repr

/-- What a piece of work was submitted by: an entry of a partition's command queue (partition, queue, ring slot), a
move of the Proofer (program, index of the tile in its staging directory), or management firmware. -/
inductive WorkSrc where
  | none
  | queue (p q slot : Nat)
  | proofer (prog tile : Nat)
  | fw (cookie : Nat)
  deriving DecidableEq, Repr

/-- Where a tile move stands (R154 to R157). -/
inductive MovePhase where
  | idle        -- the channel is free
  | faulted     -- held on a translation fault, or on a page in migration
  | waitTsp     -- waits for an inbound tile of its stream
  | t2Read      -- an NVMe Read is outstanding
  | reading     -- header accepted, payload and side data being read into the buffer
  | writing     -- destination writes issued, acknowledgements awaited
  | t2Body      -- first FUA Write outstanding (R156)
  | t2Header    -- second FUA Write outstanding
  | header      -- header write issued
  | tspSend     -- passed to the stream port (R157)
  | copy        -- copies a sequence to the partner's mirror (R708): program + 64 × slot in `desc.cookie`
  deriving DecidableEq, Repr

/-- One tile mover channel: its descriptor, the context and source of the work, and the channel buffer (the whole tile,
with the numbers of its poisoned 64 B lines). `keyed` says that only the writes that carry a region key have been issued so far,
`aborted` that a partition reset ends the move when its drive command completes (R160). -/
structure ChanSt where
  phase  : MovePhase := .idle
  desc   : Desc := {}
  ctx    : Nat := 0
  src    : WorkSrc := .none
  buf    : List Byte := []
  poison : List Nat := []
  flag   : Bool := false
  keyed  : Bool := false
  aborted : Bool := false
  deriving DecidableEq, Repr

/-- One NVMe drive: the times of its recoveries (R141), and whether its shutdown notification waits for outstanding commands. -/
structure DrvSt where
  recoveries : List Nat := []
  closing    : Bool := false
  deriving DecidableEq, Repr

/-! ## Programs, the Proofer and the decode arrays (04_layer_cursor.md, 06_decode_arrays.md) -/

/-- A Hamper entry (R181). `half` is 0 East, 1 West, 2 both; `srcs` the endpoint kinds and addresses of its sources. -/
structure HEntry where
  expert : Option Nat
  keep   : Bool
  half   : Nat
  extent : Nat
  id     : Nat
  ver    : Nat
  slot   : Nat
  srcs   : List (Nat × Nat)
  deriving DecidableEq, Repr

/-- A layer of a loaded program: its Hamper, and its phase descriptors of 64 B each (R280). -/
structure LayerD where
  hamper : List HEntry := []
  phases : List (List Byte) := []
  deriving DecidableEq, Repr

/-- A sequence slot (R289) with what the running step has made of it: STATUS of its record, the token sampled, and the
numeric status of R274. -/
structure SeqSt where
  slot    : Nat
  adapter : Nat
  topK    : Nat
  key     : Nat
  pos     : Nat
  maxPos  : Nat
  kvBase  : Nat
  seed    : Nat
  invTemp : Nat
  topP    : Nat
  last    : Nat
  stop    : Nat
  status  : Nat := 0
  token   : Nat := 0xFFFFFFFF
  numstat : Nat := 0
  deriving DecidableEq, Repr

/-- Where a tile of the staging directory stands. -/
inductive StageSt where
  | space     -- waits for staging space (R193, R196)
  | flight    -- its move waits for a channel (R190) or runs
  | present
  | freed     -- dropped; its space waits for the last array read (R196)
  deriving DecidableEq, Repr

/-- A reference of a Hamper entry to a tile: the step it was issued for, none for a KEEP entry. -/
structure TileRef where
  prog  : Nat
  layer : Nat
  entry : Nat
  step  : Option Nat := none
  deriving DecidableEq, Repr

/-- A tile of the staging directory (R191). `want` is the EXPECT_VER of its moves; `srcs` are the sources of the entry whose list it
follows and `src` the one in use, `tried` the sources that have failed; `again` marks a DST_ERROR and `refetch` a POISON completion,
`redir` a tile redirected to the other half (R193), and `fol` one staged for a follower (R212). -/
structure StageTile where
  num    : Nat
  part   : Nat
  id     : Nat
  ver    : Nat
  want   : Nat
  half   : Nat
  off    : Nat := 0
  len    : Nat
  extent : Nat
  srcs   : List (Nat × Nat)
  src    : Nat := 0
  tried  : List (Nat × Nat) := []
  st     : StageSt := .space
  refs   : List TileRef := []
  again  : Bool := false
  refetch : Bool := false
  redir  : Bool := false
  fol    : Bool := false
  deriving DecidableEq, Repr

/-- A lane's exact accumulator of one output row (R249) with its flags. -/
structure LaneAcc where
  acc       : Int := 0
  inexact   : Bool := false
  nonfinite : Bool := false
  deriving DecidableEq, Repr

/-- What a run of an item gives one lane: integer partials of its rows at the position `q` (R246), words (addends, or
finished FP32 values), bytes of KV tiles, its flags of R274, or that poison ended the lane (R321). -/
structure LaneOut where
  lane   : Nat
  recd   : Nat := 0
  poison : Bool := false
  q      : Option Int := none
  rows   : List LaneAcc := []
  words  : List Nat := []
  bytes  : List Byte := []
  flags  : Nat := 0
  deriving DecidableEq, Repr

/-- What set off arbitration of an item (R673). -/
inductive Trig where
  | none | csum | residue | dup
  deriving DecidableEq, Repr

/-- The conditions at a detection (R678, R689): envelope, device time, temperature and rail. -/
structure DetAt where
  env  : Nat
  time : Nat
  temp : Int
  volt : Nat
  deriving DecidableEq, Repr

/-- One run of an item: the array, the results, `diff` (0 for a run without a hardware error; runs with equal `diff` are
equal bit for bit), its detection with the syndrome, the number of failing lanes and the conditions, the code of R320
that fails the item (with its slot), whether the item waits for a tile to be fetched again (R667), and whether the
combiner finds a residue error when it adds the partials (R676). -/
structure RunRes where
  arr  : Nat
  outs : List LaneOut := []
  diff : Nat := 0
  trig : Trig := .none
  syn  : Nat := 0
  cnt  : Nat := 0
  seen : Option DetAt := none
  fail : Nat := 0
  fslot : Nat := 0
  wait : Bool := false
  comb : Bool := false
  deriving DecidableEq, Repr

/-- An item of a phase in issue (R307). `group` numbers its reduction group, `lanes` are its batch lanes with their
record of the SEL buffer, `halves` the halves that may run it and `staged` those preferred among them (R310), `home` the half of the
owning combiner (R312; 2 for the half of the array that runs it), `cycles` its time in fold 1. `runs` are its results in order, `tried` the arrays that ran it, `arb` says that it waits for
an arbitration run (R672), `recomp` for the Taster's recomputed checksum (R675). -/
structure Item where
  num    : Nat
  slot   : Nat
  group  : Nat
  col    : Nat := 0
  expert : Nat := 0
  lanes  : List (Nat × Nat)
  halves : List Nat
  staged : List Nat
  home   : Nat
  fold   : Nat
  cycles : Nat
  issued : Bool := false
  dup    : Bool := false
  trig   : Trig := .none
  arb    : Bool := false
  recomp : Bool := false
  tried  : List Nat := []
  running : List Nat := []
  runs   : List RunRes := []
  taken  : Option RunRes := none
  closed : Bool := false
  deriving DecidableEq, Repr

/-- What the controller knows of a mirrored program (R703 to R713): CNT_PROG_MIR as LOAD found it, slots whose copy runs and
is done, the steps not yet committed with their entries (oldest first), what the oldest waits for (0 its pushes, 1 its
bank, 2 its header), whether a push or commit has failed, and the slots of the last commit. -/
structure MirSt where
  cfg       : Option Word := none
  copying   : List Nat := []
  copied    : List Nat := []
  steps     : List (Nat × List SeqSt) := []
  stage     : Nat := 0
  bad       : Bool := false
  committed : Option (List Nat) := none
  deriving DecidableEq, Repr

/-- One of the 64 programs. `fired` are the layers of the step whose Hampers have been issued (step, layer), `sel` the
records of each SELECTION buffer (offset, lane, expert and gate), `exps` the largest
element exponent written to each buffer lane (R284; offset, lane), `pendW` the groups whose outputs wait for an array to write them, `pendK` KEY
refusals of output writes that wait for their array (group, array, refused address, end of the access), `written` the KV extents of the layer (lane's
slot, address, length). -/
structure ProgSt where
  part    : Nat := 0
  layers  : List LayerD := []
  turn    : Bool := false
  maxSeqs : Nat := 0
  actBase : Nat := 0
  actBytes : Nat := 0
  prio    : Nat := 0
  ringBase : Nat := 0
  ringSize : Nat := 0
  descHalf : Nat := 0
  cfg     : Word := 0
  started : Bool := false
  parkReq : Bool := false
  launched : Bool := false
  haltReq : Nat := 0
  seqs    : List SeqSt := []
  pend    : List (Nat × Option SeqSt) := []
  lanes   : List Nat := []
  fired   : List (Nat × Nat) := []
  spec    : List Nat := []
  predicted : List (Nat × Nat) := []
  sel     : List (Nat × Nat × List (Nat × Nat)) := []
  begun   : Bool := false
  embeds  : List Nat := []
  items   : List Item := []
  exps    : List (Nat × Nat × Option Int) := []
  converted : List Nat := []
  residues : List Nat := []
  pendW   : List (Nat × Nat) := []
  pendK   : List (Nat × Nat × Nat × Nat) := []
  written : List (Nat × Nat × Nat) := []
  mir     : MirSt := {}
  deriving DecidableEq, Repr

/-- What an array is doing: nothing, a run of an item (program, item; whether it is an arbitration run), a read of an adapter table for the
LORA phase of a program (R304), the output writes of a group (program, group;
R886), or a Taster's slot. -/
inductive ArrJob where
  | none
  | item (prog num : Nat) (arb : Bool)
  | table (prog : Nat)
  | write (prog group : Nat)
  | test
  deriving DecidableEq, Repr

/-- A Taster slot on an array (R681, R684): the reference array, OPCLASS, whether it is a retest, and the runs that a
mismatch has needed. -/
structure TestSt where
  ref     : Nat
  opclass : Nat
  retest  : Bool
  deriving DecidableEq, Repr

/-- One decode array: its job and the result of the run in progress, its codebook slots (R277: slot, partition, TILE_ID
and payload), the staging directory's tiles that its run reads, the tile its buffer holds (tile, program and cursor, bytes; R308), the times of re-issues charged to it and whether it enters SLOW when its item ends (R317), and its
detection tracking (R679, R680): envelope records, the envelope under retest with its detection time, detections held
meanwhile, the slot it is in, the slots taken (when, and how often by OPCLASS and band), and whether a sweep tests it. -/
structure ArrSt where
  job      : ArrJob := .none
  cur      : Option RunRes := none
  books    : List (Nat × Nat × Nat × List Byte) := []
  reads    : List Nat := []
  buffer   : Option (Nat × Word × List Byte) := none
  reissues : List Nat := []
  slow     : Bool := false
  envs     : List (Nat × List Nat) := []
  retest   : Option (Nat × Nat) := none
  held     : List Nat := []
  test     : Option TestSt := none
  lastSlot : Nat := 0
  tested   : List (Nat × Nat) := []
  deriving DecidableEq, Repr

/-! ## Fabric (10_yalig_links.md, 11_yalig_transactions.md) -/

/-- A packet (R517), field by field, with its payload. `key` is the region key of a packet with KEYW. -/
structure Packet where
  op     : Nat
  dst    : Nat
  src    : Nat
  part   : Nat := 0xFF
  vc     : Nat := 0
  tc     : Nat := 0
  scope  : Nat := 0
  rel    : Bool := false
  acq    : Bool := false
  key    : Option Nat := none
  poison : Bool := false
  seq    : Nat := 0
  tag    : Nat := 0
  off    : Nat := 0
  status : Nat := 0
  partNo : Nat := 0
  atop   : Nat := 0
  last   : Bool := true
  reg    : Bool := false
  wait   : Bool := false
  len    : Nat := 1
  coh    : Nat := 0
  data   : List Byte := []
  /-- A received packet carries a reserved encoding (R13). -/
  rsv    : Bool := false
  deriving DecidableEq, Repr

/-- What waits for the response to a request that this controller sent. -/
inductive ReqClient where
  | none
  | chan (ch : Nat)              -- writes of a tile mover channel
  | scoop (g : Nat)              -- destination writes of a Scoop engine's command
  | read (h : Nat)               -- RD of an engine of half h whose data the command's Env carried (assumption log 26)
  | outs (n g a : Nat)           -- output writes of a reduction group of a program, charged to an array (R886)
  | kv (a : Nat)                 -- KV writes of the run of an array
  | row (g k : Nat)              -- SRD of part k of the current row of an engine
  | install (h slot : Nat)       -- SRD of a replica install
  | update (g : Nat)             -- SUPD of an engine's ROW_UPDATE
  | inval (op node : Nat)        -- RINV of a home's update
  | flag (p q slot : Nat)        -- flag access of an ordering entry
  | fence (p q slot : Nat)       -- FENCE of an ordering entry
  | msg (p q slot : Nat)         -- MSG of a queue entry
  | mirror (n : Nat)             -- mirror pushes of a program (R707)
  | peer                         -- writes to the partner's CNT block (15_continuity.md)
  | handoff (n : Nat)            -- mirror write of a handoff record (R728)
  deriving DecidableEq, Repr

/-- A request that awaits its response. -/
structure Req where
  node   : Nat
  tag    : Nat
  op     : Nat
  client : ReqClient
  sent   : Nat
  /-- Where the request lies in the virtual extent of its access, and where that extent ends (R96). -/
  va     : Nat := 0
  fin    : Nat := 0
  deriving DecidableEq, Repr

/-- A request that failed: its client, its status, and its place in the access. -/
structure ReqFail where
  client : ReqClient
  status : Nat
  va     : Nat := 0
  fin    : Nat := 0
  deriving DecidableEq, Repr

/-- A packet in the switch core: its ingress port (97 for the engines, 96 for the home agent), the cells of the shared
area it is charged for (none if they are charged to the ingress port's reserve), whether it arrived with a DETOUR
prefix or needs store-and-forward (R558), and its arrival number. -/
structure SwPkt where
  pkt     : Packet
  ingress : Nat
  shared  : Bool := true
  transit : Bool := false
  resent  : Bool := false
  /-- The only link it may take (a copy of a broadcast), and the uplink group it goes over. -/
  port    : Option Nat := none
  group   : Option Nat := none
  /-- The TARGET of a transit packet (R500). -/
  via     : Option Nat := none
  /-- The intermediate that a pull read goes through (R722). -/
  mid     : Option Nat := none
  num     : Nat
  deriving DecidableEq, Repr

/-- A stream, sending side (R530): next SEQ, the packets a SACK has not covered, oldest first, the resends without new
coverage (R535) and whether the destination is unreachable. -/
structure TxStream where
  next    : Nat := 0
  store   : List Packet := []
  resends : Nat := 0
  dead    : Bool := false
  deriving DecidableEq, Repr

/-- A stream, receiving side (R531): the SEQ expected, the packets held, and the packets delivered since the last SACK
(R532), with whether any has arrived since. -/
structure RxStream where
  next    : Nat := 0
  held    : List Packet := []
  due     : Nat := 0
  seen    : Bool := false
  deriving DecidableEq, Repr

/-- A CAPS unit (R480). -/
structure Caps where
  rack   : Nat
  node   : Nat
  role   : Nat
  major  : Nat
  minor  : Nat
  max2   : Nat
  max1   : Nat
  feats  : Nat
  credits : List Nat
  deriving DecidableEq, Repr

/-- A FLIT in the replay buffer (R481), with the packets whose last word it carries (their detour target, if they
carried a prefix), and the tiles (stream, TSEQ) whose last word it carries. -/
structure RepFlit where
  fseq : Nat
  body : List Byte
  pkts : List SwPkt := []
  tiles : List (Nat × Nat) := []
  deriving DecidableEq, Repr

/-- One link L00 to L95: whether it trains after a recovery and its fast retrains so far, the FSEQ to send and the FSEQ
expected, acknowledgements due, a NAK outstanding (with how often in a row, R486), the replay buffer, words of a
packet in reassembly, packets received and not yet taken by the switch core (with the TARGET of a DETOUR prefix and
whether the trailer was good), credits owed to the neighbour by pool, the last CAPS units received and whether the own
one was acknowledged, the neighbour's reach map, the lane a LANE_DROP names, and whether the link has been up for 1 ms (R496). A tile stream
port's link layer is kept as links 96 to 111 (R573): its tiles received whole and not yet taken into the buffer (stream,
TSEQ, bytes), and the TSEQ expected by stream. -/
structure LinkSt where
  recovery : Bool := false
  fast     : Nat := 0
  lane1    : Option Nat := none      -- the only trained receive lane (R461), if one
  txSeq    : Nat := 0
  rxSeq    : Nat := 0
  unacked  : Nat := 0
  nak      : Nat := 0
  replay   : List RepFlit := []
  words    : List Nat := []
  target   : Option Nat := none
  arrived  : List (Option Nat × Packet × Bool) := []
  owed     : List Nat := []
  caps     : Option Caps := none
  capsTwice : Bool := false
  capsAcked : Bool := false
  reachSeq : Option Nat := none
  reachMap : Word := 0
  mySeq    : Nat := 0
  drop     : Option Nat := none
  provisional : Bool := false
  held     : Bool := false
  tilesIn  : List (Nat × Nat × List Byte) := []
  tseqs    : List (Nat × Nat) := []
  deficit  : List Nat := []
  turn     : Nat := 0
  /-- The stream being sent (R469): message bits that fill no codeword yet, how many, and the codewords sent since the last group of
  phase 0. -/
  fecBits  : Nat := 0
  fecLen   : Nat := 0
  fecCw    : Nat := 0
  deriving DecidableEq, Repr

/-! ## Coherent domain (09_coherent_domains.md) -/

/-- A directory entry (R426) of a line: the member slot that owns it (EX or OW; none in SH) and the slots that share it.
`State.dir` lists them, most recently used first; BUSY is the existence of a transaction on the line. -/
structure DirEnt where
  line    : Nat
  owner   : Option Nat := none
  sharers : List Nat := []
  deriving DecidableEq, Repr

/-- A transaction of the home on a line: the request served (none for a back-invalidation, R427) with its member slot,
the TXN of its snoops, the slots whose response is awaited, the owner snooped, the state that owner reported to keep,
whether it sent its data to the requester, data that came to the home (a WbData that crossed, or the FwdData of an own
snoop), and whether a WbData is awaited (R439). -/
structure CohTxn where
  line  : Nat
  req   : Option Packet := none
  slot  : Nat := 0
  txn   : Nat
  waits : List Nat
  owner : Option Nat := none
  kept  : Nat := 0
  fwd   : Bool := false
  data  : Option (List Byte × Bool) := none
  wb    : Option Packet := none
  pend  : Option Nat := none
  deriving DecidableEq, Repr

/-! ## Scoop (07_scoop_gather.md) -/

/-- A table: its two banks (descriptors of 64 B, R332) and its owner, a partition code. -/
structure TblSt where
  bank0 : List Byte := []
  bank1 : List Byte := []
  owner : Option Nat := none
  deriving DecidableEq, Repr

/-- A part of the row an engine works on (two for a COMPOSED table): its extent, its stamp if the table is STAMPED, the
failed attempts and whether a waiting read is made (R359), the replica slot it is read from (R364), and the answer: bytes
and poisoned lines, or an error. -/
structure RowPart where
  va     : Nat
  len    : Nat
  stamp  : Option Nat := none
  tries  : Nat := 0
  waited : Bool := false
  slot   : Option Nat := none
  res    : Option (List Byte × List Nat) := none
  err    : Bool := false
  /-- Parts of SRD_DATA collected so far, and whether one was poisoned. -/
  got    : List Byte := []
  deriving DecidableEq, Repr

/-- A Scoop command: GATHER (op 0x20), ROW_UPDATE (0x21), or one lane group of an EMBED phase (op 1: lane, index and
destination of each lane). `desc` and `bank` are the bank latched (R343), `j` the entry in progress, `issued` whether its
reads have been issued, `notes` the statuses met with their list positions (R352), `half` the row whose parts with a region key have been written and the
others not yet, `ended` that nothing more is issued. -/
structure ScoopCmd where
  num     : Nat := 0
  src     : WorkSrc := .none
  ctx     : Nat := 0
  op      : Nat
  tbl     : Nat
  prog    : Nat := 0
  lanes   : List (Nat × Nat × Nat) := []
  width   : Nat := 0
  otype   : Nat := 0
  idx64   : Bool := false
  count   : Nat := 1
  idxVA   : Nat := 0
  dstVA   : Nat := 0
  stride  : Nat := 0
  row     : Nat := 0
  srcVA   : Nat := 0
  desc    : Option (List Byte) := none
  bank    : Nat := 0
  started : Bool := false
  j       : Nat := 0
  parts   : List RowPart := []
  dst     : Nat := 0
  issued  : Bool := false
  sent    : Bool := false
  rows    : Nat := 0
  notes   : List (Nat × Nat) := []
  buf     : List Byte := []
  bufPoison : List Nat := []
  half    : Option (List Byte × List Nat) := none
  ended   : Bool := false
  deriving DecidableEq, Repr

/-- Who waits for an operation of the home agent on a stamped row; nobody waits for an invalidation of the home's own (R668). -/
inductive HomeClient where
  | none
  | row (g k : Nat)           -- part k of an engine's row
  | install (h slot : Nat)    -- a replica install of a half
  | update (g : Nat)          -- an engine's ROW_UPDATE
  | packet (p : Packet)       -- an SRD or SUPD of another node
  deriving DecidableEq, Repr

inductive HomeKind where
  | attempt | waiting | update
  deriving DecidableEq, Repr

/-- An operation of the home agent on a stamped row (R355, R358, R359): the row's extents and stamp, the holder that its
first stamp read registers, the step it stands at, the stamps read and whether one was poisoned, the row's bytes, the
holders whose acknowledgement is awaited, and what failed. A waiting read or update that the home holds is not
`active`. -/
structure HomeOp where
  id     : Nat
  kind   : HomeKind
  row    : Nat
  exts   : List (Nat × Nat)
  stamp  : Nat
  client : HomeClient
  reg    : Option (Nat × Nat) := none
  active : Bool := true
  step   : Nat := 0
  s1     : Nat := 0
  s2     : Nat := 0
  bad    : Bool := false
  data   : List Byte := []
  poison : List Nat := []
  acks   : List (Nat × Nat) := []
  fail   : Bool := false
  deriving DecidableEq, Repr

/-- States of a replica slot (R362); a slot not listed is FREE. `draining` is a slot whose reads in flight must return
before its invalidation (by a home's operation, or by a RINV packet) or eviction is answered. -/
inductive RepSt where
  | installing (killed : Bool)
  | valid
  | draining (op : Option Nat) (rinv : Option Packet)
  deriving DecidableEq, Repr

/-- A replica slot: half, number, the row's global physical address, table, PARTITION tag and bytes, its last read (for the least
recently read, R361), and the outcome of its install attempt. -/
structure RepSlot where
  half : Nat
  idx  : Nat
  gpa  : Nat
  tbl  : Nat
  part : Nat := 0xFF
  len  : Nat
  st   : RepSt := .installing false
  use  : Nat := 0
  got  : List Byte := []
  res  : Option (Bool × List Byte × List Nat) := none
  deriving DecidableEq, Repr

/-- A tile on its way out of or into a tile stream port: its bytes, its poisoned 64 B lines, the channel that sends it
(outbound), its TSEQ once it has been sent, and whether the port has sent it whole. -/
structure PortTile where
  chan   : Nat := 0
  data   : List Byte := []
  poison : List Nat := []
  tseq   : Option Nat := none
  sent   : Bool := false
  deriving DecidableEq, Repr

/-- An ordering entry in progress (R404 to R411): its queue and slot, its 64 bytes, and what it waits for: the answer to
a flag write in another node (0), the next read of its flag (1), the answer to a flag read in another node (2), or the
end of its invalidation (3). -/
structure OrdSt where
  p     : Nat
  q     : Nat
  slot  : Nat
  bytes : List Byte
  phase : Nat
  deriving DecidableEq, Repr

/-! ## Partitions and queues (12_tile_streams_host.md, 13_partitions.md) -/

/-- A completion record that is issued and not yet performed (R619, R620). -/
structure CqRec where
  bytes : List Byte
  irq   : Bool
  deriving DecidableEq, Repr

/-- An entry of a command queue that has started and not completed. -/
structure EntrySt where
  slot   : Nat
  op     : Nat
  cookie : Nat
  irq    : Bool
  deriving DecidableEq, Repr

/-- One command queue: its started entries oldest first, the completion records in flight oldest first, whether VEC was
raised since the last write of HIF_CQ_HEAD (R622), whether a write of its entries has ended with UNREACHABLE that no fence of the queue
has reported yet (R540). -/
structure QueueSt where
  started : List EntrySt := []
  records : List CqRec := []
  raised  : Bool := false
  unreached : Bool := false
  deriving DecidableEq, Repr

/-- A message record written and not yet performed (R626): its MSG, which is answered then. -/
structure MrRec where
  msg : Packet
  deriving DecidableEq, Repr

/-- One message ring. -/
structure MringSt where
  records : List MrRec := []
  raised  : Bool := false
  deriving DecidableEq, Repr

/-- One partition: whether a reset request is held while CLEARING (R641), when the running reset was requested, the
last queue served (R607), the QOS values of a commit that wait for the end of the reset (R637), and whether data writes with
Relaxed Ordering have been sent for it since its function's last zero-length read (R592). -/
structure PartSt where
  held  : Bool := false
  since : Nat := 0
  qos   : List (Nat × Word) := []
  turn  : Nat := 0
  burst : Nat := 0
  loose : Bool := false
  deriving DecidableEq, Repr

/-- A single-engine reset in progress (R650): class and instance. -/
structure EngReset where
  cls  : Nat
  inst : Nat
  deriving DecidableEq, Repr

/-! ## Integrity (14_integrity.md) -/

/-- An error record (R689), field by field; the CRC is computed where the record is laid out in bytes. -/
structure ErrRec where
  seq : Nat
  cls : Nat
  event : Nat
  inst : Nat
  severity : Nat
  part : Nat
  op : Nat
  envelope : Nat
  time : Nat
  cursor : Word
  address : Word
  syndrome : Word
  count : Nat
  temp : Int
  volt : Nat
  aux : Nat
  deriving DecidableEq, Repr

/-- A full sweep in progress (R687): its half, the single array of a RESTORE, the arrays under sweep, the stage, and
whether a detection has been charged to one of them. -/
structure SweepSt where
  half   : Nat
  array  : Option Nat
  arrays : List Nat
  stage  : Nat := 0
  failed : Bool := false
  deriving DecidableEq, Repr



/-- A program of the partner that this controller serves (R717, R723): the shadow program, the slots taken over with
their original KV_BASE, and whether its handback is asked for and its step is frozen. -/
structure Served where
  prog   : Nat
  loc    : Nat
  slots  : List (Nat × Nat)
  back   : Bool := false
  frozen : Bool := false
  deriving DecidableEq, Repr

/-- A program that returns (R721): whether its bulk pull is done and HANDBACK_REQ sent, whether its region is frozen, and
the POS noted for each slot. -/
structure RetProg where
  prog   : Nat
  asked  : Bool := false
  frozen : Bool := false
  noted  : List (Nat × Nat) := []
  deriving DecidableEq, Repr

/-- A CAS128 performed on the handoff window whose answer waits for its mirror write (R728); `host` marks a PCIe atomic,
whose completion carries the data of `answer`. -/
structure Handoff where
  num    : Nat
  answer : Packet
  off    : Nat
  data   : List Byte
  host   : Bool := false
  deriving DecidableEq, Repr

/-! ## Management (16_object_dictionary.md) -/

/-- An anchor slot (0x1102.01 to 0x1102.08): DIGEST, ROLE_MAX and VALID. -/
structure Anchor where
  digest  : List Byte := List.replicate 64 0#8
  roleMax : Nat := 0
  valid   : Bool := false
  deriving DecidableEq, Repr

/-- A network session, or the mailbox session: SESSION, its role, the anchor slot that signed its credential (none for a
provisioning anchor and for the mailbox), the highest SEQ accepted and the last SEQ sent, and the last 16 responses by
REQ_ID with their TYPE, newest first (R778). -/
structure Session where
  id     : Nat
  role   : Nat
  anchor : Option Nat := none
  rx     : Nat := 0
  tx     : Nat := 0
  kept   : List (Nat × Nat × List Byte) := []
  deriving DecidableEq, Repr

/-- Fragments of a message that is not complete (R774): the sender (slot of a session, 4 + k for handshake k, 8 + source address
before a handshake), TYPE, REQ_ID, the number of fragments, and those that have arrived. -/
structure Partial where
  who    : Nat
  type   : Nat
  reqId  : Nat
  count  : Nat
  frags  : List (Nat × List Byte) := []
  deriving DecidableEq, Repr

/-- A response that waits for a commit or a save to end: the session slot (none: the mailbox), SESSION, TYPE and REQ_ID of the request,
and the group and instance (none: a save). -/
structure Owed where
  slot   : Option Nat
  id     : Nat
  type   : Nat
  reqId  : Nat
  commit : Option Nat
  deriving DecidableEq, Repr

/-- The state of management outside its registers. -/
structure MgmtSt where
  /-- Anchor slots, active and staged (R762). -/
  anchors : Sparse Anchor := []
  anchorsStaged : Sparse Anchor := []
  /-- The snapshot of the anchor slots of a commit in progress. -/
  anchorSnap : Option (Sparse Anchor) := none
  /-- Network sessions by slot 0 to 3; handshakes in progress by slot 0 and 1 (R784); the mailbox session. -/
  sessions : Sparse (Option Session) := []
  shakes   : Sparse (Option Session) := []
  mbx      : Option Session := none
  partials : List Partial := []
  owedRsp  : List Owed := []
  /-- The mailbox request buffer by 4 B word, the response buffer, and the length of a request that waits to be performed. -/
  mbxReq   : Sparse Nat := []
  mbxRsp   : List Byte := []
  mbxLen   : Option Nat := none
  /-- Device times of DISCOVER replies and of HELLOs by source address (R785). -/
  discovers : List (Nat × Nat) := []
  hellos   : Sparse Nat := []
  /-- The last AUTH_FAIL record and the failures since (R786). -/
  authLast : Option Nat := none
  authMerged : Nat := 0
  /-- The copy of the configuration image in use (R795): 0 A, 1 B, with its GENERATION and DEVICE; and the copy being saved. -/
  cfgUsed  : Option (Nat × Nat × List Byte) := none
  cfgSaving : Option (Nat × Nat × List Byte) := none
  /-- BEACONs seen in a row since the last fallback to CSMA/CD (R771). -/
  beacons  : Nat := 0
  deriving DecidableEq, Repr

/-- What Scale holds beside its registers (17_scale_metrology.md). Totals, values and token counts are keyed partition × 16 +
class: the totals, the values each class held at the last tick, the token records that have reached Scale in the tick in
progress. `prev` is the last record cut (it numbers the next one), `change` the first change since the last tick, `merged` the changes merged into
the next record; the three flags are those of the next record. `queue` holds records cut and not yet persisted, oldest
first, `saved` the last persisted record, `mirror` the latest 64 by SEQ mod 64. `offer` holds the bytes of the current offer and `image` an accepted one
(KIND, VERSION, METER_ID, CLASS_EN) until it is installed. -/
structure ScaleSt where
  totals : Sparse Nat := []
  vals   : Sparse Nat := []
  tokens : Sparse Nat := []
  prev   : Option (List Byte) := none
  change : Option (Nat × Nat) := none
  merged : Nat := 0
  undisc : Bool := false
  unclean : Bool := false
  gap    : Bool := false
  queue  : List (List Byte) := []
  saved  : Option (List Byte) := none
  mirror : Sparse (List Byte) := []
  offer  : List Byte := []
  offerTotal : Nat := 0
  image  : Option (Nat × Nat × List Byte × Nat) := none
  timeOk : Bool := false
  meterId : List Byte := List.replicate 16 0#8
  classEn : Nat := 511
  fwDigest : Option (List Byte) := none
  paramDigest : Option (List Byte) := none
  deriving DecidableEq, Repr

/-- What the Starters hold (18_boot_identity_life.md): the images of the slots A and B as the lease holder read them, the slots that
failed verification, the replay-protected counter of the flash and whether its root key is programmed, the
measurement registers (MEAS0 to MEAS3 of East, then of West), rate and capacity of the DIMMs of each half (0 East, 1
West), the SerDes quads that failed calibration (12 × I/O die + quad), whether boot_done is high, and TOTAL of a firmware offer. -/
structure BootSt where
  slots  : List (Option Img) := []
  tried  : List Nat := []
  rpmc   : Nat := 0
  rpmcKey : Bool := false
  meas   : List (List Byte) := List.replicate 8 (List.replicate 64 0#8)
  dimms  : Sparse (Nat × Nat) := []
  badQuads : List Nat := []
  done   : Bool := false
  offerTotal : Nat := 0
  deriving DecidableEq, Repr

/-- Calendar time: the latest SYNC (sequence value and t2), and the device times of the last accepted sample and of the last
network sample. -/
structure TimeSt where
  sync   : Option (Nat × Nat) := none
  last   : Option Nat := none
  lastNet : Option Nat := none
  deriving DecidableEq, Repr

/-- A snapshot in the life log area (R850): its SEQ, the counters, and the service record to be overwritten next. -/
structure Snap where
  seq    : Nat
  life   : Sparse Nat
  service : Nat
  deriving DecidableEq, Repr

/-- Life log snapshots: the valid one with the highest SEQ, the one being written with its slot, whether another is asked for
meanwhile, the next slot of the ring, the next service record, the stage of an orderly shutdown (R852; 0 none), and
whether the last power-down was orderly. -/
structure LifeSt where
  saved  : Option Snap := none
  busy   : Option Snap := none
  again  : Bool := false
  slot   : Nat := 0
  service : Nat := 0
  stage  : Nat := 0
  clean  : Bool := false
  deriving DecidableEq, Repr

/-- An attestation request (R838): its nonce, and the report once it is ready. -/
structure Attest where
  nonce  : List Byte
  report : Option (List Byte) := none
  deriving DecidableEq, Repr



/-- The whole state of the controller. -/
structure State where
  /-- Commands waiting, first in first out. -/
  pending : List Instr := []
  /-- Active register values, keyed by `regKey`; an unlisted key reads as its reset value. -/
  regs    : Sparse Word := []
  /-- Staged values of the members of commit groups (R755). -/
  staged  : Sparse Word := []
  mem     : Memory := {}
  /-- Sent outward, newest first. -/
  out     : List Output := []
  /-- The model's own counter behind the free values (assumption log 4). -/
  free    : Nat := 0
  /-- Device time in ns since power-up (18_boot_identity_life.md R843). -/
  time    : Nat := 0
  /-- Bridge groups whose spare lane is in use (R31): direction × 16 + group, direction 0 East to West. -/
  spares  : List Nat := []
  /-- cold_rst_n is driven low. -/
  coldHeld : Bool := true
  /-- The 25 MHz system reference is lost (R45). -/
  sysrefLost : Bool := false
  /-- Low halves of 64-bit register writes waiting for their high half (R746): function, register key, bits 31:0. -/
  lowWrites : List (Nat × Nat × Nat) := []
  /-- High halves latched by a 32-bit read of a low half (R222): function, register key, bits 63:32. -/
  highReads : List (Nat × Nat × Nat) := []
  /-- Commits in progress (R756). -/
  commits : List CommitSt := []
  /-- The link group (R507) and the continuity group (R700) have been committed, which locks their ROL members. -/
  ylLocked : Bool := false
  cntLocked : Bool := false
  /-- Translation contexts c = 0 to 128. -/
  ctxs    : Sparse CtxSt := []
  /-- Engine slots of R99. -/
  engs    : Sparse EngSt := []
  /-- Fault queues, by context. -/
  fltqs   : Sparse FltqSt := []
  /-- Epochs that have not drained, the newest first (R78). -/
  oldEpochs : List OldEpoch := []
  /-- The lookaside and residency cache of each half (R82 to R85). -/
  lookE   : LookSt := {}
  lookW   : LookSt := {}
  /-- FLTQ_TAIL, FLTQ_HEAD of the management context's queue (R882), which has no registers, and its records by slot, which
  stand in the translation reserve. -/
  mgmtTail : Nat := 0
  mgmtHead : Nat := 0
  mgmtRecs : Sparse (List Byte) := []
  /-- Writes of own engines to the control window on their way to the registers, oldest first: BAR0 offset and bytes (R878). -/
  ctlWrites : List (Nat × List Byte) := []
  /-- Tile mover channels 0 to 63. -/
  chans   : Sparse ChanSt := []
  /-- Drives N0 to N7. -/
  drvs    : Sparse DrvSt := []
  /-- Descriptors that wait for a free channel (R884), oldest first: context, source, descriptor. -/
  waitingMoves : List (Nat × WorkSrc × Desc) := []
  /-- The next offset the scrubber reads in tier 0 and in tier 1 (R129). -/
  scrub0  : Nat := 0
  scrub1  : Nat := 0
  /-- Corrected codewords of the current hour by device (R658). -/
  corrHour : Sparse Nat := []
  /-- Lines held by the engine caches (R24, R396), per half: line number of a global physical address and its 64 bytes
    as they were when the line was read. -/
  cacheE  : Sparse (List Byte) := []
  cacheW  : Sparse (List Byte) := []
  /-- Completed Proofer moves not yet handled: program, tile of its directory, status of R165. -/
  prfDone : List (Nat × Nat × Nat) := []
  /-- Programs n = 0 to 63. -/
  progs   : Sparse ProgSt := []
  /-- The staging directory of both halves (R191), oldest first, and the number of the next tile. -/
  stage   : List StageTile := []
  stageNum : Nat := 0
  /-- Cursor updates on their way to the subscribers of a half (R57, R58), oldest first, and the last one delivered there
  for each program, keyed half × 64 + program. -/
  cursorOut : List (Nat × Word) := []
  cursorSeen : Sparse Word := []
  /-- The records of a step that wait for room in the token ring (R294), by program: rows of 32 B. -/
  ringWait : Sparse (List (List Byte)) := []
  /-- Decode arrays DA000 to DA255. -/
  arrs    : Sparse ArrSt := []
  /-- Partials on their way across the bridge to the owning combiner (R312): program, item, run. -/
  bridge  : List (Nat × Nat × RunRes) := []
  /-- The number of the next item. -/
  itemNum : Nat := 0
  /-- Array grants of the last 100 µs (R632, R633): device time, partition and half (2 × partition + half), array-cycles. -/
  daGrants : List (Nat × Nat × Nat) := []
  /-- Arrays whose retirement the life log records (R682). -/
  retired : List Nat := []
  /-- thermtrip_n is driven low (R874): no array is granted. -/
  thermtrip : Bool := false
  /-- Links L00 to L95. -/
  links   : Sparse LinkSt := []
  /-- Packets that wait in the switch core, oldest first, and the number of the next one. -/
  switch  : List SwPkt := []
  swNum   : Nat := 0
  /-- Sending streams, keyed node × 8 + VC (uplink groups: (256 + group) × 8 + VC), and receiving streams. -/
  txs     : Sparse TxStream := []
  rxs     : Sparse RxStream := []
  /-- Requests that await a response, oldest first, and the next TAG. -/
  reqs    : List Req := []
  reqTag  : Nat := 0
  /-- Requests that failed and whose client has not looked at it. -/
  reqFails : List ReqFail := []
  /-- Packets delivered in stream order and not yet performed, oldest first (R524). -/
  inbox   : List Packet := []
  /-- The intermediate that takes the next detoured packet, by destination (R498). -/
  detourTurn : Sparse Nat := []
  /-- Nodes that have entered the reach map since power-up or chip warm reset (R536). -/
  synced  : List Nat := []
  /-- Captures of the header mirror that wait to be written (R562), oldest first, and the packets selected by port and
  direction (2 × port + direction). -/
  captures : List (List Byte) := []
  mirSeen : Sparse Nat := []
  /-- The directory of both halves, the transactions in progress, requests that wait in arrival order (R435), and the
  number of the next own snoop. -/
  dir     : List DirEnt := []
  cohTxns : List CohTxn := []
  cohWait : List Packet := []
  cohNum  : Nat := 0
  /-- Scoop tables 0 to 1,023. -/
  tbls    : Sparse TblSt := []
  /-- Commands of the engines G00 to G15, the first in progress; commands that wait for an engine; the next number. -/
  scoops  : Sparse (List ScoopCmd) := []
  scoopWait : List ScoopCmd := []
  scoopNum : Nat := 0
  /-- Operations of the home agents on stamped rows, in arrival order, and their accesses in the order of R887: row and
  operation. -/
  homeOps : List HomeOp := []
  homeFifo : List (Nat × Nat) := []
  homeNum : Nat := 0
  /-- Holder tables (R355, R362): row offset, node, half of the row's home; and the holder's half (2: another node's). -/
  holders : List (Nat × Nat × Nat) := []
  /-- Replica slots that are not FREE, and the count of their reads. -/
  replicas : List RepSlot := []
  repUse  : Nat := 0
  /-- Counting tables (R361): half, table × 2^56 + row address, count. -/
  hot     : List (Nat × Nat × Nat) := []
  /-- Entries of command queues for Scoop or the ordering unit that wait to start, oldest first: context, source, bytes. -/
  waitingCmds : List (Nat × WorkSrc × List Byte) := []
  /-- Parts of the updates of other nodes that wait for their last part (R527), oldest first. -/
  supds   : List Packet := []
  /-- Outbound tiles of a stream, keyed port × 16 + stream, oldest first. -/
  tspOut  : Sparse (List PortTile) := []
  /-- Inbound tiles held whole in a stream's receive buffer, oldest first. -/
  tspIn   : Sparse (List PortTile) := []
  /-- The TSEQ of the next tile of a stream sent, keyed port × 16 + stream. -/
  tspSeq  : Sparse Nat := []
  /-- Ordering entries in progress, oldest first. -/
  orders  : List OrdSt := []
  /-- Command queues, keyed partition × 16 + queue. -/
  queues  : Sparse QueueSt := []
  /-- Message rings, keyed partition × 8 + ring. -/
  mrings  : Sparse MringSt := []
  parts   : Sparse PartSt := []
  /-- Single-engine resets in progress. -/
  engResets : List EngReset := []
  /-- HIF_VEC_CFG is locked (R595), and whether VF Enable has been accepted since perst_n was released (R594). -/
  vecLocked : Bool := false
  vfAccepted : Bool := false
  /-- perst_n is asserted; the host link is up. -/
  perst   : Bool := true
  /-- Writable PCIe configuration state: Enable Relaxed Ordering of Device Control (R592). -/
  relaxed : Bool := true
  /-- The on-die error log (R692), newest first, at most 4,096 records. -/
  errLog  : List ErrRec := []
  /-- Error ring writes in flight, oldest first, whether VEC was raised since the last ERR_RING_HEAD write (R693), and
  the records dropped in the running episode. -/
  errWrites : List ErrRec := []
  errRaised : Bool := false
  errEpisode : Nat := 0
  /-- Junction temperature in 1/16 °C at each half's hottest sensor and the core rail in mV (R678, R872). -/
  tempE   : Int := 0
  tempW   : Int := 0
  voltE   : Nat := 0
  voltW   : Nat := 0
  /-- Array-cycles spent in TEST (R686): device time, half, cycles. -/
  tstUsed : List (Nat × Nat × Nat) := []
  /-- Full sweeps in progress, oldest first. -/
  sweeps  : List SweepSt := []
  /-- CNT_MIRROR_BASE and CNT_MIRROR_SIZE of the partner in GiB, as the pairing read gave them (R701). -/
  partnerBase : Nat := 0
  partnerSize : Nat := 0
  /-- Programs of the partner served here, and own programs that the partner has taken over (R713). -/
  served  : List Served := []
  takenOwn : List Nat := []
  /-- CNT_PEER_MASK as last written, and the commands written to CNT_PEER_CMD with the mask of each, oldest first. -/
  peerMask : Nat := 0
  peerCmds : List (Nat × Nat) := []
  /-- A return: its programs, the halves swept, and whether the sweep has passed (R721). -/
  ret     : List RetProg := []
  retHalves : List Nat := []
  retSwept : Bool := false
  /-- A half in reset for which TAKEOVER was sent to the partner, with the mask of its programs (R719). -/
  cntHalf : Option (Half × Nat) := none
  /-- Atomics on the handoff window that wait for their mirror write, oldest first, and the next number. -/
  handoffs : List Handoff := []
  handNum : Nat := 0
  /-- Management sessions, messages, anchors and the configuration image. -/
  mg      : MgmtSt := {}
  scale   : ScaleSt := {}
  /-- Token records written since the last TOKENS message, by partition (R801). -/
  tokPend : Sparse Nat := []
  /-- The life log's counters (R847), keyed index × 256 + subindex. -/
  life    : Sparse Nat := []
  boot    : BootSt := {}
  cal     : TimeSt := {}
  snaps   : LifeSt := {}
  /-- Attestation requests of the network path and of the host path. -/
  attestNet : Option Attest := none
  attestHost : Option Attest := none
  /-- The hottest reading of the East and West logic dies and of IO0 to IO3, in 1/16 °C (R872). -/
  sensors : List Int := [0, 0, 0, 0, 0, 0]
  /-- READ_VOUT in mV and READ_IOUT in 10 mA of each rail, and the polls in a row that its regulator has not answered
  (R863). -/
  railV   : Sparse Nat := []
  railI   : Sparse Nat := []
  railMiss : Sparse Nat := []
  /-- The last five samples of the power of all rails, newest first, in units of 10 µW. -/
  power   : List Nat := []
  /-- The hottest sensor has exceeded 85 °C since the last thermal cycle (R849). -/
  cycleHot : Bool := false
  deriving DecidableEq, Repr

/-- The controller right after the package cold reset is applied: every register at its reset value, memory with
nothing listed, no work anywhere. -/
def State.reset : State := {}

end Sys2Proof.Machine
end

