-- ==== Sys2Proof/WellFormed.lean ====
section
/-!
DEFINITION. Which commands are well formed: every operand that numbers an instance (a context, a partition, a link, an
array) numbers one that the spec gives the controller. Nothing else is asked of a command.
-/

namespace Sys2Proof

/-- A source numbers an existing virtual function or session. -/
def Source.wf : Source → Bool
  | .vf p => decide (p < 128)
  | .net n => decide (n < 4)
  | _ => true

/-- A function of the host interface. -/
def Source.isBar : Source → Bool
  | .pf => true
  | .vf p => decide (p < 128)
  | _ => false

/-- Instances of an engine class (R99). -/
def engCount (cls : Nat) : Nat := [256, 16, 64, 2, 8].getD cls 0

/-- The operands number existing instances. -/
def Instr.wf : Instr → Bool
  | .coldResetRelease straps => decide (straps < 256)
  | .bridgeLaneFail dir g => decide (dir < 2) && decide (g < 16)
  | .bridgeSecondLaneFail dir g => decide (dir < 2) && decide (g < 16)
  | .bridgeEndpointLost east west _ => east || west
  | .chipWarmReset src confirm => src.wf && decide (confirm < 256)
  | .halfReset src _ confirm _ => src.wf && decide (confirm < 256)
  | .registerWrite src off size _ _ _ => (src.isBar || src == .fw) && decide (off < 0x4000000) && decide (0 < size) && decide (size ≤ 4096)
  | .tblCommit src c _ => src.wf && decide (c < 129)
  | .tblActivate c => decide (c < 129)
  | .oldEpochDrained c => decide (c < 129)
  | .faultRecordVisible c => decide (c < 129)
  | .faultRecordWriteFail c => decide (c < 128)
  | .deferredFaultRecord c => decide (c < 129)
  | .fltqHeadWrite src p _ => src.wf && decide (p < 128)
  | .fltqResumeReplay src p _ _ => src.wf && decide (p < 128)
  | .fltqResumeAbort src p _ _ => src.wf && decide (p < 128)
  | .migGo src p _ => src.wf && decide (p < 128)
  | .migToDevice c _ => decide (c < 128)
  | .migToHost c => decide (c < 128)
  | .migDrainDone c => decide (c < 128)
  | .migTransferFail c err _ _ => decide (c < 128) && (err == 2 || err == 3 || err == 5)
  | .migCommandDone c _ => decide (c < 128)
  | .stageCommit src => src.wf
  | .memRuntimeFail dev => decide (dev < 8) || (decide (16 ≤ dev) && decide (dev < 32))
  | .driveLinkUp d _ _ => decide (d < 8)
  | .driveInitDone d _ _ => decide (d < 8)
  | .driveInitTimeout d => decide (d < 8)
  | .nvmeCommandTimeout d => decide (d < 8)
  | .driveRecoverDone d _ => decide (d < 8)
  | .driveOffline src d => src.wf && decide (d < 8)
  | .driveOnline src d => src.wf && decide (d < 8)
  | .driveReset src d => src.wf && decide (d < 8)
  | .driveSurpriseDown d => decide (d < 8)
  | .smartPoll d _ _ _ => decide (d < 8)
  | .nvmeCompletion ch _ _ => decide (ch < 64)
  | .tileSourceReadDone ch _ => decide (ch < 64)
  | .tileWritesAcked ch _ => decide (ch < 64)
  | .t2BodyWriteDone ch => decide (ch < 64)
  | .tileHeaderWritten ch _ => decide (ch < 64)
  | .tspInboundTileTaken ch => decide (ch < 64)
  | .completionRecordPerformed p q _ => decide (p < 128) && decide (q < 16)
  | .phaseComplete n _ => decide (n < 64)
  | .specRoutingDone n guess => decide (n < 64) && guess.all fun l => l.all fun e => decide (e < 256)
  | .curMatchArm src n _ => src.wf && decide (n < 64)
  | .loadProgram src n part _ => src.wf && decide (n < 64) && decide (part < 256)
  | .startProgram src n part => src.wf && decide (n < 64) && decide (part < 256)
  | .parkProgram src n part => src.wf && decide (n < 64) && decide (part < 256)
  | .unloadProgram src n part => src.wf && decide (n < 64) && decide (part < 256)
  | .admitSeq src n part slot _ => src.wf && decide (n < 64) && decide (part < 256) && decide (slot < 1024)
  | .remove src n part slot => src.wf && decide (n < 64) && decide (part < 256) && decide (slot < 1024)
  | .daCmdReservedOp src op => src.wf && (op == 0 || (decide (7 ≤ op) && decide (op < 16)))
  | .arrayGrant a _ => decide (a < 256)
  | .itemComplete a _ => decide (a < 256)
  | .itemOvertime a _ => decide (a < 256)
  | .restore src a => src.wf && decide (a < 256)
  | .arrayOffline src a => src.wf && decide (a < 256)
  | .arrayOnline src a => src.wf && decide (a < 256)
  | .ringHeadWrite src n _ => src.wf && decide (n < 64)
  | .scoopRowReturn g _ => decide (g < 16)
  | .scoopCommandComplete g _ => decide (g < 16)
  | .define src t part _ => src.wf && decide (t < 1024) && decide (part < 256)
  | .flip src t part _ => src.wf && decide (t < 1024) && decide (part < 256)
  | .retire src t part => src.wf && decide (t < 1024) && decide (part < 256)
  | .scpCmdReservedOp src op => src.wf && (op == 0 || (decide (4 ≤ op) && decide (op < 16)))
  | .tableOldDrained t => decide (t < 1024)
  | .replicaInstallDone h j => decide (h < 2) && decide (j < 32768)
  | .scoopEngineFail g _ => decide (g < 16)
  | .scpReplCommit src => src.wf
  | .acquirePoll p q _ => decide (p < 128) && decide (q < 16)
  | .acquireWaitTimeout p q => decide (p < 128) && decide (q < 16)
  | .invComplete p q => decide (p < 128) && decide (q < 16)
  | .bar2Write x d _ => decide (0 < d.length) && decide (d.length ≤ 512) && decide (x + d.length ≤ 2 ^ 36)
  | .bar2Read x n => decide (0 < n) && decide (n ≤ 4096) && decide (x + n ≤ 2 ^ 36)
  | .bar2Atomic x atop d => decide (atop < 16) && decide (x + 4 ≤ 2 ^ 36) && decide (d.length ≤ 32)
  | .snoopTimeout _ slot => decide (slot < 16)
  | .collapse src => src.wf
  | .reinit src => src.wf
  | .cohCommit src => src.wf
  | .ylCfgCommit src => src.wf
  | .detectSignal l => decide (l < 96)
  | .detectOneLaneTimeout l lane => decide (l < 96) && decide (lane < 2)
  | .equalizeConverged l => decide (l < 96)
  | .equalizeTimeout l => decide (l < 96)
  | .lockAchieved l => decide (l < 96)
  | .lockTimeout l => decide (l < 96)
  | .negotiateTimeout l => decide (l < 96)
  | .flitReceive l b _ _ _ _ => decide (l < 96) && b.length == 256
  | .ackTimer l => decide (l < 112)
  | .nakRepeat l => decide (l < 112)
  | .receiveLaneLoss l mask => decide (l < 96) && decide (mask < 4)
  | .flitAcceptTimeout l => decide (l < 112)
  | .replayAckTimeout l => decide (l < 112)
  | .retrain src l => src.wf && decide (l < 96)
  | .fastRetrainDone l _ _ _ => decide (l < 96)
  | .failedRetry l => decide (l < 96)
  | .linkDisable src l => src.wf && decide (l < 96)
  | .linkDisableClear src l => src.wf && decide (l < 96)
  | .oneLaneMarker l _ => decide (l < 112)
  | .laneDropLockTimeout l => decide (l < 112)
  | .laneTest l _ ser0 ser1 => decide (l < 112) && decide (ser0 < if l < 96 then 16 else 2 ^ 32) && decide (ser1 < 16)
  | .reachPeriodic l => decide (l < 96)
  | .reachStale l => decide (l < 96)
  | .reachHold l => decide (l < 96)
  | .detourPacket l => decide (l < 96)
  | .packetIngress l => decide (l < 96)
  | .packetEgress l => decide (l < 96)
  | .srd _ _ len => decide (0 < len)
  | .retxTimeout n vc => decide (n < 272) && decide (vc < 6)
  | .sackTimer n vc => decide (n < 272) && decide (vc < 6)
  | .tspDisableClear src t => src.wf && decide (t < 16)
  | .tspDisable src t => src.wf && decide (t < 16)
  | .tspTrainDone t lanes => decide (t < 16) && (lanes == 15 || lanes == 3 || lanes == 12)
  | .tspTrainTimeout t _ => decide (t < 16)
  | .tspNegotiateTimeout t => decide (t < 16)
  | .tspFlitReceive t b _ => decide (t < 16) && b.length == 256
  | .tileUnit t => decide (t < 16)
  | .tspTileSend t => decide (t < 16)
  | .tspLaneLoss t mask => decide (t < 16) && decide (mask < 16)
  | .tspRecoverDone t _ _ lanes => decide (t < 16) && (lanes == 15 || lanes == 3 || lanes == 12)
  | .tspRetry src t => src.all (·.wf) && decide (t < 16)
  | .tspRefclkLoss k => decide (k < 8)
  | .tspRefclkReturn k => decide (k < 8)
  | .tspPortCommit src t => src.wf && decide (t < 16)
  | .perstRelease gen width => decide (gen < 16) && decide (width < 256)
  | .vfFlr p _ => decide (p < 128)
  | .vfEnable n => decide (n ≤ 128)
  | .pcieCplTimeout ch row => ch.all (fun c => decide (c < 64)) && row.all (fun r => decide (r.1 < 16) && decide (r.2 < 2))
  | .sqDoorbell src p q _ => src.wf && decide (p < 128) && decide (q < 16)
  | .queueFetch p _ => decide (p < 128)
  | .sqEnable src p q _ => src.wf && decide (p < 128) && decide (q < 16)
  | .sqDisable src p q _ => src.wf && decide (p < 128) && decide (q < 16)
  | .resume src p q => src.wf && decide (p < 128) && decide (q < 16)
  | .resumeSkip src p q => src.wf && decide (p < 128) && decide (q < 16)
  | .cqHeadWrite src p q _ => src.wf && decide (p < 128) && decide (q < 16)
  | .msixUnmask src fn vec => src.wf && decide (fn < 129) && decide (vec < if fn = 0 then 1024 else 32)
  | .partitionReset src p _ => src.wf && decide (p < 128)
  | .partitionDrained p => decide (p < 128)
  | .partitionDrainTimeout p _ => decide (p < 128)
  | .partitionCleared p _ => decide (p < 128)
  | .qosCommit src => src.wf
  | .mrEnable src p r _ => src.wf && decide (p < 128) && decide (r < 8)
  | .mrHeadWrite src p r _ => src.wf && decide (p < 128) && decide (r < 8)
  | .mrRecordPerformed p r => decide (p < 128) && decide (r < 8)
  | .engineReset src cls inst _ => src.wf && decide (cls < 16) && decide (inst < 256)
  | .engineFailure cls inst _ => decide (inst < engCount cls)
  | .engineResetDone cls inst _ => decide (inst < engCount cls)
  | .arbitrationRunDone a _ => decide (a < 256)
  | .uncomparedTimeout a => decide (a < 256)
  | .tasterSlotDone a res => decide (a < 256) && decide (res < 4)
  | .retestSlotDone a res => decide (a < 256) && decide (res < 4)
  | .retestTimeout a => decide (a < 256)
  | .sweep src _ => src.wf
  | .sweepStageEnd _ charged => charged.all (fun a => decide (a < 256))
  | .errRingHeadWrite src _ => src.wf
  | .cntCommit src => src.wf
  | .mirrorPushDone n => decide (n < 64)
  | .mirrorBankWritten n => decide (n < 64)
  | .mirrorCommitted n => decide (n < 64)
  | .sequenceCopyDone n slot => decide (n < 64) && decide (slot < 1024)
  | .takeover src confirm => src.wf && decide (confirm < 256)
  | .restart src confirm => src.wf && decide (confirm < 256)
  | .frozenPoll n _ => decide (n < 64)
  | .deltaPullDone n _ => decide (n < 64)
  | .leaseRenew _ epoch => decide (epoch < 2 ^ 32)
  | .openSession reqId => decide (reqId < 2 ^ 32)
  | .handshakeTimeout k => decide (k < 2)
  | .sessionIdleTimeout k => decide (k < 4)
  | .mbxDoorbell src _ _ => src.wf
  | .mgtNetCommit src => src.wf
  | .mgtAnchorCommit src => src.wf
  | .mgtDelegCommit src => src.wf
  | .compMsg p c => decide (p < 128) && decide (c < 256)
  | .tokensMsg p => decide (p < 128)
  | .sclOffer src off tot _ => src.wf && decide (off < 2 ^ 32) && decide (tot < 2 ^ 32)
  | .offerVerifyDone _ kind version meter classes => decide (kind < 256) && decide (version < 65536) && meter.length == 16 && decide (classes < 512)
  | .memoryTrained _ badCh badSt rate dimm _ ew we => decide (badCh < 256) && decide (badSt < 16) && decide (1 ≤ rate) && decide (rate ≤ 3) && [64, 128, 256, 512].contains dimm && decide (ew < 65536) && decide (we < 65536)
  | .serdesDone _ failed => decide (failed < 2 ^ 24)
  | .bootSvnCommit src _ => src.wf
  | .fwOffer src off tot _ => src.wf && decide (off < 2 ^ 32) && decide (tot < 2 ^ 32)
  | .bootTimeSync src n => src.wf && decide (n < 2 ^ 32)
  | .bootTimeFollow src n t1 => src.wf && decide (n < 2 ^ 32) && decide (t1 < 2 ^ 64)
  | .bootTimeHost src _ => src.wf
  | .attestNonce src _ _ => src.wf
  | .persistNow src => src.wf
  | .shutdown src confirm => src.wf && decide (confirm < 256)
  | .lifeServiceAdd src _ => src.wf
  | .pmbusPoll rails => rails.length == 18
  | .sensorRead dies => dies.length == 6
  | .quadRefclkLoss io q => decide (io < 4) && decide (q < 12)
  | .registerRead src off size => src.isBar && decide (off < 0x4000000) && decide (size ≤ 4096)
  | .droppedFrame why => decide (why < 5)
  | .coldResetAssert => true
  | .sysrefLoss => true
  | .sysrefReturn => true
  | .halfResetTimeout _ => true
  | .cursorDelivery _ => true
  | .mgmtFaultService _ => true
  | .scrubRead _ _ => true
  | .copyTile _ _ => true
  | .copyRaw _ _ => true
  | .prooferMoveComplete => true
  | .stagingSpaceRelease => true
  | .partialsArrive _ => true
  | .gather _ _ => true
  | .rowUpdate _ _ => true
  | .attemptReadReturn _ => true
  | .waitingReadRelease _ => true
  | .updateStampAcked _ _ => true
  | .updateInvalidatesAcked _ => true
  | .updateRowAcked _ _ => true
  | .updateFinalStampAcked _ _ => true
  | .hotCountDecay _ => true
  | .releaseWrite => true
  | .acquireWait _ => true
  | .fenceEntry => true
  | .invRange => true
  | .rdshared _ => true
  | .rdown _ => true
  | .upgrade _ => true
  | .wbdata _ => true
  | .evictclean _ => true
  | .snoopAck _ => true
  | .snprespwbpending _ => true
  | .fwddata _ => true
  | .reinitDone => true
  | .mirrorRecordPerformed => true
  | .rd _ => true
  | .wr _ _ => true
  | .atom _ => true
  | .fenceRequest _ => true
  | .supd _ _ => true
  | .rinv _ => true
  | .rdereg _ => true
  | .msg _ => true
  | .mgmtSync _ => true
  | .mgmtCollapse _ => true
  | .mgmtTelemetry _ => true
  | .sack _ => true
  | .rdData _ => true
  | .wrAck _ => true
  | .atomData _ => true
  | .fenceAck _ => true
  | .srdData _ => true
  | .supdAck _ => true
  | .rinvAck _ => true
  | .msgAck _ => true
  | .msgAckTimeout _ => true
  | .perstAssert _ => true
  | .hostLinkLoss _ => true
  | .pfFlr _ => true
  | .configRequest _ => true
  | .vecCfgLockTimeout => true
  | .csumRecomputeDone => true
  | .tasterIdleSlot => true
  | .errRingWriteDone _ => true
  | .corrHourRollover => true
  | .pairingReadDone _ => true
  | .pairingRetry => true
  | .partnerLossTimer => true
  | .peerTakeover => true
  | .handbackReq => true
  | .handbackDone => true
  | .returnSweepDone _ => true
  | .bulkPullDone _ => true
  | .handoffMirrorWritten => true
  | .leaseExpiry => true
  | .discover _ => true
  | .helloMsg _ => true
  | .authMsg _ _ _ => true
  | .readEntries _ _ => true
  | .writeEntries _ _ => true
  | .commitGroup _ _ => true
  | .discardGroup _ _ => true
  | .describeEntries _ _ => true
  | .saveConfig _ _ => true
  | .saveFlashDone _ => true
  | .keepalive _ _ => true
  | .closeSession _ _ => true
  | .fragmentTimeout _ => true
  | .neighborSolicitation _ _ => true
  | .echoRequest _ _ _ => true
  | .dadComplete _ => true
  | .beaconLoss => true
  | .beaconSeen => true
  | .commitSafePoint _ _ => true
  | .tick => true
  | .recordPersisted => true
  | .timeMsg _ _ => true
  | .scaleTimeTimeout => true
  | .offerFlashDone _ => true
  | .scaleLoadDone _ => true
  | .scaleSramUncorr => true
  | .romStageDone _ _ => true
  | .imageReadDone _ _ _ => true
  | .verifyDone _ _ => true
  | .memoryTimeout _ => true
  | .configLoad _ => true
  | .fwOfferVerifyDone _ _ => true
  | .attestReportReady _ => true
  | .lifeSnapshotTimer => true
  | .snapshotWriteDone _ => true
  | .throttleStep => true
  | .prochot _ => true
  | .avsAdjust _ _ => true
  | .deviceTimeUndisciplined => true

end Sys2Proof
end

