-- ==== Sys2Proof/Machine/Ops.lean ====
section
/-!
DEFINITION. The named operations every command is built from: registers and their fields, byte order, CRC-32C, memory
by local offset, ring indices, interrupts, and error records.
-/

namespace Sys2Proof.Machine

abbrev Out := Host.Outcome State Fault Refusal

/-- The package is held in cold reset: cold_rst_n is low, or the 25 MHz system reference is lost (R45, R639). -/
def State.held (s : State) : Bool := s.coldHeld || s.sysrefLost

/-- While the package is held in cold reset a command has no effect; the commands of the signals that begin and end the reset, and of
perst_n, do not pass through here (R45). -/
def State.clocked (s t : State) : State := if s.held then s else t

/-- A command whose operands number existing instances has its effect; another is no command of the block. -/
def run (i : Instr) (t : State) : Out := if i.wf then .next t else .fault .illFormed

/-! ## Registers -/

/-- The key of an instance of a register in the register files. -/
def regKey (r : Reg) (inst : Nat) : Nat := r.ctorIdx * 0x100000 + inst

/-- The reset values that differ by instance. -/
def Reg.resetOf (r : Reg) (inst : Nat) : Nat :=
  match r with
  | .DA_ARR_STATUS => (inst / 128) * 2 ^ F.DA_ARR_STATUS_HALF.lo
  | .YL_LINK_STATUS =>
    (if inst < 64 then 0 else if inst < 88 then 1 else 2) * 2 ^ F.YL_LINK_STATUS_ROLE.lo
  | .TSP_STREAM_CRED => if inst % 16 < 4 then 3 * 2 ^ F.TSP_STREAM_CRED_TILES.lo + 1024 else 0
  | .PTN_ID => inst
  | _ => 0

/-- A register's value after reset (the Reset columns of the field tables). -/
def Reg.resetVal (r : Reg) (inst : Nat) : Word :=
  BitVec.ofNat 64 (r.fields.foldl (fun a f => a + f.reset * 2 ^ f.lo) (r.resetOf inst))

/-- The active value of a register. -/
def State.rd (s : State) (r : Reg) (inst : Nat := 0) : Word := sget (r.resetVal inst) s.regs (regKey r inst)

/-- Set the active value of a register. -/
def State.wr (s : State) (r : Reg) (inst : Nat) (v : Word) : State :=
  { s with regs := sput (r.resetVal inst) (regKey r inst) v s.regs }

/-- The staged value of a member of a commit group (R755). -/
def State.rdStaged (s : State) (r : Reg) (inst : Nat := 0) : Word := sget (r.resetVal inst) s.staged (regKey r inst)

/-- Set the staged value of a member of a commit group. -/
def State.wrStaged (s : State) (r : Reg) (inst : Nat) (v : Word) : State :=
  { s with staged := sput (r.resetVal inst) (regKey r inst) v s.staged }

/-- A field of a word. -/
def Fld.get (f : Fld) (v : Word) : Nat := v.toNat / 2 ^ f.lo % 2 ^ f.w

/-- A word with one field replaced (the value is cut to the field's width). -/
def Fld.put (f : Fld) (v : Word) (x : Nat) : Word :=
  BitVec.ofNat 64 (v.toNat % 2 ^ f.lo + (x % 2 ^ f.w) * 2 ^ f.lo + v.toNat / 2 ^ (f.lo + f.w) * 2 ^ (f.lo + f.w))

/-- Read a field of the active value. -/
def State.fld (s : State) (f : Fld) (inst : Nat := 0) : Nat := f.get (s.rd f.reg inst)

/-- Is a field of the active value not 0. -/
def State.flag (s : State) (f : Fld) (inst : Nat := 0) : Bool := s.fld f inst != 0

/-- Read a field of the staged value. -/
def State.sfld (s : State) (f : Fld) (inst : Nat := 0) : Nat := f.get (s.rdStaged f.reg inst)

/-- Replace a field of the active value. -/
def State.setFld (s : State) (f : Fld) (x : Nat) (inst : Nat := 0) : State :=
  s.wr f.reg inst (f.put (s.rd f.reg inst) x)

/-- Set or clear a one-bit field. -/
def State.setFlag (s : State) (f : Fld) (b : Bool) (inst : Nat := 0) : State := s.setFld f (if b then 1 else 0) inst

/-- A counter that saturates at all ones. -/
def State.bump (s : State) (f : Fld) (inst : Nat := 0) (n : Nat := 1) : State :=
  s.setFld f (min (s.fld f inst + n) (2 ^ f.w - 1)) inst

/-- A counter that wraps. -/
def State.wrap (s : State) (f : Fld) (inst : Nat := 0) (n : Nat := 1) : State :=
  s.setFld f (s.fld f inst + n) inst

/-- A counter that wraps downward (credits, occupancy): never below 0. -/
def State.less (s : State) (f : Fld) (inst : Nat := 0) (n : Nat := 1) : State :=
  s.setFld f (s.fld f inst - n) inst

/-- One bit of a register used as a set. -/
def State.bit (s : State) (r : Reg) (inst k : Nat) : Bool := (s.rd r inst).getLsbD k

/-- Set or clear one bit of a register used as a set. -/
def State.setBit (s : State) (r : Reg) (inst k : Nat) (b : Bool) : State :=
  s.setFld ⟨r, k, 1⟩ (if b then 1 else 0) inst

/-- Return one register to its reset value, active and staged (R761). -/
def State.resetReg (s : State) (r : Reg) (inst : Nat) : State :=
  (s.wr r inst (r.resetVal inst)).wrStaged r inst (r.resetVal inst)

/-- Return instances `0` to `n - 1` of some registers to their reset values. -/
def State.resetRegs (s : State) (rs : List Reg) (n : Nat) : State :=
  rs.foldl (fun s r => (List.range n).foldl (fun s k => s.resetReg r k) s) s

/-- How many instances a register has. -/
def Reg.count (r : Reg) : Nat := r.place.dims.foldl (fun a d => a * d.count) 1

/-! ## Updating tables of the state -/

/-- Replace a list element (nothing where the index is past the end). -/
def listSet {α : Type} (l : List α) (k : Nat) (v : α) : List α := l.set k v

/-- Apply an update to the state `n` times over `0 … n - 1`. -/
def State.each (s : State) (n : Nat) (f : State → Nat → State) : State := (List.range n).foldl f s

/-- Apply an update if a condition holds. -/
def State.when (s : State) (b : Bool) (f : State → State) : State := if b then f s else s

/-- Put something on a wire. -/
def State.emit (s : State) (o : Output) : State := { s with out := o :: s.out }

/-- A fresh number for a free value. -/
def State.fresh (s : State) : Nat × State := (s.free, { s with free := s.free + 1 })

/-! ## Bytes -/

/-- The `n` bytes of a number, least significant first (R15). -/
def leBytes : Nat → Nat → List Byte
  | 0, _ => []
  | n + 1, v => BitVec.ofNat 8 v :: leBytes n (v / 256)

/-- The number that bytes hold, least significant first (R15). -/
def leNat : List Byte → Nat
  | [] => 0
  | b :: r => b.toNat + 256 * leNat r

/-- Bytes `off … off + n - 1` of a list; missing bytes read 0. -/
def slice (l : List Byte) (off n : Nat) : List Byte :=
  let t := (l.drop off).take n
  t ++ List.replicate (n - t.length) 0#8

/-- The little-endian number in bytes `off … off + n - 1`. -/
def leAt (l : List Byte) (off n : Nat) : Nat := leNat (slice l off n)

/-- Bits `hi … lo` of a number. -/
def bits (v lo w : Nat) : Nat := v / 2 ^ lo % 2 ^ w

/-- Replace bytes of a list from `off` on. -/
def overlay (l : List Byte) (off : Nat) (d : List Byte) : List Byte :=
  (slice l 0 off) ++ d ++ l.drop (off + d.length)

/-- Eight shift steps of the reflected CRC-32C register (R147). -/
def crcShift : Nat → Nat → Nat
  | 0, c => c
  | n + 1, c => crcShift n (if c % 2 = 1 then (c / 2) ^^^ 0x82F63B78 else c / 2)

/-- CRC-32C (R147): Castagnoli polynomial 0x1EDC_6F41 in reflected form, initial value and final exclusive-or all ones. -/
def crc32c (l : List Byte) : Nat :=
  (l.foldl (fun c b => crcShift 8 (c ^^^ b.toNat)) 0xFFFFFFFF) ^^^ 0xFFFFFFFF

/-- Two's complement of an integer in `w` bits. -/
def twos (w : Nat) (v : Int) : Nat := (v % (2 ^ w : Int)).toNat

/-- The signed reading of a `w`-bit number. -/
def sgn (w v : Nat) : Int := if v % 2 ^ w < 2 ^ (w - 1) then (v % 2 ^ w : Nat) else (v % 2 ^ w : Nat) - (2 ^ w : Int)

/-! ## Halves (01_architecture.md) -/

/-- PKG_HALF_STATUS encodings. -/
def hsOff : Nat := 0
def hsBooting : Nat := 1
def hsUp : Nat := 2
def hsFenced : Nat := 3
def hsResetting : Nat := 4
def hsFailed : Nat := 5

/-- The state field of a half. -/
def halfFld : Half → Fld
  | .east => F.PKG_HALF_STATUS_EAST_STATE
  | .west => F.PKG_HALF_STATUS_WEST_STATE

def State.half (s : State) (h : Half) : Nat := s.fld (halfFld h)

def State.setHalf (s : State) (h : Half) (st : Nat) : State := s.setFld (halfFld h) st

/-- RESETTING or FAILED: the half does not serve (R46 to R50). -/
def State.halfDown (s : State) (h : Half) : Bool := s.half h == hsResetting || s.half h == hsFailed

/-- UP or MGMT_FENCED: the half's data path runs. -/
def State.halfUp (s : State) (h : Half) : Bool := s.half h == hsUp || s.half h == hsFenced

def otherHalf : Half → Half
  | .east => .west
  | .west => .east

def halfNum : Half → Nat
  | .east => 0
  | .west => 1

def ofHalfNum (n : Nat) : Half := if n = 0 then .east else .west

/-- The half that an I/O die is attached to (R19). -/
def ioHalf (io : Nat) : Half := if io < 2 then .east else .west

/-- Payload bytes cross the East–West bridge on their way from one half to the other (R19, R54). Counted are the words of packets and
the data of engine, tile stream, drive and host traffic; class A messages inside the controller are not (assumption log 59). -/
def State.cross (s : State) (src dst : Half) (n : Nat) : State :=
  if src = dst then s
  else match src with
    | .east => s.wrap F.PKG_BRIDGE_BYTES_EW_BYTES 0 n
    | .west => s.wrap F.PKG_BRIDGE_BYTES_WE_BYTES 0 n

/-- The Starter stage of a half (R824): 0 RESET, 1 ROM to 7 RUNNING, 0xF FAILED. -/
def stageFld : Half → Fld
  | .east => F.BOOT_STATUS_EAST_STAGE
  | .west => F.BOOT_STATUS_WEST_STAGE

def State.bootStage (s : State) (h : Half) : Nat := s.fld (stageFld h)

/-- The I/O die of a link and its position in that die's link list (R26). -/
def linkDie (l : Nat) : Nat × Nat :=
  if l < 64 then (l / 16, l % 16) else if l < 88 then ((l - 64) / 6, 16 + (l - 64) % 6) else ((l - 88) / 2, 22 + (l - 88) % 2)

/-- The half whose switch core port logic serves a link (R26). -/
def linkHalf (l : Nat) : Half := ioHalf (linkDie l).1

/-- A link stays DISABLED: the half of its I/O die is not RUNNING (R46, R824), or its quad failed calibration (R824). -/
def State.linkHeld (s : State) (l : Nat) : Bool :=
  let d := linkDie l
  s.bootStage (ioHalf d.1) != 7 || s.boot.badQuads.contains (12 * d.1 + d.2 / 2)

/-- This controller's node ID. -/
def State.node (s : State) : Nat := s.fld F.PKG_NODE_ID_NODE

/-! ## The local offset map (R63, R64, R118, R119, R126) -/

def t0Size : Nat := 0x4800000000
def t0Half : Nat := 0x2400000000
def reserveBase : Nat := 0x47FC000000
def ctlBase : Nat := 0x40000000000
def ctlSize : Nat := 0x4000000
def t1Base : Nat := 0x100000000000
def gib : Nat := 0x40000000
def pageBytes : Nat := 0x10000

/-- Bytes of tier 1 in service (R125, R126). -/
def State.t1Size (s : State) : Nat :=
  if s.flag F.TIER_T1_INFO_POPULATED then 16 * s.fld F.TIER_T1_INFO_DIMM_GIB * gib else 0

/-- The staging region of a half: first offset and size (R119). -/
def State.stageOf (s : State) (h : Half) : Nat × Nat :=
  match h with
  | .east => let n := s.fld F.TIER_T0_STAGE_EAST_GIB * gib; (t0Half - n, n)
  | .west => let n := s.fld F.TIER_T0_STAGE_WEST_GIB * gib; (reserveBase - n, n)

/-- An offset inside an extent. -/
def inExt (base len o : Nat) : Bool := decide (base ≤ o) && decide (o < base + len)

/-- Two extents share a byte. -/
def meets (b1 l1 b2 l2 : Nat) : Bool := decide (b1 < b2 + l2) && decide (b2 < b1 + l1) && decide (0 < l1) && decide (0 < l2)

/-- One extent lies in another. -/
def within (b l base len : Nat) : Bool := decide (base ≤ b) && decide (b + l ≤ base + len)

/-- What stands at a local offset. -/
inductive Region where
  | tier0       -- resident region of tier 0
  | staging     -- a staging region (R119)
  | reserve     -- the translation reserve (R64)
  | control     -- the populated part of the control window
  | tier1       -- populated tier 1
  | none        -- reserved or unpopulated
  deriving DecidableEq, Repr

def State.region (s : State) (o : Nat) : Region :=
  if o < t0Size then
    if reserveBase ≤ o then .reserve
    else if inExt (s.stageOf .east).1 (s.stageOf .east).2 o || inExt (s.stageOf .west).1 (s.stageOf .west).2 o then .staging
    else .tier0
  else if inExt ctlBase ctlSize o then .control
  else if inExt t1Base s.t1Size o then .tier1
  else .none

/-- The half that homes an offset of tier 0 or tier 1 (R21, R118, R126). -/
def State.homeHalf (s : State) (o : Nat) : Half :=
  if o < t0Size then (if o < t0Half then .east else .west)
  else if o - t1Base < s.t1Size / 2 then .east else .west

/-- Bytes of an extent of tier 0 or tier 1 that the East half homes. -/
def State.eastBytes (s : State) (o n : Nat) : Nat :=
  min n ((if o < t0Size then t0Half else t1Base + s.t1Size / 2) - o)

/-- Data of own memory move from their homes to an engine of half `h`. -/
def State.crossIn (s : State) (h : Half) (o n : Nat) : State :=
  match h with
  | .east => s.cross .west .east (n - s.eastBytes o n)
  | .west => s.cross .east .west (s.eastBytes o n)

/-- Data move from an engine of half `h` to their homes in own memory. -/
def State.crossOut (s : State) (h : Half) (o n : Nat) : State :=
  match h with
  | .east => s.cross .east .west (n - s.eastBytes o n)
  | .west => s.cross .west .east (s.eastBytes o n)

/-- The stack 0 to 7 that stores a tier 0 offset, and its pseudo-channel (R118). -/
def t0Place (o : Nat) : Nat × Nat :=
  let q := o % t0Half / 256
  ((if o < t0Half then 0 else 4) + q % 4, q / 4 % 32)

/-- The channel 0 to 15 that stores a tier 1 offset, and its subchannel (R126). -/
def State.t1Place (s : State) (o : Nat) : Nat × Nat :=
  let v := o - t1Base
  ((if v < s.t1Size / 2 then 0 else 8) + v / 4096 % 8, v / 64 % 2)

/-- The stack or channel behind an offset has FAILED (R132). -/
def State.memFailed (s : State) (o : Nat) : Bool :=
  if o < t0Size then bits (s.rd .TIER_T0_STATUS).toNat (2 * (t0Place o).1) 2 == 2
  else bits (s.rd .TIER_T1_STATUS).toNat (2 * (s.t1Place o).1) 2 == 2

/-- A stack of a half has FAILED: its staging region is withdrawn (R133). -/
def State.stageGone (s : State) (h : Half) : Bool :=
  match h with
  | .east => !s.flag F.TIER_T0_STATUS_STAGE_E_AVAIL
  | .west => !s.flag F.TIER_T0_STATUS_STAGE_W_AVAIL

/-! ## Memory -/

/-- The undefined extent that covers an address, the latest first. -/
def Memory.ext (m : Memory) (a : Nat) : Option UndefExt := m.undef.find? fun u => inExt u.base u.len a

/-- What an unlisted address reads as: 0 (assumption log 1), or a free value inside an undefined extent (R883). -/
def Memory.default (m : Memory) (a : Nat) : Byte :=
  match m.ext a with
  | some u => Config.undefByte u.stamp a
  | none => 0

/-- One byte of memory. -/
def Memory.byte (m : Memory) (a : Nat) : Byte := sget (m.default a) m.cells a

/-- Does a 64 B line hold the poison word. -/
def Memory.poisoned (m : Memory) (line : Nat) : Bool :=
  m.poison.contains line ||
    (!m.clean.contains line &&
      match m.ext (64 * line) with
      | some u => Config.undefPoison u.stamp line
      | none => false)

/-- Write one byte. -/
def Memory.put (m : Memory) (a : Nat) (b : Byte) : Memory := { m with cells := sput (m.default a) a b m.cells }

/-- Write bytes from an address on. -/
def Memory.putAll (m : Memory) : Nat → List Byte → Memory
  | _, [] => m
  | a, b :: r => (m.put a b).putAll (a + 1) r

/-- Read bytes from an address on. -/
def Memory.bytes (m : Memory) (a : Nat) : Nat → List Byte
  | 0 => []
  | n + 1 => m.byte a :: m.bytes (a + 1) n

/-- A line takes data again: no poison, and no longer the undefined line of its extent (R661). -/
def Memory.cleanLine (m : Memory) (line : Nat) : Memory :=
  { m with poison := m.poison.filter (· ≠ line),
           clean := if (m.ext (64 * line)).isSome then ninsert line m.clean else m.clean }

/-- A line is stored as the poison word, whose data symbols are 0 (R660). -/
def Memory.poisonLine (m : Memory) (line : Nat) : Memory :=
  let m := m.putAll (64 * line) (List.replicate 64 0)
  { m with poison := ninsert line m.poison }

/-- An extent's content becomes undefined (R883). -/
def Memory.undefine (m : Memory) (base len stamp : Nat) : Memory :=
  let p := fun a => inExt base len a
  let pl := fun l => decide (64 * l + 64 ≤ base) || decide (base + len ≤ 64 * l)
  { cells := sdrop p m.cells, poison := m.poison.filter pl, clean := m.clean.filter pl, fresh := m.fresh.filter pl,
    undef := ⟨base, len, stamp⟩ :: m.undef }

/-- A line of own memory is stored as the poison word. -/
def State.poisonLine (s : State) (line : Nat) : State := { s with mem := s.mem.poisonLine line }

/-- A whole line of own memory is written. -/
def State.storeLine (s : State) (line : Nat) (d : List Byte) : State :=
  { s with mem := (s.mem.cleanLine line).putAll (64 * line) (slice d 0 64) }

/-- Mark an extent undefined. -/
def State.undefine (s : State) (base len : Nat) : State :=
  if len = 0 then s else { s with mem := s.mem.undefine base len s.free, free := s.free + 1 }

/-- What a read answers: an error status, or bytes with the numbers of the poisoned 64 B lines, counted from the line
that holds the first byte. -/
structure ReadRes where
  err    : Bool := false
  /-- The home refused the region key (R97): where the refused piece begins. -/
  refused : Option Nat := none
  poison : List Nat := []
  data   : List Byte := []
  deriving DecidableEq, Repr

def ReadRes.bad (r : ReadRes) : Bool := !r.poison.isEmpty

/-- The 64 B lines that an extent touches. -/
def linesOf (a n : Nat) : List Nat := if n = 0 then [] else (List.range ((a + n - 1) / 64 - a / 64 + 1)).map (a / 64 + ·)

/-- The directory entry of a line (R426), by the number of its 64 B line. -/
def State.dirAt (s : State) (line : Nat) : Option DirEnt := s.dir.find? fun e => e.line == line

/-- A line that one caching agent owns: EX or OW. -/
def State.owned (s : State) (line : Nat) : Bool := (s.dirAt line).any fun e => e.owner.isSome

/-- COH_DIR_OCC follows the directory. -/
def State.syncDir (s : State) : State := s.setFld F.COH_DIR_OCC_ENTRIES (min s.dir.length (2 ^ 23 - 1))

/-- What an owner's answer to SnpShared leaves of its entry (R431, R434, R436): it reports O, S or I, a free choice. -/
def DirEnt.afterShared (e : DirEnt) (choice : Nat) : Option DirEnt :=
  match e.owner with
  | none => some e
  | some o =>
    if choice % 3 = 0 then some e
    else if choice % 3 = 1 then some { e with owner := none, sharers := ninsert o e.sharers }
    else if e.sharers.isEmpty then none else some { e with owner := none }

/-- Read a populated extent of tier 0 or tier 1 at its home: poison where the half is RESETTING or FAILED (R47), where
the stack or channel has FAILED (R132), and where a line is poisoned (R659). -/
def State.readMem (s : State) (a n : Nat) : ReadRes :=
  let bad := (linesOf a n).filter fun l =>
    s.halfDown (s.homeHalf (64 * l)) || s.memFailed (64 * l) || (s.mem.poisoned l && !s.owned l)
  { poison := bad.map (· - a / 64),
    data := if s.dir.isEmpty then s.mem.bytes a n
      else (List.range n).map fun k => if s.owned ((a + k) / 64) then Config.agentByte s.free (a + k) else s.mem.byte (a + k) }

/-- Write `d` inside one 64 B line, or poison it. A part write to a poisoned line is refused (R128). -/
def Memory.writeLine (m : Memory) (a : Nat) (d : List Byte) : Option Memory :=
  if d.length = 64 then some ((m.cleanLine (a / 64)).putAll a d)
  else if m.poisoned (a / 64) then none
  else some ((m.putAll a d).cleanLine (a / 64))

/-- Write line by line; `fuel` bounds the lines. Answers the memory and whether every line was written. -/
def Memory.writeLines : Nat → Memory → Nat → List Byte → List Nat → Nat → Memory × Bool
  | 0, m, _, _, _, _ => (m, true)
  | _, m, _, [], _, _ => (m, true)
  | k + 1, m, a, d, poison, first =>
    let n := 64 - a % 64
    let part := d.take n
    let r : Memory × Bool :=
      if poison.contains (a / 64 - first) then (m.poisonLine (a / 64), true)
      else match m.writeLine a part with
        | some m' => (m', true)
        | none => (m, false)
    let t := Memory.writeLines k r.1 (a + part.length) (d.drop n) poison first
    (t.1, r.2 && t.2)

/-- Count in the life log (R847). -/
def State.lifeAdd (s : State) (idx sub n : Nat) : State :=
  let k := idx * 256 + sub
  { s with life := sput 0 k ((sget 0 s.life k + n) % 2 ^ 64) s.life }

/-- Count a detection charged to an array (R677), also in the life log. -/
def State.chargeArray (s : State) (a : Nat) : State :=
  (s.bump F.DA_ARR_DETECT_COUNT a).lifeAdd (0x5070 + a / 64) (a % 64 + 1) 1

/-- Count bytes read from or written to a tier (TIER_T0_BYTES_RD to TIER_T1_BYTES_WR, R166). -/
def State.tally (s : State) (o n : Nat) (wr : Bool) : State :=
  if o < t0Size then
    (if wr then (s.wrap F.TIER_T0_BYTES_WR_COUNT 0 n).lifeAdd 0x5001 1 n else s.wrap F.TIER_T0_BYTES_RD_COUNT 0 n)
  else (if wr then s.wrap F.TIER_T1_BYTES_WR_COUNT 0 n else s.wrap F.TIER_T1_BYTES_RD_COUNT 0 n)

/-- An extent touches the handoff window (R725). -/
def State.inHandoff (s : State) (o n : Nat) : Bool :=
  s.flag F.CNT_HOFF_BASE_VALID && meets o n (s.fld F.CNT_HOFF_BASE_PAGE * pageBytes) (s.fld F.CNT_HOFF_LEN_PAGES * pageBytes)

/-- The start and the length of the mirror region (15_continuity.md, "The mirror region"). -/
def State.mirrorExtent (s : State) : Nat × Nat := (s.fld F.CNT_MIRROR_BASE_GIB * gib, s.fld F.CNT_MIRROR_SIZE_GIB * gib)

/-- An extent touches the mirror region. -/
def State.inMirror (s : State) (o n : Nat) : Bool := meets o n s.mirrorExtent.1 s.mirrorExtent.2

/-! ## Outside memories -/

/-- A read of an outside memory, as the command's environment answers it. -/
def envRead (env : Env) (sp : Space) (a n : Nat) : ReadRes :=
  match env.find? fun e => decide (e.space = sp) && within a n e.addr e.data.length with
  | none => { err := true }
  | some e =>
    { err := e.err || e.key, refused := if e.key then some a else none, data := slice e.data (a - e.addr) n,
      poison := (e.poison.filter fun l => within (e.addr + 64 * l) 1 (a / 64 * 64) (n + a % 64)).map
        fun l => (e.addr + 64 * l) / 64 - a / 64 }

/-- Is there an answer for a write to an outside memory that says it failed. -/
def envWriteFails (env : Env) (sp : Space) (a : Nat) : Bool :=
  env.any fun e => decide (e.space = sp) && decide (e.addr = a) && e.err && e.data.isEmpty

/-! ## Ring indices: slot in bits 15:0 below the ring size, bit 16 toggles on each wrap -/

/-- Where an index stands in twice the ring. -/
def ringPos (size i : Nat) : Nat := i / 65536 * size + i % 65536

/-- The index `n` slots further. -/
def ringAdd (size i n : Nat) : Nat :=
  let p := (ringPos size i + n) % (2 * size)
  p / size * 65536 + p % size

/-- Slots from one index to another. -/
def ringDist (size from_ to_ : Nat) : Nat := (ringPos size to_ + 2 * size - ringPos size from_) % (2 * size)

/-- A head may move to `v`: its slot is in the ring, and it neither passes the tail nor moves backward (R616). -/
def headOk (size head tail v : Nat) : Bool :=
  decide (v % 65536 < size) && decide (ringDist size head v ≤ ringDist size head tail)

/-! ## Interrupts (R609, R610, R621 to R624, R647) -/

/-- Partition states of PTN_STATUS.STATE (R641). -/
def psActive : Nat := 0
def psDraining : Nat := 1
def psClearing : Nat := 2

def State.partActive (s : State) (p : Nat) : Bool := s.fld F.PTN_STATUS_STATE p == psActive

/-- Send one message of a function, or set its pending bit where the vector is masked (R624). -/
def State.msix (s : State) (fn vec : Nat) : State :=
  let k := fn * 1024 + vec
  if s.flag F.MSIX_CTRL_MASK k then s.setFld F.MSIX_PEND_PEND 1 k
  else s.emit (.msix fn vec (s.rd .MSIX_ADDR k) (s.rd .MSIX_DATA k))

/-- Raise a vector of the physical function: one of 0 to 31 (R610). -/
def State.raisePf (s : State) (vec : Nat) : State := s.msix 0 (vec % 32)

/-- Raise a vector of a partition: dropped while the partition is in reset (R647), where its function is not enabled or
has no such vector (R610). -/
def State.raiseVec (s : State) (p vec : Nat) : State :=
  if !s.partActive p then s.bump F.PTN_IRQ_DROP_COUNT p
  else if !s.flag F.PTN_ID_VF_EN p || decide (s.fld F.HIF_VEC_CFG_VF_VECS ≤ vec) then s.bump F.HIF_VEC_DROP_COUNT
  else s.msix (p + 1) vec

/-! ## Error records (R678, R689 to R693) -/

/-- The half whose management cores lead (R732): the lease holder's. -/
def State.leader (s : State) : Half :=
  if s.fld F.CNT_LEASE_STATUS_HOLDER == 2 then .west else .east

/-- Limit a number to 0 … 63. -/
def band63 (v : Int) : Nat := if v < 0 then 0 else min v.toNat 63

/-- Array states of DA_ARR_STATUS.STATE are numbered in 06_decode_arrays.md; 1 is BUSY. -/
def arrBusy : Nat := 1

/-- ACT of the envelope: the share of a half's arrays that are BUSY. -/
def State.actOf (s : State) (h : Half) : Nat :=
  let b := ((List.range 128).filter fun k => s.fld F.DA_ARR_STATUS_STATE (128 * halfNum h + k) == arrBusy).length
  if b * 4 < 128 then 0 else if b * 4 < 3 * 128 then 1 else 2

def State.tempOf (s : State) : Half → Int
  | .east => s.tempE
  | .west => s.tempW

def State.voltOf (s : State) : Half → Nat
  | .east => s.voltE
  | .west => s.voltW

/-- The 16-bit envelope of R678: floor((T + 40) ÷ 4) with T in 1/16 °C, floor((V − 600) ÷ 10), ACT and OPCLASS. -/
def State.envelope (s : State) (h : Half) (opclass : Nat) : Nat :=
  band63 ((s.tempOf h + 640) / 64) * 1024 + band63 (((s.voltOf h : Int) - 600) / 10) * 16 + s.actOf h * 4 + opclass % 4

/-- Unit classes of R690. -/
def ecPKG : Nat := 0x01
def ecXLT : Nat := 0x02
def ecTIER : Nat := 0x03
def ecPRF : Nat := 0x05
def ecDA : Nat := 0x06
def ecSCP : Nat := 0x07
def ecCOH : Nat := 0x08
def ecYL : Nat := 0x09
def ecYT : Nat := 0x0A
def ecTSP : Nat := 0x0C
def ecHIF : Nat := 0x0D
def ecPTN : Nat := 0x0E
def ecRST : Nat := 0x0F
def ecERR : Nat := 0x10
def ecTST : Nat := 0x11
def ecCNT : Nat := 0x12
def ecMGT : Nat := 0x13
def ecSCL : Nat := 0x14
def ecBOOT : Nat := 0x15
def ecLIFE : Nat := 0x16

/-- Severities of R689. -/
inductive Sev where
  | info | degraded | job | unit | device
  deriving DecidableEq, Repr

def Sev.code : Sev → Nat
  | .info => 0
  | .degraded => 1
  | .job => 2
  | .unit => 3
  | .device => 4

/-- The severity R691 gives an event of a class. -/
def severityOf (cls ev : Nat) : Sev :=
  if cls = ecPKG then (if ev = 1 then .info else if ev = 2 then .degraded else .device)
  else if cls = ecXLT then (if ev = 2 then .degraded else if ev = 4 then .info else .job)
  else if cls = ecTIER then
    (if ev = 1 then .device else if ev = 2 || ev = 7 then .degraded else if ev = 6 then .info else .unit)
  else if cls = ecPRF then .job
  else if cls = ecDA then (if ev ≤ 3 then .degraded else .unit)
  else if cls = ecSCP then .unit
  else if cls = ecCOH then .job
  else if cls = ecYL then .unit
  else if cls = ecYT then .job
  else if cls = ecTSP then .unit
  else if cls = ecHIF then .job
  else if cls = ecPTN then .job
  else if cls = ecRST then .job
  else if cls = ecERR then .info
  else if cls = ecTST then (if ev = 1 then .degraded else if ev = 2 || ev = 5 then .unit else .info)
  else if cls = ecCNT then (if ev = 2 then .job else .degraded)
  else if cls = ecMGT then (if ev = 1 then .device else .info)
  else if cls = ecSCL then .info
  else if cls = ecBOOT then (if ev = 3 then .unit else .device)
  else .info

/-- The parts of an error record that its event gives; the rest the controller fills in. -/
structure ErrInfo where
  cls      : Nat
  event    : Nat
  inst     : Nat := 0xFFFF
  part     : Nat := 0xFE
  op       : Nat := 0
  half     : Option Half := none
  opclass  : Nat := 0
  cursor   : Word := BitVec.allOnes 64
  address  : Word := BitVec.allOnes 64
  syndrome : Word := 0
  count    : Nat := 0
  aux      : Nat := 0
  /-- The conditions of a detection, where they are not those of the moment (R678). -/
  seen     : Option DetAt := none

/-- The 64 bytes of an error record (R689), CRC-32C last. -/
def ErrRec.bytes (r : ErrRec) : List Byte :=
  let b := leBytes 4 r.seq ++ leBytes 1 r.cls ++ leBytes 1 r.event ++ leBytes 2 r.inst ++ leBytes 1 r.severity ++
    leBytes 1 r.part ++ leBytes 1 r.op ++ leBytes 1 0 ++ leBytes 2 r.envelope ++ leBytes 2 0 ++ leBytes 8 r.time ++
    leBytes 8 r.cursor.toNat ++ leBytes 8 r.address.toNat ++ leBytes 8 r.syndrome.toNat ++ leBytes 4 r.count ++
    leBytes 2 (twos 16 r.temp) ++ leBytes 2 r.volt ++ leBytes 4 r.aux
  b ++ leBytes 4 (crc32c b)

def errRingSize (s : State) : Nat := 2 ^ s.fld F.ERR_RING_CTRL_LOG2_RECORDS

/-- Does the error ring have a slot for one more record. -/
def State.errRingRoom (s : State) : Bool :=
  decide (ringDist (errRingSize s) (s.fld F.ERR_RING_HEAD_INDEX) (s.fld F.ERR_RING_TAIL_INDEX) + s.errWrites.length
    < errRingSize s)

/-- Lay a record in the log, and issue its ring write if the ring is enabled and has room (R692, R693). -/
def State.logRecord (s : State) (r : ErrRec) : State :=
  let s := { s with errLog := (r :: s.errLog).take 4096 }.setFld F.ERR_LOG_SEQ_SEQ (r.seq + 1)
  if !s.flag F.ERR_RING_CTRL_EN then s
  else if s.errRingRoom then
    let slot := ringAdd (errRingSize s) (s.fld F.ERR_RING_TAIL_INDEX) s.errWrites.length % 65536
    { s with errWrites := s.errWrites ++ [r] }.emit
      (.hostWrite ((s.rd .ERR_RING_BASE).toNat / 4096 * 4096 + slot * 64) r.bytes false false)
  else { s.bump F.ERR_RING_DROP_COUNT with errEpisode := s.errEpisode + 1 }

/-- The record that an event makes (R689), with the sequence number, the time and the conditions of the moment. -/
def State.mkRecord (s : State) (e : ErrInfo) : ErrRec :=
  let h := e.half.getD s.leader
  let d := e.seen.getD ⟨s.envelope h e.opclass, s.time, s.tempOf h, s.voltOf h⟩
  { seq := s.fld F.ERR_LOG_SEQ_SEQ, cls := e.cls, event := e.event, inst := e.inst,
    severity := (severityOf e.cls e.event).code, part := e.part, op := e.op, envelope := d.env,
    time := d.time, cursor := e.cursor, address := e.address, syndrome := e.syndrome, count := e.count,
    temp := d.temp, volt := d.volt, aux := e.aux }

/-- Write an error record (R689 to R693). The first record the ring takes after dropped ones is followed at once by a
RING_LOST record with the number dropped. -/
def State.record (s : State) (e : ErrInfo) : State :=
  let lost := s.errEpisode
  let ended := decide (0 < lost) && s.flag F.ERR_RING_CTRL_EN && s.errRingRoom
  let s := s.logRecord (s.mkRecord e)
  if ended then
    let s := { s with errEpisode := 0 }
    s.logRecord (s.mkRecord { cls := ecERR, event := 1, count := lost })
  else s

/-- The PARTITION code of an error record for a context: 0xFF for the management context. -/
def ctxPart (c : Nat) : Nat := if c < 128 then c else 0xFF

end Sys2Proof.Machine
end

