-- ==== Sys2Proof/Machine/Registers.lean ====
section
/-!
DEFINITION. The object dictionary's rules for every register (16_object_dictionary.md): object addresses, commit
groups, ownership, refusals, and what a write does to each field under its access code (R7 to R12).
-/

namespace Sys2Proof.Machine

/-! ## Status codes (R752) -/

def stOK : Nat := 0x00
def stNoEntry : Nat := 0x01
def stAccess : Nat := 0x02
def stType : Nat := 0x03
def stRange : Nat := 0x04
def stState : Nat := 0x05
def stBusy : Nat := 0x06
def stLocked : Nat := 0x07
def stOwner : Nat := 0x08
def stRole : Nat := 0x09
def stRejected : Nat := 0x0A
def stLease : Nat := 0x0B
def stFlash : Nat := 0x0C
def stTooBig : Nat := 0x0D
def stMalformed : Nat := 0x0E
def stSession : Nat := 0x0F
def stAuth : Nat := 0x10
def stLimit : Nat := 0x11

/-! ## Addresses -/

/-- The digits of an instance number in the register's dimensions, outermost first. -/
def digits : List Dim → Nat → List Nat
  | [], _ => []
  | _ :: r, n => let m := r.foldl (fun a d => a * d.count) 1; (n / m) :: digits r (n % m)

/-- Offset, index and subindex steps of an instance. -/
def dimSum (f : Dim → Nat) : List Dim → List Nat → Nat
  | d :: ds, k :: ks => f d * k + dimSum f ds ks
  | _, _ => 0

/-- The BAR0 offset of an instance (none: not mapped). The MSI-X tables and pending bits are read by `msixAt`. -/
def Reg.offset (r : Reg) (inst : Nat) : Option Nat :=
  r.place.off.map fun o => o + dimSum (·.off) r.place.dims (digits r.place.dims inst)

/-- The object index and subindex of an instance; the management context's bank has index 0x2101 (R114). -/
def Reg.object (r : Reg) (inst : Nat) : Nat × Nat :=
  let p := r.place
  let ds := digits p.dims inst
  let idx := p.idx + dimSum (·.idx) p.dims ds
  let sub := p.sub + dimSum (·.sub) p.dims ds
  if p.idx = 0x3002 && ds.headD 0 = 128 then (0x2101, sub) else (idx, sub)

/-- The instance of a register whose steps `f` bring `base` to `target`, searched digit by digit. -/
def findDigits (f : Dim → Nat) : List Dim → Nat → Option Nat
  | [], 0 => some 0
  | [], _ => none
  | d :: ds, t =>
    let m := ds.foldl (fun a d => a * d.count) 1
    if f d = 0 then none
    else
      let k := t / f d
      if k < d.count then (findDigits f ds (t - k * f d)).map (k * m + ·) else none

/-- The instance of `r` that stands at a BAR0 offset. -/
def Reg.atOffset (r : Reg) (o : Nat) : Option Nat :=
  match r.place.off with
  | none => none
  | some b => if b ≤ o then findDigits (·.off) r.place.dims (o - b) else none

/-- The register and instance at a BAR0 offset of the physical function. -/
def regAt (o : Nat) : Option (Reg × Nat) :=
  Reg.all.findSome? fun r => (r.atOffset o).map fun k => (r, k)

/-- The instance of `r` at an object address: index and subindex steps counted together (a subindex has 8 bits). -/
def Reg.atObject (r : Reg) (idx sub : Nat) : Option Nat :=
  let p := r.place
  if p.idx = 0 then none
  else if p.idx = 0x3002 && idx = 0x2101 then
    (if p.sub ≤ sub then (findDigits (·.sub) (p.dims.drop 1) (sub - p.sub)).map (128 * (p.dims.drop 1).foldl (fun a d => a * d.count) 1 + ·) else none)
  else if p.idx ≤ idx && p.sub ≤ sub then
    (match findDigits (fun d => d.idx * 256 + d.sub) p.dims ((idx - p.idx) * 256 + (sub - p.sub)) with
     | some k => if p.idx = 0x3002 && (digits p.dims k).headD 0 = 128 then none else some k
     | none => none)
  else none

/-- The register and instance behind an object address. -/
def regOfObject (idx sub : Nat) : Option (Reg × Nat) :=
  Reg.all.findSome? fun r => (r.atObject idx sub).map fun k => (r, k)

/-- The function and vector of an offset in the PF MSI-X table (R611, R612) or a VF page's table (R617). -/
def msixAt (o : Nat) : Option (Nat × Nat) :=
  if 0x9C000 ≤ o && o < 0xA0000 then some ((o - 0x9C000) / 16, o % 16)
  else if 0x1000000 ≤ o && o < 0x3000000 then
    let p := (o - 0x1000000) / 0x40000
    let b := o % 0x40000
    if 0x8000 ≤ b && b < 0x8200 then some ((p + 1) * 1024 + (b - 0x8000) / 16, o % 16) else none
  else none

/-- The function and first vector of a 4 B word of a pending bit array. -/
def pbaAt (o : Nat) : Option (Nat × Nat) :=
  if 0x9B000 ≤ o && o < 0x9B080 then some (0, (o - 0x9B000) * 8)
  else if 0x1000000 ≤ o && o < 0x3000000 then
    let p := (o - 0x1000000) / 0x40000
    let b := o % 0x40000
    if 0x9000 ≤ b && b < 0x9008 then some (p + 1, (b - 0x9000) * 8) else none
  else none

/-! ## Commit groups (R755 to R762) -/

inductive Group where
  | xlt | stage | repl | coh | yl | tsp | qos | cnt | net | anchor | deleg
  deriving DecidableEq, Repr

/-- The group a member belongs to. -/
def Reg.group : Reg → Option Group
  | .XLT_TBL_SRC | .XLT_TBL_COUNT | .XLT_POOL_BASE | .XLT_POOL_PAGES => some .xlt
  | .TIER_T0_STAGE => some .stage
  | .SCP_REPL_BASE_E | .SCP_REPL_BASE_W | .SCP_REPL_SLOTS => some .repl
  | .COH_CFG | .COH_HOMES | .COH_MEMBER | .COH_WIN_BASE | .COH_WIN_LEN => some .coh
  | .YL_RACK_ID | .YL_LINK_CFG => some .yl
  | .TSP_STREAM_CRED => some .tsp
  | .QOS_T0 | .QOS_T1 | .QOS_FAB | .QOS_DA | .QOS_SCP | .QOS_TC => some .qos
  | .CNT_CFG | .CNT_MIRROR_BASE | .CNT_MIRROR_SIZE | .CNT_HOFF_BASE | .CNT_HOFF_LEN => some .cnt
  | .MGT_NET_MAC | .MGT_NET_PLCA => some .net
  | .MGT_DELEG => some .deleg
  | _ => none

/-- The group a commit entry commits. -/
def Reg.commits : Reg → Option Group
  | .XLT_TBL_COMMIT => some .xlt
  | .TIER_T0_COMMIT => some .stage
  | .SCP_REPL_COMMIT => some .repl
  | .COH_COMMIT => some .coh
  | .YL_CFG_COMMIT => some .yl
  | .TSP_PORT_COMMIT => some .tsp
  | .QOS_COMMIT => some .qos
  | .CNT_COMMIT => some .cnt
  | .MGT_NET_COMMIT => some .net
  | .MGT_ANCHOR_COMMIT => some .anchor
  | .MGT_DELEG_COMMIT => some .deleg
  | _ => none

/-- The commit entry of a group (R762). -/
def Group.entry : Group → Reg
  | .xlt => .XLT_TBL_COMMIT
  | .stage => .TIER_T0_COMMIT
  | .repl => .SCP_REPL_COMMIT
  | .coh => .COH_COMMIT
  | .yl => .YL_CFG_COMMIT
  | .tsp => .TSP_PORT_COMMIT
  | .qos => .QOS_COMMIT
  | .cnt => .CNT_COMMIT
  | .net => .MGT_NET_COMMIT
  | .anchor => .MGT_ANCHOR_COMMIT
  | .deleg => .MGT_DELEG_COMMIT

/-- The status entry of a group (R762). -/
def Group.status : Group → Reg
  | .xlt => .XLT_TBL_STATUS
  | .stage => .TIER_T0_CFG_STATUS
  | .repl => .SCP_REPL_STATUS
  | .coh => .COH_CFG_STATUS
  | .yl => .YL_CFG_STATUS
  | .tsp => .TSP_CRED_STATUS
  | .qos => .QOS_STATUS
  | .cnt => .CNT_CFG_STATUS
  | .net => .MGT_NET_CFG_STATUS
  | .anchor => .MGT_ANCHOR_STATUS
  | .deleg => .MGT_DELEG_STATUS

/-- BUSY of the status entry: bit 0 of XLT_TBL_STATUS, bit 8 of the others. -/
def Group.busyFld : Group → Fld
  | .xlt => F.XLT_TBL_STATUS_BUSY
  | g => ⟨g.status, 8, 1⟩

/-- RESULT of the status entry. -/
def Group.resultFld : Group → Fld
  | .xlt => F.XLT_TBL_STATUS_RESULT
  | g => ⟨g.status, 0, 4⟩

/-- The members of one instance of a group (contexts and ports have one each). -/
def Group.members (g : Group) (n : Nat) : List (Reg × Nat) :=
  let all := fun (r : Reg) (k : Nat) => (List.range k).map fun i => (r, i)
  match g with
  | .xlt => [(.XLT_TBL_SRC, n), (.XLT_TBL_COUNT, n), (.XLT_POOL_BASE, n), (.XLT_POOL_PAGES, n)]
  | .stage => [(.TIER_T0_STAGE, 0)]
  | .repl => [(.SCP_REPL_BASE_E, 0), (.SCP_REPL_BASE_W, 0), (.SCP_REPL_SLOTS, 0)]
  | .coh => [(.COH_CFG, 0), (.COH_HOMES, 0)] ++ all .COH_MEMBER 16 ++ all .COH_WIN_BASE 16 ++ all .COH_WIN_LEN 16
  | .yl => (Reg.YL_RACK_ID, 0) :: all .YL_LINK_CFG 96
  | .tsp => (List.range 16).map fun k => (.TSP_STREAM_CRED, 16 * n + k)
  | .qos => [Reg.QOS_T0, .QOS_T1, .QOS_FAB, .QOS_DA, .QOS_SCP, .QOS_TC].flatMap fun r => all r 128
  | .cnt => [(.CNT_CFG, 0), (.CNT_MIRROR_BASE, 0), (.CNT_MIRROR_SIZE, 0), (.CNT_HOFF_BASE, 0), (.CNT_HOFF_LEN, 0)]
  | .net => [(.MGT_NET_MAC, 0), (.MGT_NET_PLCA, 0)]
  | .anchor => []
  | .deleg => all .MGT_DELEG 16

/-- The instance of the group that an instance of a member belongs to. -/
def Group.instOf (g : Group) (r : Reg) (inst : Nat) : Nat :=
  match g with
  | .xlt => inst
  | .tsp => if r = .TSP_STREAM_CRED then inst / 16 else inst
  | _ => 0

/-- Take a snapshot of every staged member and show BUSY (R756). -/
def State.beginCommit (s : State) (g : Group) (n : Nat) : State :=
  let snap := (g.members n).map fun m => (regKey m.1 m.2, s.rdStaged m.1 m.2)
  { s with commits := ⟨regKey g.entry n, snap⟩ :: s.commits.filter fun c => c.key ≠ regKey g.entry n }.setFlag g.busyFld true n

/-- The snapshot of a commit in progress: a member's snapshot value. -/
def State.snapOf (s : State) (g : Group) (n : Nat) (r : Reg) (inst : Nat) : Word :=
  match s.commits.find? fun c => c.key = regKey g.entry n with
  | some c => (c.snap.find? fun e => e.1 = regKey r inst).elim (s.rdStaged r inst) (·.2)
  | none => s.rdStaged r inst

/-- Reject a commit whole: the reason in RESULT, BUSY cleared, active and staged values kept (R757). -/
def State.rejectCommit (s : State) (g : Group) (n : Nat) (result : Nat) : State :=
  ({ s with commits := s.commits.filter fun c => c.key ≠ regKey g.entry n }.setFld g.resultFld result n).setFlag g.busyFld false n

/-- A register with ROL fields. -/
def Reg.hasRol (r : Reg) : Bool := r.fields.any fun f => f.acc = .rol

/-- Every member takes its snapshot value, RESULT is OK and BUSY clears (R758). The commit locks ROL members, whose staged and active
values are then equal, whatever was staged while BUSY was 1 (R755, R759). -/
def State.finishCommit (s : State) (g : Group) (n : Nat) : State :=
  let vals := (g.members n).map fun m => (m, s.snapOf g n m.1 m.2)
  let s := vals.foldl (fun s e =>
    let s := s.wr e.1.1 e.1.2 e.2
    if e.1.1.hasRol then s.wrStaged e.1.1 e.1.2 e.2 else s) s
  ({ s with commits := s.commits.filter fun c => c.key ≠ regKey g.entry n }.setFld g.resultFld 0 n).setFlag g.busyFld false n

/-- DISCARD: every staged value takes the active value (R760). -/
def State.discardStaged (s : State) (g : Group) (n : Nat) : State :=
  (g.members n).foldl (fun s m => s.wrStaged m.1 m.2 (s.rd m.1 m.2)) s

/-- The group's commit that is in progress and waits for its safe point. -/
def State.committing (s : State) (g : Group) (n : Nat) : Bool := s.commits.any fun c => c.key = regKey g.entry n

/-! ## Ownership (R763 to R767) -/

/-- Entries with PERSIST set (R796). -/
def Reg.persist (r : Reg) : Bool :=
  match r.group with
  | some .xlt => false
  | some _ => true
  | none =>
    match r with
    | .TIER_SCRUB_CTRL | .TIER_T2WIN_BASE | .TIER_T2WIN_COUNT | .SCP_HOT_CTRL | .PRF_CH_MASK | .TST_CTRL | .ERR_CFG
    | .SWC_CFG | .SWC_TC_WEIGHT | .SWC_RSV | .SWC_PORT_MODE | .YT_RETX | .YT_AGENT_HOME | .YT_RACK_ROUTE
    | .YT_RKEY | .YT_RKEY_BASE | .YT_RKEY_LEN | .YT_RKEY_CTRL | .TSP_PORT_CTRL | .TSP_STREAM_CFG
    | .HIF_VEC_CFG | .MGT_MBX_CTRL | .BOOT_TIME_CTRL => true
    | _ => false

/-- The entry with LOAD set (R748, R796). -/
def Reg.loadOnly (r : Reg) : Bool := r = .PKG_NODE_ID

def inComm (idx : Nat) : Bool := decide (0x1000 ≤ idx) && decide (idx ≤ 0x1FFF)

/-- Is the default owner of an entry NET (R763); a commit entry has the owner of its members (R766). -/
def Reg.netDefault (r : Reg) (inst : Nat) : Bool :=
  r.persist || r.loadOnly || inComm (r.object inst).1 ||
    match r.commits with
    | some .xlt => false
    | some _ => true
    | none => false

/-- Does an active, valid delegation range cover an index (R764). -/
def State.delegated (s : State) (idx : Nat) : Bool :=
  (List.range 16).any fun k =>
    s.flag F.MGT_DELEG_VALID k && decide (s.fld F.MGT_DELEG_FIRST k ≤ idx) && decide (idx ≤ s.fld F.MGT_DELEG_LAST k)

/-- Does the host own the entry now. -/
def State.hostOwns (s : State) (r : Reg) (inst : Nat) : Bool :=
  let idx := (r.object inst).1
  !r.netDefault inst || (!inComm idx && s.delegated idx)

/-- The side a source writes from: the host, the network, or the controller itself (configuration load and management
firmware are subject to no ownership, R793). -/
inductive Side where
  | host | net | self
  deriving DecidableEq, Repr

def sideOf : Source → Side
  | .pf | .vf _ | .mbx => .host
  | .net _ => .net
  | .fw | .load => .self

/-- Every writable field is W1C (R765). -/
def Reg.onlyW1c (r : Reg) : Bool := r.fields.all fun f => f.acc = .w1c || f.acc = .ro

/-- No field can be written: an RO entry. -/
def Reg.readOnly (r : Reg) : Bool := r.fields.all fun f => f.acc = .ro

/-- The owner check of R765 and R767. -/
def State.ownerOk (s : State) (src : Source) (r : Reg) (inst : Nat) : Bool :=
  s.flag F.MGT_CFG_STATUS_DEFAULTED || r.onlyW1c ||
    match sideOf src with
    | .self => true
    | .host => s.hostOwns r inst
    | .net => !s.hostOwns r inst

/-! ## Refusals (R753, R754) -/

/-- SOURCE and FUNC of MGT_REFUSE_LAST. -/
def srcCode : Source → Nat × Nat
  | .pf => (0, 0)
  | .vf p => (1, p)
  | .net n => (2, n)
  | .mbx => (3, 0)
  | .fw => (4, 0)
  | .load => (5, 0)

/-- Report a refusal of an entry (R754). -/
def State.refuseEntry (s : State) (src : Source) (idx sub cause : Nat) : State :=
  let s := s.bump F.MGT_REFUSE_CNT_COUNT
  let s := s.setFld F.MGT_REFUSE_LAST_INDEX idx
  let s := s.setFld F.MGT_REFUSE_LAST_SUBINDEX sub
  let s := s.setFld F.MGT_REFUSE_LAST_CAUSE cause
  let s := s.setFld F.MGT_REFUSE_LAST_SOURCE (srcCode src).1
  s.setFld F.MGT_REFUSE_LAST_FUNC (srcCode src).2

/-- Report a refusal of a register (R754); one for a stale lease epoch is counted a second time (R735). -/
def State.refuse (s : State) (src : Source) (r : Reg) (inst cause : Nat) : State :=
  let s := s.refuseEntry src (r.object inst).1 (r.object inst).2 cause
  if cause = stLease then s.bump F.CNT_LEASE_REFUSED_COUNT else s

/-! ## Admission of a write -/

/-- The ROL fields of a register are locked: after the group's commit (R7), or under R595 for HIF_VEC_CFG. -/
def State.locked (s : State) (r : Reg) : Bool :=
  match r with
  | .YL_RACK_ID | .YL_LINK_CFG => s.ylLocked
  | .CNT_CFG | .CNT_MIRROR_BASE | .CNT_MIRROR_SIZE | .CNT_HOFF_BASE | .CNT_HOFF_LEN => s.cntLocked
  | .HIF_VEC_CFG => s.vecLocked
  | _ => false

/-- What becomes of a write before its value is looked at. -/
inductive Admit where
  | accept
  | drop              -- discarded or ignored, and nothing recorded
  | discard           -- discarded under R50, and counted
  | refuse (cause : Nat)
  deriving DecidableEq, Repr

/-- The partition page that a register instance lies in. -/
def Reg.pageOf (r : Reg) (inst : Nat) : Option Nat :=
  match r.offset inst with
  | some o => if 0x1000000 ≤ o && o < 0x3000000 then some ((o - 0x1000000) / 0x40000) else none
  | none => none

/-- The halves that implement the block or bank at a BAR0 offset (the table of R51): an array bank the half that holds the array; both
halves the global blocks other than Identity, TSP and HIF, MGT, SCL, BOOT and LIFE, and the partition pages but for their MSI-X tables
and pending bit arrays; none where IO0, the link's or port's I/O die, or Scale does. -/
def bar0Halves (o : Nat) : List Half :=
  if 0x100000 ≤ o && o < 0x200000 then [ofHalfNum ((o - 0x100000) / 0x80000)]
  else if (0x10000 ≤ o && o < 0x90000) || (0xA0000 ≤ o && o < 0xD0000) then [.east, .west]
  else if 0x1000000 ≤ o && o < 0x3000000 && !(0x8000 ≤ o % 0x40000 && o % 0x40000 < 0xA000) then [.east, .west]
  else []

/-- Every half that implements a BAR0 offset is RESETTING or FAILED: reads return all ones and writes are discarded (R50). -/
def State.bar0Down (s : State) (o : Nat) : Bool := !(bar0Halves o).isEmpty && (bar0Halves o).all s.halfDown

/-- The same of a register that is written as an object entry. -/
def State.regDown (s : State) (r : Reg) (inst : Nat) : Bool := (r.offset inst).any s.bar0Down

/-- Admission: a virtual function reaches only its own page, and only while its partition is ACTIVE (R618); a host
write to an array bank of a half that is down is discarded and counted (R50); then the index ranges (R751), LOAD
entries (R748), ownership (R765) and locks (R10). -/
def State.admission (s : State) (src : Source) (r : Reg) (inst : Nat) : Admit :=
  let foreign := match src with
    | .vf p => r.pageOf inst ≠ some p || !s.partActive p
    | _ => false
  if foreign then .drop
  else if sideOf src = .host && s.regDown r inst then .discard
  else
    let idx := (r.object inst).1
    if (decide (0x6000 ≤ idx) && decide (idx ≤ 0x60FF)) || (decide (0x7000 ≤ idx) && decide (idx ≤ 0x7FFF)) then .refuse stAccess
    else if r.loadOnly then
      (if src = .load then .accept else if sideOf src = .net || src = .mbx then .refuse stAccess else .drop)
    else if r.readOnly then
      (if sideOf src = .net || src = .mbx then .refuse stAccess else .drop)
    else if !s.ownerOk src r inst then .refuse stOwner
    else if s.locked r then .refuse stLocked
    else
      match r.commits with
      | some g => if s.flag g.busyFld inst then .refuse stBusy else .accept
      | none => .accept

/-- Carry out `f` if the write is admitted, else what admission says. Answers the state and a status of R752. -/
def State.admitted (s : State) (src : Source) (r : Reg) (inst : Nat) (f : State → State × Nat) : State × Nat :=
  match s.admission src r inst with
  | .accept => f s
  | .drop => (s, stOK)
  | .discard => (s.bump F.PKG_DISCARD_CNT_COUNT, stOK)
  | .refuse c => (s.refuse src r inst c, c)

/-- As `admitted`, for an effect that refuses nothing itself. -/
def State.gated (s : State) (src : Source) (r : Reg) (inst : Nat) (f : State → State) : State :=
  (s.admitted src r inst fun s => (f s, stOK)).1

/-! ## Plain writes -/

/-- What a write makes of one register's active value: each field under its access code (R7); reserved bits stay 0
(R11). -/
def Reg.merge (r : Reg) (old v : Word) : Word :=
  r.fields.foldl (fun w f =>
    let fl : Fld := ⟨r, f.lo, f.w⟩
    match f.acc with
    | .ro | .rws => w
    | .rw | .rol => fl.put w (fl.get v)
    | .wo => fl.put w 0
    | .w1c => fl.put w (fl.get old - (fl.get old &&& fl.get v))
    | .w1s => fl.put w (fl.get old ||| fl.get v)) old

/-- What a write makes of a member's staged value: every writable field is replaced (R755). -/
def Reg.mergeStaged (r : Reg) (old v : Word) : Word :=
  r.fields.foldl (fun w f => let fl : Fld := ⟨r, f.lo, f.w⟩; if f.acc = .ro then w else fl.put w (fl.get v)) old

/-- A write without effects beyond the register itself: staged for a member of a commit group, else field by field.
The LOAD entry takes the value whole. -/
def State.plainWrite (s : State) (r : Reg) (inst : Nat) (v : Word) : State :=
  match r.group with
  | some _ => s.wrStaged r inst (r.mergeStaged (s.rdStaged r inst) v)
  | none =>
    if r.loadOnly then (s.wr r inst 0).setFld F.PKG_NODE_ID_NODE (F.PKG_NODE_ID_NODE.get v) |>.setFlag F.PKG_NODE_ID_VALID true
    else s.wr r inst (r.merge (s.rd r inst) v)

/-- What a read of a register returns: the staged value of a member (R755), 0 in WO fields (R7). -/
def State.readReg (s : State) (r : Reg) (inst : Nat) : Word :=
  match r.group with
  | some _ => s.rdStaged r inst
  | none => r.fields.foldl (fun w f => if f.acc = .wo then (⟨r, f.lo, f.w⟩ : Fld).put w 0 else w) (s.rd r inst)

end Sys2Proof.Machine
end

