-- ==== Sys2Proof/Machine/RegView.lean ====
section
/-!
DEFINITION. The BAR0 view of the registers by 4 B words (12_tile_streams_host.md R597, R617; 01_architecture.md R50, R51): what a read
of an offset returns.
-/

namespace Sys2Proof.Machine

/-- SCL_FW_DIGEST, SCL_PARAM_DIGEST and SCL_KEY_DIGEST (R805, R814): of what Scale was made with until an offer replaces it. -/
def State.sclFwDigest (s : State) : List Byte := s.scale.fwDigest.getD ((List.range 64).map (Config.sclFactory 0))
def State.sclParamDigest (s : State) : List Byte := s.scale.paramDigest.getD ((List.range 64).map (Config.sclFactory 1))
def sclKeyDigest : List Byte := (List.range 64).map (Config.sclFactory 2)

/-- The value of a register as a read returns it: device time runs with the clock (R842). -/
def State.regValue (s : State) (r : Reg) (k : Nat) : Nat :=
  if r = .BOOT_TIME_NS then s.time % 2 ^ 64 else (s.readReg r k).toNat

/-- The identification bytes of Scale (R818). -/
def State.sclBytes (s : State) : List Byte :=
  slice s.sclFwDigest 0 64 ++ slice s.sclParamDigest 0 64 ++ slice sclKeyDigest 0 64 ++ (List.range 16).map (Config.sclFactory 3)

/-- The register whose upper word stands at an offset. -/
def regHigh (o : Nat) : Option (Reg × Nat) :=
  if o < 4 then none else (regAt (o - 4)).filter fun x => x.1.place.width == 64

/-- The 4 B word at a 4 B aligned BAR0 offset. Blocks and banks that only halves out of service implement read all ones, their reserved
offsets too (R50, R51); other reserved offsets read 0. -/
def State.bar0Word (s : State) (o : Nat) : Nat :=
  let reg := fun (x : Reg × Nat) (high : Bool) =>
    if high then s.regValue x.1 x.2 / 2 ^ 32 else s.regValue x.1 x.2 % 2 ^ 32
  if s.bar0Down o then 2 ^ 32 - 1
  else match msixAt o, pbaAt o with
  | some (k, j), _ =>
    if j < 8 then (s.rd .MSIX_ADDR k).toNat / 2 ^ (8 * j) % 2 ^ 32
    else if j < 12 then (s.rd .MSIX_DATA k).toNat else (s.rd .MSIX_CTRL k).toNat
  | none, some (fn, v) => (List.range 32).foldl (fun a j => a + s.fld F.MSIX_PEND_PEND (fn * 1024 + v + j) * 2 ^ j) 0
  | none, none =>
    if 0xD1000 ≤ o && o < 0xD6000 then sget 0 s.mg.mbxReq ((o - 0xD1000) / 4)
    else if 0xD6000 ≤ o && o < 0xDB000 then leAt s.mg.mbxRsp (o - 0xD6000) 4
    else if 0xE0040 ≤ o && o < 0xE0110 then leAt s.sclBytes (o - 0xE0040) 4
    else match regAt o, regHigh o with
      | some x, _ => reg x false
      | none, some x => reg x true
      | none, none => 0

end Sys2Proof.Machine
end

