-- ==== Sys2Proof/Machine/Packets.lean ====
section
/-!
DEFINITION. Packets (11_yalig_transactions.md): their opcodes and channels, the streams that number them, the way a
packet takes out of the switch core, and the requests that await a response. Every request of this controller to
another node is sent by `State.request`.
-/

namespace Sys2Proof.Machine

/-! ## Opcodes (R519), statuses (R520) and channels (R514) -/

def opRD : Nat := 0x10
def opRD_DATA : Nat := 0x11
def opWR : Nat := 0x12
def opWR_ACK : Nat := 0x13
def opATOM : Nat := 0x14
def opATOM_DATA : Nat := 0x15
def opFENCE : Nat := 0x16
def opFENCE_ACK : Nat := 0x17
def opSRD : Nat := 0x18
def opSRD_DATA : Nat := 0x19
def opSUPD : Nat := 0x1A
def opSUPD_ACK : Nat := 0x1B
def opRINV : Nat := 0x1C
def opRINV_ACK : Nat := 0x1D
def opRDEREG : Nat := 0x1E
def opCOH : Nat := 0x20
def opMSG : Nat := 0x30
def opMSG_ACK : Nat := 0x31
def opMGMT : Nat := 0x38
def opSACK : Nat := 0x3E

def psOK : Nat := 0
def psADDR : Nat := 1
def psKEY : Nat := 2
def psCTL : Nat := 3
def psHALF_DOWN : Nat := 4
def psNOT_MSG : Nat := 5
def psUNSUPPORTED : Nat := 6
def psRING_FULL : Nat := 7
def psUNREACHABLE : Nat := 8
def psSTAMP : Nat := 9
def psWINDOW_COH : Nat := 10
def psMEM_ERROR : Nat := 11

/-- The channel of a coherence message (R429), by MSG in bits 31:28 of the coherence word. -/
def cohVc (coh : Nat) : Option Nat :=
  let m := coh / 2 ^ 28 % 16
  if m = 0 || m = 1 || m = 2 || m = 4 then some 0      -- RdShared, RdOwn, Upgrade, EvictClean
  else if m = 3 || m = 7 then some 3                   -- WbData, FwdData
  else if m = 5 || m = 6 then some 2                   -- SnpShared, SnpInv
  else if m = 8 || m = 9 then some 1                   -- Ack, SnpRespWbPending
  else none

/-- The virtual channel of an opcode (R514). -/
def vcOf (op coh : Nat) : Option Nat :=
  if op = opRD || op = opWR || op = opATOM || op = opFENCE || op = opSRD || op = opSUPD || op = opRDEREG then some 0
  else if op = opRD_DATA || op = opWR_ACK || op = opATOM_DATA || op = opFENCE_ACK || op = opSRD_DATA || op = opSUPD_ACK ||
    op = opRINV_ACK || op = opSACK then some 1
  else if op = opRINV then some 2
  else if op = opMSG || op = opMSG_ACK then some 4
  else if op = opMGMT then some 5
  else if op = opCOH then cohVc coh
  else none

/-- Words of a packet (header, key, payload, trailer). -/
def Packet.words (p : Packet) : Nat := 4 + (if p.key.isSome then 1 else 0) + (p.data.length + 7) / 8

/-- Credits and cells of 64 B that words take (R488). -/
def cellsOf (words : Nat) : Nat := (8 * words + 63) / 64

def Packet.cells (p : Packet) : Nat := cellsOf p.words

/-- Credits of a packet on a link, with its prefix if it takes one. -/
def cellsWith (p : Packet) (target : Option Nat) : Nat := cellsOf (p.words + if target.isSome then 1 else 0)

/-- A header that is discarded at the first controller it reaches (R13, R511, R512, R514, R519). -/
def headerBad (p : Packet) : Bool :=
  p.rsv || decide (0xC0 ≤ p.src) || (decide (0xC0 ≤ p.dst) && p.dst != 0xFF) || (p.dst == 0xFF && p.op != opMGMT) || vcOf p.op p.coh != some p.vc

/-- The racks of a message (R517). -/
def Packet.dstRack (p : Packet) : Nat := p.off / 2 ^ 32 % 2 ^ 16
def Packet.srcRack (p : Packet) : Nat := p.off / 2 ^ 16 % 2 ^ 16
def Packet.isMsg (p : Packet) : Bool := p.op == opMSG || p.op == opMSG_ACK

/-- SACK and broadcasts are not sequenced (R529). -/
def Packet.sequenced (p : Packet) : Bool := p.op ≠ opSACK && p.dst ≠ 0xFF

/-! ## Packets as words (R517, R518) -/

/-- Operand bytes of an atomic (R523). -/
def atomOperand (atop : Nat) : Nat := if atop = 6 then 16 else if atop = 7 then 32 else if atop = 8 then 4 else 8

/-- Payload bytes that a packet's header announces (R519). -/
def Packet.payload (p : Packet) : Nat :=
  if p.op = opWR || p.op = opSUPD || p.op = opMSG || p.op = opMGMT then p.len
  else if p.op = opRD_DATA || p.op = opATOM_DATA then (if p.status = 0 then p.len else 0)
  else if p.op = opSRD_DATA then (if p.status = 0 then p.len + (if p.last then 16 else 0) else 0)
  else if p.op = opATOM then atomOperand p.atop
  else if p.op = opCOH then (if p.coh / 2 ^ 28 % 16 = 3 || p.coh / 2 ^ 28 % 16 = 7 then 64 else 0)
  else 0

def b2n (b : Bool) : Nat := if b then 1 else 0

/-- Header words, key and payload. -/
def Packet.front (p : Packet) : List Nat :=
  [p.seq % 65536 * 2 ^ 48 + b2n p.rel * 2 ^ 43 + b2n p.acq * 2 ^ 42 + b2n p.key.isSome * 2 ^ 41 + b2n p.poison * 2 ^ 40 +
     p.scope % 4 * 2 ^ 38 + p.tc % 8 * 2 ^ 35 + p.vc % 8 * 2 ^ 32 + p.part % 256 * 2 ^ 24 + p.src % 256 * 2 ^ 16 +
     p.dst % 256 * 2 ^ 8 + p.op % 256,
   p.tag % 65536 * 2 ^ 48 + p.off % 2 ^ 48,
   p.status % 16 * 2 ^ 60 + p.partNo % 16 * 2 ^ 56 + p.atop % 16 * 2 ^ 52 + b2n p.last * 2 ^ 50 + b2n p.reg * 2 ^ 49 +
     b2n p.wait * 2 ^ 48 + (p.len - 1) % 4096 * 2 ^ 32 + p.coh % 2 ^ 32] ++
  (match p.key with | some k => [k % 2 ^ 64] | none => []) ++
  (List.range ((p.payload + 7) / 8)).map fun k => leAt (p.data.take p.payload) (8 * k) 8

/-- A packet with its trailer. -/
def Packet.toWords (p : Packet) : List Nat := p.front ++ [crc32c (p.front.flatMap (leBytes 8))]

/-- The header of a packet from its first three words. -/
def Packet.header (w0 w1 w2 : Nat) : Packet :=
  { seq := bits w0 48 16, rel := w0.testBit 43, acq := w0.testBit 42, key := if w0.testBit 41 then some 0 else none,
    poison := w0.testBit 40, scope := bits w0 38 2, tc := bits w0 35 3, vc := bits w0 32 3, part := bits w0 24 8,
    src := bits w0 16 8, dst := bits w0 8 8, op := bits w0 0 8, tag := bits w1 48 16, off := bits w1 0 48,
    status := bits w2 60 4, partNo := bits w2 56 4, atop := bits w2 52 4, last := w2.testBit 50, reg := w2.testBit 49,
    wait := w2.testBit 48, len := bits w2 32 12 + 1, coh := bits w2 0 32,
    rsv := bits w0 44 4 != 0 || w2.testBit 51 || bits w2 44 4 != 0 }

/-- Words of the packet whose first words are given; none while its header is not there. -/
def packetLength (ws : List Nat) : Option Nat :=
  match ws with
  | w0 :: w1 :: w2 :: _ =>
    let p := Packet.header w0 w1 w2
    some (4 + (if p.key.isSome then 1 else 0) + (p.payload + 7) / 8)
  | _ => none

/-- A packet holds no reserved code beyond those of its header's layout: STATUS (R520), ATOP (R523), the SUBTYPE of MGMT (R519). -/
def Packet.codesOk (p : Packet) : Bool :=
  decide (p.status < 12) && (p.op != opATOM || decide (p.atop ≤ 8)) &&
    (p.op != opMGMT || (decide (1 ≤ leAt p.data 0 1) && decide (leAt p.data 0 1 ≤ 3)))

/-- A whole packet from its words, and whether its trailer is good (R518, R522). A reserved encoding anywhere marks it (R13). -/
def Packet.ofWords (ws : List Nat) : Packet × Bool :=
  let p := Packet.header (ws.getD 0 0) (ws.getD 1 0) (ws.getD 2 0)
  let k := if p.key.isSome then 1 else 0
  let body := ws.drop (3 + k)
  let t := ws.getLastD 0
  let p := { p with key := if k = 1 then some (ws.getD 3 0) else none, data := (body.dropLast.flatMap (leBytes 8)).take p.payload }
  ({ p with rsv := p.rsv || !p.codesOk || bits t 32 31 != 0 },
   !t.testBit 63 && t % 2 ^ 32 == crc32c (ws.dropLast.flatMap (leBytes 8)))

/-! ## Links -/

def State.link (s : State) (l : Nat) : LinkSt := sget {} s.links l

def State.setLink (s : State) (l : Nat) (x : LinkSt) : State := { s with links := sput {} l x s.links }

/-- Link states of R461. -/
def lsDISABLED : Nat := 0
def lsDETECT : Nat := 1
def lsEQUALIZE : Nat := 2
def lsLOCK : Nat := 3
def lsNEGOTIATE : Nat := 4
def lsUP : Nat := 5
def lsDEGRADED : Nat := 6
def lsRECOVER : Nat := 7
def lsFAILED : Nat := 8

def State.lstate (s : State) (l : Nat) : Nat := s.fld F.YL_LINK_STATUS_STATE l

/-- UP or DEGRADED. -/
def State.linkUp (s : State) (l : Nat) : Bool := s.lstate l == lsUP || s.lstate l == lsDEGRADED

def State.neighbour (s : State) (l : Nat) : Nat := s.fld F.YL_LINK_STATUS_NEIGHBOUR l

def isPeer (l : Nat) : Bool := decide (l < 64)
def isEdge (l : Nat) : Bool := decide (64 ≤ l) && decide (l < 88)

/-- Peer links to a controller that are up. -/
def State.peersTo (s : State) (n : Nat) : List Nat :=
  (List.range 64).filter fun l => s.linkUp l && s.neighbour l == n

/-- The link group of an edge agent (R502): every edge link whose latest NEGOTIATE named it. -/
def State.groupOf (s : State) (a : Nat) : List Nat :=
  (List.range 24).map (64 + ·) |>.filter fun l => (s.link l).caps.any (·.node == a) && s.fld F.YL_LINK_STATUS_VER_MAJOR l != 0

/-- Does the reach map hold controller n (R496). -/
def State.reach (s : State) (n : Nat) : Bool := s.bit .YL_REACH 0 n

/-- The feature bits effective on a link. -/
def State.feature (s : State) (l k : Nat) : Bool := (s.fld F.YL_LINK_NEG_FEATURES l).testBit k

/-- The intermediates toward controller n, in the order of R498. -/
def State.candidates (s : State) (n : Nat) : List Nat :=
  ((List.range 64).map fun i => (n + i) % 64).filter fun m =>
    m ≠ n && s.reach m && (s.peersTo m).any fun l => (s.link l).reachMap.getLsbD n && s.feature l 1

/-- The intermediates that packets for controller n take in turn (R498). -/
def State.detours (s : State) (n : Nat) : List Nat := (s.candidates n).take (s.fld F.YL_DETOUR_CFG_WAYS)

/-- The controller through which a node of the own rack is reached: itself, or an agent's (R513). -/
def State.viaNode (s : State) (n : Nat) : Option Nat :=
  if n < 64 then some n
  else if n ≤ 0xBF then
    let e := bits (s.rd .YT_AGENT_HOME ((n - 0x40) / 8)).toNat ((n - 0x40) % 8 * 8) 8
    if e / 128 = 1 then some (e % 64) else none
  else none

/-- The uplink group of a rack (R543): the entry of YT_RACK_ROUTE. -/
def State.routeOf (s : State) (rack : Nat) : Option Nat :=
  (List.range 16).find? fun k => s.flag F.YT_RACK_ROUTE_VALID k && s.fld F.YT_RACK_ROUTE_RACK k == rack

def State.groupLinks (s : State) (k : Nat) : List Nat :=
  (List.range 8).filterMap fun i => if (s.fld F.YT_RACK_ROUTE_LINKS k).testBit i then some (88 + i) else none

/-- The links a packet may leave on now, with the TARGET of the DETOUR prefix it then carries (R458, R498, R502,
R543, R722). A packet that came as a transit never takes a prefix (R500). -/
def State.egress (s : State) (w : SwPkt) : List (Nat × Option Nat) :=
  let up := fun (l : List Nat) => (l.filter s.linkUp).map fun l => (l, (none : Option Nat))
  match w.port with
  | some l => up [l]
  | none =>
    match w.group with
    | some k => up (s.groupLinks k)
    | none =>
      let d := w.pkt.dst
      let g := s.groupOf d
      if 0x40 ≤ d && !g.isEmpty then up g
      else match s.viaNode d with
        | none => []
        | some n =>
          let mid := (w.mid.map s.peersTo).getD []
          if w.transit then up (s.peersTo (w.via.getD n))
          else if !mid.isEmpty then mid.map fun l => (l, some n)
          else if s.reach n then up (s.peersTo n)
          else
            let c := s.detours n
            match (c.drop (sget 0 s.detourTurn n % (max 1 c.length))).head? with
            | some m => ((s.peersTo m).map fun l => (l, some n))
            | none => []

/-! ## Streams (R529 to R536) -/

/-- The key of the stream a packet belongs to at its sender: its destination and channel, or its uplink group. -/
def streamKey (node : Nat) (group : Option Nat) (vc : Nat) : Nat :=
  match group with
  | some k => (256 + k) * 8 + vc
  | none => node * 8 + vc

def State.tx (s : State) (k : Nat) : TxStream := sget {} s.txs k
def State.setTx (s : State) (k : Nat) (x : TxStream) : State := { s with txs := sput {} k x s.txs }
def State.rx (s : State) (k : Nat) : RxStream := sget {} s.rxs k
def State.setRx (s : State) (k : Nat) (x : RxStream) : State := { s with rxs := sput {} k x s.rxs }

/-- Cells that hold packets follow the switch core's contents. -/
def State.syncSwitch (s : State) : State :=
  s.setFld F.SWC_BUF_USED_CELLS (s.switch.foldl (fun a w => a + w.pkt.cells) 0)

/-- The internal port of a packet: 96 for the home agent's side of an exchange, 97 for the engines' (R553). -/
def homePort (p : Packet) (sending : Bool) : Nat :=
  let response := p.op = opRD_DATA || p.op = opWR_ACK || p.op = opATOM_DATA || p.op = opFENCE_ACK || p.op = opSRD_DATA ||
    p.op = opSUPD_ACK || p.op = opMSG_ACK || p.op = opCOH
  let engines := p.op = opRINV || p.op = opRINV_ACK || p.op = opMGMT || p.op = opSACK
  if engines then 97 else if response = sending || p.op = opCOH then 96 else 97

/-! ## The header mirror (R560 to R563) -/

/-- Is a packet selected at a port and direction (0 ingress, 1 egress). -/
def State.mirrorSelects (s : State) (port dir : Nat) (p : Packet) : Bool :=
  s.flag F.SWC_MIR_CTRL_EN && (s.fld F.SWC_MIR_CTRL_DIR).testBit dir &&
    (if port < 64 then s.bit .SWC_MIR_PORTS_LO 0 port else s.bit .SWC_MIR_PORTS_HI 0 (port - 64)) &&
    (s.fld F.SWC_MIR_CTRL_VC).testBit p.vc && (s.fld F.SWC_MIR_CTRL_TC).testBit p.tc

/-- Records that the ring holds or that wait for it. -/
def State.mirrorFull (s : State) : Bool :=
  decide (1024 ≤ s.captures.length) ||
    (s.flag F.SWC_MIR_CTRL_STOP && decide (2 ^ s.fld F.SWC_MIR_SIZE_LOG2_RECORDS ≤
      (s.fld F.SWC_MIR_TAIL_COUNT + 2 ^ 32 - s.fld F.SWC_MIR_HEAD_COUNT) % 2 ^ 32 + s.captures.length))

/-- Mirror a packet that passes a port: of the packets selected there, every 2^SAMPLE-th is captured (R560 to R563). -/
def State.mirror (s : State) (port dir : Nat) (p : Packet) (cut detoured : Bool) : State :=
  if !s.mirrorSelects port dir p then s
  else
    let k := 2 * port + dir
    let n := (sget 0 s.mirSeen k + 1) % 2 ^ 32
    let s : State := { s with mirSeen := sput 0 k n s.mirSeen }
    if n % 2 ^ s.fld F.SWC_MIR_CTRL_SAMPLE ≠ 0 then s
    else if s.mirrorFull then s.bump F.SWC_MIR_DROP_COUNT
    else
      let rec_ := slice (p.toWords.flatMap (leBytes 8)) 0 64 ++ leBytes 8 s.time ++ leBytes 1 port ++
        leBytes 1 (dir + 2 * b2n cut + 4 * b2n detoured) ++ leBytes 2 p.words ++ leBytes 4 n ++ List.replicate 48 0
      { s with captures := s.captures ++ [rec_] }

/-- Is a packet forwarded cut-through (R557, R558), as far as it does not depend on its egress link. -/
def State.cutThrough (s : State) (w : SwPkt) : Bool :=
  (s.fld F.SWC_PORT_MODE_CT w.ingress).testBit w.pkt.tc && !w.resent

/-- Put a packet into the switch core; what comes from the home agents and engines passes its port there. -/
def State.enterSwitch (s : State) (w : SwPkt) : State :=
  let s := if 96 ≤ w.ingress && !w.resent then s.mirror w.ingress 0 w.pkt (s.cutThrough w) false else s
  { s with switch := s.switch ++ [{ w with num := s.swNum }], swNum := s.swNum + 1 }.syncSwitch

/-- The uplink group of a message that leaves the rack (R543). -/
def State.groupFor (s : State) (p : Packet) : Option Nat :=
  let rack := p.off / 2 ^ 32 % 2 ^ 16
  if (p.op = opMSG || p.op = opMSG_ACK) && rack ≠ s.fld F.YL_RACK_ID_RACK then s.routeOf rack else none

/-- Sequence a packet in its stream and put it into the switch core (R530). -/
def State.sequence (s : State) (p : Packet) (ingress : Nat) (group : Option Nat) (mid : Option Nat := none) : State :=
  if p.sequenced then
    let k := streamKey p.dst group p.vc
    let x := s.tx k
    let p := { p with seq := x.next }
    (s.setTx k { x with next := (x.next + 1) % 65536, store := x.store ++ [p] }).enterSwitch
      { pkt := p, ingress := ingress, group := group, mid := mid, num := 0 }
  else s.enterSwitch { pkt := p, ingress := ingress, group := group, num := 0 }

/-- The traffic class of a partition's requests (R635). -/
def State.tcOf (s : State) (part : Nat) : Nat := if part < 128 then s.fld F.QOS_TC_TC part else Config.mgmtTc.toNat

/-- The transaction feature an operation needs (R552). -/
def featureFor (p : Packet) : List Nat :=
  (if p.key.isSome then [8] else []) ++
    (if p.op = opATOM && p.atop = 7 then [9] else []) ++
    (if p.op = opSRD || p.op = opSUPD || p.op = opRINV || p.op = opRDEREG then [10] else []) ++
    (if p.op = opATOM && p.atop = 8 then [11] else []) ++ (if p.op = opCOH then [2] else [])

/-- The links whose negotiated features decide about a node: those that last named it as neighbour. -/
def State.featureLinks (s : State) (n : Nat) : List Nat :=
  if n < 64 then (List.range 64).filter fun l => s.neighbour l == n && s.fld F.YL_LINK_STATUS_VER_MAJOR l != 0 else s.groupOf n

/-- The status with which a packet completes locally instead of leaving: no way to the node (R513), a route that does
not exist (R543), a stream declared unreachable (R535), or a feature that is not effective (R552). -/
def State.cannotSend (s : State) (p : Packet) (group : Option Nat) : Option Nat :=
  let foreign := (p.op = opMSG || p.op = opMSG_ACK) && p.off / 2 ^ 32 % 2 ^ 16 ≠ s.fld F.YL_RACK_ID_RACK
  if foreign then
    (if group.isNone then some psUNREACHABLE
     else if (s.tx (streamKey p.dst group p.vc)).dead then some psUNREACHABLE else none)
  else if 0x40 ≤ p.dst && (s.groupOf p.dst).isEmpty && (s.viaNode p.dst).isNone then some psUNREACHABLE
  else if (s.tx (streamKey p.dst group p.vc)).dead then some psUNREACHABLE
  else
    let need := featureFor p
    let ls := s.featureLinks (if 0x40 ≤ p.dst && (s.groupOf p.dst).isEmpty then (s.viaNode p.dst).getD p.dst else p.dst)
    if need.isEmpty || (ls.any fun l => need.all fun k => s.feature l k) then none else some psUNSUPPORTED

/-- Send a packet of this controller (no response is awaited). -/
def State.sendPacket (s : State) (p : Packet) : State :=
  let p := { p with src := s.node, vc := (vcOf p.op p.coh).getD 0 }
  if p.dst = 0xFF then
    ((List.range 64).filter s.linkUp).foldl (fun s l => s.enterSwitch { pkt := p, ingress := homePort p true, port := some l, num := 0 }) s
  else
    let g := s.groupFor p
    match s.cannotSend p g with
    | some _ => s
    | none => s.sequence p (homePort p true) g

/-- The work of a queue entry whose writes a request belongs to. -/
def State.writerOf (s : State) (c : ReqClient) : WorkSrc :=
  match c with
  | .chan ch => (sget {} s.chans ch).src
  | .scoop g | .update g => (((sget [] s.scoops g).head?).map (·.src)).getD .none
  | .flag p q slot => if s.orders.any fun o => o.p == p && o.q == q && o.slot == slot && o.phase == 0 then .queue p q slot else .none
  | _ => .none

/-- A write of a queue's entry has ended with UNREACHABLE: the next fence that waits for it ends with an error (R540). -/
def State.noteUnreached (s : State) (c : ReqClient) (status : Nat) : State :=
  match s.writerOf c with
  | .queue p q _ =>
    if status = psUNREACHABLE then
      let k := p * 16 + q
      { s with queues := sput {} k { sget {} s.queues k with unreached := true } s.queues }
    else s
  | _ => s

/-- Report a request that failed to its client; it is looked at where the client's command ends. -/
def State.failClient (s : State) (c : ReqClient) (status : Nat) (va fin : Nat := 0) : State :=
  match c with
  | .none | .read _ => s
  | _ => let s := s.noteUnreached c status
         { s with reqFails := s.reqFails ++ [⟨c, status, va, fin⟩] }

/-- A TAG that no request awaiting its response holds, the next one in turn (R646). -/
def State.freeTag (s : State) : Nat :=
  (((List.range (s.reqs.length + 1)).map fun k => (s.reqTag + k) % 65536).find? fun t => s.reqs.all fun r => r.tag != t).getD (s.reqTag % 65536)

/-- Send a request and await its response under a fresh TAG. A packet that names no traffic class takes that of its
partition. Where the request cannot leave, its client fails at
once. `va` and `fin` place the request in the access it belongs to, `mid` is the intermediate it goes through. -/
def State.request (s : State) (c : ReqClient) (p : Packet) (va fin : Nat := 0) (mid : Option Nat := none) : State :=
  let p := { p with src := s.node, vc := (vcOf p.op p.coh).getD 0, tag := s.freeTag, tc := if p.tc = 0 then s.tcOf p.part else p.tc }
  let g := s.groupFor p
  match s.cannotSend p g with
  | some st => s.failClient c st va fin
  | none =>
    let s := { s with reqTag := (p.tag + 1) % 65536, reqs := s.reqs ++ [({ node := p.dst, tag := p.tag, op := p.op, client := c, sent := s.time, va := va, fin := fin } : Req)] }
    s.sequence p 97 g mid

/-- A client still awaits responses. -/
def State.awaits (s : State) (c : ReqClient) : Bool := s.reqs.any fun r => r.client = c

/-- The failed requests of clients, taken out of the list. -/
def State.takeFailsOf (s : State) (f : ReqClient → Bool) : State × List ReqFail :=
  ({ s with reqFails := s.reqFails.filter fun x => !f x.client }, s.reqFails.filter fun x => f x.client)

/-- The failed requests of a client, taken out of the list. -/
def State.takeFails (s : State) (c : ReqClient) : State × List ReqFail := s.takeFailsOf fun x => decide (x = c)

/-- The refusal for a region key with the lowest address (R96, R97). -/
def keyFail (l : List ReqFail) : Option ReqFail :=
  (l.filter fun f => f.status == psKEY).foldl (fun (b : Option ReqFail) f => match b with
    | none => some f
    | some x => if f.va < x.va then some f else b) none

/-- Nothing waits for a client's requests any more: their responses are discarded as they arrive. -/
def State.dropClient (s : State) (c : ReqClient) : State :=
  { s with reqs := s.reqs.map fun (r : Req) => if r.client = c then { r with client := .none } else r,
           reqFails := s.reqFails.filter fun f => f.client ≠ c }

/-- Split a write at 4 KiB boundaries of the local offset (R521). -/
def split4k : Nat → Nat → List Byte → List (Nat × List Byte)
  | 0, _, _ => []
  | k + 1, o, d =>
    if d.isEmpty then []
    else
      let n := 4096 - o % 4096
      (o, d.take n) :: split4k k (o + n) (d.drop n)

/-- Write to a node's memory by WR packets; a region key goes with writes to an edge agent (R75, R549). -/
def State.remoteWrite (s : State) (c : ReqClient) (node off : Nat) (d : List Byte) (poison : Bool) (part key : Nat)
    (va fin : Nat := 0) : State :=
  (split4k (d.length / 4096 + 2) off d).foldl (fun s x =>
    s.request c { op := opWR, dst := node, src := 0, part := part, off := x.1, len := x.2.length, data := x.2,
                  poison := poison, key := if 0x40 ≤ node then some key else none } (va + (x.1 - off)) fin) s

/-- The RD packets that read an extent of a node's memory: whole 64 B lines, none across a 4 KiB boundary (R521), under the
range's partition and key (R881). -/
def readPackets (node off n part key tc : Nat) : List Packet :=
  let o := off / 64 * 64
  let e := (off + n + 63) / 64 * 64
  ((List.range ((e - 1) / 4096 + 1 - o / 4096)).map fun k =>
    let a := max o ((o / 4096 + k) * 4096)
    let b := min e ((o / 4096 + k + 1) * 4096)
    ({ op := opRD, dst := node, src := 0, part := part, tc := tc, off := a, len := b - a,
       key := if 0x40 ≤ node then some key else none } : Packet))

/-- Read a node's memory for an engine: the RD packets leave through the engine port of the switch core (R71); the data come with
the command's Env (assumption log 26). -/
def State.remoteRead (s : State) (h : Half) (node off n part key : Nat) (tc : Nat := 0) : State :=
  (readPackets node off n part key tc).foldl (fun s p => s.request (.read (halfNum h)) p) s

/-- No way leads to a node for a read of it. -/
def State.cannotRead (s : State) (node key : Nat) : Bool :=
  (s.cannotSend { op := opRD, dst := node, src := s.node, key := if 0x40 ≤ node then some key else none } none).isSome

/-! ## Delivered packets (R524) -/

/-- Requests that the home has begun and not performed yet: operations on rows, updates that are being collected, coherent requests,
and records on their way to the partner. -/
def State.unfinished (s : State) : List Packet :=
  (s.homeOps.filterMap fun o => match o.client with | .packet p => some { p with len := max p.len ((o.exts.map (·.2)).foldl (· + ·) 0) } | _ => none) ++
    s.supds ++ (s.cohTxns.filterMap (·.req)) ++ s.cohWait ++
    s.handoffs.filterMap fun h => if h.host then none else some { h.answer with src := h.answer.dst, vc := 0 }

/-- Must a packet wait for an earlier one (R524): of its stream, and to one of its lines, or it is a release or a fence. Parts of one update
are collected in any case (R527), and an EvictClean is accepted at any time (R435). -/
def Packet.behind (p q : Packet) : Bool :=
  q.src == p.src && q.vc == p.vc && (p.rel || p.op == opFENCE ||
    ((linesOf q.off (max 1 q.len)).any (fun l => (linesOf p.off (max 1 p.len)).contains l) &&
      !(p.op == opSUPD && q.op == opSUPD && q.tag == p.tag) && !(p.op == opCOH && p.coh / 2 ^ 28 % 16 == 4)))

/-- May the k-th delivered packet be performed now: no earlier packet of its stream touches a line of it; a release or a
fence waits for every earlier packet of its stream. -/
def State.inboxReady (s : State) (k : Nat) : Bool :=
  match s.inbox[k]? with
  | none => false
  | some p => (s.inbox.take k ++ s.unfinished).all fun q => !p.behind q

/-- Take the k-th delivered packet, if it is of a kind and may be performed. -/
def State.takeInbox (s : State) (k : Nat) (kind : Packet → Bool) : Option (State × Packet) :=
  match s.inbox[k]? with
  | some p => if kind p && s.inboxReady k then some ({ s with inbox := s.inbox.eraseIdx k }, p) else none
  | none => none

/-- Carry out `f` on the k-th delivered packet if it is of a kind and may be performed. -/
def State.perform (s : State) (k : Nat) (kind : Packet → Bool) (f : State → Packet → State) : State :=
  match s.takeInbox k kind with
  | some (t, p) => f t p
  | none => s

end Sys2Proof.Machine
end

