-- ==== Sys2Proof/Machine/Ecc.lean ====
section
/-!
DEFINITION. The codes of stored data (14_integrity.md R656 to R660): what the controller does with a codeword that it reads with wrong
symbols. A command's environment brings the wrong symbols of the codewords that the command reads (assumption log 69).
-/

namespace Sys2Proof.Machine

/-! ## Codes (R656, R660) -/

/-- A Reed–Solomon code over 8-bit symbols: symbols of a codeword, data symbols, the symbols it corrects, and the check symbols of its
poison word. -/
structure EccCode where
  symbols : Nat
  data    : Nat
  limit   : Nat
  mask    : List Byte := []
  deriving DecidableEq, Repr

/-- Tier 0. -/
def codeT0 : EccCode := ⟨72, 64, 4, [0x9B, 0x27, 0xE4, 0x5C, 0xD1, 0x6A, 0x38, 0xF3]⟩

/-- Tier 1. -/
def codeT1 : EccCode := ⟨80, 64, 8, codeT0.mask ++ [0x4D, 0xB6, 0x12, 0xAF, 0x75, 0xC8, 0x0E, 0x63]⟩

/-- Rows of data-path SRAM. -/
def codeRow : EccCode := ⟨68, 64, 2, [0x9B, 0x27, 0xE4, 0x5C]⟩

/-- Words of control SRAM. -/
def codeWord : EccCode := ⟨10, 8, 1, []⟩

/-- The poison word of a code: every data symbol 0, the check symbols the mask (R660). -/
def EccCode.poisonWord (c : EccCode) : List Byte := List.replicate c.data 0 ++ c.mask

/-- The positions of the wrong symbols of a codeword. -/
def EccCode.wrong (c : EccCode) (err : List Byte) : List Nat := (List.range c.symbols).filter fun i => err.getD i 0 != 0

/-- What the decoder makes of a word: the data stands (R657: corrected at the positions given), it decodes as other data, or it is
uncorrectable. -/
inductive Decoded where
  | ok (corrected : List Nat)
  | other (d : List Byte) (corrected : List Nat)
  | bad
  deriving DecidableEq, Repr

/-- Decode the codeword of data `d`, or the poison word, with wrong symbols `err`. Up to the code's limit they are corrected. Beyond it,
and for a poison word with wrong symbols, the decoder answers what the spec leaves to the code: a free value (assumption log 69). -/
def EccCode.decode (c : EccCode) (d : List Byte) (poisoned : Bool) (err : List Byte) : Decoded :=
  let w := c.wrong err
  if w.isEmpty then .ok []
  else if !poisoned && decide (w.length ≤ c.limit) then .ok w
  else match Config.beyondLimit c.symbols d poisoned err with
    | some (x, at_) => .other (slice x 0 c.data) (at_.filter (· < c.symbols))
    | none => .bad

/-! ## Codewords of tiers 0 and 1 -/

/-- Count corrected codewords of one device (R658): the hour's count first exceeding the threshold writes one record. -/
def State.countCorrected (s : State) (dev off : Nat) : State :=
  let n := sget 0 s.corrHour dev + 1
  let s := { s with corrHour := sput 0 dev n s.corrHour }
  let t := s.fld F.ERR_CFG_CORR_THRESH
  if t ≠ 0 && n = t + 1 then
    s.record { cls := ecTIER, event := 6, inst := dev, op := 7, count := n, address := BitVec.ofNat 64 (s.node * 2 ^ 48 + off),
               half := some (s.homeHalf off) }
  else s

/-- The devices of the corrected symbols of a line (R658): the pseudo-channel of its stack in tier 0; in tier 1, the ×4 devices, eight
symbols each, counted over both subchannels. Which rank of the channel holds the line is free (assumption log 69). -/
def State.devicesAt (s : State) (off : Nat) (symbols : List Nat) : List Nat :=
  if off < t0Size then [(t0Place off).1 * 32 + (t0Place off).2]
  else
    let p := s.t1Place off
    (symbols.map fun i => (4 * p.1 + Config.t1Rank off % 4) * 32 + 10 * p.2 + i / 8).eraseDups

/-- A corrected codeword is counted, in total and for each of its devices (R658). -/
def State.corrected (s : State) (off : Nat) (symbols : List Nat) : State :=
  let t0 := off < t0Size
  let s := if t0 then (s.wrap F.TIER_CORR_T0_COUNT).lifeAdd 0x5001 4 1 else (s.wrap F.TIER_CORR_T1_COUNT).lifeAdd 0x5001 5 1
  (s.devicesAt off symbols).foldl (fun s d =>
    (s.lifeAdd ((if t0 then 0x5010 else 0x5020) + d / 32) (d % 32 + 1) 1).countCorrected (if t0 then d else 0x1000 + d) off) s

/-- A codeword of tier 0 or tier 1 is read with wrong symbols (R657 to R659): corrected and counted, or a fresh uncorrectable error, which
is rewritten as the poison word with a record of the event given. The scrubber's finding is not delivered to anyone. -/
def State.cellRead (s : State) (event op off : Nat) (err : List Byte) : State :=
  let line := off / 64
  let a := 64 * line
  let c := if a < t0Size then codeT0 else codeT1
  if !(a < t0Size || within a 64 t1Base s.t1Size) || s.halfDown (s.homeHalf a) || s.memFailed a then s
  else match c.decode (s.mem.bytes a 64) (s.mem.poisoned line) err with
    | .ok w => if w.isEmpty then s else s.corrected a w
    | .other d w => (s.storeLine line d).corrected a w
    | .bad =>
      let s := ((s.poisonLine line).bump F.TIER_UNCORR_COUNT).lifeAdd 0x5001 6 1
      let s : State := if event = 7 then { s with mem := { s.mem with fresh := ninsert line s.mem.fresh } } else s
      s.record { cls := ecTIER, event := event, op := op, half := some (s.homeHalf a),
                 inst := if a < t0Size then (t0Place a).1 else 0x10 + (s.t1Place a).1,
                 address := BitVec.ofNat 64 (s.node * 2 ^ 48 + a), syndrome := Config.syndrome c.symbols err }

/-! ## Rows of data-path SRAM -/

/-- The poison image of R662: word j is 0xC2B7_4E19_A05D_F300 + j. -/
def poisonImage : List Byte := (List.range 8).flatMap fun j => leBytes 8 (0xC2B74E19A05DF300 + j)

/-- A row is delivered as poison (R659). What an array reads from its own SRAM is read again from its source (R667). -/
def State.rowPoison (s : State) : SramRow → State
  | .payload k j =>
    match s.inbox[k]? with
    | some p =>
      if 64 * j + 64 ≤ p.data.length then
        { s with inbox := s.inbox.set k { p with data := overlay p.data (64 * j) poisonImage, poison := true } }
      else s
    | none => s
  | .mover ch j =>
    let x := sget {} s.chans ch
    if 64 * j < x.buf.length then { s with chans := sput {} ch { x with poison := ninsert j x.poison } s.chans } else s
  | .array _ => s

/-- A row of data-path SRAM is read with wrong symbols: corrected, or a fresh uncorrectable error (R656, R659). -/
def State.rowRead64 (s : State) (r : SramRow) (op : Nat) (err : List Byte) : State :=
  match codeRow.decode [] false err with
  | .ok _ => s
  | .other _ _ => s
  | .bad => (s.rowPoison r).record { cls := ecTIER, event := 7, inst := 0xFFFF, op := op, syndrome := Config.syndrome 68 err }

/-- The codewords that a command reads with wrong symbols. `op` is the operation of an error record (R689). -/
def State.codewords (s : State) (op : Nat) (env : Env) : State :=
  env.foldl (fun s e =>
    match e.space with
    | .cell => s.cellRead 7 op e.addr e.data
    | .sram r => s.rowRead64 r op e.data
    | _ => s) { s with mem := { s.mem with fresh := [] } }

end Sys2Proof.Machine
end

