-- ==== Sys2Proof/Machine/Snoops.lean ====
section
/-!
DEFINITION. Memory at the home of its lines, as accesses that are not coherent requests meet it (09_coherent_domains.md R436, R437):
reads and writes of own memory with the snoops they send and the counts they leave.
-/

namespace Sys2Proof.Machine

/-- A snoop of the home's own to a member slot (R430, R436): TAG names this node, and TXN is of the home's range. -/
def State.ownSnoop (s : State) (line msg slot : Nat) : State :=
  let txn := 0xF000 + s.cohNum % 0x1000
  ({ s with cohNum := s.cohNum + 1 } : State).sendPacket
    { op := opCOH, dst := s.fld F.COH_MEMBER_NODE slot, src := s.node, part := 0xFF, tag := s.node, off := 64 * line,
      coh := msg * 2 ^ 28 + txn } |>.wrap F.COH_SNOOPS_COUNT

/-- A read that is not a coherent request has been served (R436): a SnpShared goes to the owner of each owned line. What the owner
answers is free (assumption log 29). -/
def State.snoopRead (s : State) (a n : Nat) : State :=
  let l := s.dir.filter fun e => e.owner.isSome && (linesOf a n).contains e.line
  if l.isEmpty then s
  else
    let dir := s.dir.filterMap fun e =>
      if e.owner.isSome && (linesOf a n).contains e.line then e.afterShared (Config.freeNat (s.free * 65536 + e.line)) else some e
    let s : State := { s with free := s.free + 1, dir := dir }
    l.foldl (fun s e => s.ownSnoop e.line 5 (e.owner.getD 0)) s.syncDir

/-- A write that is not a coherent request (R437): SnpInv goes to every holder, an owner's data comes to the home, and the
entries are freed. -/
def State.snoopWrite (s : State) (a n : Nat) : State :=
  let l := s.dir.filter fun e => (linesOf a n).contains e.line
  if l.isEmpty then s
  else
    let stamp := s.free
    let mem := l.foldl (fun (m : Memory) e =>
      if e.owner.isNone then m
      else (m.cleanLine e.line).putAll (64 * e.line) ((List.range 64).map fun k => Config.agentByte stamp (64 * e.line + k))) s.mem
    let s : State := { s with mem := mem, free := s.free + 1, dir := s.dir.filter fun e => !(linesOf a n).contains e.line }
    l.foldl (fun s e => (e.owner.toList ++ e.sharers).foldl (fun s k => s.ownSnoop e.line 6 k) s) s.syncDir

/-- A read at the home has been served: count stored-poison reads (R659), not the delivery of a fresh uncorrectable error, and snoop
(R436). -/
def State.countPoison (s : State) (a n : Nat) : State :=
  let k := ((linesOf a n).filter fun l => !s.halfDown (s.homeHalf (64 * l)) && !s.memFailed (64 * l) && s.mem.poisoned l &&
    !s.owned l && !s.mem.fresh.contains l).length
  let s : State := { s with mem := { s.mem with fresh := s.mem.fresh.filter fun l => !(linesOf a n).contains l } }
  (s.wrap F.ERR_POISON_RD_COUNT 0 k).snoopRead a n

/-- A read of own memory has been served: bytes, poison and snoops are counted. -/
def State.noteRead (s : State) (o n : Nat) : State := (s.countPoison o n).tally o n false

/-- Write bytes to a populated extent of tier 0 or tier 1 at its home; `poison` numbers the lines (from the line of the
first byte) to be stored as the poison word (R665). A write to a half that is RESETTING or FAILED (R48), or to a FAILED
stack or channel (R132), changes nothing of those lines. Answers whether every line was written. -/
def State.writeMem (s : State) (a : Nat) (d : List Byte) (poison : List Nat := []) : State × Bool :=
  if (linesOf a d.length).any fun l => s.halfDown (s.homeHalf (64 * l)) || s.memFailed (64 * l) then (s, false)
  else
    let s := s.snoopWrite a d.length
    let r := s.mem.writeLines (d.length / 64 + 2) a d poison (a / 64)
    ({ s with mem := r.1 }.tally a d.length true, r.2)

end Sys2Proof.Machine
end

