-- ==== Sys2Proof/Machine/Xlate.lean ====
section
/-!
DEFINITION. Address translation (02_address_translation.md): range entries, the commit checks, the whole-extent check
of an access, reads and writes through a context, and the recording of faults.
-/

namespace Sys2Proof.Machine

/-! ## Range entries (R69) -/

/-- A range entry, its fields apart. -/
structure Rng where
  valid   : Bool
  read    : Bool
  write   : Bool
  atomic  : Bool
  mode    : Nat
  part    : Nat
  va      : Nat
  len     : Nat
  target  : Nat
  keyEn   : Bool
  keySlot : Nat
  poolOff : Nat
  deriving DecidableEq, Repr

def modeDirect : Nat := 0
def modePinned : Nat := 1
def modeMigrate : Nat := 2

/-- A field of a range entry. -/
def rfld (e : BitVec 256) (lo w : Nat) : Nat := bits e.toNat lo w

/-- Read a range entry (R69). -/
def rngOf (e : BitVec 256) : Rng :=
  { valid := e.getLsbD 0, read := e.getLsbD 1, write := e.getLsbD 2, atomic := e.getLsbD 3, mode := rfld e 8 2,
    part := rfld e 16 8, va := rfld e 24 40, len := rfld e 64 40, target := rfld e 144 48, keyEn := e.getLsbD 231,
    keySlot := rfld e 232 4, poolOff := rfld e 236 20 }

/-- Reserved encodings of a valid entry (R13, R69). -/
def rngReserved (e : BitVec 256) : Bool :=
  rfld e 4 4 != 0 || rfld e 10 6 != 0 || rfld e 104 40 != 0 || rfld e 192 39 != 0 || rfld e 8 2 == 3 ||
    rfld e 64 40 == 0 || (rfld e 8 2 == 0 && rfld e 184 8 != 0)

/-- Codes of R75. -/
def xtCOUNT : Nat := 1
def xtENCODING : Nat := 2
def xtORDER : Nat := 3
def xtTARGET : Nat := 4
def xtPOOL : Nat := 5
def xtKEY : Nat := 6
def xtSOURCE : Nat := 7

/-- An extent that lies in the populated tier 0 resident region or in populated tier 1 of the own node. -/
def State.residentExtent (s : State) (base len : Nat) : Bool :=
  (within base len 0 reserveBase && !meets base len (s.stageOf .east).1 (s.stageOf .east).2
    && !meets base len (s.stageOf .west).1 (s.stageOf .west).2) || within base len t1Base s.t1Size

/-- A node ID that names memory (R62). -/
def memNode (n : Nat) : Bool := decide (n ≤ 0xBF)

/-- The TARGET check of R75. -/
def State.targetBad (s : State) (c : Nat) (r : Rng) : Bool :=
  let gpa := r.target * pageBytes
  let node := gpa / 2 ^ 48
  let off := gpa % 2 ^ 48
  let len := r.len * pageBytes
  (r.mode == modeDirect && (!memNode node || decide (2 ^ 48 < off + len) ||
    (node == s.node && !(s.residentExtent off len || (c == 128 && within off len ctlBase ctlSize))))) ||
  r.part != ctxPart c || (!r.read && !r.write && !r.atomic)

/-- The pool itself: within the own node's resident memory, and not too large (R75). -/
def State.poolBad (s : State) (base pages : Nat) : Bool :=
  decide (1048576 < pages) ||
    (pages != 0 && !(base / 2 ^ 48 == s.node && s.residentExtent (base % 2 ^ 48) (pages * pageBytes)))

/-- The POOL check of one entry against the pool and the earlier entries (R75). -/
def poolEntryBad (pages : Nat) (earlier : List Rng) (r : Rng) : Bool :=
  if r.mode == modeMigrate then
    decide (pages < r.poolOff + r.len) ||
      earlier.any fun q => q.valid && q.mode == modeMigrate && meets q.poolOff q.len r.poolOff r.len
  else r.poolOff != 0

/-- The KEY check of R75. -/
def keyBad (r : Rng) : Bool :=
  let node := r.target * pageBytes / 2 ^ 48
  let edge := r.mode == modeDirect && decide (0x40 ≤ node) && decide (node ≤ 0xBF)
  edge != r.keyEn

/-- Check entries in order; `prevEnd` is the end of the last valid range. Answers the code and index of the first
failing entry. A pool that is bad as a whole fails at its first entry. -/
def State.checkEntries (s : State) (c base pages : Nat) : Nat → Nat → List Rng → List (BitVec 256) → Option (Nat × Nat)
  | _, _, _, [] => none
  | k, prevEnd, earlier, e :: rest =>
    let r := rngOf e
    if !r.valid then s.checkEntries c base pages (k + 1) prevEnd earlier rest
    else if rngReserved e then some (xtENCODING, k)
    else if r.va < prevEnd || 2 ^ 40 < r.va + r.len then some (xtORDER, k)
    else if s.targetBad c r then some (xtTARGET, k)
    else if s.poolBad base pages || poolEntryBad pages earlier r then some (xtPOOL, k)
    else if keyBad r then some (xtKEY, k)
    else s.checkEntries c base pages (k + 1) (r.va + r.len) (earlier ++ [r]) rest

/-- The entries that table bytes hold, 32 B each. -/
def entriesOf : Nat → List Byte → List (BitVec 256)
  | 0, _ => []
  | n + 1, l => BitVec.ofNat 256 (leNat (l.take 32)) :: entriesOf n (l.drop 32)

/-- The checks of R75 over a snapshot: the result code, the failing index and, if all pass, the table. -/
def State.checkTable (s : State) (c : Nat) (env : Env) : Nat × Nat × List (BitVec 256) :=
  let count := F.XLT_TBL_COUNT_COUNT.get (s.snapOf .xlt c .XLT_TBL_COUNT c)
  let src := (s.snapOf .xlt c .XLT_TBL_SRC c).toNat
  let base := F.XLT_POOL_BASE_PAGE.get (s.snapOf .xlt c .XLT_POOL_BASE c) * pageBytes
  let pages := F.XLT_POOL_PAGES_PAGES.get (s.snapOf .xlt c .XLT_POOL_PAGES c)
  let addr := src / 64 * 64
  if 4096 < count then (xtCOUNT, 0, [])
  else
    let r : ReadRes :=
      if count = 0 then {}
      else if src % 2 = 0 then envRead env .host addr (32 * count)
      else if addr / 2 ^ 56 = 0 && addr / 2 ^ 48 = s.node && s.residentExtent (addr % 2 ^ 48) (32 * count) then
        s.readMem (addr % 2 ^ 48) (32 * count)
      else { err := true }
    if r.err || r.bad then (xtSOURCE, 0, [])
    else
      let es := entriesOf count r.data
      match s.checkEntries c base pages 0 0 [] es with
      | some (code, k) => (code, k, [])
      | none => if s.poolBad base pages then (xtPOOL, 0, []) else (0, 0, es)

/-! ## Contexts -/

def State.ctx (s : State) (c : Nat) : CtxSt := sget {} s.ctxs c

def State.setCtx (s : State) (c : Nat) (x : CtxSt) : State := { s with ctxs := sput {} c x s.ctxs }

/-- The valid range of the active table that covers a virtual page. -/
def CtxSt.rangeAt (x : CtxSt) (page : Nat) : Option Rng :=
  (x.table.map rngOf).find? fun r => r.valid && inExt r.va r.len page

/-- The pool page behind a page of a HOST_MIGRATE range. -/
def Rng.poolPage (r : Rng) (page : Nat) : Nat := r.poolOff + (page - r.va)

/-- Is a pool page being moved by the command in progress (R89). -/
def CtxSt.migrating (x : CtxSt) (pp : Nat) : Bool :=
  match x.migs with
  | m :: _ => m.started && m.busy.contains pp
  | [] => false

/-- Kinds of access: the permission they need (R74). -/
inductive Acc where
  | read | write | atomic
  deriving DecidableEq, Repr

def Rng.permits (r : Rng) : Acc → Bool
  | .read => r.read
  | .write => r.write
  | .atomic => r.atomic

/-- What the check of one page answers. -/
inductive PageRes where
  | ok
  | fault (k : FaultKind)
  | hold
  deriving DecidableEq, Repr

/-- The region key of a range's slot. -/
def State.keyOf (s : State) (c : Nat) (r : Rng) : Nat :=
  if r.keyEn then (s.rd .XLT_KEY (c * 16 + r.keySlot)).toNat else 0

/-- Check one virtual page (R93: the first failing check in table order; R89: a page in migration holds). -/
def State.checkPage (s : State) (c page : Nat) (a : Acc) : PageRes :=
  let x := s.ctx c
  match x.rangeAt page with
  | none => .fault .unmapped
  | some r =>
    if !r.permits a then .fault .protection
    else if r.keyEn && s.keyOf c r == 0 then .fault .key
    else if r.mode == modeMigrate then
      (if x.migrating (r.poolPage page) then .hold
       else if x.resident.contains (r.poolPage page) then .ok else .fault .notResident)
    else .ok

/-- The virtual pages of an extent. -/
def pagesOf (va n : Nat) : List Nat :=
  if n = 0 then [] else (List.range ((va + n - 1) / pageBytes - va / pageBytes + 1)).map (va / pageBytes + ·)

/-- What the whole-extent check of an access answers (R94, R96). -/
inductive ExtRes where
  | ok
  | fault (va : Nat) (kind : FaultKind) (more : Bool)
  | hold
  | lost      -- the context's shadow is lost to poison: the access completes with an error (R667)
  deriving DecidableEq, Repr

/-- Is a page's answer a fault. -/
def PageRes.isFault : PageRes → Bool
  | .fault _ => true
  | _ => false

/-- Check a whole extent (R94): a page in migration holds the access until it is checked again (R89); otherwise the lowest
faulting page names the fault, and MORE says whether a higher page fails too. -/
def State.checkExtent (s : State) (c va n : Nat) (a : Acc) : ExtRes :=
  if (s.ctx c).lost then .lost
  else
    let rs := (pagesOf va n).map fun p => (p, s.checkPage c p a)
    if rs.any fun r => r.2 = .hold then .hold
    else match rs.filter fun r => r.2.isFault with
    | (p, .fault k) :: rest => .fault (max va (p * pageBytes)) k (!rest.isEmpty)
    | _ => .ok

/-! ## The range lookaside and the residency cache (R82 to R85) -/

def State.look (s : State) : Half → LookSt
  | .east => s.lookE
  | .west => s.lookW

def State.setLook (s : State) (h : Half) (x : LookSt) : State :=
  match h with
  | .east => { s with lookE := x }
  | .west => { s with lookW := x }

/-- A new entry of a cache of `cap` entries. Which entry a full cache gives up for it the spec leaves open: a free value. -/
def cacheAdd (cap stamp : Nat) (e : Nat × Nat) (l : List (Nat × Nat)) : List (Nat × Nat) :=
  e :: if l.length < cap then l else l.eraseIdx (Config.freeNat stamp % cap)

/-- Look a virtual page up in the lookaside of a half: a hit, or a miss that fills an entry where a range covers the page. -/
def State.lookRange (s : State) (h : Half) (c page : Nat) : State :=
  match (s.ctx c).rangeAt page with
  | none => s.wrap F.XLT_RLB_MISS_COUNT
  | some r =>
    let x := s.look h
    if x.ranges.contains (c, r.va) then s.wrap F.XLT_RLB_HIT_COUNT
    else
      (({ s with free := s.free + 1 } : State).setLook h { x with ranges := cacheAdd 1024 s.free (c, r.va) x.ranges }).wrap F.XLT_RLB_MISS_COUNT

/-- Look the bitmap line of a pool page up in the residency cache of a half. -/
def State.lookBits (s : State) (h : Half) (c pp : Nat) : State :=
  let x := s.look h
  if x.bits.contains (c, pp / 512) then s
  else (({ s with free := s.free + 1 } : State).setLook h { x with bits := cacheAdd 256 s.free (c, pp / 512) x.bits }).wrap F.XLT_RES_MISS_COUNT

/-- The look-ups of an access of a half: one of each range that its extent touches, one of each bitmap line (assumption log 60). -/
def State.lookup (s : State) (h : Half) (c va n : Nat) : State :=
  let ps := pagesOf va n
  let ranges := (ps.map fun p => (((s.ctx c).rangeAt p).map (·.va), p)).foldl
    (fun (l : List (Option Nat × Nat)) x => if l.any (fun y => y.1 == x.1) then l else l ++ [x]) []
  let lines := (ps.filterMap fun p => ((s.ctx c).rangeAt p).bind fun r =>
    if r.mode == modeMigrate then some (r.poolPage p / 512 * 512) else none).eraseDups
  let s := ranges.foldl (fun s x => s.lookRange h c x.2) s
  lines.foldl (fun s pp => s.lookBits h c pp) s

/-- The look-ups of a context are forgotten at its epoch change; those of other contexts stay (R85). -/
def State.dropLook (s : State) (c : Nat) : State :=
  let f := fun (x : LookSt) => { x with ranges := x.ranges.filter fun e => e.1 ≠ c }
  { s with lookE := f s.lookE, lookW := f s.lookW }

/-! ## Epochs (R78) -/

/-- Is a slot's access in progress one of an old epoch of the context. -/
def State.oldEpoch (s : State) (slot c : Nat) : Option OldEpoch :=
  s.oldEpochs.find? fun e => e.ctx == c && e.slots.contains slot

/-- The state as an engine's access in progress translates in it: an access of an old epoch keeps its table and pool (R78). -/
def State.asOf (s : State) (slot c : Nat) : State :=
  match s.oldEpoch slot c with
  | some e => (s.setCtx c { s.ctx c with table := e.table }).wr .XLT_POOL_BASE c e.base
  | none => s

/-- An engine's access is over: the next one translates afresh (R110). -/
def State.endAccess (s : State) (slot : Nat) : State :=
  if s.oldEpochs.isEmpty then s
  else { s with oldEpochs := s.oldEpochs.map fun (e : OldEpoch) => { e with slots := e.slots.filter (· ≠ slot) } }

/-- Where one byte range of an access goes. -/
inductive Target where
  | own (off : Nat)
  | remote (node off part key : Nat)
  | host (iova : Nat)
  deriving DecidableEq, Repr

/-- A target whose requests carry a region key, which its home may refuse (R97, R549). -/
def Target.keyed : Target → Bool
  | .remote nd _ _ _ => decide (0x40 ≤ nd)
  | _ => false

/-- The target of a virtual address (R70 to R73). -/
def State.target (s : State) (c va : Nat) : Option Target :=
  let page := va / pageBytes
  match (s.ctx c).rangeAt page with
  | none => none
  | some r =>
    let lin := r.target * pageBytes + (va - r.va * pageBytes)
    if r.mode == modeDirect then
      (if lin / 2 ^ 48 = s.node then some (.own (lin % 2 ^ 48))
       else some (.remote (lin / 2 ^ 48) (lin % 2 ^ 48) r.part (s.keyOf c r)))
    else if r.mode == modePinned then some (.host lin)
    else some (.own (s.fld F.XLT_POOL_BASE_PAGE c * pageBytes % 2 ^ 48 + r.poolPage page * pageBytes + va % pageBytes))

/-- Split an extent at page boundaries. -/
def splitPages : Nat → Nat → Nat → List (Nat × Nat)
  | 0, _, _ => []
  | k + 1, va, n =>
    if n = 0 then [] else
      let m := min n (pageBytes - va % pageBytes)
      (va, m) :: splitPages k (va + m) (n - m)

def pieces (va n : Nat) : List (Nat × Nat) := splitPages (n / pageBytes + 2) va n

/-- A read of the control window by an own engine or a RD (R878, R879): naturally aligned words, no latch. -/
def State.ctlBytes (s : State) (o n : Nat) : List Byte :=
  let a := (o - ctlBase) / 4
  slice ((List.range ((o - ctlBase + n + 3) / 4 - a)).flatMap fun j => leBytes 4 (s.bar0Word (4 * (a + j)))) ((o - ctlBase) % 4) n

/-- Read an own offset for an engine: a staging region refuses (R120), other places that are no memory answer an error (R65).
Only accesses of the management context reach the control window (R75, R152). -/
def State.readOwn (s : State) (o n : Nat) : ReadRes :=
  match s.region o with
  | .tier0 | .tier1 => s.readMem o n
  | .control => { data := s.ctlBytes o n }
  | _ => { err := true }

/-- Join the answers of consecutive pieces; poison lines are counted from the first piece's line. -/
def joinReads (va : Nat) (rs : List (Nat × ReadRes)) : ReadRes :=
  { err := rs.any (·.2.err), refused := rs.findSome? fun r => if r.2.refused.isSome then some r.1 else none, data := rs.flatMap (·.2.data),
    poison := rs.flatMap fun p => p.2.poison.map fun l => l + (p.1 / 64 - va / 64) }

/-- A read of another node's memory: its answer comes with the command's Env; where no way leads to the node, or no node has that
memory (R62), an error. -/
def State.nodeRead (s : State) (nd o n key : Nat) (env : Env) : ReadRes :=
  if !memNode nd || s.cannotRead nd key then { err := true } else envRead env (.node nd) o n

/-- Read through a context an extent that has passed its check, translated as in `view`. -/
def State.readVA (s : State) (c va n : Nat) (env : Env) (view : State := s) : ReadRes :=
  joinReads va ((pieces va n).map fun p =>
    (p.1, match view.target c p.1 with
      | some (.own o) => s.readOwn o p.2
      | some (.remote nd o _ key) => s.nodeRead nd o p.2 key env
      | some (.host a) => envRead env .host a p.2
      | none => { err := true }))

/-- A read of own memory by an engine of half `h` is served at its home; a staging region refuses and counts it (R120). -/
def State.noteOwn (s : State) (h : Half) (o n : Nat) : State :=
  match s.region o with
  | .tier0 | .tier1 => (s.noteRead o n).crossIn h o n
  | .staging => s.bump F.TIER_STAGE_REFUSED_COUNT
  | _ => s

/-- What a read through a context by an engine of half `h` does beside its answer: own memory counts it, another node gets RD
packets, and host data cross the bridge to the West half. -/
def State.noteVA (s : State) (h : Half) (c va n : Nat) (view : State := s) : State :=
  (pieces va n).foldl (fun s p => match view.target c p.1 with
    | some (.own o) => s.noteOwn h o p.2
    | some (.remote nd o part key) => s.remoteRead h nd o p.2 part key
    | some (.host _) => s.cross .east h p.2
    | none => s) s

/-- Bytes with the image in their poisoned lines (R663); `a` is the address of the first byte. -/
def withImage (a : Nat) (d : List Byte) (poison : List Nat) : List Byte :=
  poison.foldl (fun d l =>
    let o := 64 * (a / 64 + l) - a
    if a ≤ 64 * (a / 64 + l) ∧ o + 64 ≤ d.length then overlay d o poisonImage else d) d

/-- The lines of poison that lie in a piece, counted from the piece's first line. -/
def poisonIn (va : Nat) (poison : List Nat) (p : Nat × Nat) : List Nat :=
  (poison.filter fun l => (linesOf p.1 p.2).contains (va / 64 + l)).map fun l => va / 64 + l - p.1 / 64

/-- A WR of the control window: 4 B or 8 B, naturally aligned (R879). -/
def ctlShape (o n : Nat) : Bool := (n == 4 || n == 8) && o % n == 0

/-- Write an own offset for an engine of half `h`: refused in a staging region with a count (R120), refused elsewhere than in memory
(R65). A write of the control window goes to the register, or is refused with a count (R878, R879). -/
def State.writeOwn (s : State) (h : Half) (o : Nat) (d : List Byte) (poison : List Nat) : State × Bool :=
  match s.region o with
  | .tier0 | .tier1 => if s.inHandoff o d.length then (s, false) else (s.crossOut h o d.length).writeMem o d poison
  | .staging => (s.bump F.TIER_STAGE_REFUSED_COUNT, false)
  | .control =>
    if ctlShape o d.length then ({ s with ctlWrites := s.ctlWrites ++ [(o - ctlBase, d)] }, true)
    else (s.bump F.XLT_CTL_REFUSED_COUNT, false)
  | _ => (s, false)

/-- The half of the client of a request or access; units of the whole controller stand in the East half (assumption log 59). -/
def ReqClient.half : ReqClient → Half
  | .chan ch => ofHalfNum (ch / 32)
  | .scoop g | .row g _ | .update g => ofHalfNum (g / 8)
  | .install h _ | .read h => ofHalfNum h
  | .outs _ _ a | .kv a => ofHalfNum (a / 128)
  | _ => .east

def State.ptn (s : State) (p : Nat) : PartSt := sget {} s.parts p
def State.setPtn (s : State) (p : Nat) (x : PartSt) : State := { s with parts := sput {} p x s.parts }

/-- A data write to host memory for a context, with Relaxed Ordering where it is enabled (R592). -/
def State.hostData (s : State) (c addr : Nat) (d : List Byte) (poisoned : Bool) : State :=
  (if s.relaxed then s.setPtn c { s.ptn c with loose := true } else s).emit (.hostWrite addr d s.relaxed poisoned)

/-- Write through a context an extent that has passed its check, translated as in `view`; `pick` takes some of its parts. Answers
whether every part was accepted; what leaves for another node or for host memory is taken as accepted, and its answer comes
with a later command. -/
def State.writeVA (s : State) (c va : Nat) (d : List Byte) (poison : List Nat := []) (w : ReqClient := .none) (view : State := s)
    (pick : Target → Bool := fun _ => true) : State × Bool :=
  (pieces va d.length).foldl (fun (acc : State × Bool) p =>
    let part := slice d (p.1 - va) p.2
    let pz := poisonIn va poison p
    match view.target c p.1 with
    | none => (acc.1, false)
    | some t =>
      if !pick t then acc
      else match t with
      | .own o => let r := acc.1.writeOwn w.half o part pz; (r.1, acc.2 && r.2)
      | .remote nd o tag key =>
        (acc.1.remoteWrite w nd o (withImage p.1 part pz) (!pz.isEmpty) tag key p.1 (va + d.length), acc.2)
      | .host a =>
        ((acc.1.cross w.half .east p.2).hostData c a (withImage p.1 part pz) (!pz.isEmpty), acc.2)) (s, true)

/-! ## Engine caches (R24, R154) -/

/-- Drop the engine-cache lines of an extent of global physical addresses, in both halves. -/
def State.invalidate (s : State) (gpa n : Nat) : State :=
  let keep := fun l => decide (64 * l + 64 ≤ gpa) || decide (gpa + n ≤ 64 * l)
  { s with cacheE := s.cacheE.filter (fun e => keep e.1), cacheW := s.cacheW.filter (fun e => keep e.1) }

/-! ## Engine slots (R99) -/

def slotScoop (g : Nat) : Nat := 256 + g
def slotMover (ch : Nat) : Nat := 272 + ch
def slotTaster (h : Nat) : Nat := 336 + h
def slotCore (k : Nat) : Nat := 338 + k

/-- ENGINE_CLASS and ENGINE_ID of a slot. -/
def slotEngine (slot : Nat) : Nat × Nat :=
  if slot < 256 then (0, slot) else if slot < 272 then (1, slot - 256) else if slot < 336 then (2, slot - 272)
  else if slot < 338 then (3, slot - 336) else (4, slot - 338)

/-- The half an engine slot belongs to. -/
def slotHalf (slot : Nat) : Half :=
  ofHalfNum (if slot < 256 then slot / 128 else if slot < 272 then (slot - 256) / 8 else if slot < 336 then (slot - 272) / 32
    else if slot < 338 then slot - 336 else (slot - 338) / 4)

def State.eng (s : State) (slot : Nat) : EngSt := sget {} s.engs slot

def State.setEng (s : State) (slot : Nat) (e : EngSt) : State := { s with engs := sput {} slot e s.engs }

def State.fltq (s : State) (c : Nat) : FltqSt := sget {} s.fltqs c

def State.setFltq (s : State) (c : Nat) (q : FltqSt) : State := { s with fltqs := sput {} c q s.fltqs }

def FaultKind.code : FaultKind → Nat
  | .unmapped => 1
  | .protection => 2
  | .key => 3
  | .notResident => 4

/-! ## Fault queue (R98 to R107) -/

def State.fltTail (s : State) (c : Nat) : Nat := if c < 128 then s.fld F.FLTQ_TAIL_INDEX c else s.mgmtTail
def State.fltHead (s : State) (c : Nat) : Nat := if c < 128 then s.fld F.FLTQ_HEAD_INDEX c else s.mgmtHead

def State.setFltTail (s : State) (c v : Nat) : State :=
  if c < 128 then s.setFld F.FLTQ_TAIL_INDEX (v % 2048) c else { s with mgmtTail := v % 2048 }

/-- The queue is full (R100): slots equal, wrap bits different. -/
def State.fltFull (s : State) (c : Nat) : Bool :=
  decide ((s.fltTail c + 2048 - s.fltHead c) % 2048 = 1024)

/-- Recording is enabled; the management context's queue always is (R882). -/
def State.fltEn (s : State) (c : Nat) : Bool := c == 128 || s.flag F.FLTQ_CTRL_EN c

/-- The fault record of R98 as 32 bytes. -/
def faultBytes (slot : Nat) (f : FaultRec) (phase : Bool) : List Byte :=
  let e := slotEngine slot
  leBytes 32
    (f.va % 2 ^ 56 + e.1 * 2 ^ 56 + f.kind.code * 2 ^ 60 + (if phase then 2 ^ 63 else 0) +
      (f.tag % 128 * 512 + slot) * 2 ^ 64 + (if f.long then 2 ^ 83 else 0) +
      (if f.long then 0x7FFFFF else f.extent % 2 ^ 23) * 2 ^ 84 + (if f.more then 2 ^ 107 else 0) +
      f.access % 16 * 2 ^ 108 + e.2 % 256 * 2 ^ 112 + ctxPart f.ctx * 2 ^ 120 + f.cursor.toNat * 2 ^ 128 +
      f.time % 2 ^ 64 * 2 ^ 192)

/-- Write the record of an engine's fault to its queue: the engine becomes QUEUED (R108). -/
def State.queueFault (s : State) (slot : Nat) : State :=
  let e := s.eng slot
  let c := e.flt.ctx
  let t := s.fltTail c
  let s := s.setEng slot { e with st := .queued, index := t }
  let s := s.setFltTail c (t + 1)
  let q := s.fltq c
  let b := faultBytes slot e.flt (t / 1024 % 2 == 0)
  if c < 128 then
    (s.setFltq c { q with writes := q.writes ++ [(slot, t)] }).emit
      (.hostWrite ((s.rd .FLTQ_BASE c).toNat / 32768 * 32768 + t % 1024 * 32) b false false)
  else { s with mgmtRecs := sput [] (t % 1024) b s.mgmtRecs }

/-- Count one more unqueued fault; the rise from 0 to 1 sets OVERFLOW and raises VEC_OVF (R104). -/
def State.countUnqueued (s : State) (c : Nat) : State :=
  let s := s.setFld F.XLT_UNQUEUED_COUNT (s.fld F.XLT_UNQUEUED_COUNT + 1)
  if c < 128 then
    let n := s.fld F.FLTQ_STATUS_UNQUEUED c
    let s := s.setFld F.FLTQ_STATUS_UNQUEUED (n + 1) c
    if n = 0 then (s.setFlag F.FLTQ_STATUS_OVERFLOW true c).raiseVec c (s.fld F.FLTQ_CTRL_VEC_OVF c) else s
  else s

/-- One unqueued fault less. -/
def State.uncountUnqueued (s : State) (c : Nat) : State :=
  let s := s.less F.XLT_UNQUEUED_COUNT
  if c < 128 then s.less F.FLTQ_STATUS_UNQUEUED c else s

/-- An access of an engine fails its check (R96, R99, R103, R108): the fault is recorded, or the engine stalls without a
record. GEN advances at each fault the engine records. -/
def State.raiseFault (s : State) (slot c access va n : Nat) (cursor : Word) (fva : Nat) (k : FaultKind) (more : Bool) : State :=
  let e := s.eng slot
  let ext := va + n - fva
  let f : FaultRec :=
    { ctx := c, va := fva, kind := k, access := access, extent := ext, more := more, long := decide (8388606 < ext),
      cursor := cursor, time := s.time, tag := e.gen }
  let e' : EngSt := { e with gen := (e.gen + 1) % 128, flt := f }
  if s.fltEn c && !s.fltFull c then (s.setEng slot e').queueFault slot
  else
    let s := s.setEng slot { e' with st := .unqueued }
    let s := if s.fltFull c && decide (c < 128) then s.bump F.FLTQ_QUEUE_FULL_COUNT c else s
    s.countUnqueued c

/-- Hold an access whose page is being migrated (R89). -/
def State.holdEngine (s : State) (slot c : Nat) : State :=
  let e := s.eng slot
  s.setEng slot { e with st := .waiting, flt := { e.flt with ctx := c } }

/-- The engine runs again: its fault is gone. -/
def State.freeEngine (s : State) (slot : Nat) : State :=
  let e := s.eng slot
  let s := if e.st = .unqueued then s.uncountUnqueued e.flt.ctx else s
  s.setEng slot { e with st := .run }

/-- The translation shadow was found poisoned (R667): a record, no translation until the next accepted commit, and no
residency. -/
def State.loseShadow (s : State) (c : Nat) : State :=
  let s := s.setCtx c { s.ctx c with lost := true, resident := [] }
  s.record { cls := ecXLT, event := 3, inst := c, part := ctxPart c, op := 1 }

/-- The home refused the region key of an access (R93, R97): a fault of the whole access. -/
def State.keyFault (s : State) (slot c access va n : Nat) (cursor : Word) (fva : Nat) : State :=
  s.raiseFault slot c access va n cursor fva .key false

/-- What became of an access that an engine presented. -/
inductive Presented where
  | pass | stalled | error
  deriving DecidableEq, Repr

/-- Present an access of an engine: look its ranges up, check the extent, and stall the engine where the check fails or a page
migrates. -/
def State.present (s : State) (slot c access va n : Nat) (a : Acc) (cursor : Word) : State × Presented :=
  let s := (s.endAccess slot).lookup (slotHalf slot) c va n
  match s.checkExtent c va n a with
  | .ok => (s, .pass)
  | .fault fva k more => (s.raiseFault slot c access va n cursor fva k more, .stalled)
  | .hold => (s.holdEngine slot c, .stalled)
  | .lost => (s, .error)

/-- The unqueued fault of a context that is recorded next: the oldest, and of one cycle the lowest slot (R105). -/
def State.oldestUnqueued (s : State) (c : Nat) : Option Nat :=
  (s.engs.filter fun e => e.2.st = .unqueued && e.2.flt.ctx == c).foldl
    (fun (b : Option Nat) e =>
      match b with
      | none => some e.1
      | some k =>
        let t := (s.eng k).flt.time
        if e.2.flt.time < t || (e.2.flt.time = t && e.1 < k) then some e.1 else b) none

/-- The slot a resume's TAG names, if that fault is QUEUED in the context (R109). -/
def State.taggedSlot (s : State) (c tag : Nat) : Option Nat :=
  let slot := tag % 512
  let e := s.eng slot
  if slot < 346 && e.st = .queued && e.flt.ctx == c && e.flt.tag == tag / 512 % 128 then some slot else none

end Sys2Proof.Machine
end

