-- ==== Sys2Proof/Machine/QueueOps.lean ====
section
/-!
DEFINITION. Completion of work: the completion records of command queues (R600, R606, R619 to R622, R885), and where
the end of a piece of work is reported by what submitted it.
-/

namespace Sys2Proof.Machine

/-- The instance number of queue q of partition p in the HIF_SQ and HIF_CQ registers. -/
def qInst (p q : Nat) : Nat := p * 16 + q

def State.queue (s : State) (p q : Nat) : QueueSt := sget {} s.queues (qInst p q)

def State.setQueue (s : State) (p q : Nat) (x : QueueSt) : State := { s with queues := sput {} (qInst p q) x s.queues }

/-- Queue errors of HIF_SQ_STATUS.ERR. -/
def qeNone : Nat := 0
def qeBadEntry : Nat := 1
def qeRingFault : Nat := 2
def qeCqFault : Nat := 3

def cqSize (s : State) (p q : Nat) : Nat := 2 ^ s.fld F.HIF_CQ_SIZE_LOG2_RECORDS (qInst p q)
def sqSize (s : State) (p q : Nat) : Nat := 2 ^ s.fld F.HIF_SQ_CTRL_LOG2_ENTRIES (qInst p q)

/-- INFLIGHT: entries started whose completion record has not been performed (R606); IDLE says that there are none. A
disabled queue that is idle leaves a halt by a ring fault (R885). -/
def State.syncInflight (s : State) (p q : Nat) : State :=
  let x := s.queue p q
  let k := qInst p q
  let n := x.started.length + x.records.length
  let s := (s.setFld F.HIF_SQ_STATUS_INFLIGHT n k).setFlag F.HIF_SQ_STATUS_IDLE (n == 0) k
  if n = 0 && !s.flag F.HIF_SQ_CTRL_EN k && s.fld F.HIF_SQ_STATUS_ERR k ≠ qeBadEntry then
    (s.setFlag F.HIF_SQ_STATUS_HALTED false k).setFld F.HIF_SQ_STATUS_ERR qeNone k
  else s

/-- Halt a queue: ERR, HALTED, and its completion vector once (R605, R622). -/
def State.haltQueue (s : State) (p q err : Nat) : State :=
  let k := qInst p q
  let s := (s.setFld F.HIF_SQ_STATUS_ERR err k).setFlag F.HIF_SQ_STATUS_HALTED true k
  s.raiseVec p (s.fld F.HIF_SQ_CTRL_VEC k)

/-- Halt a queue whose ring access failed (R600): an error record with unit class HIF, no fault record. -/
def State.ringFault (s : State) (p q err : Nat) : State :=
  (s.haltQueue p q err).record { cls := ecHIF, event := 1, inst := qInst p q, part := p, op := if err = qeCqFault then 2 else 1 }

/-- A ring must be mapped by DIRECT or HOST_PINNED ranges (R600). -/
def State.ringMapped (s : State) (p va n : Nat) (a : Acc) : Bool :=
  s.checkExtent p va n a = .ok &&
    (pagesOf va n).all fun pg => match (s.ctx p).rangeAt pg with
      | some r => r.mode != modeMigrate
      | none => false

/-- A completion record (R619). -/
def cqBytes (s : State) (e : EntrySt) (status count fail : Nat) (phase : Bool) : List Byte :=
  leBytes 8 e.cookie ++ leBytes 8 s.time ++ leBytes 4 fail ++ leBytes 4 count ++ leBytes 2 e.slot ++ leBytes 1 e.op ++
    leBytes 1 status ++ leBytes 1 ((if phase then 1 else 0) + (if e.irq then 2 else 0)) ++ leBytes 3 0

/-- A write through a context whose host part never carries Relaxed Ordering: completion records and flags (R592). -/
def State.writeStrict (s : State) (c va : Nat) (d : List Byte) : State × Bool :=
  let r := ({ s with relaxed := false } : State).writeVA c va d
  ({ r.1 with relaxed := s.relaxed }, r.2)

/-- Before a completion record that follows relaxed writes, a zero-length read goes to the same function (R592). -/
def State.flushRelaxed (s : State) (p : Nat) : State :=
  if (s.ptn p).loose then (s.setPtn p { s.ptn p with loose := false }).emit (.zeroRead (p + 1)) else s

/-- An entry completes (R620): its record is written to the slot behind the records already in flight, PHASE the inverse
of bit 16 of that index. A record write that fails halts the queue with CQ_FAULT; under that halt records are lost
(R885). -/
def State.completeEntry (s : State) (p q slot status count fail : Nat) : State :=
  let x := s.queue p q
  let k := qInst p q
  match x.started.find? fun e => e.slot = slot with
  | none => s
  | some e =>
    let x := { x with started := x.started.erase e }
    if s.fld F.HIF_SQ_STATUS_ERR k == qeCqFault then (s.setQueue p q x).syncInflight p q
    else
      let idx := ringAdd (cqSize s p q) (s.fld F.HIF_CQ_TAIL_INDEX k) x.records.length
      let va := F.HIF_CQ_BASE_VA.get (s.rd .HIF_CQ_BASE k) * 64 + idx % 65536 * 32
      let b := cqBytes s e status count fail (idx / 65536 == 0)
      if s.ringMapped p va 32 .write then
        let r := (s.flushRelaxed p).writeStrict p va b
        if r.2 then ((r.1).setQueue p q { x with records := x.records ++ [⟨b, e.irq⟩] }).syncInflight p q
        else ((r.1.setQueue p q x).ringFault p q qeCqFault).syncInflight p q
      else ((s.setQueue p q x).ringFault p q qeCqFault).syncInflight p q

def Desc.fence (d : Desc) : Bool := d.flags.testBit 0

/-- Does a waiting descriptor's FENCE still hold it back: an earlier entry of its queue has not completed (R161). -/
def State.fenced (s : State) (w : WorkSrc) (d : Desc) : Bool :=
  match w with
  | .queue p q slot =>
    d.fence && (match (s.queue p q).started with
      | e :: _ => e.slot ≠ slot
      | [] => false)
  | _ => false

/-- Descriptors whose fence has lifted since state `t` became ready after those that were ready before (R884). -/
def State.readyOrder (s t : State) : State :=
  let new := fun (m : Nat × WorkSrc × Desc) => t.fenced m.2.1 m.2.2 && !s.fenced m.2.1 m.2.2
  { s with waitingMoves := (s.waitingMoves.filter fun m => !new m) ++ s.waitingMoves.filter new }

/-- Report the end of a piece of work to what submitted it: a completion record, the Proofer, or management
firmware. -/
def State.finishWork (s : State) (w : WorkSrc) (status count fail : Nat) : State :=
  match w with
  | .none => s
  | .queue p q slot => (s.completeEntry p q slot status count fail).readyOrder s
  | .proofer prog tile => { s with prfDone := s.prfDone ++ [(prog, tile, status)] }
  | .fw cookie => s.emit (.note "firmware completion" [cookie, status, count])

end Sys2Proof.Machine
end

