-- ==== Sys2Proof/Machine/TileOps.lean ====
section
/-!
DEFINITION. Tile headers and tile move descriptors (R144 to R153): their fields, their validity, the drives behind
tier 2 endpoints, and the choice of a tile mover channel (R884).
-/

namespace Sys2Proof.Machine

/-! ## Statuses of tile moves (R165) -/

def tsOK : Nat := 0x00
def tsFaultAbort : Nat := 0x01
def tsHdrInvalid : Nat := 0x02
def tsIdMismatch : Nat := 0x03
def tsCrc : Nat := 0x04
def tsPoison : Nat := 0x05
def tsT2Error : Nat := 0x06
def tsT2Window : Nat := 0x07
def tsT2Down : Nat := 0x08
def tsKindRefused : Nat := 0x09
def tsSrcError : Nat := 0x0A
def tsDstError : Nat := 0x0B
def tsTspDown : Nat := 0x0C
def tsPartitionReset : Nat := 0x0D

/-! ## The tile header (R145 to R149) -/

/-- A tile header, its fields apart. -/
structure Hdr where
  magic : Nat
  ver : Nat
  format : Nat
  payload : Nat
  side : Nat
  flags : Nat
  rows : Nat
  cols : Nat
  anchor : Nat
  cbSlot : Nat
  crc : Nat
  id : Nat
  cbId : Nat
  version : Nat
  scaleOff : Nat
  scaleLen : Nat
  csumOff : Nat
  csumLen : Nat
  deriving DecidableEq, Repr

def hdrOf (b : List Byte) : Hdr :=
  { magic := leAt b 0 2, ver := leAt b 2 1, format := leAt b 3 1, payload := leAt b 4 4, side := leAt b 8 2,
    flags := leAt b 0xA 2, rows := leAt b 0xC 2, cols := leAt b 0xE 2, anchor := leAt b 0x10 1, cbSlot := leAt b 0x11 1,
    crc := leAt b 0x14 4, id := leAt b 0x18 8, cbId := leAt b 0x20 8, version := leAt b 0x28 4, scaleOff := leAt b 0x2C 2,
    scaleLen := leAt b 0x2E 2, csumOff := leAt b 0x30 2, csumLen := leAt b 0x32 2 }

def Hdr.flag (h : Hdr) (k : Nat) : Bool := h.flags.testBit k

/-- The formats of R148: payload bytes and scale area bytes of ROWS × COLS elements, and the multiple COLS must be of.
Numerator and denominator of the bytes per element; 0 in the last place means no scale area. -/
def formatOf (code : Nat) : Option (Nat × Nat × Nat × Nat) :=
  match code with
  | 0x01 | 0x02 => some (1, 1, 1, 0)
  | 0x10 => some (1, 1, 32, 32)
  | 0x11 | 0x12 => some (3, 4, 32, 32)
  | 0x13 => some (1, 2, 32, 32)
  | 0x20 => some (3, 16, 512, 512)
  | 0x30 => some (9, 16, 32, 0)
  | 0x31 => some (1, 1, 32, 32)
  | 0x40 => some (2, 1, 1, 0)
  | 0x50 => some (0, 1, 1, 0)
  | _ => none

/-- Round up to a multiple. -/
def roundUp (n m : Nat) : Nat := (n + m - 1) / m * m

/-- Scale area bytes of R148. -/
def scaleBytes (code elems : Nat) : Nat :=
  match formatOf code with
  | some (_, _, _, sd) => if sd = 0 then 0 else elems / sd
  | none => 0

/-- Every byte of a range is 0. -/
def zeros (b : List Byte) (off n : Nat) : Bool := (slice b off n).all (· == 0)

/-- A header is valid (R149). An absent area, of length 0, must have its offset within SIDE_LEN too (DESIGN CHOICE, assumption log 61). -/
def hdrValid (b : List Byte) : Bool :=
  let h := hdrOf b
  let n := h.rows * h.cols
  h.magic == 0x7A1E && h.ver == 2 && leAt b 0xFC 4 == crc32c (slice b 0 0xFC) &&
  (match formatOf h.format with
   | none => false
   | some (a, d, mult, _) =>
     (if h.format == 0x50 then h.rows == 0 && h.cols == 0 && decide (h.payload ≤ 65536) && h.payload % 64 == 0
      else h.payload == roundUp (n * a / d) 64 && decide (h.payload ≤ 65536) && h.cols % mult == 0)) &&
  h.flags / 64 == 0 && zeros b 0x12 2 && zeros b 0x34 12 && zeros b 0xC0 60 &&
  (h.flag 3 == (scaleBytes h.format n != 0)) && h.scaleLen == (if h.flag 3 then scaleBytes h.format n else 0) &&
  h.csumLen == (if h.flag 4 then 8 * h.cols else 0) &&
  decide (h.side ≤ 8192) && h.side % 64 == 0 &&
  decide (h.scaleOff + h.scaleLen ≤ h.side) && decide (h.csumOff + h.csumLen ≤ h.side) &&
  !meets h.scaleOff h.scaleLen h.csumOff h.csumLen &&
  decide (h.cbSlot < 4) && (h.format == 0x20 || (h.cbSlot == 0 && h.cbId == 0)) && h.id != 0

/-- The whole extent a header declares. -/
def Hdr.extent (h : Hdr) : Nat := 256 + h.payload + h.side

/-- A header with FLAGS.POISON set and HDR_CRC computed again (R154). -/
def poisonHdr (b : List Byte) : List Byte :=
  let f := leAt b 0xA 2 ||| 1
  let b' := overlay (slice b 0 256) 0xA (leBytes 2 f)
  overlay b' 0xFC (leBytes 4 (crc32c (slice b' 0 0xFC)))

/-! ## Descriptors (R150 to R153) -/

def ekVA : Nat := 0
def ekSTAGE : Nat := 1
def ekT2 : Nat := 2
def ekTSP : Nat := 3
def ekGPA : Nat := 4

def opCopyTile : Nat := 0x01
def opCopyRaw : Nat := 0x02

def descOf (b : List Byte) : Desc :=
  { op := leAt b 0 1, flags := leAt b 1 1, srcKind := leAt b 2 1, dstKind := leAt b 3 1, extent := leAt b 4 4,
    src := leAt b 8 8, dst := leAt b 0x10 8, cookie := leAt b 0x18 8, expectId := leAt b 0x20 8, expectVer := leAt b 0x28 4 }

/-- An endpoint breaks its encoding (R151). A TSP endpoint of a COPY_RAW counts as such (DESIGN CHOICE, assumption log 61: R151 says "COPY_TILE only"
and not what the descriptor completes with). -/
def endpointReserved (op kind addr : Nat) : Bool :=
  if kind = ekVA then addr % 64 != 0 || addr / 2 ^ 56 != 0
  else if kind = ekSTAGE then addr / 2 ^ 48 != 0
  else if kind = ekT2 then addr / 2 ^ 51 != 0
  else if kind = ekTSP then bits addr 4 4 != 0 || addr / 2 ^ 12 != 0 || op != opCopyTile
  else if kind = ekGPA then addr % 64 != 0 || addr / 2 ^ 56 != 0
  else true

/-- A descriptor carries a reserved encoding (R13, R150, R153). -/
def descReserved (b : List Byte) : Bool :=
  let d := descOf b
  (d.op != opCopyTile && d.op != opCopyRaw) || d.flags / 8 != 0 || !zeros b 0x2C 20 ||
  endpointReserved d.op d.srcKind d.src || endpointReserved d.op d.dstKind d.dst ||
  (if d.op == opCopyTile then decide (d.extent < 256) || decide (73984 < d.extent)
   else d.extent % 64 != 0 || d.extent == 0 || decide (1048576 < d.extent) ||
     ((d.srcKind == ekT2 || d.dstKind == ekT2) && d.extent % 4096 != 0))

def Desc.inv (d : Desc) : Bool := d.flags.testBit 1
def Desc.irq (d : Desc) : Bool := d.flags.testBit 2

/-- Drive and LBA of a T2 endpoint. -/
def t2Of (a : Nat) : Nat × Nat := (bits a 48 3, a % 2 ^ 48)

/-- Port and stream of a TSP endpoint. -/
def tspOf (a : Nat) : Nat × Nat := (a % 16, bits a 8 4)

/-- LBAs of an extent (R140). -/
def lbasOf (n : Nat) : Nat := (n + 4095) / 4096

/-- TIER_N_STATE.STATE codes (R141). -/
def dvABSENT : Nat := 0
def dvINIT : Nat := 1
def dvREADY : Nat := 2
def dvRECOVER : Nat := 3
def dvOFFLINE : Nat := 4
def dvFAILED : Nat := 5

/-- TSP port states that serve tiles: UP and DEGRADED (R590). -/
def State.tspServes (s : State) (t : Nat) : Bool :=
  s.fld F.TSP_PORT_STATUS_STATE t == 3 || s.fld F.TSP_PORT_STATUS_STATE t == 4

/-- Blocks of 256 B that a tile takes (R581). -/
def blocksOf (n : Nat) : Nat := (n + 255) / 256

/-- Does a tile need more blocks than the far end of a port advertised in total for its stream (R584). Port t's link
layer is kept as link 96 + t. -/
def State.tspTooBig (s : State) (t stream n : Nat) : Bool :=
  match (s.link (96 + t)).caps with
  | some c => decide (c.credits.getD stream 0 % 4096 < blocksOf n)
  | none => false

/-- The T2 window check (R139): the whole extent lies in the enabled window of the partition on the drive; the
management context is not checked. -/
def State.t2WindowOk (s : State) (ctx a n : Nat) : Bool :=
  if ctx = 128 then true
  else
    let k := ctx * 8 + (t2Of a).1
    s.flag F.TIER_T2WIN_BASE_EN k &&
      within (t2Of a).2 (lbasOf n) (s.fld F.TIER_T2WIN_BASE_LBA_BASE k) (s.fld F.TIER_T2WIN_COUNT_LBA_COUNT k)

/-- A global physical extent that reaches a staging region of this controller (R120). -/
def State.gpaStaging (s : State) (addr n : Nat) : Bool :=
  addr / 2 ^ 48 == s.node &&
    (meets (addr % 2 ^ 48) n (s.stageOf .east).1 (s.stageOf .east).2 || meets (addr % 2 ^ 48) n (s.stageOf .west).1 (s.stageOf .west).2)

/-- What an endpoint answers before any byte moves: a status of R165 other than OK ends the descriptor (R120, R139,
R142, R152, R580, R589). `out` is what the window check found at the fetch (R168); a T2 endpoint outside its window and on a drive not READY
answers T2_WINDOW (DESIGN CHOICE, assumption log 61). -/
def State.endpointStatus (s : State) (ctx : Nat) (w : WorkSrc) (kind addr n : Nat) (out : Bool) : Nat :=
  if kind = ekSTAGE then
    match w with
    | .proofer _ _ => tsOK
    | _ => tsKindRefused
  else if kind = ekGPA then
    (if ctx ≠ 128 then tsKindRefused
     else if s.gpaStaging addr n then tsKindRefused else tsOK)
  else if kind = ekT2 then
    (if out then tsT2Window
     else if s.fld F.TIER_N_STATE_STATE (t2Of addr).1 != dvREADY then tsT2Down else tsOK)
  else if kind = ekTSP then
    let k := (tspOf addr).1 * 16 + (tspOf addr).2
    (if ctx ≠ 128 && (!s.flag F.TSP_STREAM_CFG_EN k || s.fld F.TSP_STREAM_CFG_PARTITION k != ctx) then tsKindRefused
     else if !s.tspServes (tspOf addr).1 then tsTspDown else tsOK)
  else tsOK

/-! ## Endpoint reads and writes -/

/-- Read from a VA, STAGE or GPA endpoint. -/
def State.readEnd (s : State) (ctx kind addr n : Nat) (env : Env) (view : State := s) : ReadRes :=
  if kind = ekVA then s.readVA ctx addr n env view
  else if kind = ekSTAGE then s.readMem addr n
  else if addr / 2 ^ 48 = s.node then s.readOwn (addr % 2 ^ 48) n
  else s.nodeRead (addr / 2 ^ 48) (addr % 2 ^ 48) n 0 env

/-- What a read of an endpoint by an engine of half `h` does beside its answer. -/
def State.noteEnd (s : State) (h : Half) (ctx kind addr n : Nat) (view : State := s) : State :=
  if kind = ekVA then s.noteVA h ctx addr n view
  else if kind = ekSTAGE then (s.noteRead addr n).crossIn h addr n
  else if addr / 2 ^ 48 = s.node then s.noteOwn h (addr % 2 ^ 48) n
  else if memNode (addr / 2 ^ 48) then s.remoteRead h (addr / 2 ^ 48) (addr % 2 ^ 48) n 0xFF 0
  else s

/-- Write to a VA, STAGE or GPA endpoint; `pick` takes some parts of a VA. A global physical address whose NODE names no memory never
reaches a home (R62). -/
def State.writeEnd (s : State) (ctx kind addr : Nat) (d : List Byte) (poison : List Nat) (w : ReqClient) (view : State := s)
    (pick : Target → Bool := fun _ => true) : State × Bool :=
  if kind = ekVA then s.writeVA ctx addr d poison w view pick
  else if kind = ekSTAGE then (s.crossOut w.half addr d.length).writeMem addr d poison
  else if addr / 2 ^ 48 = s.node then s.writeOwn w.half (addr % 2 ^ 48) d poison
  else if !memNode (addr / 2 ^ 48) then (s, false)
  else (s.remoteWrite w (addr / 2 ^ 48) (addr % 2 ^ 48) (withImage addr d poison) (!poison.isEmpty) 0xFF 0, true)

/-- Does an extent of an endpoint have parts whose requests carry a region key. -/
def State.keyedEnd (s : State) (ctx kind addr n : Nat) : Bool :=
  kind == ekVA && (pieces addr n).any fun p => (s.target ctx p.1).any Target.keyed

/-- The own memory an extent of an endpoint lies in becomes undefined (R159, R160). -/
def State.undefineEnd (s : State) (ctx kind addr n : Nat) (view : State := s) : State :=
  if kind = ekVA then
    (pieces addr n).foldl (fun s p => match view.target ctx p.1 with
      | some (.own o) => if s.region o = .tier0 || s.region o = .tier1 then s.undefine o p.2 else s
      | _ => s) s
  else if kind = ekSTAGE then s.undefine addr n
  else if kind = ekGPA && addr / 2 ^ 48 = s.node && s.residentExtent (addr % 2 ^ 48) n then s.undefine (addr % 2 ^ 48) n
  else s

/-! ## Engine caches (R24, R154) -/

/-- Drop the engine-cache lines of an extent of an endpoint. -/
def State.invalidateEnd (s : State) (ctx kind addr n : Nat) (view : State := s) : State :=
  if kind = ekVA then
    (pieces addr n).foldl (fun s p => match view.target ctx p.1 with
      | some (.own o) => s.invalidate (s.node * 2 ^ 48 + o) p.2
      | some (.remote nd o _ _) => s.invalidate (nd * 2 ^ 48 + o) p.2
      | _ => s) s
  else if kind = ekSTAGE then s.invalidate (s.node * 2 ^ 48 + addr) n
  else if kind = ekGPA then s.invalidate addr n
  else s

/-! ## Channels (R884, R189) -/

def State.chan (s : State) (ch : Nat) : ChanSt := sget {} s.chans ch

/-- TILE_BUSY follows a channel; the bits of a half out of service hold what they were (R51). -/
def State.syncChan (s : State) (ch : Nat) : State :=
  if s.halfDown (ofHalfNum (ch / 32)) then s else s.setBit .TILE_BUSY 0 ch (decide ((s.chan ch).phase ≠ MovePhase.idle))

def State.setChan (s : State) (ch : Nat) (x : ChanSt) : State := ({ s with chans := sput {} ch x s.chans } : State).syncChan ch

/-- The half of the I/O die that carries a tile stream port or a drive (R26). -/
def portHalf (t : Nat) : Half := if t < 8 then .east else .west
def driveHalf (d : Nat) : Half := if d < 4 then .east else .west

/-- The half that homes an own offset, if it is in tier 0 or tier 1. -/
def State.memHalf (s : State) (o : Nat) : Option Half :=
  match s.region o with
  | .tier0 | .tier1 | .staging => some (s.homeHalf o)
  | _ => none

/-- The half an endpoint prefers (R884): that of the port or drive, or the half that homes own tier 0, tier 1 or staging memory. -/
def State.endHalf (s : State) (ctx kind addr : Nat) : Option Half :=
  if kind = ekT2 then some (driveHalf (t2Of addr).1)
  else if kind = ekTSP then some (portHalf (tspOf addr).1)
  else if kind = ekSTAGE then some (s.homeHalf addr)
  else if kind = ekGPA then (if addr / 2 ^ 48 = s.node then s.memHalf (addr % 2 ^ 48) else none)
  else match s.target ctx addr with
    | some (.own o) => s.memHalf o
    | _ => none

/-- The preferred half of a descriptor (R884). -/
def State.preferredHalf (s : State) (ctx : Nat) (d : Desc) : Half :=
  match s.endHalf ctx d.dstKind d.dst with
  | some h => h
  | none => (s.endHalf ctx d.srcKind d.src).getD .east

def WorkSrc.isProofer : WorkSrc → Bool
  | .proofer _ _ => true
  | _ => false

/-- May a channel run a descriptor of this source (R189), and is it free. -/
def State.chanFree (s : State) (w : WorkSrc) (ch : Nat) : Bool :=
  decide ((s.chan ch).phase = MovePhase.idle) && s.bit .PRF_CH_MASK 0 ch == w.isProofer && !s.halfDown (ofHalfNum (ch / 32)) &&
    !s.engResets.any (fun r => r.cls == 2 && r.inst == ch)

/-- A descriptor is fetched: its tier 2 endpoints are checked against the windows (R139, R168), and it waits for a channel. -/
def State.queueMove (s : State) (ctx : Nat) (w : WorkSrc) (d : Desc) : State :=
  let d := { d with srcOut := d.srcKind == ekT2 && !s.t2WindowOk ctx d.src d.extent,
                    dstOut := d.dstKind == ekT2 && !s.t2WindowOk ctx d.dst d.extent }
  { s with waitingMoves := s.waitingMoves ++ [(ctx, w, d)] }

/-! ## Drives (R137, R141) -/

def State.drv (s : State) (d : Nat) : DrvSt := sget {} s.drvs d

/-- The I/O queue pair of a channel (R137). -/
def pairOf (ch : Nat) : Nat := ch % 32 / 2

/-- The channels with a command outstanding on a drive. -/
def State.chansOn (s : State) (d : Nat) : List Nat :=
  (List.range 64).filter fun ch =>
    let x := s.chan ch
    (x.phase = .t2Read && (t2Of x.desc.src).1 == d) ||
      ((x.phase = .t2Body || x.phase = .t2Header) && (t2Of x.desc.dst).1 == d)

/-- A drive taken out of service gets its shutdown notification once no command is outstanding on it (R141). -/
def State.closeDrive (s : State) (d : Nat) : State :=
  if (s.drv d).closing && (s.chansOn d).isEmpty then
    ({ s with drvs := sput {} d { s.drv d with closing := false } s.drvs } : State).emit (.driveCmd d "shutdown notification" [])
  else s

/-- The channel a descriptor runs on: the lowest free one of the preferred half, else of the other half (R884). -/
def State.chooseChan (s : State) (ctx : Nat) (w : WorkSrc) (d : Desc) : Option Nat :=
  let h := halfNum (s.preferredHalf ctx d)
  match (List.range 32).find? fun k => s.chanFree w (h * 32 + k) with
  | some k => some (h * 32 + k)
  | none => ((List.range 32).find? fun k => s.chanFree w ((1 - h) * 32 + k)).map ((1 - h) * 32 + ·)

end Sys2Proof.Machine
end

