-- ==== Sys2Proof/Machine/EngineCache.lean ====
section
/-!
DEFINITION. Reads that an engine cache serves (R24, R396 to R399): reads by decode arrays, and unstamped Scoop row and
index reads, of lines homed in this controller.
-/

namespace Sys2Proof.Machine

def State.cacheOf (s : State) : Half → Sparse (List Byte)
  | .east => s.cacheE
  | .west => s.cacheW

def State.setCache (s : State) (h : Half) (c : Sparse (List Byte)) : State :=
  match h with
  | .east => { s with cacheE := c }
  | .west => { s with cacheW := c }

/-- A line of own memory as an engine of half `h` reads it. A line the cache holds is served as it was at its fill
(R398, R399), or has been evicted since: which of the two is a free value (assumption log 4). A fill leaves the line in
the cache; a line held without bytes is poison. -/
def State.cachedLine (s : State) (h : Half) (line : Nat) : State × List Byte :=
  let key := s.node * 2 ^ 42 + line
  let c := s.cacheOf h
  let fill : State × List Byte :=
    let r := s.readMem (64 * line) 64
    let d := if r.bad then [] else r.data
    (((s.noteRead (64 * line) 64).crossIn h (64 * line) 64).setCache h (sput [0#8] key d c), d)
  match c.find? fun e => e.1 == key with
  | none => fill
  | some e =>
    let n := s.fresh
    if (Config.freeByte n.1 0).getLsbD 0 then (n.2, e.2) else (fill.1.fresh.2, fill.2)

/-- Lines of own memory through a cache: the bytes, with the numbers of the poisoned lines. -/
def State.cachedLines (s : State) (h : Half) (first : Nat) : Nat → State × List Nat × List Byte
  | 0 => (s, [], [])
  | n + 1 =>
    let r := s.cachedLines h first n
    let l := r.1.cachedLine h (first + n)
    if l.2.isEmpty then (l.1, r.2.1 ++ [n], r.2.2 ++ List.replicate 64 0#8) else (l.1, r.2.1, r.2.2 ++ l.2)

/-- Read own memory for an engine of half `h` through its cache: a tier is read, and counts it, where a line is filled. -/
def State.cachedOwn (s : State) (h : Half) (o n : Nat) : State × ReadRes :=
  let r := s.cachedLines h (o / 64) (linesOf o n).length
  (r.1, { poison := r.2.1, data := slice r.2.2 (o % 64) n })

/-- One piece of a read of an engine of half `h`: own memory through its engine cache, another node's by RD packets (R71), host memory
over the bridge to the West half. -/
def State.readPiece (s : State) (h : Half) (n : Nat) (env : Env) (t : Option Target) : State × ReadRes :=
  match t with
  | some (.own o) =>
    (match s.region o with
     | .tier0 | .tier1 => s.cachedOwn h o n
     | _ => (s.noteOwn h o n, s.readOwn o n))
  | some (.remote nd o part key) => (s.remoteRead h nd o n part key, s.nodeRead nd o n key env)
  | some (.host a) => (s.cross .east h n, envRead env .host a n)
  | none => (s, { err := true })

/-- Read through a context, own lines through the engine cache of half `h`, an extent that has passed its check, translated as in
`view`. -/
def State.readCached (s : State) (h : Half) (c va n : Nat) (env : Env) (view : State := s) : State × ReadRes :=
  let r := (pieces va n).foldl (fun (acc : State × List (Nat × ReadRes)) p =>
    let q := acc.1.readPiece h p.2 env (view.target c p.1)
    (q.1, acc.2 ++ [(p.1, q.2)])) (s, [])
  (r.1, joinReads va r.2)

end Sys2Proof.Machine
end

