-- ==== Sys2Proof/Machine/Numerics.lean ====
section
/-!
DEFINITION. The arithmetic of the decode arrays (05_decode_numerics.md): element formats, tile layouts, exact
accumulation, the checksum comparison, conversions, and the FP32 special-function lanes.
-/

namespace Sys2Proof.Machine

/-! ## Exact numbers -/

/-- The number m × 2^e. -/
structure Dy where
  m : Int
  e : Int
  deriving DecidableEq, Repr

/-- 2 to a power that is not negative. -/
def pow2 (k : Int) : Int := (2 ^ k.toNat : Nat)

def dyAdd (a b : Dy) : Dy :=
  if a.e ≤ b.e then ⟨a.m + b.m * pow2 (b.e - a.e), a.e⟩ else ⟨a.m * pow2 (a.e - b.e) + b.m, b.e⟩

def dyMul (a b : Dy) : Dy := ⟨a.m * b.m, a.e + b.e⟩

def dyNeg (a : Dy) : Dy := ⟨-a.m, a.e⟩

def dyZero : Dy := ⟨0, 0⟩

def dySum (l : List Dy) : Dy := l.foldl dyAdd dyZero

/-- Compare two exact numbers. -/
def dyLe (a b : Dy) : Bool := decide (0 ≤ (dyAdd b (dyNeg a)).m)
def dyLt (a b : Dy) : Bool := decide (0 < (dyAdd b (dyNeg a)).m)

/-- floor(log2 |m × 2^e|) of a nonzero number. -/
def dyLog (a : Dy) : Int := (Nat.log2 a.m.natAbs : Int) + a.e

/-! ## Element formats (R227 to R229) -/

/-- The formats of elements and outputs. -/
inductive Fmt where
  | e4m3 | e5m2 | e2m3 | e3m2 | e2m1 | bf16 | fp32 | kv4
  deriving DecidableEq, Repr

/-- Exponent bits, mantissa bits and bias (R227). -/
def Fmt.shape : Fmt → Nat × Nat × Nat
  | .e4m3 => (4, 3, 7)
  | .e5m2 => (5, 2, 15)
  | .e2m3 => (2, 3, 1)
  | .e3m2 => (3, 2, 3)
  | .e2m1 => (2, 1, 1)
  | .bf16 => (8, 7, 127)
  | .fp32 => (8, 23, 127)
  | .kv4 => (0, 3, 0)

/-- An element: its exact value (none: NaN or infinite) and its element exponent e(x) (R228). -/
structure Elem where
  val : Option Dy
  ex  : Int
  deriving DecidableEq, Repr

def Elem.finite (x : Elem) : Bool := x.val.isSome

def Elem.nonzero (x : Elem) : Bool :=
  match x.val with
  | some d => decide (d.m ≠ 0)
  | none => false

/-- Does an encoding stand for NaN or an infinity (R227). -/
def Fmt.special (f : Fmt) (E M : Nat) : Bool :=
  match f with
  | .e4m3 => E == 15 && M == 7
  | .e5m2 => E == 31
  | .bf16 | .fp32 => E == 255
  | _ => false

/-- Decode an element (R227, R228). -/
def Fmt.decode (f : Fmt) (v : Nat) : Elem :=
  match f with
  | .kv4 => let x := sgn 4 v; ⟨some ⟨x, 0⟩, (Nat.log2 x.natAbs : Int)⟩
  | _ =>
    let (eb, mb, bias) := f.shape
    let M := v % 2 ^ mb
    let E := v / 2 ^ mb % 2 ^ eb
    let neg := v / 2 ^ (mb + eb) % 2 == 1
    let ex : Int := if E = 0 then 1 - (bias : Int) else (E : Int) - bias
    if f.special E M then ⟨none, ex⟩
    else
      let sig : Int := if E = 0 then M else 2 ^ mb + M
      ⟨some ⟨if neg then -sig else sig, ex - mb⟩, ex⟩

/-- The value of an E8M0 scale byte (R229): none for 0xFF. -/
def scaleVal (x : Nat) : Option Dy := if x = 0xFF then none else some ⟨1, (x : Int) - 127⟩

/-! ## Conversions (R265 to R268) -/

/-- The largest finite encoding of an output format, without its sign. -/
def Fmt.maxFinite : Fmt → Nat
  | .e4m3 => 0x7E
  | .e5m2 => 0x7B
  | .e2m3 | .e3m2 => 0x1F
  | .e2m1 => 0x7
  | .bf16 => 0x7F7F
  | .fp32 => 0x7F7FFFFF
  | .kv4 => 7

/-- The canonical NaNs of R240. -/
def Fmt.nan : Fmt → Nat
  | .e4m3 => 0x7F
  | .e5m2 => 0x7F
  | .bf16 => 0x7FC0
  | .fp32 => 0x7FC00000
  | _ => 0

/-- Bits of an encoding. -/
def Fmt.bits (f : Fmt) : Nat := let (eb, mb, _) := f.shape; 1 + eb + mb

/-- Bytes of an element in a buffer (R283). -/
def Fmt.bytes (f : Fmt) : Nat := (f.bits + 7) / 8

/-- Divide by a power of two, to the nearest integer, ties to even. -/
def rneShift (m : Int) (k : Int) : Int :=
  if k ≤ 0 then m * pow2 (-k)
  else
    let d := pow2 k
    let q := m / d
    let r := m % d
    if 2 * r < d then q else if d < 2 * r then q + 1 else if q % 2 = 0 then q else q + 1

/-- The encoding without sign of an exact magnitude, rounded to nearest with ties to even (R265), possibly beyond the
largest finite value. -/
def Fmt.roundMag (f : Fmt) (a : Dy) : Nat :=
  let (_, mb, bias) := f.shape
  if a.m = 0 then 0
  else
    let emin : Int := 1 - (bias : Int)
    let q := max (dyLog a - mb) (emin - mb)
    let r := (rneShift a.m.natAbs (q - a.e)).toNat
    if r < 2 ^ mb then r else ((q + mb + bias).toNat) * 2 ^ mb + (r - 2 ^ mb)

/-- Convert an exact value (R265, R266, R268): the encoding and whether it saturated. -/
def Fmt.convert (f : Fmt) (a : Dy) : Nat × Bool :=
  let sign := if a.m < 0 then 2 ^ (f.bits - 1) else 0
  let r := f.roundMag a
  if f.maxFinite < r then (sign + f.maxFinite, true) else (sign + r, false)

/-! ## Numeric status (R274) -/

/-- The four flags of R274. -/
structure NumStat where
  inexact   : Bool := false
  nonfinite : Bool := false
  saturated : Bool := false
  unchecked : Bool := false
  deriving DecidableEq, Repr

def NumStat.or (a b : NumStat) : NumStat :=
  ⟨a.inexact || b.inexact, a.nonfinite || b.nonfinite, a.saturated || b.saturated, a.unchecked || b.unchecked⟩

def NumStat.bits (a : NumStat) : Nat :=
  (if a.inexact then 1 else 0) + (if a.nonfinite then 2 else 0) + (if a.saturated then 4 else 0) + (if a.unchecked then 8 else 0)

/-! ## Exact accumulation (R239 to R254) -/

/-- trunc(p ÷ 2^u), toward zero, and whether a nonzero fraction was discarded (R249, R250). -/
def truncTo (p : Dy) (u : Int) : Int × Bool :=
  if u ≤ p.e then (p.m * pow2 (p.e - u), false)
  else let d := pow2 (u - p.e); (Int.tdiv p.m d, decide (Int.tmod p.m d ≠ 0))

/-- Cut a list into blocks of 32 (R247); `fuel` bounds the blocks. -/
def blocks32 {α : Type} : Nat → List α → List (List α)
  | 0, _ => []
  | _, [] => []
  | k + 1, l => l.take 32 :: blocks32 k (l.drop 32)

/-- The exact sum of a block's products (R248); none if a product has an operand that is not finite (R239). -/
def blockSum (ps : List (Option Dy)) : Option Dy :=
  ps.foldl (fun acc p => match acc, p with
    | some a, some d => some (dyAdd a d)
    | _, _ => none) (some dyZero)

/-- Add one block to a lane (R239, R249, R250). Answers the lane and whether this block discarded a fraction. -/
def addBlock (u : Int) (l : LaneAcc) (ps : List (Option Dy)) : LaneAcc × Bool :=
  match blockSum ps with
  | none => ({ l with nonfinite := true }, false)
  | some p => let t := truncTo p u; ({ l with acc := l.acc + t.1, inexact := l.inexact || t.2 }, t.2)

/-- Reduce a tile's products of one lane: the accumulator and, block by block, whether a fraction was discarded. -/
def reduceLane (u : Int) (ps : List (Option Dy)) : LaneAcc × List Bool :=
  (blocks32 (ps.length / 32 + 1) ps).foldl (fun a b => let r := addBlock u a.1 b; (r.1, a.2 ++ [r.2])) ({}, [])

/-- Add the partials of two tiles of one reduction group (R252). -/
def LaneAcc.add (a b : LaneAcc) : LaneAcc :=
  ⟨a.acc + b.acc, a.inexact || b.inexact, a.nonfinite || b.nonfinite⟩

/-- The product of two operands; none where one is not finite. -/
def prod (w x : Option Dy) : Option Dy :=
  match w, x with
  | some a, some b => some (dyMul a b)
  | _, _ => none

/-- X_b (R245): the largest element exponent over the finite nonzero activation elements. -/
def laneMax (xs : List Elem) : Option Int :=
  (xs.filter Elem.nonzero).foldl (fun m x => match m with
    | none => some x.ex
    | some k => some (max k x.ex)) none

/-- A lane without a finite nonzero element and without a non-finite one: its result is +0 (R245). -/
def laneEmpty (xs : List Elem) : Bool := xs.all fun x => x.finite && !x.nonzero

/-- The value of a lane's accumulator: ACC × 2^(Q − 60). -/
def accVal (l : LaneAcc) (q : Int) : Dy := ⟨l.acc, q - 60⟩

/-- An exact sum of FP32 terms (R254): blocks of 32, anchored at the largest exponent of the finite nonzero terms. -/
def sumTerms (ts : List Elem) : LaneAcc × Int :=
  match laneMax ts with
  | none => ({ nonfinite := ts.any fun t => !t.finite }, 0)
  | some q => ((reduceLane (q - 60) (ts.map (·.val))).1, q)

/-! ## Tiles (R230 to R236, R241 to R244) -/

/-- A tile's bytes with its header read, and the payload of its codebook (CB8 only). -/
structure Tile where
  hdr  : Hdr
  data : List Byte
  cb   : List Byte := []
  deriving DecidableEq, Repr

def tileOf (b cb : List Byte) : Tile := ⟨hdrOf b, b, cb⟩

def Tile.pay (t : Tile) (off n : Nat) : Nat := leAt t.data (256 + off) n
def Tile.side (t : Tile) (off n : Nat) : Nat := leAt t.data (256 + t.hdr.payload + off) n

/-- EMAX_W of a format code (R230). -/
def emaxW (code : Nat) : Int :=
  match code with
  | 0x10 | 0x20 | 0x31 => 8
  | 0x11 | 0x13 => 2
  | 0x12 => 4
  | 0x30 => 3
  | _ => 0

/-- The element format of a format code (R230). -/
def elemFmt (code : Nat) : Fmt :=
  match code with
  | 0x02 => .e5m2
  | 0x11 => .e2m3
  | 0x12 => .e3m2
  | 0x13 => .e2m1
  | 0x30 => .kv4
  | 0x40 => .bf16
  | _ => .e4m3

/-- Is a format scaled (R230). -/
def scaledFmt (code : Nat) : Bool :=
  code == 0x10 || code == 0x11 || code == 0x12 || code == 0x13 || code == 0x20 || code == 0x30 || code == 0x31

/-- The encoding of element (o, k) (R231, R233, R234, R236). -/
def Tile.code (t : Tile) (o k : Nat) : Nat :=
  let c := t.hdr.cols
  match t.hdr.format with
  | 0x11 | 0x12 => bits (t.pay (o * (c * 3 / 4) + 3 * (k / 4)) 3) (6 * (k % 4)) 6
  | 0x13 => bits (t.pay (o * (c / 2) + k / 2) 1) (4 * (k % 2)) 4
  | 0x20 =>
    let g := k / 8
    let idx := bits (t.pay (o * (c * 3 / 16) + 3 * (g / 2)) 3) (12 * (g % 2)) 12
    leAt t.cb (8 * idx + k % 8) 1
  | 0x30 => bits (t.pay (o * (c * 9 / 16) + 18 * (k / 32) + k % 32 / 2) 1) (4 * (k % 2)) 4
  | 0x40 => t.pay ((o * c + k) * 2) 2
  | _ => t.pay (o * c + k) 1

/-- The scale byte of element (o, k): 127 for an unscaled format. -/
def Tile.scale (t : Tile) (o k : Nat) : Nat :=
  let c := t.hdr.cols
  match t.hdr.format with
  | 0x30 => t.pay (o * (c * 9 / 16) + 18 * (k / 32) + 16) 1
  | 0x20 => t.side (t.hdr.scaleOff + o * (c / 512) + k / 512) 1
  | 0x10 | 0x11 | 0x12 | 0x13 | 0x31 => t.side (t.hdr.scaleOff + o * (c / 32) + k / 32) 1
  | _ => 127

/-- The weight of element (o, k): its value times its scale (R230); none where it is not finite (R239). -/
def Tile.weight (t : Tile) (o k : Nat) : Option Dy :=
  prod ((elemFmt t.hdr.format).decode (t.code o k)).val (scaleVal (t.scale o k))

/-- What one element asks of the ANCHOR (R241): its scale byte, or 127 + e(w) of a finite nonzero element of an unscaled format. -/
def Tile.anchorAt (t : Tile) (o k : Nat) : Int :=
  if scaledFmt t.hdr.format then t.scale o k
  else
    let x := (elemFmt t.hdr.format).decode (t.code o k)
    if x.nonzero then 127 + x.ex else 0

/-- The ANCHOR of R241, of the tile's content. -/
def Tile.trueAnchor (t : Tile) : Nat :=
  ((List.range t.hdr.rows).foldl (fun m o => (List.range t.hdr.cols).foldl (fun m k => max m (t.anchorAt o k)) m) 0).toNat

/-- The ANCHOR that counts: the header's, which the arrays ignore in a tile with FLAGS.KV (R244). -/
def Tile.anchor (t : Tile) : Nat := if t.hdr.flag 2 then t.trueAnchor else t.hdr.anchor

/-- The anchor error of R242. -/
def Tile.anchorError (t : Tile) : Bool :=
  !t.hdr.flag 2 && (t.hdr.anchor == 0xFF || decide (t.hdr.anchor < t.trueAnchor))

/-- A checksum entry (R255): its value, none where Ec is 0xFF (R262). -/
def Tile.csum (t : Tile) (k : Nat) : Option Dy :=
  let v : Nat := t.side (t.hdr.csumOff + 8 * k) 8
  let ec : Nat := v / 2 ^ 56
  if ec = 0xFF then none
  else
    let (_, mb, bias) := (elemFmt t.hdr.format).shape
    let lsb : Int := if t.hdr.format = 0x30 then 0 else 1 - (bias : Int) - mb
    some ⟨sgn 56 v, (ec : Int) - 127 + lsb⟩

/-- Products of row `o` of a tile with a lane's elements. -/
def Tile.rowProducts (t : Tile) (o : Nat) (xs : List Elem) : List (Option Dy) :=
  (List.range t.hdr.cols).map fun k => prod (t.weight o k) ((xs[k]?.map (·.val)).getD none)

/-- Products of the checksum row. -/
def Tile.chkProducts (t : Tile) (xs : List Elem) : List (Option Dy) :=
  (List.range t.hdr.cols).map fun k => prod (t.csum k) ((xs[k]?.map (·.val)).getD none)

/-- The comparison of R260 for one lane: D and T_b from the rows' and the checksum lane's reductions. -/
def checksumPasses (rows : List (LaneAcc × List Bool)) (chk : LaneAcc × List Bool) : Bool :=
  let d := rows.foldl (fun a r => a + r.1.acc) 0 - chk.1.acc
  let n := chk.2.length
  let t := ((List.range n).filter fun j => (chk :: rows).any fun r => (r.2[j]?).getD false).length
  if t = 0 then decide (d = 0) else decide (d.natAbs ≤ (rows.length + 1) * t - 1)

/-! ## FP32 special-function lanes (R271 to R273) -/

abbrev F32 := BitVec 32

/-- What an FP32 word stands for in the special-function lanes: a subnormal input is a zero of the same sign (R271). -/
inductive FV where
  | zero (neg : Bool)
  | fin (d : Dy)
  | inf (neg : Bool)
  | nan
  deriving DecidableEq, Repr

def fvOf (x : F32) : FV :=
  let v := x.toNat
  let neg := v / 2 ^ 31 == 1
  let E : Nat := bits v 23 8
  let M : Nat := v % 2 ^ 23
  if E = 255 then (if M = 0 then .inf neg else .nan)
  else if E = 0 then .zero neg
  else
    let sig : Int := 2 ^ 23 + M
    .fin ⟨if neg then -sig else sig, (E : Int) - 150⟩

def f32Nan : F32 := 0x7FC00000
def f32Inf (neg : Bool) : F32 := if neg then 0xFF800000 else 0x7F800000
def f32Zero (neg : Bool) : F32 := if neg then 0x80000000 else 0
def f32One : F32 := 0x3F800000

/-- Round an exact value to binary32 as R271 gives: to nearest, ties to even; beyond the largest finite value an
infinity; below 2^−126 after rounding a zero of the same sign. `negZero` is the sign of an exact zero. -/
def f32Round (d : Dy) (negZero : Bool := false) : F32 :=
  if d.m = 0 then f32Zero negZero
  else
    let neg := decide (d.m < 0)
    let r := Fmt.fp32.roundMag d
    if 0x7F7FFFFF < r then f32Inf neg
    else if r < 0x00800000 then f32Zero neg
    else BitVec.ofNat 32 ((if neg then 2 ^ 31 else 0) + r)

def FV.neg : FV → Bool
  | .zero n => n
  | .fin d => decide (d.m < 0)
  | .inf n => n
  | .nan => false

/-- FP32 multiplication (R271). -/
def fMul (a b : F32) : F32 :=
  match fvOf a, fvOf b with
  | .nan, _ | _, .nan => f32Nan
  | .inf _, .zero _ | .zero _, .inf _ => f32Nan
  | .inf n, y => f32Inf (n != y.neg)
  | x, .inf n => f32Inf (x.neg != n)
  | .zero n, y => f32Zero (n != y.neg)
  | x, .zero n => f32Zero (x.neg != n)
  | .fin x, .fin y => f32Round (dyMul x y)

/-- FP32 addition (R271). -/
def fAdd (a b : F32) : F32 :=
  match fvOf a, fvOf b with
  | .nan, _ | _, .nan => f32Nan
  | .inf m, .inf n => if m == n then f32Inf m else f32Nan
  | .inf m, _ => f32Inf m
  | _, .inf n => f32Inf n
  | .zero m, .zero n => f32Zero (m && n)
  | .zero _, .fin y => f32Round y
  | .fin x, .zero _ => f32Round x
  | .fin x, .fin y => f32Round (dyAdd x y)

def fNeg (a : F32) : F32 := a ^^^ 0x80000000

def fSub (a b : F32) : F32 := fAdd a (fNeg b)

/-- Order of FP32 values, subnormals with their exact values; none if one is NaN. -/
def fLt (a b : F32) : Option Bool :=
  match fvOf a, fvOf b with
  | .nan, _ | _, .nan => none
  | .inf m, .inf n => some (m && !n)
  | .inf m, _ => some m
  | _, .inf n => some (!n)
  | _, _ => some (match (Fmt.fp32.decode a.toNat).val, (Fmt.fp32.decode b.toNat).val with
      | some x, some y => dyLt x y
      | _, _ => false)

/-- recip, correctly rounded (R272). -/
def fRecip (a : F32) : F32 :=
  match fvOf a with
  | .nan => f32Nan
  | .zero n => f32Inf n
  | .inf n => f32Zero n
  | .fin d =>
    -- 96 quotient bits and a sticky bit decide the rounding
    let k : Nat := 2 ^ 96
    let q : Nat := 2 * (k / d.m.natAbs) + (if k % d.m.natAbs = 0 then 0 else 1)
    f32Round ⟨if d.m < 0 then -(q : Int) else (q : Int), -97 - d.e⟩

/-- The integer square root, bit by bit. -/
def isqrt : Nat → Nat → Nat → Nat
  | 0, _, r => r
  | b + 1, n, r => let t := r + 2 ^ b; isqrt b n (if t * t ≤ n then t else r)

/-- The result the special-function lane chooses among the neighbours of the exact value (R272, R273): `lo` is the exact
value cut to 24 significant bits, `exact` says nothing was cut. A neighbour below 2^−126 is none: a normal result is within 1 ulp. -/
def pickUlp (sel : Fin 3) (lo : Dy) (exact : Bool) : F32 :=
  if exact then f32Round (if sel = 0 && dyLt ⟨1, -126⟩ lo then ⟨lo.m - 1, lo.e⟩ else if sel = 1 then ⟨lo.m + 1, lo.e⟩ else lo)
  else f32Round (if sel = 0 then lo else ⟨lo.m + 1, lo.e⟩)

/-- Cut a positive number to 24 significant bits: the number and whether nothing was cut. -/
def cut24 (d : Dy) : Dy × Bool :=
  let k := dyLog ⟨d.m, 0⟩ - 23
  if k ≤ 0 then (⟨d.m * pow2 (-k), d.e + k⟩, true) else (⟨d.m / pow2 k, d.e + k⟩, decide (d.m % pow2 k = 0))

/-- rsqrt: within 1 ulp of the exact result (R272). -/
def fRsqrt (a : F32) : F32 :=
  match fvOf a with
  | .nan => f32Nan
  | .zero n => f32Inf n
  | .inf n => if n then f32Nan else f32Zero false
  | .fin d =>
    if d.m < 0 then f32Nan
    else
      -- 1 ÷ sqrt(m × 2^e) with e made even: isqrt(2^160 ÷ m) × 2^(−80 − e ÷ 2)
      let m : Nat := if d.e % 2 = 0 then d.m.natAbs else d.m.natAbs * 2
      let e : Int := if d.e % 2 = 0 then d.e else d.e - 1
      let r : Nat := isqrt 81 (2 ^ 160 / m) 0
      let ex := decide (r * r * m = 2 ^ 160)
      let c := cut24 ⟨(r : Int), -80 - e / 2⟩
      pickUlp (Config.rsqrtSel a) c.1 (c.2 && ex)

/-- 2^(2^−i) × 2^224 for i = 1, 2, …, by repeated square roots, and their product over the set bits of a 149-bit
fraction `f` (bit 148 is 2^−1). -/
def exp2Frac : Nat → Nat → Nat → Nat → Nat
  | 0, _, _, acc => acc
  | k + 1, f, root, acc =>
    let root' := isqrt 225 (root * 2 ^ 224) 0
    exp2Frac k f root' (if f.testBit k then acc * root' / 2 ^ 224 else acc)

/-- exp2: within 1 ulp of the exact result (R272). Every normal argument is a whole number of units of 2^−149, so no bit of it is cut; the
power is formed to more than 200 bits before it is cut to 24. -/
def fExp2 (a : F32) : F32 :=
  match fvOf a with
  | .nan => f32Nan
  | .zero _ => f32One
  | .inf n => if n then f32Zero false else f32Inf false
  | .fin d =>
    if dyLe ⟨128, 0⟩ d then f32Inf false
    else if dyLt d ⟨-126, 0⟩ then f32Zero false
    else
      let sc : Int := d.m * pow2 (d.e + 149)
      let n : Int := sc / (2 ^ 149 : Int)
      let f : Nat := (sc % (2 ^ 149 : Int)).toNat
      let p : Nat := exp2Frac 149 f (2 ^ 225) (2 ^ 224)
      pickUlp (Config.exp2Sel a) (cut24 ⟨(p : Int), n - 224⟩).1 (f == 0)

/-- An FP32 word as an exact element (R227, R254). -/
def f32Elem (x : F32) : Elem := Fmt.fp32.decode x.toNat

/-- The flags of R274 as bits. -/
def flINEXACT : Nat := 1
def flNONFINITE : Nat := 2
def flSATURATED : Nat := 4
def flUNCHECKED : Nat := 8

/-- Convert an exact value, or a NaN (none), to a format: the word and its flags (R265 to R268). -/
def Fmt.convFlags (f : Fmt) (v : Option Dy) : Nat × Nat :=
  match v with
  | none => (f.nan, flNONFINITE)
  | some d => let r := f.convert d; (r.1, if r.2 then flSATURATED else 0)

/-- The exact sum of FP32 terms converted to FP32, with its flags (R254, R265, R266). -/
def fSum (l : List F32) : F32 × Nat :=
  let r := sumTerms (l.map f32Elem)
  let c := Fmt.fp32.convFlags (if r.1.nonfinite then none else some (accVal r.1 r.2))
  (BitVec.ofNat 32 c.1, c.2 ||| if r.1.inexact then flINEXACT else 0)

/-! ## Block conversions (R269, R270) -/

/-- The largest finite magnitude of a block, none if it is 0. -/
def blockMax (l : List Elem) : Option Dy :=
  l.foldl (fun m x => match x.val with
    | none => m
    | some d =>
      let a : Dy := ⟨d.m.natAbs, d.e⟩
      if a.m = 0 then m else match m with
        | none => some a
        | some b => if dyLt b a then some a else m) none

/-- The scale exponent of a block: floor(log2 m) − `sub`, −127 where m is 0 or the exponent is below −127. -/
def blockScale (l : List Elem) (sub : Int) : Int :=
  match blockMax l with
  | none => -127
  | some m => max (dyLog m - sub) (-127)

/-- 32 FP32 values to an MXFP8 block (R269): the scale byte, the elements, and whether one saturated. -/
def toMxfp8 (l : List Elem) : Nat × List Nat × Bool :=
  if l.any fun x => !x.finite then (0xFF, l.map fun _ => 0, false)
  else
    let s := blockScale l 8
    let r := l.map fun x => Fmt.e4m3.convert (match x.val with | some d => ⟨d.m, d.e - s⟩ | none => dyZero)
    ((s + 127).toNat, r.map (·.1), r.any (·.2))

/-- 32 FP32 values to a KV4 block (R270): the scale byte and the 4-bit elements. -/
def toKv4 (l : List Elem) : Nat × List Nat :=
  if l.any fun x => !x.finite then (0xFF, l.map fun _ => 0)
  else
    let s := blockScale l 2
    ((s + 127).toNat, l.map fun x =>
      let v := match x.val with
        | some d => rneShift d.m (s - d.e)
        | none => 0
      twos 4 (max (-8) (min 7 v)))

end Sys2Proof.Machine
end

