-- ==== Sys2Proof/Machine/Mover.lean ====
section
/-!
DEFINITION. The tile mover (03_tiers_and_tiles.md R150 to R165): the sequence of R154, one command at a time.
-/

namespace Sys2Proof.Machine

/-- The cursor that a fault or error record of a piece of work names: of the program it serves, else none. -/
def State.cursorOf (s : State) (w : WorkSrc) : Word :=
  match w with
  | .proofer prog _ => s.rd .CUR_VALUE prog
  | _ => BitVec.allOnes 64

/-- A move ends: the channel is free, the completion counts (R165, R166) and is reported. -/
def State.finishMove (s : State) (ch status count : Nat) : State :=
  let x := s.chan ch
  let s := ((s.setChan ch {}).dropClient (.chan ch)).endAccess (slotMover ch)
  let s := if x.desc.srcKind = ekT2 then s.closeDrive (t2Of x.desc.src).1 else s
  let s := if x.desc.dstKind = ekT2 then s.closeDrive (t2Of x.desc.dst).1 else s
  let s := s.wrap F.TILE_MOVES_COUNT
  let s := if status = tsOK then s else s.bump F.TILE_ERR_CNT_COUNT
  let s := if status = tsCrc then s.bump F.TILE_CRC_CNT_COUNT else s
  s.finishWork x.src status count 0

/-- The poisoned lines of a tile that arrived in a container (R663, R664): in a marked tile, the lines equal to the
image. -/
def containerPoison (d : List Byte) : List Nat :=
  if (hdrOf d).flag 0 then (List.range (d.length / 64)).filter fun l => decide (slice d (64 * l) 64 = poisonImage) else []

/-- The header is in the channel buffer: the checks of R154 up to ID_MISMATCH. `hdrBad` says the header was poisoned. -/
def State.acceptHeader (s : State) (ch : Nat) (buf : List Byte) (hdrBad : Bool) : State :=
  let x := s.chan ch
  let h := hdrOf buf
  if hdrBad then s.finishMove ch tsPoison 0
  else if !hdrValid buf || decide (x.desc.extent < h.extent) then s.finishMove ch tsHdrInvalid 0
  else if (x.desc.expectId != 0 && x.desc.expectId != h.id) || (x.desc.expectVer != 0 && x.desc.expectVer != h.version) then
    s.finishMove ch tsIdMismatch 0
  else s.setChan ch { x with phase := .reading, buf := buf }

/-- An edge agent refused the region key of a move's source (access 3) or destination (access 4) from address `fva` on: the channel
stalls on a fault of the access (R96, R97). -/
def State.moveKeyFault (s : State) (ch access fva : Nat) : State :=
  let x := s.chan ch
  let va := if access = 3 then x.desc.src else x.desc.dst
  let s := ((s.dropClient (.chan ch)).endAccess (slotMover ch)).keyFault (slotMover ch) x.ctx access va x.desc.extent (s.cursorOf x.src) fva
  s.setChan ch { x with phase := .faulted, keyed := false }

/-- The half of a channel (R884). -/
def chanHalf (ch : Nat) : Half := ofHalfNum (ch / 32)

/-- The state as a channel's present access translates in it (R78). -/
def State.moveView (s : State) (ch : Nat) : State := s.asOf (slotMover ch) (s.chan ch).ctx

/-- The extent checks passed: read the source header, ask the drive, or wait for an inbound tile (R154, R157). -/
def State.readSource (s : State) (ch : Nat) (env : Env) : State :=
  let x := s.chan ch
  let d := x.desc
  if d.srcKind = ekT2 then
    (s.setChan ch { x with phase := .t2Read }).emit (.driveRead (t2Of d.src).1 (pairOf ch) (t2Of d.src).2 (lbasOf d.extent))
  else if d.srcKind = ekTSP then s.setChan ch { x with phase := .waitTsp }
  else if d.op = opCopyRaw then s.setChan ch { x with phase := .reading, buf := [] }
  else
    let r := s.readEnd x.ctx d.srcKind d.src 256 env
    let s := s.noteEnd (chanHalf ch) x.ctx d.srcKind d.src 256
    match r.refused with
    | some va => s.moveKeyFault ch 3 va
    | none => if r.err then s.finishMove ch tsSrcError 0 else s.acceptHeader ch r.data r.bad

/-- Present the two extents of a VA move (R94, R95): the source fault is reported first. -/
def State.checkMove (s : State) (ch : Nat) : State × Presented × Nat :=
  let x := s.chan ch
  let d := x.desc
  let cur := s.cursorOf x.src
  let r := if d.srcKind = ekVA then s.present (slotMover ch) x.ctx 3 d.src d.extent .read cur else (s, .pass)
  match r.2 with
  | .pass =>
    let q := if d.dstKind = ekVA then r.1.present (slotMover ch) x.ctx 4 d.dst d.extent .write cur else (r.1, .pass)
    (q.1, q.2, tsDstError)
  | p => (r.1, p, tsSrcError)

/-- Start, or present again after a fault, the descriptor that a channel holds. -/
def State.presentMove (s : State) (ch : Nat) (env : Env) : State :=
  let x := s.chan ch
  let d := x.desc
  let a := s.endpointStatus x.ctx x.src d.srcKind d.src d.extent d.srcOut
  let b := s.endpointStatus x.ctx x.src d.dstKind d.dst d.extent d.dstOut
  if a ≠ tsOK || b ≠ tsOK then
    let staging := if a ≠ tsOK then d.srcKind = ekGPA && s.gpaStaging d.src d.extent else d.dstKind = ekGPA && s.gpaStaging d.dst d.extent
    let s := if x.ctx = 128 && staging then s.bump F.TIER_STAGE_REFUSED_COUNT else s
    s.finishMove ch (if a ≠ tsOK then a else b) 0
  else
    match s.checkMove ch with
    | (s, .pass, _) => s.readSource ch env
    | (s, .stalled, _) => s.setChan ch { s.chan ch with phase := .faulted }
    | (s, .error, st) => s.finishMove ch st 0

/-- The rank of a Proofer descriptor (R190): layers ahead of its program's cursor, then program, then entry; the best of
its tile's references. Other descriptors have none. -/
def State.moveRank (s : State) (w : WorkSrc) : Nat :=
  match w with
  | .proofer _ num =>
    match s.stage.find? fun t => t.num == num with
    | none => 0
    | some t => t.refs.foldl (fun b r =>
        let n := max 1 (sget {} s.progs r.prog).layers.length
        let cur := s.fld F.CUR_VALUE_LAYER r.prog
        let ahead := match r.step with
          | some k => (k - s.fld F.CUR_VALUE_STEP r.prog) * n + r.layer - cur
          | none => (r.layer + n - cur % n) % n
        min b (ahead * 2 ^ 20 + r.prog * 2 ^ 13 + r.entry)) (2 ^ 80)
  | _ => 0

/-- The waiting descriptor of an operation that starts next and its channel (R884): the one that became ready first, if it has that
operation and a channel, else the Proofer descriptor of the best rank (R190). -/
def State.pickMove (s : State) (op : Nat) : Option (Nat × Nat) :=
  let at_ := fun k => s.waitingMoves[k]?
  let ks := List.range s.waitingMoves.length
  let start := fun k => (at_ k).bind fun m => if m.2.2.op = op then (s.chooseChan m.1 m.2.1 m.2.2).map fun ch => (k, ch) else none
  let first := ks.find? fun k => (at_ k).any fun m => !m.2.1.isProofer && !s.fenced m.2.1 m.2.2
  let rank := fun k => ((at_ k).map fun m => s.moveRank m.2.1).getD 0
  let best := (ks.filter fun k => (at_ k).any fun m => m.2.1.isProofer && decide (m.2.2.op = op)).foldl
    (fun (b : Option Nat) k => match b with
      | none => some k
      | some j => if rank k < rank j then some k else b) none
  match first.bind start with
  | some r => some r
  | none => best.bind start

/-- Start the next descriptor of an operation. A descriptor of management firmware, given as bytes, is put behind those
that wait; one that carries a reserved encoding is rejected whole (R13). -/
def State.startMove (s : State) (op : Nat) (fw : List Byte) (env : Env) : State :=
  let s :=
    if fw.isEmpty then s
    else if descReserved fw || (descOf fw).op ≠ op then s.emit (.note "firmware descriptor rejected" [])
    else s.queueMove 128 (.fw (descOf fw).cookie) (descOf fw)
  match s.pickMove op with
  | none => s
  | some (k, ch) =>
    match s.waitingMoves[k]? with
    | none => s
    | some (ctx, w, d) =>
      let s := { s with waitingMoves := s.waitingMoves.eraseIdx k }
      (s.setChan ch { phase := .reading, desc := d, ctx := ctx, src := w }).presentMove ch env

/-- COPY_TILE (R154): the next COPY_TILE descriptor starts on a channel. -/
def execCopyTile (fw : List Byte) (env : Env) (s : State) : Out :=
  .next <| s.clocked (s.startMove opCopyTile fw env)

/-- COPY_RAW (R150): the next COPY_RAW descriptor starts on a channel. -/
def execCopyRaw (fw : List Byte) (env : Env) (s : State) : Out :=
  .next <| s.clocked (s.startMove opCopyRaw fw env)

/-- What the channel will write and its poisoned lines: a tile's header copy carries POISON if a codeword was poisoned
(R154). -/
def outgoing (x : ChanSt) : List Byte :=
  if x.desc.op = opCopyTile && (x.flag || !x.poison.isEmpty) then poisonHdr x.buf ++ x.buf.drop 256 else x.buf

/-- Pad an extent with zeros to whole LBAs (R140). -/
def padLba (d : List Byte) : List Byte := d ++ List.replicate (roundUp d.length 4096 - d.length) 0#8

/-- Issue a Write with FUA of the image from an LBA of the destination extent on (R135, R156). The data leave the channel for the half of
the drive's I/O die (R22). -/
def State.t2Write (s : State) (ch lba : Nat) (d : List Byte) : State :=
  let a := t2Of (s.chan ch).desc.dst
  (s.cross (chanHalf ch) (driveHalf a.1) d.length).emit (.driveWrite a.1 (pairOf ch) ((a.2 + lba) * 4096) true d)

/-- Issue destination writes to memory for the channel buffer from a byte on: first those that carry a region key, so that a refusal leaves
the rest unwritten (R97, R111), then the others. -/
def State.writeParts (s : State) (ch first : Nat) (keyed : Bool) : State :=
  let x := s.chan ch
  let d := x.desc
  let o := outgoing x
  let v := s.moveView ch
  let r := s.writeEnd x.ctx d.dstKind (d.dst + first) (o.drop first)
    ((x.poison.filter (first / 64 ≤ ·)).map (· - first / 64)) (.chan ch) v (fun t => t.keyed == keyed)
  if r.2 then r.1.setChan ch { x with phase := .writing, keyed := keyed }
  else (r.1.undefineEnd x.ctx d.dstKind d.dst o.length v).finishMove ch tsDstError 0

/-- The bytes of a destination that are not written first: a tile's header (R154). -/
def Desc.bodyFrom (d : Desc) : Nat := if d.op = opCopyTile then 256 else 0

/-- Issue the destination writes of the channel buffer (R154, R156, R157). A drive that has left READY takes no new Write: the move ends with
T2_DOWN and no byte has moved (R142). A tier 2 tile of one LBA takes one Write, that of its header's LBA (DESIGN CHOICE, assumption log 61). -/
def State.writeDest (s : State) (ch : Nat) : State :=
  let x := s.chan ch
  let d := x.desc
  let o := outgoing x
  if d.dstKind = ekT2 then
    let img := padLba (withImage 0 o x.poison)
    if s.fld F.TIER_N_STATE_STATE (t2Of d.dst).1 ≠ dvREADY then s.finishMove ch tsT2Down 0
    else if img.length ≤ 4096 then (s.setChan ch { x with phase := .t2Header }).t2Write ch 0 img
    else (s.setChan ch { x with phase := .t2Body }).t2Write ch 1 (img.drop 4096)
  else if d.dstKind = ekTSP then
    let k := (tspOf d.dst).1 * 16 + (tspOf d.dst).2
    if s.tspTooBig (tspOf d.dst).1 (tspOf d.dst).2 o.length then
      (s.setFlag F.TSP_STREAM_STATUS_TOO_BIG true k).finishMove ch tsTspDown 0
    else
    let q := sget [] s.tspOut k
    let tile : PortTile := { chan := ch, data := withImage 0 o x.poison, poison := x.poison }
    let s := { s with tspOut := sput [] k (q ++ [tile]) s.tspOut }.cross (chanHalf ch) (portHalf (tspOf d.dst).1) o.length
    s.setChan ch { x with phase := .tspSend }
  else
    let first := d.bodyFrom
    s.writeParts ch first ((s.moveView ch).keyedEnd x.ctx d.dstKind (d.dst + first) (o.length - first))

/-- TILE_SOURCE_READ_DONE (R154): payload and side data are in the channel buffer; the CRC is checked unless a codeword
was poisoned, and the destination writes are issued. A COPY_RAW has no header and no CRC. What a source written meanwhile delivers R163
leaves open: the bytes behind the header are those of this command's moment, the header is the copy that was checked (DESIGN CHOICE,
assumption log 61). -/
def execTileSourceReadDone (ch : Nat) (env : Env) (s : State) : Out :=
  run (.tileSourceReadDone ch env) <| s.clocked <|
    let s := s.codewords 4 env
    let x := s.chan ch
    if x.phase ≠ .reading then s
    else
      let d := x.desc
      let h := hdrOf x.buf
      let whole := if d.op = opCopyRaw then d.extent else h.extent
      let fromBuf := d.srcKind = ekT2 || d.srcKind = ekTSP
      let v := s.moveView ch
      let a := d.bodyFrom
      let r : ReadRes := if fromBuf then { data := slice x.buf a (whole - a), poison := x.poison.map (· - a / 64) }
        else s.readEnd x.ctx d.srcKind (d.src + a) (whole - a) env v
      let s := if fromBuf then s else s.noteEnd (chanHalf ch) x.ctx d.srcKind (d.src + a) (whole - a) v
      match r.refused with
      | some va => s.moveKeyFault ch 3 va
      | none =>
      if r.err then s.finishMove ch tsSrcError 0
      else if d.op = opCopyTile && !r.bad && crc32c r.data ≠ h.crc then s.finishMove ch tsCrc 0
      else (s.setChan ch { x with buf := slice x.buf 0 a ++ r.data, poison := r.poison.map (· + a / 64),
                                  flag := r.bad || (d.op = opCopyTile && h.flag 0) }).writeDest ch

/-- A move has been written whole: engine-cache lines are dropped if INV is set, and it completes OK, or POISON if the
flag was set (R154, R666). -/
def State.moveWritten (s : State) (ch : Nat) : State :=
  let x := s.chan ch
  let s := if x.desc.inv then s.invalidateEnd x.ctx x.desc.dstKind x.desc.dst x.buf.length (s.moveView ch) else s
  s.finishMove ch (if x.flag then tsPoison else tsOK) x.buf.length

/-- A destination write failed (R159): the destination is undefined. -/
def State.destFailed (s : State) (ch : Nat) : State :=
  let x := s.chan ch
  (s.undefineEnd x.ctx x.desc.dstKind x.desc.dst x.buf.length (s.moveView ch)).finishMove ch tsDstError 0

/-- Every payload write is acknowledged: the header is written, last (R154). -/
def State.bodyWritten (s : State) (ch : Nat) : State :=
  let x := s.chan ch
  if x.desc.op = opCopyRaw then s.moveWritten ch
  else
    let r := s.writeEnd x.ctx x.desc.dstKind x.desc.dst ((outgoing x).take 256) [] (.chan ch) (s.moveView ch)
    if r.2 then r.1.setChan ch { x with phase := .header } else r.1.destFailed ch

/-- TILE_WRITES_ACKED (R154, R159): every payload write is acknowledged, and the header is written last; a failed write
leaves the destination undefined. `ok` says how the writes to own and host memory ended; those to other nodes end with
their responses, before which this event does not come. Where only the writes that carry a region key were issued so far, the others follow. -/
def execTileWritesAcked (ch : Nat) (ok : Bool) (s : State) : Out :=
  run (.tileWritesAcked ch ok) <| s.clocked <|
    let x := s.chan ch
    let f := s.takeFails (.chan ch)
    if x.phase ≠ .writing || s.awaits (.chan ch) then s
    else match keyFail f.2 with
    | some k => f.1.moveKeyFault ch 4 k.va
    | none =>
      if !ok || !f.2.isEmpty then s.destFailed ch
      else if x.keyed then
        let s := f.1.writeParts ch x.desc.bodyFrom false
        if (s.chan ch).phase = .writing && !s.awaits (.chan ch) then s.bodyWritten ch else s
      else f.1.bodyWritten ch

/-- A drive took a Write of a move: its bytes count (R166). -/
def State.t2Wrote (s : State) (n : Nat) : State := (s.wrap F.TIER_T2_BYTES_WR_COUNT 0 n).lifeAdd 0x5001 3 n

/-- The first FUA Write of a T2 destination is complete: the first LBA, which holds the header, is written (R156); a move that a partition
reset ends issues no further command (R160). -/
def State.writeT2Header (s : State) (ch : Nat) : State :=
  let x := s.chan ch
  let img := padLba (withImage 0 (outgoing x) x.poison)
  let s := s.t2Wrote (img.length - 4096)
  if x.aborted then s.finishMove ch tsPartitionReset 0
  else (s.setChan ch { x with phase := .t2Header }).t2Write ch 0 (img.take 4096)

/-- The Write of the header's LBA is complete. -/
def State.t2Done (s : State) (ch : Nat) : State :=
  let s := s.t2Wrote 4096
  if (s.chan ch).aborted then s.finishMove ch tsPartitionReset 0 else s.moveWritten ch

/-- T2_BODY_WRITE_DONE (R156): the first FUA Write completes and the header LBA is written. -/
def execT2BodyWriteDone (ch : Nat) (s : State) : Out :=
  run (.t2BodyWriteDone ch) <| s.clocked <|
    if (s.chan ch).phase ≠ .t2Body then s else s.writeT2Header ch

/-- A command of a move on a drive failed or timed out (R165): the move completes with T2_ERROR, or as its partition reset asks (R160). -/
def State.t2Failed (s : State) (ch : Nat) : State :=
  s.finishMove ch (if (s.chan ch).aborted then tsPartitionReset else tsT2Error) 0

/-- TILE_HEADER_WRITTEN (R154): the header write completes, INV runs if set, and the move completes. -/
def execTileHeaderWritten (ch : Nat) (ok : Bool) (s : State) : Out :=
  run (.tileHeaderWritten ch ok) <| s.clocked <|
    let x := s.chan ch
    let f := s.takeFails (.chan ch)
    if x.phase = .t2Header then
      (if ok then s.t2Done ch else (s.bump F.TIER_N_CMD_ERR_COUNT (t2Of x.desc.dst).1).t2Failed ch)
    else if x.phase ≠ .header || s.awaits (.chan ch) then s
    else match keyFail f.2 with
    | some k => f.1.moveKeyFault ch 4 k.va
    | none => if !ok || !f.2.isEmpty then s.destFailed ch else f.1.moveWritten ch

/-- NVME_COMPLETION (R137): an NVMe completion entry arrives for a tile mover command. -/
def execNvmeCompletion (ch : Nat) (ok : Bool) (env : Env) (s : State) : Out :=
  run (.nvmeCompletion ch ok env) <| s.clocked <|
    let x := s.chan ch
    let d := x.desc
    let drive := if x.phase = .t2Read then (t2Of d.src).1 else (t2Of d.dst).1
    if x.phase ≠ .t2Read && x.phase ≠ .t2Body && x.phase ≠ .t2Header then s
    else if !ok then (s.bump F.TIER_N_CMD_ERR_COUNT drive).t2Failed ch
    else if x.phase = .t2Read then
      let n := lbasOf d.extent * 4096
      let r := envRead env (.drive drive) ((t2Of d.src).2 * 4096) n
      let s := (s.wrap F.TIER_T2_BYTES_RD_COUNT 0 n).cross (driveHalf drive) (chanHalf ch) n
      if r.err then s.finishMove ch tsT2Error 0
      else if d.op = opCopyRaw then s.setChan ch { x with phase := .reading, buf := r.data.take d.extent }
      else
        let pz := containerPoison (r.data.take d.extent)
        (s.setChan ch { x with poison := pz }).acceptHeader ch r.data (pz.any (· < 4))
    else if x.phase = .t2Body then s.writeT2Header ch
    else s.t2Done ch

/-- A partition reset ends a move (R160); one whose Write a drive has in hand ends when that completes. -/
def State.abortMove (s : State) (ch : Nat) : State :=
  let x := s.chan ch
  match x.phase with
  | .idle | .tspSend | .copy => s
  | .faulted => (s.freeEngine (slotMover ch)).finishMove ch tsPartitionReset 0
  | .waitTsp | .t2Read | .reading => s.finishMove ch tsPartitionReset 0
  | .writing | .header =>
    if x.desc.op = opCopyTile then
      let r := s.writeEnd x.ctx x.desc.dstKind x.desc.dst (poisonHdr x.buf) [] .none (s.moveView ch)
      r.1.finishMove ch tsPartitionReset 0
    else (s.undefineEnd x.ctx x.desc.dstKind x.desc.dst x.buf.length (s.moveView ch)).finishMove ch tsPartitionReset 0
  | .t2Body | .t2Header => s.setChan ch { x with aborted := true }

/-- The host memory or remote part of a move answers nothing more: the descriptor is put back to run again from the
source header on another channel of the same half (R650); a tile already taken from a stream ends with SRC_ERROR. -/
def State.restartMove (s : State) (ch : Nat) (env : Env) : State :=
  let x := s.chan ch
  let s := (s.freeEngine (slotMover ch)).dropClient (.chan ch)
  if x.phase = .idle then s
  else if x.aborted then s.finishMove ch tsPartitionReset 0
  else if x.phase = .copy then
    -- the copy of a sequence (R708) goes on with another channel
    match (List.range 64).find? fun k => k ≠ ch && s.chanFree x.src k with
    | some k => (s.setChan ch {}).setChan k x
    | none => s.setChan ch {}
  else if x.desc.srcKind = ekTSP && x.phase ≠ .waitTsp && x.phase ≠ .faulted then s.finishMove ch tsSrcError 0
  else
    let h := ch / 32
    match (List.range 32).find? fun k => h * 32 + k ≠ ch && s.chanFree x.src (h * 32 + k) with
    | some k =>
      ((s.setChan ch {}).setChan (h * 32 + k) { phase := .reading, desc := x.desc, ctx := x.ctx, src := x.src }).presentMove (h * 32 + k) env
    | none => { s.setChan ch {} with waitingMoves := (x.ctx, x.src, x.desc) :: s.waitingMoves }

/-! ## Scrubbing and memory failures (R129 to R133, R657 to R659) -/

/-- SCRUB_READ (R129 to R131): the scrubber reads one codeword, whose wrong symbols are `err`: what it corrects is counted and written
back, an uncorrectable codeword is written back as poison with a record. -/
def execScrubRead (off : Nat) (err : List Byte) (s : State) : Out :=
  .next <| s.clocked <|
    let line := off / 64
    let s : State := if off < t0Size then { s with scrub0 := (64 * line + 64) % t0Size } else { s with scrub1 := 64 * line + 64 }
    s.cellRead 2 7 off err

/-- CORR_HOUR_ROLLOVER (R658): the per-device hourly counts start again. -/
def execCorrHourRollover (s : State) : Out := .next <| s.clocked <| { s with corrHour := [] }

end Sys2Proof.Machine
end

