-- ==== Sys2Proof/Machine/Proofer.lean ====
section
/-!
DEFINITION. The Proofer (04_layer_cursor.md): the staging directory, the issue and eviction of Hampers, its moves and
their completions, halts, the states of programs, and stalls with their causes.
-/

namespace Sys2Proof.Machine

/-! ## Programs -/

/-- States of CUR_STATE.STATE (R178). -/
def pgEMPTY : Nat := 0
def pgLOADING : Nat := 1
def pgPARKED : Nat := 2
def pgRUNNING : Nat := 3
def pgSTALLED : Nat := 4
def pgHALTED : Nat := 5

/-- Codes of PRF_HALT.CODE (R217). -/
def hcNO_REPLICA : Nat := 1
def hcSTAGE_LOST : Nat := 2
def hcSTEP_LIMIT : Nat := 3
def hcHALF_RESET : Nat := 4
def hcPARTITION_RESET : Nat := 5
def hcARRAY : Nat := 6

def State.prog (s : State) (n : Nat) : ProgSt := sget {} s.progs n

def State.setProg (s : State) (n : Nat) (p : ProgSt) : State := { s with progs := sput {} n p s.progs }

def State.pstate (s : State) (n : Nat) : Nat := s.fld F.CUR_STATE_STATE n

/-- Set a program's state; CAUSE reads 0xF outside STALLED (R210). -/
def State.setPstate (s : State) (n st : Nat) : State :=
  let s := s.setFld F.CUR_STATE_STATE st n
  if st = pgSTALLED then s else s.setFld F.CUR_STATE_CAUSE 0xF n

/-- RUNNING or STALLED. -/
def State.live (s : State) (n : Nat) : Bool := s.pstate n == pgRUNNING || s.pstate n == pgSTALLED

/-- The context of a program's partition. -/
def ProgSt.ctx (p : ProgSt) : Nat := if p.part = 0xFF then 128 else p.part

def State.curStep (s : State) (n : Nat) : Nat := s.fld F.CUR_VALUE_STEP n
def State.curLayer (s : State) (n : Nat) : Nat := s.fld F.CUR_VALUE_LAYER n
def State.curPhase (s : State) (n : Nat) : Nat := s.fld F.CUR_VALUE_PHASE n

/-- A program halts (R178, R217, R218): its staging and cursor stay, an error record is written. -/
def State.haltAt (s : State) (n code layer entry : Nat) : State :=
  if s.pstate n = pgEMPTY || s.pstate n = pgHALTED then s
  else
    let s := s.setPstate n pgHALTED
    let s := s.setFld F.PRF_HALT_CODE code n
    let s := s.setFld F.PRF_HALT_LAYER layer n
    let s := s.setFld F.PRF_HALT_ENTRY entry n
    let s := s.setProg n { s.prog n with items := [], begun := false, embeds := [], pendW := [], pendK := [], started := false }
    s.record { cls := ecPRF, event := 1, inst := n, part := (s.prog n).part, cursor := s.rd .CUR_VALUE n, aux := code }

def State.haltProg (s : State) (n code : Nat) : State := s.haltAt n code (s.curLayer n) 0

/-- A program halts with code ARRAY; DA_PROG_ERR names the code of R320, layer, phase and slot. -/
def State.arrayHalt (s : State) (n code slot : Nat) : State :=
  if s.pstate n = pgEMPTY || s.pstate n = pgHALTED then s
  else
    let s := s.setFld F.DA_PROG_ERR_CODE code n
    let s := s.setFld F.DA_PROG_ERR_LAYER (s.curLayer n) n
    let s := s.setFld F.DA_PROG_ERR_PHASE (s.curPhase n) n
    let s := s.setFld F.DA_PROG_ERR_SLOT slot n
    s.haltProg n hcARRAY

/-! ## Hamper tables (R181 to R186, R888) -/

/-- The endpoint kinds and addresses of a Hamper entry's sources; kind 0xF is none. -/
def hamperSrcs (b : List Byte) : List (Nat × Nat) :=
  ([0, 1, 2].map fun k => (leAt b (0x14 + k) 1, leAt b (0x18 + 8 * k) 8)).filter fun x => x.1 ≠ 0xF

def hamperOf (b : List Byte) : HEntry :=
  { expert := if leAt b 0 1 = 2 then some (leAt b 2 1) else none, keep := leAt b 1 1 % 2 == 1, half := bits (leAt b 1 1) 1 2,
    extent := leAt b 4 4, id := leAt b 8 8, ver := leAt b 0x10 4, slot := leAt b 0x30 2, srcs := hamperSrcs b }

/-- The ENCODING check of R184. -/
def hamperBad (b : List Byte) : Bool :=
  let ty := leAt b 0 1
  (ty != 1 && ty != 2) || leAt b 1 1 / 8 != 0 || bits (leAt b 1 1) 1 2 == 3 || (ty == 1 && leAt b 2 1 != 0) ||
  leAt b 3 1 != 0 || leAt b 0x17 1 != 0 || !zeros b 0x32 14 || decide (4095 < leAt b 0x30 2) ||
  decide (leAt b 4 4 < 256) || decide (73984 < leAt b 4 4) || leAt b 8 8 == 0 || leAt b 0x14 1 == 0xF ||
  [0, 1, 2].any fun k =>
    let kind := leAt b (0x14 + k) 1
    if kind = 0xF then false
    else (kind != ekVA && kind != ekT2) || endpointReserved opCopyTile kind (leAt b (0x18 + 8 * k) 8)

def halvesOf (h : Nat) : List Nat := if h = 2 then [0, 1] else [h]

/-- The staging allocation of an extent. -/
def allocOf (extent : Nat) : Nat := roundUp extent 4096

/-- A quota of a half in bytes. -/
def State.quota (s : State) (r : Fld × Fld) (n h : Nat) : Nat := s.fld (if h = 0 then r.1 else r.2) n * 1048576

def stageQuota : Fld × Fld := (F.PRF_STAGE_QUOTA_EAST_MIB, F.PRF_STAGE_QUOTA_WEST_MIB)
def specQuota : Fld × Fld := (F.PRF_SPEC_QUOTA_EAST_MIB, F.PRF_SPEC_QUOTA_WEST_MIB)

/-- The total allocation in a half of entries, those with equal TILE_ID and EXPECT_VER counted once, with the EXTENT of the first
(DESIGN CHOICE, assumption log 61). -/
def totalAlloc (h : Nat) (es : List HEntry) : Nat :=
  (es.foldl (fun (acc : Nat × List (Nat × Nat)) e =>
    if !(halvesOf e.half).contains h || acc.2.contains (e.id, e.ver) then acc
    else (acc.1 + allocOf e.extent, (e.id, e.ver) :: acc.2)) (0, [])).1

/-- The entries of some layers. -/
def entriesAt (ls : List (List HEntry)) (layers : List Nat) : List HEntry := layers.flatMap fun l => ls[l]?.getD []

/-- Where the running total of KEEP entries first exceeds a quota (R888). -/
def keepOver (ls : List (List HEntry)) (h quota : Nat) : Option (Nat × Nat) :=
  let flat := (List.range ls.length).flatMap fun l =>
    let es := ls[l]?.getD []
    (List.range es.length).filterMap fun k => (es[k]?).bind fun e => if e.keep then some (l, k) else none
  let ent := fun (p : Nat × Nat) => ((ls[p.1]?.getD [])[p.2]?).toList
  (List.range flat.length).findSome? fun i =>
    if decide (quota < totalAlloc h ((flat.take (i + 1)).flatMap ent)) then flat[i]? else none

/-- The first window of LEAD + 1 layers over the STAGE_QUOTA of a half (R185). -/
def windowOver (ls : List (List HEntry)) (h quota lead : Nat) : Option Nat :=
  let n := ls.length
  let keep := (entriesAt ls (List.range n)).filter (·.keep)
  (List.range n).find? fun a =>
    let win := (entriesAt ls ((List.range (lead + 1)).map fun k => (a + k) % n)).filter fun e => !e.keep && e.expert.isNone
    decide (quota < totalAlloc h keep + totalAlloc h win)

/-- The lowest pair of consecutive layers over the SPEC_QUOTA of a half (R186). -/
def pairOver (ls : List (List HEntry)) (h quota : Nat) : Option Nat :=
  (List.range (max 1 (ls.length - 1))).find? fun a =>
    decide (quota < totalAlloc h ((entriesAt ls [a, a + 1]).filter fun e => e.expert.isSome))

/-- Do the quotas of the loaded programs with program n exceed a half's staging size (R184). -/
def State.quotaSumOver (s : State) (n h : Nat) : Bool :=
  let others := (List.range 64).filter fun m => m == n || s.pstate m != pgEMPTY
  decide ((s.stageOf (ofHalfNum h)).2 < others.foldl (fun a m => a + s.quota stageQuota m h + s.quota specQuota m h) 0)

/-- The first place where a check fails, over layers and entries. -/
def firstBad {α : Type} (ls : List (List α)) (bad : Nat → List α → Nat → Bool) : Option (Nat × Nat) :=
  (List.range ls.length).findSome? fun l =>
    let es := ls[l]?.getD []
    ((List.range es.length).find? fun k => bad l es k).map fun k => (l, k)

/-- The checks of R184 over the raw Hamper tables of a program: code, layer and entry, or the parsed layers. -/
def State.checkHampers (s : State) (n : Nat) (raw : List (List (List Byte))) : (Nat × Nat × Nat) ⊕ List (List HEntry) :=
  let lead := s.fld F.PRF_PROG_CFG_LEAD n
  let ls := raw.map (·.map hamperOf)
  if raw.length ≤ lead then .inl (1, 0, 0)
  else match firstBad raw (fun _ es k => (es[k]?).any hamperBad) with
  | some (l, k) => .inl (3, l, k)
  | none => match firstBad ls (fun _ es k => (es[k]?).any fun e => (es.take k).any fun q => q.slot == e.slot) with
  | some (l, k) => .inl (4, l, k)
  | none => match firstBad ls (fun _ es k => (es[k]?).any fun e => !e.keep && (e.srcs.head?).any (·.1 == ekT2)) with
  | some (l, k) => .inl (5, l, k)
  | none => match [0, 1].findSome? (fun h =>
      let q := s.quota stageQuota n h
      match keepOver ls h q with
      | some p => some p
      | none => (windowOver ls h q lead).map fun a => (a, 0)) with
  | some (l, k) => .inl (6, l, k)
  | none => match [0, 1].findSome? (fun h => pairOver ls h (s.quota specQuota n h)) with
  | some l => .inl (7, l, 0)
  | none => if s.quotaSumOver n 0 || s.quotaSumOver n 1 then .inl (8, 0, 0) else .inr ls

/-! ## The staging directory (R191 to R198) -/

/-- The allocated extents of a half's staging region. -/
def State.stageTaken (s : State) (h : Nat) : List (Nat × Nat) :=
  (s.stage.filter fun t => t.half == h && t.st ≠ .space).map fun t => (t.off, t.len)

/-- A free extent of a staging region: the lowest that fits. -/
def State.findSpace (s : State) (h len : Nat) : Option Nat :=
  if s.stageGone (ofHalfNum h) then none
  else
    let reg := s.stageOf (ofHalfNum h)
    let taken := s.stageTaken h
    let base := roundUp reg.1 4096
    let ok := (base :: taken.map fun t => t.1 + t.2).filter fun c =>
      decide (c + len ≤ reg.1 + reg.2) && !taken.any fun t => meets t.1 t.2 c len
    ok.foldl (fun b c => match b with | none => some c | some x => some (min x c)) none

/-- Has a tile's half unallocated space for it: a redirected tile takes space outside all quotas (R193), a follower's tile space within
the follower's quota (R212). -/
def State.roomFor (s : State) (t : StageTile) : Bool :=
  let taken := fun (p : StageTile → Bool) => (s.stage.filter fun x => x.half == t.half && x.st ≠ .space && p x).foldl (fun a x => a + x.len) 0
  let expert := fun (r : TileRef) => (((((s.prog r.prog).layers[r.layer]?).getD {}).hamper[r.entry]?).bind (·.expert)).isSome
  let loaded := (List.range 64).filter fun n => s.pstate n != pgEMPTY
  if t.redir then
    decide (taken (·.redir) + t.len + loaded.foldl (fun a n => a + s.quota stageQuota n t.half + s.quota specQuota n t.half) 0 ≤
      (s.stageOf (ofHalfNum t.half)).2)
  else if t.fol then
    let f := (t.refs.head?.map (·.prog)).getD 0
    decide (taken (fun x => !x.redir && x.refs.any fun r => r.prog == f && !expert r) + t.len ≤ s.quota stageQuota f t.half)
  else true

/-- The staging space a tile's move takes. -/
def State.spaceFor (s : State) (t : StageTile) : Option Nat := if s.roomFor t then s.findSpace t.half t.len else none

/-- PRF_STAGE_FREE follows the directory. -/
def State.syncFree (s : State) : State :=
  let free := fun (h : Nat) =>
    if s.stageGone (ofHalfNum h) then 0
    else ((s.stageOf (ofHalfNum h)).2 - (s.stageTaken h).foldl (fun a t => a + t.2) 0) / 1048576
  (s.setFld F.PRF_STAGE_FREE_EAST_MIB (free 0)).setFld F.PRF_STAGE_FREE_WEST_MIB (free 1)

def State.setTile (s : State) (t : StageTile) : State :=
  { s with stage := s.stage.map fun x => if x.num = t.num then t else x }

def State.tileNum (s : State) (num : Nat) : Option StageTile := s.stage.find? fun t => t.num == num

/-- The COPY_TILE descriptor of a tile (R188). -/
def StageTile.desc (t : StageTile) : Desc :=
  let x := (t.srcs[t.src]?).getD (ekVA, 0)
  { op := opCopyTile, flags := 2, srcKind := x.1, dstKind := ekSTAGE, extent := t.extent, src := x.2, dst := t.off,
    expectId := t.id, expectVer := t.want }

/-- Issue a tile's move, if its half has staging space (R188, R193). -/
def State.issueMove (s : State) (t : StageTile) : State :=
  match (if t.st = .space then s.spaceFor t else some t.off) with
  | none => s
  | some off =>
    let t := { t with off := off, st := .flight }
    let ctx := if t.part = 0xFF then 128 else t.part
    let prog := (t.refs.head?.map (·.prog)).getD 0
    let s := (s.setTile t).queueMove ctx (.proofer prog t.num) t.desc
    (s.wrap F.PRF_MOVES_ISSUED_COUNT).syncFree

/-- Tiles that wait for space take what has become free, in the order of R190. -/
def State.retrySpace (s : State) : State :=
  let wait := s.stage.filter fun t => t.st = .space
  wait.foldl (fun s _ =>
    let open_ := s.stage.filter fun t => t.st = .space && (s.spaceFor t).isSome
    match open_ with
    | [] => s
    | t :: rest => s.issueMove (rest.foldl (fun b c =>
        if s.moveRank (.proofer 0 c.num) < s.moveRank (.proofer 0 b.num) then c else b) t)) s

/-- Take a reference of an entry in one half (R191, R193, R202). The other half takes the tile while this one's region alone is
withdrawn; with both withdrawn its move waits. -/
def State.useEntry (s : State) (r : TileRef) (e : HEntry) (h0 : Nat) (fol : Bool) : State :=
  let moved := s.stageGone (ofHalfNum h0) && !s.stageGone (ofHalfNum (1 - h0))
  let h := if moved then 1 - h0 else h0
  let part := (s.prog r.prog).part
  match s.stage.find? fun t => t.part == part && t.id == e.id && (e.ver == 0 || t.ver == e.ver) && t.half == h && t.st ≠ .freed with
  | some t => if t.refs.contains r then s else s.setTile { t with refs := t.refs ++ [r] }
  | none =>
    let t : StageTile :=
      { num := s.stageNum, part := part, id := e.id, ver := e.ver, want := e.ver, half := h, len := allocOf e.extent, extent := e.extent,
        srcs := e.srcs, refs := [r], redir := moved, fol := fol }
    let s := { s with stage := s.stage ++ [t], stageNum := s.stageNum + 1 }
    let s := if moved then s.bump F.PRF_REDIRECT_CNT_COUNT else s
    s.issueMove t

/-- The halves that receive a copy of an entry: one of a HALF "both" entry while one region alone is withdrawn (R193). That copy stands in
its own half and counts as no redirection (DESIGN CHOICE, assumption log 61). -/
def State.entryHalves (s : State) (e : HEntry) : List Nat :=
  let open_ := [0, 1].filter fun h => !s.stageGone (ofHalfNum h)
  if e.half = 2 && open_.length == 1 then open_ else halvesOf e.half

def State.entry (s : State) (n l k : Nat) : Option HEntry := ((s.prog n).layers[l]?).bind fun x => x.hamper[k]?

/-- Take the references of entry k of layer l for a step; a KEEP entry's references belong to no step. -/
def State.issueEntry (s : State) (n l k step : Nat) (fol : Bool := false) : State :=
  match s.entry n l k with
  | some e =>
    let r : TileRef := { prog := n, layer := l, entry := k, step := if e.keep then none else some step }
    (s.entryHalves e).foldl (fun s h => s.useEntry r e h fol) s
  | none => s

/-- Entry numbers of a layer that meet a condition. -/
def State.entryNums (s : State) (n l : Nat) (p : HEntry → Bool) : List Nat :=
  let es := (((s.prog n).layers[l]?).getD {}).hamper
  (List.range es.length).filter fun k => (es[k]?).any p

/-- Issue the TILE entries without KEEP of layer l for a step, once (R187, R191); `fol` says that the program before issues them
(R211). -/
def State.issueLayer (s : State) (n step l : Nat) (fol : Bool := false) : State :=
  let p := s.prog n
  if p.fired.contains (step, l) then s
  else
    let s := s.setProg n { p with fired := (step, l) :: p.fired }
    (s.entryNums n l fun e => !e.keep && e.expert.isNone).foldl (fun s k => s.issueEntry n l k step fol) s

/-- Does a run in progress on an array read the tile (R196). -/
def State.tileRead (s : State) (t : StageTile) : Bool := s.arrs.any fun a => a.2.reads.contains t.num

/-- Remove a tile of the directory; its engine-cache lines are of no use any more. -/
def State.removeTile (s : State) (num : Nat) : State :=
  ({ s with stage := s.stage.filter fun t => t.num ≠ num,
            waitingMoves := s.waitingMoves.filter fun m => match m.2.1 with | .proofer _ k => k ≠ num | _ => true }).syncFree

/-- A tile without references is freed (R195): its space is reusable when no array reads it (R196), and a move in
flight finishes first. -/
def State.freeTile (s : State) (t : StageTile) : State :=
  if !t.refs.isEmpty then s
  else if t.st = .space then s.removeTile t.num
  else if t.st = .flight then
    (if s.waitingMoves.any fun m => (match m.2.1 with | .proofer _ k => k == t.num | _ => false)
     then s.removeTile t.num else s)
  else if s.tileRead t then s.setTile { t with st := .freed }
  else s.removeTile t.num

/-- Drop the references that meet a condition. -/
def State.dropRefs (s : State) (p : TileRef → Bool) : State :=
  let hit := s.stage.filter fun t => t.refs.any p
  let s : State := { s with stage := s.stage.map fun (t : StageTile) => { t with refs := t.refs.filter fun r => !p r } }
  (hit.foldl (fun s t => match s.tileNum t.num with | some t => s.freeTile t | none => s) s).retrySpace

/-- Tiles that hold a reference of an entry for the current step, or for good. -/
def State.tilesFor (s : State) (n l k : Nat) : List StageTile :=
  s.stage.filter fun t => t.refs.any fun r => r.prog == n && r.layer == l && r.entry == k && r.step.all (· == s.curStep n)

def State.entryPresent (s : State) (n l k : Nat) : Bool :=
  let ts := s.tilesFor n l k
  !ts.isEmpty && ts.all fun t => t.st = .present

/-! ## Stalls (R206 to R210) -/

def caFAULT : Nat := 0
def caPOISON_REFETCH : Nat := 1
def caSPEC_MISS : Nat := 2
def caFABRIC_LATE : Nat := 3
def caT2_LATE : Nat := 4
def caT1_LATE : Nat := 5
def caT0_LATE : Nat := 6
def caARRAY_SHORT : Nat := 7

/-- The active table translates a virtual page: a valid range covers it, and a page of a HOST_MIGRATE range is resident (R207). -/
def State.translates (s : State) (c page : Nat) : Bool :=
  !(s.ctx c).lost && ((s.ctx c).rangeAt page).any fun r => r.mode != modeMigrate || (s.ctx c).resident.contains (r.poolPage page)

/-- The cause of a source (R207, R209): of a virtual extent, FAULT if a page of it is not translated, else the cause of its first page. -/
def State.srcCause (s : State) (ctx extent : Nat) (x : Nat × Nat) : Nat :=
  if x.1 = ekT2 then caT2_LATE
  else if !(pagesOf x.2 (max 1 extent)).all (s.translates ctx) then caFAULT
  else match s.target ctx x.2 with
    | some (.own o) => if o < t0Size then caT0_LATE else caT1_LATE
    | _ => caFABRIC_LATE

/-- The cause of a tile that is not present (R207). -/
def State.tileCause (s : State) (ctx : Nat) (missSpec : Bool) (t : StageTile) : Nat :=
  let held := (List.range 64).any fun ch =>
    (s.chan ch).phase = .faulted && (match (s.chan ch).src with | .proofer _ k => k == t.num | _ => false)
  let c := s.srcCause ctx t.extent ((t.srcs[t.src]?).getD (ekVA, 0))
  if held || c == caFAULT then caFAULT
  else if t.refetch then caPOISON_REFETCH
  else if missSpec then caSPEC_MISS
  else c

/-- The causes of an entry that is not present. -/
def State.entryCauses (s : State) (n l k : Nat) (missSpec : Bool) : List Nat :=
  let ctx := (s.prog n).ctx
  match s.tilesFor n l k with
  | [] => ((s.entry n l k).map fun e => s.srcCause ctx e.extent ((e.srcs.head?).getD (ekVA, 0))).toList
  | ts => (ts.filter fun t => t.st ≠ .present).map fun t => s.tileCause ctx missSpec t

/-- Phase descriptor ph of layer l. -/
def State.phaseOf (s : State) (n l ph : Nat) : List Byte := ((((s.prog n).layers[l]?).getD {}).phases[ph]?).getD []

def State.curDesc (s : State) (n : Nat) : List Byte := s.phaseOf n (s.curLayer n) (s.curPhase n)

/-- Operator codes of phase descriptors (R295). -/
def phEMBED : Nat := 1
def phGEMM : Nat := 2
def phATTN : Nat := 3
def phNORM : Nat := 4
def phACT : Nat := 5
def phROPE : Nat := 6
def phLORA : Nat := 7
def phROUTE : Nat := 8
def phSAMPLE : Nat := 9

def phOp (d : List Byte) : Nat := leAt d 0 1

/-- A GEMM with EXPERT set consumes experts (R206, R297). -/
def phExpert (d : List Byte) : Bool := phOp d == phGEMM && (leAt d 0xA 1).testBit 1

/-- OFFSET of a buffer reference (R283). -/
def buOff (r : Nat) : Nat := bits r 0 32

/-- The SELECTION buffer of a phase: ROUTE writes it, a GEMM with EXPERT reads it. -/
def phSel (d : List Byte) : Nat := if phOp d = phROUTE then leAt d 0x18 8 else leAt d 0x28 8

/-- The experts that the SELECTION buffer of the current phase selects. -/
def State.selected (s : State) (n : Nat) : List Nat :=
  (((s.prog n).sel.filter fun r => r.1 == buOff (phSel (s.curDesc n))).flatMap fun r => r.2.2.map (·.1)).eraseDups

/-- The causes of the tiles that are missing at phase 0 of a layer or at a phase that consumes experts (R206). -/
def State.waitCauses (s : State) (n : Nat) : List Nat :=
  let p := s.prog n
  let l := s.curLayer n
  if s.curPhase n = 0 then
    ((s.entryNums n l fun e => e.expert.isNone).filter fun k => !s.entryPresent n l k).flatMap fun k => s.entryCauses n l k false
  else if phExpert (s.curDesc n) then
    let sel := s.selected n
    ((s.entryNums n l fun e => e.expert.any sel.contains).filter fun k => !s.entryPresent n l k).flatMap fun k =>
      s.entryCauses n l k (F.PRF_PROG_CFG_SPEC_EN.get p.cfg != 0 &&
        !(((s.entry n l k).bind (·.expert)).any fun e => p.predicted.contains (l, e)))
  else []

/-- Array states of DA_ARR_STATUS.STATE (R319). -/
def arPOOL : Nat := 0
def arBUSY : Nat := 1
def arHELD : Nat := 2
def arTEST : Nat := 3
def arSLOW : Nat := 4
def arRETIRED : Nat := 5
def arOFFLINE : Nat := 6

def State.astate (s : State) (a : Nat) : Nat := s.fld F.DA_ARR_STATUS_STATE a

def State.arr (s : State) (a : Nat) : ArrSt := sget {} s.arrs a

/-- The arrays that work for a program, in a state. -/
def State.arrsOf (s : State) (n st : Nat) : List Nat :=
  (s.arrs.filter fun x => s.astate x.1 == st && (match x.2.job with
    | .item m _ _ => m == n
    | .write m _ => m == n
    | .table m => m == n
    | _ => false)).map (·.1)

/-- Cycles of an item in its fold. -/
def Item.time (it : Item) : Nat := max 1 (it.cycles / max 1 it.fold)

/-- The duty n of a half, in eighths (R873). -/
def State.duty (s : State) (h : Nat) : Nat := s.fld (if h = 0 then F.PKG_THROTTLE_STATUS_DUTY_E else F.PKG_THROTTLE_STATUS_DUTY_W)

/-- Does the duty let a half grant some array-cycles more within 1 µs, Taster slots counted (R873). What is longer than a
whole µs of duty is granted when none of it is used. -/
def State.dutyOk (s : State) (h cycles : Nat) : Bool :=
  let cap := s.duty h * 16000
  let used := (s.daGrants.filter fun g => decide (s.time < g.1 + 1000) && g.2.1 % 2 == h).foldl (fun a g => a + g.2.2) 0 +
    (s.tstUsed.filter fun g => decide (s.time < g.1 + 1000) && g.2.1 == h).foldl (fun a g => a + g.2.2) 0
  s.duty h == 8 || decide (used + min cycles cap ≤ cap)

/-! ### Array share (R309, R629 to R634) -/

/-- Array-cycles of a half in 100 µs. -/
def daWindow : Nat := 128 * 100000

/-- Array-cycles granted to a partition in a half over the last 100 µs. -/
def State.daUsed (s : State) (part h : Nat) : Nat :=
  (s.daGrants.filter fun g => decide (s.time < g.1 + 100000) && g.2.1 == 2 * part + h).foldl (fun a g => a + g.2.2) 0

/-- Charge a grant, and forget those older than 100 µs. -/
def State.daCharge (s : State) (part h cycles : Nat) : State :=
  { s with daGrants := (s.time, 2 * part + h, cycles) :: s.daGrants.filter fun g => decide (s.time < g.1 + 100000) }

/-- The share of a partition: 16/1024 for the management context (R631). -/
def State.daShare (s : State) (part : Nat) : Nat := if part = 0xFF then 16 else s.fld F.QOS_DA_SHARE part

def State.daCap (s : State) (part : Nat) : Nat := if part = 0xFF then 1024 else s.fld F.QOS_DA_CAP part

/-- Does the cap let a partition have more cycles (R633). A run longer than a whole cap is granted when none of it is
used. -/
def State.daCapOk (s : State) (part h cycles : Nat) : Bool :=
  let cap := (s.daCap part + 1) * daWindow / 1024
  s.daCap part == 1024 || decide (s.daUsed part h + min cycles cap ≤ cap)

/-- Has a partition share left (R631, R632). -/
def State.daLeft (s : State) (part h : Nat) : Bool := decide (s.daUsed part h < s.daShare part * daWindow / 1024)

/-- Past its share a partition takes what the others leave (R634); the unused share of a DRAINING partition is not lent (R648). -/
def State.daLendOk (s : State) (h cycles : Nat) : Bool :=
  let held := ((List.range 128).filter fun p => s.fld F.PTN_STATUS_STATE p == psDraining).foldl (fun a p =>
    a + (s.daShare p * daWindow / 1024 - s.daUsed p h)) 0
  let used := (s.daGrants.filter fun g => decide (s.time < g.1 + 100000) && g.2.1 % 2 == h).foldl (fun a g => a + g.2.2) 0
  held == 0 || decide (used + cycles + held ≤ daWindow)

/-- Do share and cap let a partition have a run of some cycles. -/
def State.daShareOk (s : State) (part h cycles : Nat) : Bool := s.daCapOk part h cycles && (s.daLeft part h || s.daLendOk h cycles)

/-- A half has an idle array that its duty (R873) and the partition's share (R633, R634) let have a run of some cycles. -/
def State.arrayFree (s : State) (part h cycles : Nat) : Bool :=
  s.dutyOk h cycles && s.daShareOk part h cycles && (List.range 128).any fun k => s.astate (128 * h + k) == arPOOL

/-- The group of the B items of row tile r of an adapter whose A items have group g (R304). -/
def loraB (r g : Nat) : Nat := 2 ^ 40 * (r + 1) + g

/-- The B items of an adapter wait until its TMP is written (R304). -/
def ProgSt.itemReady (p : ProgSt) (it : Item) : Bool := decide (it.group < 2 ^ 40) || p.converted.contains (it.group % 2 ^ 40)

/-- A tile of the phase may be issued, and no array is granted to the program (R206): an unissued item, or the adapter table of a LORA
phase that has not begun, finds no array that may run it. -/
def State.arrayShort (s : State) (n : Nat) : Bool :=
  let p := s.prog n
  let open_ := p.items.filter fun it => !it.issued && p.itemReady it
  if p.begun then !open_.isEmpty && open_.all fun it => it.halves.all fun h => !s.arrayFree p.part h it.time
  else phOp (s.curDesc n) == phLORA && (s.waitCauses n).isEmpty && [0, 1].all fun h => !s.arrayFree p.part h 1

/-- The causes present now (R206, R207). -/
def State.stallCauses (s : State) (n : Nat) : List Nat :=
  if !(s.arrsOf n arBUSY).isEmpty then []
  else
    s.waitCauses n ++
    (if (s.arrsOf n arHELD).isEmpty && !(s.scoops.any fun e => (e.2.head?).any (fun c => (s.prog n).embeds.contains c.num) && (s.eng (slotScoop e.1)).st ≠ .run) then [] else [caFAULT]) ++
    (if s.arrayShort n then [caARRAY_SHORT] else [])

/-- RUNNING or STALLED by the conditions of R206; CAUSE shows the lowest code (R208, R210). -/
def State.evalProg (s : State) (n : Nat) : State :=
  if !s.live n then s
  else match s.stallCauses n with
    | [] => s.setPstate n pgRUNNING
    | c :: rest => (s.setPstate n pgSTALLED).setFld F.CUR_STATE_CAUSE (rest.foldl min c) n

/-- One arithmetic cycle of a program: a stall cycle is charged to the cause (R208). -/
def State.stallTick (s : State) (n : Nat) : State :=
  if !s.live n then s
  else
    let s := s.evalProg n
    if s.pstate n = pgSTALLED then s.wrap F.PRF_STALL_CNT_COUNT (8 * n + s.fld F.CUR_STATE_CAUSE n) else s

/-! ## Completions (R199 to R202) -/

/-- A LOADING program with every KEEP entry staged is PARKED (R178). -/
def State.checkLoaded (s : State) (n : Nat) : State :=
  let done := (List.range (s.prog n).layers.length).all fun l =>
    (s.entryNums n l fun e => e.keep).all fun k => s.entryPresent n l k
  if s.pstate n = pgLOADING && done then s.setPstate n pgPARKED else s

/-- A tile moves from another source. -/
def State.reissue (s : State) (t : StageTile) (poisoned : Bool) : State :=
  let t := { t with refetch := t.refetch || poisoned, st := if t.st = .space then .space else .flight }
  let s := if poisoned then s.bump F.PRF_REFETCH_CNT_COUNT else s
  (s.setTile t).issueMove t

/-- The sources of a reference's entry that have not failed for the tile. -/
def State.untried (s : State) (t : StageTile) (r : TileRef) : List (Nat × Nat) :=
  (((s.entry r.prog r.layer r.entry).map (·.srcs)).getD []).filter fun x => !t.tried.contains x

/-- A tile's next source (R199 to R201). Where the list it follows is used up, the entries that have no source left halt their programs
with NO_REPLICA (R200), and the tile goes on with the sources of one that has. -/
def State.nextSource (s : State) (t : StageTile) (poisoned : Bool) : State :=
  let t := { t with src := t.src + 1, again := false, tried := t.tried ++ (t.srcs[t.src]?).toList }
  if t.src < t.srcs.length then s.reissue t poisoned
  else
    let out := t.refs.filter fun r => (s.untried t r).isEmpty
    let t := { t with refs := t.refs.filter fun r => !out.contains r }
    let s := out.foldl (fun s r => s.haltAt r.prog hcNO_REPLICA r.layer r.entry) (s.setTile t)
    match t.refs with
    | [] => s.removeTile t.num
    | r :: _ => s.reissue { t with srcs := s.untried t r, src := 0 } poisoned

/-- What a completed Proofer move does (R199). -/
def State.prooferDone (s : State) (num status : Nat) : State :=
  match s.tileNum num with
  | none => s
  | some t =>
    if t.refs.isEmpty then (s.removeTile num).retrySpace
    else
      let progs := (t.refs.map (·.prog)).eraseDups
      let s :=
        if status = tsOK then
          let ver := if t.want = 0 then leNat (s.mem.bytes (t.off + 0x28) 4) else t.ver
          let s := s.setTile { t with st := .present, refetch := false, ver := ver }
          let n := (hdrOf (s.mem.bytes t.off 256)).extent
          s.wrap F.PRF_STAGED_BYTES_COUNT ((t.refs.head?.map (·.prog)).getD 0) n
        else if progs.all fun n => s.pstate n == pgHALTED || s.pstate n == pgEMPTY then s.removeTile num
        else if status = tsPartitionReset then
          (progs.foldl (fun s n => s.haltProg n hcPARTITION_RESET) s).removeTile num
        else if status = tsDstError && !t.again then
          -- a fresh allocation: the old one is given up only after the new one is taken
          let t' := { t with again := true, st := .space }
          match s.spaceFor t' with
          | some off => (s.setTile { t' with off := off, st := .flight }).issueMove { t' with off := off, st := .flight }
          | none => s.setTile t'
        else s.nextSource t (status == tsPoison)
      progs.foldl (fun s n => if s.pstate n = pgLOADING then s.checkLoaded n else s.evalProg n) s

/-- A poisoned staged tile is unstaged and fetched again, as after a POISON completion (R667). -/
def State.refetch (s : State) (num : Nat) : State :=
  match s.tileNum num with
  | some t => if t.st = .present then s.nextSource t true else s
  | none => s

/-- Does a reference lie within its program's window of R185: LEAD + 1 layers from the cursor on; that of a KEEP entry counts too (R194). -/
def State.inWindow (s : State) (r : TileRef) : Bool :=
  match r.step with
  | none => true
  | some k =>
    let n := max 1 (s.prog r.prog).layers.length
    decide ((k - s.curStep r.prog) * n + r.layer ≤ s.curLayer r.prog + s.fld F.PRF_PROG_CFG_LEAD r.prog)

/-- A lost tile is staged again for a reference (R194): in its entry's half, or redirected (R193); a HALF "both" entry keeps the copy that
the other half holds. -/
def State.restage (s : State) (r : TileRef) (h : Nat) (fol : Bool) : State :=
  match s.entry r.prog r.layer r.entry with
  | some e =>
    if e.half = 2 && s.stage.any (fun t => t.refs.contains r) then s
    else s.useEntry r e (if e.half = 2 then (if s.stageGone (ofHalfNum h) && !s.stageGone (ofHalfNum (1 - h)) then 1 - h else h) else e.half) fol
  | none => s

/-- A layer whose lost tiles are not staged again is issued at its trigger. -/
def State.unfire (s : State) (r : TileRef) : State :=
  let p := s.prog r.prog
  s.setProg r.prog { p with fired := p.fired.filter fun x => some x.1 ≠ r.step || x.2 ≠ r.layer }

/-- A half's staging region is withdrawn (R133, R193, R194). -/
def State.withdrawStage (s : State) (h : Half) : State :=
  let s := match h with
    | .east => s.setFlag F.TIER_T0_STATUS_STAGE_E_AVAIL false
    | .west => s.setFlag F.TIER_T0_STATUS_STAGE_W_AVAIL false
  let lost := s.stage.filter fun t => t.half == halfNum h
  let nums := lost.map (·.num)
  let users := (lost.flatMap fun t => t.refs.map (·.prog)).eraseDups
  let staged := ((lost.filter fun t => t.st = .present).flatMap fun t => t.refs.map (·.prog)).eraseDups
  let s := { s with stage := s.stage.filter fun t => !nums.contains t.num,
                    waitingMoves := s.waitingMoves.filter fun m => match m.2.1 with | .proofer _ k => !nums.contains k | _ => true }.syncFree
  let s := if s.stageGone .east && s.stageGone .west then staged.foldl (fun s n => s.haltProg n hcSTAGE_LOST) s else s
  let live := lost.flatMap fun t => (t.refs.filter fun r => s.pstate r.prog != pgHALTED && s.pstate r.prog != pgEMPTY).map fun r => (t, r)
  let s := live.foldl (fun s x => if s.inWindow x.2 then s.restage x.2 (halfNum h) x.1.fol else s.unfire x.2) s
  users.foldl (fun s n => (s.checkLoaded n).evalProg n) s

/-- PROOFER_MOVE_COMPLETE (R199): the oldest completed Proofer move is handled. -/
def execProoferMoveComplete (s : State) : Out :=
  .next <| s.clocked <|
    match s.prfDone with
    | [] => s
    | (_, num, status) :: rest => { s with prfDone := rest }.prooferDone num status

/-- STAGING_SPACE_RELEASE (R196): the last array read of the freed tiles that no array reads any more has completed, and
their space becomes reusable. -/
def execStagingSpaceRelease (s : State) : Out :=
  .next <| s.clocked <|
    ((s.stage.filter fun t => t.st = .freed && !s.tileRead t).foldl (fun s t => s.removeTile t.num) s).retrySpace

end Sys2Proof.Machine
end

