-- ==== Sys2Proof/Machine/Programs.lean ====
section
/-!
DEFINITION. Programs and their commands (06_decode_arrays.md R278 to R295, 04_layer_cursor.md): LOAD with its checks,
sequences, the token ring, the triggers that fire at a cursor position, and the cursor's matches and deliveries.
-/

namespace Sys2Proof.Machine

/-! ## Activation buffers (R283) -/

def buWidth (r : Nat) : Nat := bits r 32 24
def buType (r : Nat) : Nat := bits r 56 8

def tyE4M3 : Nat := 0x01
def tyE5M2 : Nat := 0x02
def tyBF16 : Nat := 0x40
def tyFP32 : Nat := 0x41
def tySEL : Nat := 0x51

/-- Bytes of one element. -/
def tySize (t : Nat) : Nat :=
  if t = tyBF16 then 2 else if t = tyFP32 then 4 else if t = tySEL then 8 else 1

/-- STRIDE of a buffer. -/
def buStride (r : Nat) : Nat := roundUp (buWidth r * tySize (buType r)) 64

/-- The address and bytes of lane b of a buffer. -/
def ProgSt.laneVA (p : ProgSt) (r b : Nat) : Nat × Nat :=
  (p.actBase + buOff r + b * buStride r, buWidth r * tySize (buType r))

/-! ## Results of commands (DA_CMD_STATUS) -/

def rsOK : Nat := 0
def rsSTATE : Nat := 1
def rsENCODING : Nat := 2
def rsLIMIT : Nat := 3
def rsSOURCE : Nat := 4
def rsSLOT : Nat := 5
def rsHAMPER : Nat := 6
def rsPARTITION : Nat := 7

/-- A command completes in DA_CMD_STATUS. -/
def State.daResult (s : State) (res : Nat) (layer : Nat := 0) (phase : Nat := 0) : State :=
  let s := s.setFld F.DA_CMD_STATUS_RESULT res
  let s := s.setFld F.DA_CMD_STATUS_FAIL_LAYER layer
  (s.setFld F.DA_CMD_STATUS_FAIL_PHASE phase).setFlag F.DA_CMD_STATUS_BUSY false

/-- ACTIVE and PENDING of DA_PROG_STATUS follow the program. -/
def State.syncProg (s : State) (n : Nat) : State :=
  let p := s.prog n
  (s.setFld F.DA_PROG_STATUS_ACTIVE p.seqs.length n).setFld F.DA_PROG_STATUS_PENDING (min p.pend.length 2047) n

/-! ## Phase descriptors (R278, R283, R295) -/

/-- Bytes outside the named ones are 0. -/
def onlyBytes (b : List Byte) (named : List (Nat × Nat)) : Bool :=
  (List.range b.length).all fun k => named.any (fun r => inExt r.1 r.2 k) || (b[k]?).getD 0 == 0

/-- The named bytes of each operator's descriptor. -/
def phNamed (op : Nat) : List (Nat × Nat) :=
  (0, 1) :: (
    if op = phEMBED then [(4, 2), (0x10, 8)]
    else if op = phGEMM then [(4, 8), (0x10, 0x22)]
    else if op = phATTN then [(4, 0x22)]
    else if op = phNORM then [(4, 1), (6, 4), (0xC, 4), (0x10, 16)]
    else if op = phACT then [(4, 2), (0x10, 16)]
    else if op = phROPE then [(4, 7), (0x10, 0x14)]
    else if op = phLORA then [(4, 1), (8, 0x20)]
    else if op = phROUTE then [(4, 8), (0x10, 16)]
    else [(4, 4), (0x10, 8)])

/-- A buffer reference: ENCODING where it is no reference, LIMIT where it breaks R278, R283 or what the operator asks. -/
def bufCheck (maxSeqs actBytes r : Nat) (types : List Nat) (eq : Option Nat) (least : Nat) : Nat :=
  if !([tyE4M3, tyE5M2, tyBF16, tyFP32, tySEL].contains (buType r)) || buOff r % 64 != 0 then rsENCODING
  else if buWidth r = 0 || decide (1048576 < buWidth r) || !types.contains (buType r) || eq.any (· != buWidth r) ||
    decide (buWidth r < least) || decide (actBytes < buOff r + maxSeqs * buStride r) then rsLIMIT
  else rsOK

def firstCode (l : List Nat) : Nat := (l.find? (· ≠ 0)).getD 0

def limit (bad : Bool) : Nat := if bad then rsLIMIT else rsOK
def encoding (bad : Bool) : Nat := if bad then rsENCODING else rsOK

/-- The check of one phase descriptor (R13, R278, R283, R295). -/
def phaseCheck (maxSeqs actBytes : Nat) (d : List Byte) : Nat :=
  let op := phOp d
  let buf := fun (o : Nat) types eq least => bufCheck maxSeqs actBytes (leAt d o 8) types eq least
  let w := fun (o : Nat) => buWidth (leAt d o 8)
  let acts := [tyE4M3, tyE5M2, tyBF16]
  let nsel := [tyE4M3, tyE5M2, tyBF16, tyFP32]
  if op = 0 || decide (9 < op) || !onlyBytes d (phNamed op) then rsENCODING
  else if op = phEMBED then firstCode [limit (decide (1023 < leAt d 4 2)), buf 0x10 nsel none 0]
  else if op = phGEMM then
    let fl := leAt d 0xA 1
    firstCode [encoding (decide (7 < fl) || !([0, 1, 2, 4].contains (leAt d 0xB 1))),
      limit (leAt d 6 2 == 0 || leAt d 8 2 == 0), buf 0x10 acts none 0, buf 0x18 nsel none 0,
      if fl.testBit 0 then buf 0x20 [tyFP32] (some (w 0x18)) 0 else 0,
      if fl.testBit 1 then firstCode [buf 0x28 [tySEL] none 0, limit (decide (8 < w 0x28))] else 0]
  else if op = phATTN then
    let q := leAt d 4 1; let k := leAt d 5 1; let hd := leAt d 6 2; let tl := leAt d 9 1
    firstCode [limit (!([64, 128, 256].contains hd) || q == 0 || decide (128 < q) || k == 0 || decide (64 < k) || q % k != 0 ||
        decide (16 < q / k) || !([0x30, 0x31].contains (leAt d 8 1)) || !([6, 7, 8].contains tl) ||
        decide (1048576 < leAt d 0xA 2 * 2 ^ tl) || decide (2 ^ 24 < leAt d 0xC 4)),
      buf 0x10 [tyFP32] none ((q + 2 * k) * hd), buf 0x18 nsel (some (q * hd)) 0]
  else if op = phNORM then
    firstCode [limit (decide (1 < leAt d 4 1)),
      buf 0x10 [tyFP32] none 0, buf 0x18 nsel (some (w 0x10)) 0]
  else if op = phACT then
    let g := leAt d 5 1
    firstCode [limit (decide (1 < leAt d 4 1) || decide (1 < g) || (g == 1 && w 0x10 % 2 != 0)),
      buf 0x10 [tyFP32, tyBF16] none 0, buf 0x18 nsel (some (if g = 1 then w 0x10 / 2 else w 0x10)) 0]
  else if op = phROPE then
    firstCode [limit (leAt d 8 2 % 2 != 0 || decide (leAt d 6 2 < leAt d 8 2) || decide (1 < leAt d 0xA 1)),
      buf 0x10 [tyFP32] none (leAt d 4 2 * leAt d 6 2)]
  else if op = phLORA then
    firstCode [limit (leAt d 4 1 == 0 || decide (64 < leAt d 4 1)), buf 0x10 acts none 0, buf 0x18 [tyFP32] none 0,
      buf 0x20 [tyBF16] (some (leAt d 4 1)) 0]
  else if op = phROUTE then
    firstCode [encoding (decide (1 < leAt d 7 1)),
      limit (leAt d 4 2 == 0 || decide (256 < leAt d 4 2) || leAt d 6 1 == 0 || decide (8 < leAt d 6 1) || leAt d 0xA 2 == 0),
      buf 0x10 acts none 0, buf 0x18 [tySEL] (some (leAt d 6 1)) 0]
  else firstCode [limit (leAt d 4 4 == 0 || decide (1048576 < leAt d 4 4)), buf 0x10 [tyFP32] none (leAt d 4 4)]

/-! ## LOAD (R279 to R281) -/

/-- Read for a command through a context: a failed translation, an error status or poison gives nothing, and no fault
record (R281). -/
def State.peek (s : State) (ctx va n : Nat) (env : Env) : State × Option (List Byte) :=
  let t := s.lookup .east ctx va n
  if s.checkExtent ctx va n .read = .ok then
    let r := s.readVA ctx va n env
    (t.noteVA .east ctx va n, if r.err || r.bad then none else some r.data)
  else (t, none)

/-- The check of a program descriptor (R13, R278, R279). -/
def descCheck (b : List Byte) : Nat :=
  let e := leAt b 0x28 4
  if leAt b 0 2 ≠ 0x6D0E || leAt b 2 1 ≠ 1 || 1 < leAt b 3 1 || !zeros b 0x1D 3 || !zeros b 0x2C 20 ||
    leAt b 8 8 % 64 ≠ 0 || leAt b 0x10 8 % 65536 ≠ 0 || leAt b 0x20 8 % 64 ≠ 0 then rsENCODING
  else if leAt b 4 2 = 0 || 1024 < leAt b 4 2 || leAt b 6 2 = 0 || 1024 < leAt b 6 2 || 7 < leAt b 0x1C 1 ||
    e < 1024 || 65536 < e || 2 ^ Nat.log2 e ≠ e || e < 4 * leAt b 6 2 then rsLIMIT
  else rsOK

/-- The phase descriptors of a layer: the failing phase with its code, or all of them. -/
def State.readPhases (ctx va maxSeqs actBytes : Nat) (env : Env) : Nat → Nat → State → State × ((Nat × Nat) ⊕ List (List Byte))
  | 0, _, s => (s, .inr [])
  | k + 1, i, s =>
    match s.peek ctx (va + 64 * i) 64 env with
    | (s, none) => (s, .inl (rsSOURCE, i))
    | (s, some d) =>
      let c := phaseCheck maxSeqs actBytes d
      if c ≠ rsOK then (s, .inl (c, i))
      else match State.readPhases ctx va maxSeqs actBytes env k (i + 1) s with
        | (s, .inl e) => (s, .inl e)
        | (s, .inr r) => (s, .inr (d :: r))

/-- The layer records and phase descriptors: code, layer and phase of the first failure, or each layer's Hamper place
and phases. -/
def State.readLayers (ctx tbl maxSeqs actBytes : Nat) (env : Env) :
    Nat → Nat → State → State × ((Nat × Nat × Nat) ⊕ List (Nat × Nat × List (List Byte)))
  | 0, _, s => (s, .inr [])
  | k + 1, l, s =>
    match s.peek ctx (tbl + 32 * l) 32 env with
    | (s, none) => (s, .inl (rsSOURCE, l, 0))
    | (s, some r) =>
      if !zeros r 0x13 13 then (s, .inl (rsENCODING, l, 0))
      else if 4096 < leAt r 0x10 2 || leAt r 0x12 1 = 0 || 64 < leAt r 0x12 1 then (s, .inl (rsLIMIT, l, 0))
      else match State.readPhases ctx (leAt r 8 8) maxSeqs actBytes env (leAt r 0x12 1) 0 s with
        | (s, .inl (c, i)) => (s, .inl (c, l, i))
        | (s, .inr ps) => match State.readLayers ctx tbl maxSeqs actBytes env k (l + 1) s with
          | (s, .inl e) => (s, .inl e)
          | (s, .inr rest) => (s, .inr ((leAt r 0 8, leAt r 0x10 2, ps) :: rest))

/-- Cut bytes into pieces of 64. -/
def rows64 (n : Nat) (b : List Byte) : List (List Byte) := (List.range n).map fun k => slice b (64 * k) 64

/-- The raw Hamper tables, or the layer at which a read fails (R184, SOURCE), reported with entry 0: a table is read whole (DESIGN CHOICE,
assumption log 61). What was read here counts for an entry that is rewritten later (R182; DESIGN CHOICE, assumption log 61). -/
def State.readHampers (ctx : Nat) (env : Env) : Nat → List (Nat × Nat × List (List Byte)) → State → State × (Nat ⊕ List (List (List Byte)))
  | _, [], s => (s, .inr [])
  | l, (va, cnt, _) :: ls, s =>
    match (if cnt = 0 then (s, some []) else s.peek ctx va (64 * cnt) env) with
    | (s, none) => (s, .inl l)
    | (s, some b) => match State.readHampers ctx env (l + 1) ls s with
      | (s, .inl e) => (s, .inl e)
      | (s, .inr t) => (s, .inr (rows64 cnt b :: t))

/-- The code of R184, its layer and its entry in PRF_LOAD_STATUS. -/
def State.loadStatus (s : State) (n code layer entry : Nat) : State :=
  ((s.setFld F.PRF_LOAD_STATUS_RESULT code n).setFld F.PRF_LOAD_STATUS_FAIL_LAYER layer n).setFld F.PRF_LOAD_STATUS_FAIL_ENTRY entry n

/-- Write a cursor value and send it to the subscribers of both halves (R57, R58). -/
def State.setCursor (s : State) (n step layer phase : Nat) : State :=
  let s := s.setFld F.CUR_VALUE_PROG n n
  let s := s.setFld F.CUR_VALUE_STEP step n
  let s := s.setFld F.CUR_VALUE_LAYER layer n
  let s := s.setFld F.CUR_VALUE_PHASE phase n
  { s with cursorOut := s.cursorOut ++ [(0, s.rd .CUR_VALUE n), (1, s.rd .CUR_VALUE n)] }

/-- An armed match that the cursor satisfies raises its vector once and disarms (R225). -/
def State.fireMatch (s : State) (n : Nat) : State :=
  if s.flag F.CUR_MATCH_CTRL_EN n && s.pstate n ≠ pgEMPTY &&
    decide (s.fld F.CUR_MATCH_POS n ≤ (s.rd .CUR_VALUE n).toNat % 2 ^ 56) then
    let s := s.setFlag F.CUR_MATCH_CTRL_EN false n
    let p := s.prog n
    if p.part < 128 then s.raiseVec p.part (s.fld F.CUR_MATCH_CTRL_VEC n) else s.raisePf (s.fld F.CUR_MATCH_CTRL_VEC n)
  else s

/-- The half that homes a program's descriptor (R330): East where another node or the host homes it. -/
def State.homeOfVA (s : State) (ctx va : Nat) : Half :=
  match s.target ctx va with
  | some (.own o) => s.homeHalf o
  | _ => .east

/-- The region of a mirrored program: its first byte in the partner's mirror region, and its length (R703). -/
def mirRegion (cfg : Word) (maxSeqs : Nat) : Nat × Nat :=
  (F.CNT_PROG_MIR_REGION_GIB.get cfg * gib, 0x40000 + maxSeqs * (F.CNT_PROG_MIR_SLOT_MIB.get cfg * 1048576))

/-- CNT_PROG_MIR of a program that LOAD accepts for mirroring: none where mirroring is off or the region overlaps that of
another loaded program (R705). -/
def State.mirCfg (s : State) (n maxSeqs : Nat) : Option Word :=
  let w := s.rd .CNT_PROG_MIR n
  let r := mirRegion w maxSeqs
  let clash := (List.range 64).any fun m => m != n && ((s.prog m).mir.cfg.any fun c =>
    let q := mirRegion c (s.prog m).maxSeqs
    meets q.1 q.2 r.1 r.2)
  if F.CNT_PROG_MIR_EN.get w = 0 || clash then none else some w

/-- What an accepted LOAD sets up: the program, its registers, the cursor at (0, 0, 0), and the moves of the KEEP
entries (R178, R293). -/
def State.install (s : State) (n part va : Nat) (d : List Byte) (ls : List LayerD) : State :=
  let ctx := if part = 0xFF then 128 else part
  let p : ProgSt :=
    { part := part, layers := ls, turn := leAt d 3 1 == 1, maxSeqs := leAt d 6 2, actBase := leAt d 0x10 8,
      actBytes := leAt d 0x18 4, prio := leAt d 0x1C 1, ringBase := leAt d 0x20 8, ringSize := leAt d 0x28 4,
      descHalf := halfNum (s.homeOfVA ctx va), cfg := s.rd .PRF_PROG_CFG n,
      mir := { cfg := s.mirCfg n (leAt d 6 2) } }
  let s := s.setProg n p
  let s := (List.range 8).foldl (fun s c => s.resetReg .PRF_STALL_CNT (8 * n + c)) s
  let s := [Reg.PRF_SPEC_HIT, .PRF_SPEC_MISS_TILES, .PRF_SPEC_WASTE, .PRF_STAGED_BYTES, .PRF_HALT, .DA_PROG_ITEMS,
    .DA_PROG_TOKENS, .DA_PROG_ERR, .DA_PROG_RING_TAIL, .DA_PROG_RING_HEAD, .DA_PROG_NUMSTAT, .DA_PROG_STATUS].foldl
      (fun s r => s.resetReg r n) s
  let s := s.setFld F.DA_PROG_DESC_VA va n
  let s := (s.setPstate n pgLOADING).setFld F.CUR_STATE_PARTITION part n
  let s := s.setCursor n 0 0 0
  let s := (List.range ls.length).foldl (fun s l => (s.entryNums n l fun e => e.keep).foldl (fun s k => s.issueEntry n l k 0) s) s
  (s.checkLoaded n).fireMatch n

/-- DA_CMD LOAD (R281, R286): read and check the program, hand the Hampers to the Proofer, and move to LOADING. -/
def State.load (s : State) (n part : Nat) (env : Env) : State :=
  let va := s.fld F.DA_CMD_ARG_VA * 64
  let ctx := if part = 0xFF then 128 else part
  if 0x80 ≤ part && part ≤ 0xFE then s.daResult rsPARTITION
  else if s.pstate n ≠ pgEMPTY then s.daResult rsSTATE
  else match s.peek ctx va 64 env with
    | (s, none) => s.daResult rsSOURCE
    | (s, some d) =>
      if descCheck d ≠ rsOK then s.daResult (descCheck d)
      else match State.readLayers ctx (leAt d 8 8) (leAt d 6 2) (leAt d 0x18 4) env (leAt d 4 2) 0 s with
        | (s, .inl (c, l, i)) => s.daResult c l i
        | (s, .inr ls) =>
          if ls.length ≤ s.fld F.PRF_PROG_CFG_LEAD n then (s.loadStatus n 1 0 0).daResult rsHAMPER
          else match State.readHampers ctx env 0 ls s with
            | (s, .inl l) => (s.loadStatus n 2 l 0).daResult rsHAMPER
            | (s, .inr raw) => match s.checkHampers n raw with
              | .inl (c, l, k) => (s.loadStatus n c l k).daResult rsHAMPER
              | .inr hs =>
                let layers := (hs.zip ls).map fun x => ({ hamper := x.1, phases := x.2.2.2 } : LayerD)
                ((s.loadStatus n 0 0 0).install n part va d layers).daResult rsOK

/-! ## Running and parking -/

/-- Does the program speculate: SPEC_EN of the configuration in force (R214). -/
def ProgSt.specEn (p : ProgSt) : Bool := F.PRF_PROG_CFG_SPEC_EN.get p.cfg != 0

/-- A layer with a ROUTE phase has a routing phase. -/
def LayerD.routes (l : LayerD) : Bool := l.phases.any fun d => phOp d == phROUTE

/-- The staging triggers of the cursor position, at phase 0 of a layer (R187, R192, R203, R211). -/
def State.fireTriggers (s : State) (n : Nat) : State :=
  if s.curPhase n ≠ 0 then s
  else
    let p := s.prog n
    let len := p.layers.length
    let lead := s.fld F.PRF_PROG_CFG_LEAD n
    let step := s.curStep n
    let l := s.curLayer n
    let s := if l + lead < len then s.issueLayer n step (l + lead) else s.issueLayer n (step + 1) (l + lead - len)
    let f := F.PRF_PROG_CFG_FOLLOWER.get p.cfg
    let s :=
      if F.PRF_PROG_CFG_FOLLOW_EN.get p.cfg ≠ 0 && f ≠ n && s.pstate f ≠ pgEMPTY && s.pstate f ≠ pgHALTED then
        let lf := s.fld F.PRF_PROG_CFG_LEAD f
        let fs := s.curStep f + (if s.curLayer f = 0 && s.curPhase f = 0 then 0 else 1)
        (List.range lf).foldl (fun s m => if len + m - lf = l then s.issueLayer f fs m true else s) s
      else s
    let p := s.prog n
    if p.specEn && l + 1 < len && ((p.layers[l + 1]?).any LayerD.routes) && !p.spec.contains (l + 1) then
      s.setProg n { p with spec := p.spec ++ [l + 1] }
    else s

/-- A program waits for ring room (R294) or for its mirror (R710). -/
def State.parkHeld (s : State) (n : Nat) : Bool :=
  s.flag F.DA_PROG_STATUS_RING_WAIT n || s.bit .CNT_MIRROR_WAIT 0 n || s.takenOwn.contains n

/-- A schedulable program leaves PARKED (R178, R187, R192). -/
def State.runProg (s : State) (n : Nat) : State :=
  if s.pstate n ≠ pgPARKED || s.parkHeld n then s
  else
    let s := s.setPstate n pgRUNNING
    let p := s.prog n
    let s := if p.launched then s
      else (List.range (s.fld F.PRF_PROG_CFG_LEAD n)).foldl (fun s m => s.issueLayer n (s.curStep n) m)
        (s.setProg n { p with launched := true })
    (s.fireTriggers n).evalProg n

/-- START of a program that is parked: it becomes schedulable and runs. -/
def State.startProg (s : State) (n : Nat) : State :=
  (s.setProg n { s.prog n with started := true, parkReq := false }).runProg n

/-- A command of a state and partition (R286): STATE before PARTITION. -/
def State.daCommand (s : State) (n part : Nat) (states : List Nat) (f : State → State) : State :=
  if 0x80 ≤ part && part ≤ 0xFE then s.daResult rsPARTITION
  else if !states.contains (s.pstate n) then s.daResult rsSTATE
  else if (s.prog n).part ≠ part then s.daResult rsPARTITION
  else f s

/-- DA_CMD START; STATE while the partner has taken the program over (R713). -/
def State.daStart (s : State) (n part : Nat) : State :=
  s.daCommand n part (if s.takenOwn.contains n then [] else [pgPARKED]) fun s => (s.startProg n).daResult rsOK

def State.daPark (s : State) (n part : Nat) : State :=
  s.daCommand n part [pgRUNNING, pgSTALLED] fun s => (s.setProg n { s.prog n with parkReq := true }).daResult rsOK

/-- The program is unloaded: its references are dropped, its bank reads as EMPTY (R170, R195, R197, R293). -/
def State.unloadProg (s : State) (n : Nat) : State :=
  let s := s.dropRefs fun r => r.prog == n
  let s := ({ s with ringWait := sput [] n [] s.ringWait }.setProg n {}).setPstate n pgEMPTY
  let s := (s.resetReg .CUR_VALUE n).resetReg .PRF_HALT n
  let s := (s.setFld F.CUR_STATE_PARTITION 0 n).setFld F.DA_PROG_DESC_VA 0 n
  (s.resetReg .DA_PROG_STATUS n).setFld F.PRF_HALT_CODE 0 n

def State.daUnload (s : State) (n part : Nat) : State :=
  s.daCommand n part [pgPARKED, pgHALTED] fun s => (s.unloadProg n).daResult rsOK

/-! ## Sequences (R287 to R290) -/

def seqOf (slot : Nat) (b : List Byte) : SeqSt :=
  { slot := slot, adapter := leAt b 1 1, topK := leAt b 2 1, key := leAt b 4 4, pos := leAt b 8 4, maxPos := leAt b 0xC 4,
    kvBase := leAt b 0x10 8, seed := leAt b 0x18 8, invTemp := leAt b 0x20 4, topP := leAt b 0x24 4, last := leAt b 0x28 4,
    stop := leAt b 0x2C 4 }

/-- The smallest context an attention phase of the program holds. -/
def ProgSt.maxCtx (p : ProgSt) : Option Nat :=
  (p.layers.flatMap (·.phases)).foldl (fun m d =>
    if phOp d = phATTN then
      let c := leAt d 0xA 2 * 2 ^ leAt d 9 1
      (match m with | none => some c | some x => some (min x c))
    else m) none

/-- The sequence entry is one that R290 admits. -/
def seqOk (p : ProgSt) (slot : Nat) (b : List Byte) : Bool :=
  let e := seqOf slot b
  leAt b 0 1 == 0 && leAt b 3 1 == 0 && zeros b 0x30 16 && (decide (e.adapter < 64) || e.adapter == 0xFF) &&
  decide (1 ≤ e.topK) && decide (e.topK ≤ 64) && e.kvBase % 64 == 0 && e.kvBase / 2 ^ 56 == 0 && decide (e.pos < e.maxPos) &&
  p.maxCtx.all (fun c => decide (e.maxPos ≤ c)) && bits e.invTemp 23 8 != 0xFF &&
  !(e.invTemp / 2 ^ 31 == 1 && e.invTemp % 2 ^ 31 != 0) && !(bits e.topP 23 8 == 0xFF && e.topP % 2 ^ 23 != 0)

/-- Put a sequence into its slot, slots ascending. -/
def insertSeq (e : SeqSt) : List SeqSt → List SeqSt
  | [] => [e]
  | x :: r => if e.slot < x.slot then e :: x :: r else if e.slot = x.slot then e :: r else x :: insertSeq e r

/-- One admission (an entry) or removal (none). -/
def ProgSt.apply (p : ProgSt) (c : Nat × Option SeqSt) : ProgSt :=
  match c.2 with
  | some e => { p with seqs := insertSeq e p.seqs }
  | none => { p with seqs := p.seqs.filter fun e => e.slot ≠ c.1 }

/-- Lanes 0, 1, 2, … go to the active slots in ascending order (R288). -/
def ProgSt.assignLanes (p : ProgSt) : ProgSt := { p with lanes := p.seqs.map (·.slot) }

/-- Is a slot occupied, the pending admissions and removals counted. -/
def ProgSt.occupied (p : ProgSt) (slot : Nat) : Bool := (p.pend.foldl ProgSt.apply p).seqs.any fun e => e.slot == slot

/-- Carry out an admission or removal: at the next step boundary of a program that runs, else at once (R287). -/
def State.seqCommand (s : State) (n slot : Nat) (e : Option SeqSt) : State :=
  let p := s.prog n
  let p := if s.live n then { p with pend := p.pend ++ [(slot, e)] } else (p.apply (slot, e)).assignLanes
  ((s.setProg n p).syncProg n).daResult rsOK

def notEmpty : List Nat := [pgLOADING, pgPARKED, pgRUNNING, pgSTALLED, pgHALTED]

def State.daAdmit (s : State) (n part slot : Nat) (env : Env) : State :=
  s.daCommand n part notEmpty fun s =>
    let p := s.prog n
    match s.peek p.ctx (s.fld F.DA_CMD_ARG_VA * 64) 64 env with
    | (s, none) => s.daResult rsSOURCE
    | (s, some b) =>
      if p.maxSeqs ≤ slot || p.occupied slot || !seqOk p slot b then s.daResult rsSLOT
      else s.seqCommand n slot (some (seqOf slot b))

def State.daRemove (s : State) (n part slot : Nat) : State :=
  s.daCommand n part notEmpty fun s =>
    if (s.prog n).occupied slot then s.seqCommand n slot none else s.daResult rsSLOT

/-- A write of DA_CMD (R326): refused while BUSY; its OP selects the command, and a reserved OP completes with
ENCODING. -/
def State.daCmd (s : State) (op n part slot : Nat) (env : Env) : State × Nat :=
  if s.flag F.DA_CMD_STATUS_BUSY then (s, stBusy)
  else
    (if op = 1 then s.load n part env
     else if op = 2 then s.daStart n part
     else if op = 3 then s.daPark n part
     else if op = 4 then s.daUnload n part
     else if op = 5 then s.daAdmit n part slot env
     else if op = 6 then s.daRemove n part slot
     else s.daResult rsENCODING, stOK)

/-- Refuse what the effect itself turned away (R754). -/
def State.guarded (s : State) (src : Source) (r : Reg) (inst : Nat) (f : State → State × Nat) : State :=
  (s.admitted src r inst fun s =>
    let q := f s
    if q.2 = stOK then q else (q.1.refuse src r inst q.2, q.2)).1

def execLoadProgram (src : Source) (n part : Nat) (env : Env) (s : State) : Out :=
  run (.loadProgram src n part env) <| s.clocked <| s.guarded src .DA_CMD 0 fun s => (s.codewords 1 env).daCmd 1 n part 0 env

def execStartProgram (src : Source) (n part : Nat) (s : State) : Out :=
  run (.startProgram src n part) <| s.clocked <| s.guarded src .DA_CMD 0 fun s => s.daCmd 2 n part 0 []

def execParkProgram (src : Source) (n part : Nat) (s : State) : Out :=
  run (.parkProgram src n part) <| s.clocked <| s.guarded src .DA_CMD 0 fun s => s.daCmd 3 n part 0 []

def execUnloadProgram (src : Source) (n part : Nat) (s : State) : Out :=
  run (.unloadProgram src n part) <| s.clocked <| s.guarded src .DA_CMD 0 fun s => s.daCmd 4 n part 0 []

def execAdmitSeq (src : Source) (n part slot : Nat) (env : Env) (s : State) : Out :=
  run (.admitSeq src n part slot env) <| s.clocked <| s.guarded src .DA_CMD 0 fun s => s.daCmd 5 n part slot env

def execRemove (src : Source) (n part slot : Nat) (s : State) : Out :=
  run (.remove src n part slot) <| s.clocked <| s.guarded src .DA_CMD 0 fun s => s.daCmd 6 n part slot []

/-- DA_CMD_RESERVED_OP (R326): completes with ENCODING. -/
def execDaCmdReservedOp (src : Source) (op : Nat) (s : State) : Out :=
  run (.daCmdReservedOp src op) <| s.clocked <| s.guarded src .DA_CMD 0 fun s => s.daCmd op 0 0 0 []

/-! ## The token ring (R291 to R294) -/

/-- Write waiting records to the token ring if it has room for all of them; a write that fails halts the program with
OUTPUT. Answers whether the records are gone. -/
def State.writeTokens (s : State) (n : Nat) (recs : List (List Byte)) : State × Bool :=
  let p := s.prog n
  let tail := s.fld F.DA_PROG_RING_TAIL_INDEX n
  if p.ringSize < ringDist p.ringSize (s.fld F.DA_PROG_RING_HEAD_INDEX n) tail + recs.length then (s, false)
  else
    let r := (List.range recs.length).foldl (fun (a : State × Bool) k =>
      let va := p.ringBase + 32 * (ringAdd p.ringSize tail k % 65536)
      if a.1.checkExtent p.ctx va 32 .write = .ok then
        let w := a.1.writeVA p.ctx va ((recs[k]?).getD [])
        (w.1, a.2 && w.2)
      else (a.1, false)) (s, true)
    if r.2 then
      let t := (r.1.setFld F.DA_PROG_RING_TAIL_INDEX (ringAdd p.ringSize tail recs.length) n).wrap F.DA_PROG_TOKENS_COUNT n recs.length
      (if p.part = 0xFF then t else { t with tokPend := sput 0 p.part (sget 0 t.tokPend p.part + recs.length) t.tokPend }, true)
    else (r.1.arrayHalt n 5 0, true)

/-- A write of DA_PROG_RING_HEAD (R293, R294, R327): ignored while EMPTY and where R616 ignores it; room for the waiting
records writes them and lets the program leave PARKED. -/
def State.writeRingHead (s : State) (n v : Nat) : State :=
  let size := (s.prog n).ringSize
  let v := v % 2 ^ 17
  if s.pstate n = pgEMPTY || !headOk size (s.fld F.DA_PROG_RING_HEAD_INDEX n) (s.fld F.DA_PROG_RING_TAIL_INDEX n) v then s
  else
    let waits := s.flag F.DA_PROG_STATUS_RING_WAIT n
    let s := s.setFld F.DA_PROG_RING_HEAD_INDEX v n
    if !waits then s
    else
      let r := s.writeTokens n (sget [] s.ringWait n)
      if r.2 then
        let s := { r.1 with ringWait := sput [] n [] r.1.ringWait }.setFlag F.DA_PROG_STATUS_RING_WAIT false n
        if (s.prog n).started then s.runProg n else s
      else s

/-- RING_HEAD_WRITE (R294). -/
def execRingHeadWrite (src : Source) (n v : Nat) (s : State) : Out :=
  run (.ringHeadWrite src n v) <| s.clocked <| s.gated src .DA_PROG_RING_HEAD n fun s => s.writeRingHead n v

/-! ## Matches and deliveries -/

/-- CUR_MATCH_ARM (R225): CUR_MATCH_CTRL is written with EN 1 and a vector. -/
def execCurMatchArm (src : Source) (n vec : Nat) (s : State) : Out :=
  run (.curMatchArm src n vec) <| s.clocked <| s.gated src .CUR_MATCH_CTRL n fun s =>
    ((s.setFld F.CUR_MATCH_CTRL_VEC vec n).setFlag F.CUR_MATCH_CTRL_EN true n).fireMatch n

/-- CURSOR_DELIVERY (R58): the oldest update on its way to a half reaches its subscribers there. -/
def execCursorDelivery (h : Half) (s : State) : Out :=
  .next <| s.clocked <|
    match s.cursorOut.find? fun u => u.1 == halfNum h with
    | none => s
    | some u =>
      let n := F.CUR_VALUE_PROG.get u.2
      { s with cursorOut := s.cursorOut.erase u, cursorSeen := sput 0 (u.1 * 64 + n) u.2 s.cursorSeen }

end Sys2Proof.Machine
end

