-- ==== Sys2Proof/Machine/Operators.lean ====
section
/-!
DEFINITION. What each operator computes (06_decode_arrays.md R296 to R306), over exact numbers and FP32 words. Nothing
here touches the state: inputs are words read from buffers and tiles, outputs are words and flags of R274.
-/

namespace Sys2Proof.Machine

/-! ## Words of buffers -/

/-- The format of a buffer type. -/
def tyFmt (t : Nat) : Fmt :=
  if t = tyE5M2 then .e5m2 else if t = tyBF16 then .bf16 else if t = tyFP32 then .fp32 else .e4m3

/-- The elements that bytes of a buffer lane hold. -/
def wordsOf (t n : Nat) (b : List Byte) : List Nat := (List.range n).map fun k => leAt b (k * tySize t) (tySize t)

/-- The bytes of words of a type. -/
def bytesOf (t : Nat) (ws : List Nat) : List Byte := ws.flatMap fun w => leBytes (tySize t) w

def elemsOf (t : Nat) (ws : List Nat) : List Elem := ws.map fun w => (tyFmt t).decode w

/-- A word of a buffer as FP32, exactly (R227: BF16 is the upper half of a binary32). -/
def asF32 (t w : Nat) : F32 := if t = tyBF16 then BitVec.ofNat 32 (w * 65536) else BitVec.ofNat 32 w

/-- Convert an exact value, or a NaN (none), to a buffer type: the word and its flags (R265 to R268). -/
def convWord (t : Nat) (v : Option Dy) : Nat × Nat := (tyFmt t).convFlags v

/-- Convert an FP32 word to a type (R265 to R267). -/
def convF32 (t : Nat) (x : F32) : Nat × Nat := convWord t (Fmt.fp32.decode x.toNat).val

def orAll (l : List Nat) : Nat := l.foldl (· ||| ·) 0

/-- The most exponents of two records (R284). -/
def maxExp (a b : Option Int) : Option Int :=
  match a, b with
  | none, y => y
  | x, none => x
  | some x, some y => some (max x y)

/-! ## Integer partials (R245 to R263, R296) -/

/-- One lane of a weight tile's item at the anchor position q: the integer partials of its rows, flags, and whether the
checksum comparison fails with the difference D_b. -/
structure TileLane where
  rows  : List LaneAcc
  flags : Nat
  fails : Bool
  diff  : Nat
  deriving DecidableEq, Repr

/-- Run one lane against the columns of a tile. -/
def tileLane (t : Tile) (q : Int) (xs : List Elem) : TileLane :=
  let u := q - 60
  let rs := (List.range t.hdr.rows).map fun o => reduceLane u (t.rowProducts o xs)
  let has := t.hdr.flag 4
  let non := rs.any fun r => r.1.nonfinite
  let entries := (List.range t.hdr.cols).map t.csum
  let bad := entries.any Option.isNone
  let chk := reduceLane u (t.chkProducts xs)
  let d := rs.foldl (fun a r => a + r.1.acc) 0 - chk.1.acc
  { rows := rs.map (·.1),
    flags := (if rs.any fun r => r.1.inexact then 1 else 0) ||| (if non then flNONFINITE else 0) |||
      (if !has || non then flUNCHECKED else 0),
    fails := has && !non && (bad || !checksumPasses rs chk), diff := twos 64 d }

/-- The exact value of a lane's row: none where a product was not finite (R239), +0 without a position (R245). -/
def rowValue (q : Option Int) (r : LaneAcc) : Option Dy :=
  if r.nonfinite then none
  else match q with
    | none => some dyZero
    | some q => some (accVal r q)

/-- Add two exact values, either of which may be missing (NaN). -/
def addVal (a b : Option Dy) : Option Dy :=
  match a, b with
  | some x, some y => some (dyAdd x y)
  | _, _ => none

/-- Add the partials of the items of a group for one lane, row by row (R252). -/
def addRows (a b : List LaneAcc) : List LaneAcc :=
  if a.isEmpty then b else if b.isEmpty then a else (a.zip b).map fun p => LaneAcc.add p.1 p.2

/-! ## ROUTE (R298) -/

/-- The largest FP32 word of a list; NaN if one is NaN. -/
def fMax (l : List F32) : F32 :=
  match l with
  | [] => f32Nan
  | x :: r => r.foldl (fun m y => match fLt m y with | none => f32Nan | some true => y | some false => m) x

/-- exp2((x − max) × scale), the terms of the softmax of R300 before BF16. -/
def softTerms (l : List F32) (scale : F32) : List F32 :=
  let s := l.map fun x => fMul x scale
  let m := fMax s
  s.map fun x => fExp2 (fSub x m)

def log2e : F32 := 0x3FB8AA3B

/-- The k largest of numbered values, ties to the lower number, in descending order. -/
def topK : Nat → List (Nat × F32) → List (Nat × F32)
  | 0, _ => []
  | k + 1, l =>
    match l with
    | [] => []
    | x :: r =>
      let b := r.foldl (fun b y => if fLt b.2 y.2 = some true then y else b) x
      b :: topK k (l.filter fun y => y.1 ≠ b.1)

/-- The softmax of R300 over logits, with its flags: each term rounded to BF16, over the exact sum of the terms. -/
def softmax (l : List F32) (scale : F32) : List F32 × Nat :=
  let c := (softTerms l scale).map (convF32 tyBF16)
  let p := c.map fun x => asF32 tyBF16 x.1
  let s := fSum p
  (p.map fun x => fMul x (fRecip s.1), orAll (c.map (·.2)) ||| s.2)

/-- The selection of one lane: experts and gates, with its flags. -/
def route (logits : List F32) (experts k : Nat) (renorm : Bool) : List (Nat × Nat) × Nat :=
  let p := softmax (logits.take experts) log2e
  let sel := topK k ((List.range p.1.length).zip p.1)
  let s := fSum (sel.map (·.2))
  (sel.map fun x => (x.1, (if renorm then fMul x.2 (fRecip s.1) else x.2).toNat), p.2 ||| if renorm then s.2 else 0)

/-! ## NORM, ACT, ROPE (R299, R303) -/

/-- The FP32 word nearest a natural number. -/
def f32Nat (n : Nat) : F32 := f32Round ⟨n, 0⟩

/-- NORM of one lane, with the flags of its exact sums (R250, R254). -/
def norm (layer : Bool) (x gamma beta : List F32) (eps : F32) : List F32 × Nat :=
  let w := fRecip (f32Nat x.length)
  let scale := fun (k : Nat) (y : F32) =>
    let g := fMul y ((gamma[k]?).getD 0)
    if beta.isEmpty then g else fAdd g ((beta[k]?).getD 0)
  if layer then
    let s := fSum x
    let mu := fMul s.1 w
    let d := x.map fun v => fSub v mu
    let q := fSum (d.map fun a => fMul a a)
    let r := fRsqrt (fAdd (fMul q.1 w) eps)
    ((List.range d.length).map fun k => scale k (fMul ((d[k]?).getD 0) r), s.2 ||| q.2)
  else
    let q := fSum (x.map fun a => fMul a a)
    let r := fRsqrt (fAdd (fMul q.1 w) eps)
    ((List.range x.length).map fun k => scale k (fMul ((x[k]?).getD 0) r), q.2)

def silu (x : F32) : F32 := fMul x (fRecip (fAdd f32One (fExp2 (fMul (fNeg x) log2e))))

/-- GELU with tanh, left to right with the constants C1 and C2 of R303. -/
def gelu (x : F32) : F32 :=
  let c1 : F32 := 0x3F4C422A
  let c2 : F32 := 0x3D372713
  let y := fMul c1 (fAdd x (fMul (fMul (fMul c2 x) x) x))
  let e := fExp2 (fMul (fMul 0x40000000 y) log2e)
  let t := fSub f32One (fMul 0x40000000 (fRecip (fAdd f32One e)))
  fMul (fMul 0x3F000000 x) (fAdd f32One t)

def act (kind : Nat) (gated : Bool) (x : List F32) : List F32 :=
  let f := fun v => if kind = 0 then silu v else gelu v
  if gated then
    let h := x.length / 2
    (List.range h).map fun k => fMul (f ((x[k]?).getD 0)) ((x[h + k]?).getD 0)
  else x.map f

/-- a × c + b × s, exact before the single rounding of R271. -/
def rotSum (a c b s : F32) (minus : Bool) : F32 :=
  match fvOf a, fvOf c, fvOf b, fvOf s with
  | .nan, _, _, _ | _, .nan, _, _ | _, _, .nan, _ | _, _, _, .nan => f32Nan
  | fa, fc, fb, fs =>
    let dy := fun (v : FV) => match v with | .fin d => some d | .zero _ => some dyZero | _ => none
    match dy fa, dy fc, dy fb, dy fs with
    | some x, some y, some z, some w =>
      let t := dyMul z w
      f32Round (dyAdd (dyMul x y) (if minus then dyNeg t else t))
    | _, _, _, _ => if minus then fSub (fMul a c) (fMul b s) else fAdd (fMul a c) (fMul b s)

/-- Rotate the first heads of a lane in place; `cs` are the cosine and sine of each pair. -/
def rope (x : List F32) (heads hd rot pairing : Nat) (cs : List (F32 × F32)) : List F32 :=
  (List.range x.length).map fun k =>
    let j := k % hd
    let base := k - j
    let v := (x[k]?).getD 0
    if heads ≤ k / hd || rot ≤ j then v
    else
      let half := rot / 2
      let i := if pairing = 0 then j / 2 else j % half
      let first := if pairing = 0 then j % 2 == 0 else decide (j < half)
      let ka := base + (if pairing = 0 then 2 * i else i)
      let kb := base + (if pairing = 0 then 2 * i + 1 else i + half)
      let a := (x[ka]?).getD 0
      let b := (x[kb]?).getD 0
      let t := (cs[i]?).getD (f32Nan, f32Nan)
      if first then rotSum a t.1 b t.2 true else rotSum a t.2 b t.1 false

/-! ## SAMPLE (R305, R306) -/

def m64 : Nat := 2 ^ 64

def mix (v : Nat) : Nat :=
  let v := v ^^^ (v / 2 ^ 31)
  let v := v * 0xA3C59F176B2D4E89 % m64
  let v := v ^^^ (v / 2 ^ 29)
  let v := v * 0x8E4F27D1C3A95B61 % m64
  v ^^^ (v / 2 ^ 32)

/-- The 24-bit draw of R305. -/
def draw (seed key pos : Nat) : Nat :=
  let v := mix (seed ^^^ (key * 0x5D71E8B396F20C4B % m64))
  mix (v ^^^ pos) / 2 ^ 40

def f32Dy (x : F32) : Dy := ((f32Elem x).val).getD dyZero

/-- The token a lane samples, none where it ends NONFINITE (R306). -/
def sampleTok (logits : List F32) (k : Nat) (invTemp topP : F32) (u : Nat) : Option Nat :=
  let c := topK k (((List.range logits.length).zip logits).filter fun x => fvOf x.2 ≠ .nan)
  match c with
  | [] => none
  | top :: _ =>
    if invTemp.toNat % 2 ^ 31 = 0 then some top.1
    else
      let p := c.map fun x => fExp2 (fMul (fMul (fSub x.2 top.2) invTemp) log2e)
      if p.any fun x => fvOf x = .nan || fvOf x = .inf false || fvOf x = .inf true then none
      else
        let ds := p.map f32Dy
        let pre := fun (j : Nat) => dySum (ds.take (j + 1))
        let s := dySum ds
        let j :=
          match fvOf topP with
          | .fin d =>
            if d.m < 0 then 0
            else ((List.range p.length).find? fun j => dyLe (dyMul d s) (pre j)).getD (p.length - 1)
          | .inf n => if n then 0 else p.length - 1
          | _ => 0
        let t := dyMul (dyMul ⟨u, 0⟩ (pre j)) ⟨1, -24⟩
        ((List.range (j + 1)).find? fun i => dyLt t (pre i)).bind fun i => ((c.drop i).head?).map (·.1)

/-! ## ATTN (R300 to R302) -/

/-- Bytes of a KV tile's payload and side data, and Z (R301). -/
def kvSizes (fmt hd tpt : Nat) : Nat × Nat × Nat :=
  let n := hd * tpt
  let pay := if fmt = 0x30 then roundUp (n * 9 / 16) 64 else roundUp n 64
  let side := if fmt = 0x30 then 0 else roundUp (n / 32) 64
  (pay, side, roundUp (256 + pay + side) 64)

/-- The address of the K tile of KV head h, tile t, of a sequence (R301). -/
def kvAddr (d : List Byte) (base h t : Nat) : Nat :=
  let z := (kvSizes (leAt d 8 1) (leAt d 6 2) (2 ^ leAt d 9 1)).2.2
  base + ((leAt d 0x24 2 * leAt d 5 1 + h) * leAt d 0xA 2 + t) * 2 * z

/-- A KV tile whose payload and side data are `b`, described by the phase (R302). -/
def kvTile (fmt hd tpt : Nat) (b : List Byte) : Tile :=
  let z := kvSizes fmt hd tpt
  let h : Hdr := { magic := 0x7A1E, ver := 2, format := fmt, payload := z.1, side := z.2.1, flags := 4, rows := tpt, cols := hd,
                   anchor := 0, cbSlot := 0, crc := 0, id := 1, cbId := 0, version := 0, scaleOff := 0,
                   scaleLen := if fmt = 0x30 then 0 else hd * tpt / 32, csumOff := 0, csumLen := 0 }
  ⟨h, List.replicate 256 0#8 ++ b, []⟩

/-- The payload row and the scale bytes of one token's vector, and the flags of the conversion (R266, R267, R269, R270). -/
def kvRow (fmt : Nat) (v : List F32) : List Byte × List Byte × Nat :=
  let blocks := (blocks32 (v.length / 32 + 1) v).map fun b => b.map f32Elem
  if fmt = 0x30 then
    (blocks.flatMap fun b =>
      let r := toKv4 b
      ((List.range 16).map fun k => BitVec.ofNat 8 ((r.2[2 * k]?).getD 0 + 16 * (r.2[2 * k + 1]?).getD 0)) ++
        [BitVec.ofNat 8 r.1, 0#8], [], if blocks.any fun b => b.any fun x => !x.finite then flNONFINITE else 0)
  else
    let rs := blocks.map toMxfp8
    (rs.flatMap fun r => r.2.1.map (BitVec.ofNat 8 ·), rs.map fun r => BitVec.ofNat 8 r.1,
      (if blocks.any fun b => b.any fun x => !x.finite then flNONFINITE else 0) ||| if rs.any (·.2.2) then flSATURATED else 0)

/-- The header of a KV tile at an address, holding `n` tokens, over its payload and side data (R302). -/
def kvHeader (fmt hd tpt va n : Nat) (body : List Byte) : List Byte :=
  let z := kvSizes fmt hd tpt
  let slen := if fmt = 0x30 then 0 else hd * tpt / 32
  let b := leBytes 2 0x7A1E ++ leBytes 1 2 ++ leBytes 1 fmt ++ leBytes 4 z.1 ++ leBytes 2 z.2.1 ++
    leBytes 2 (if fmt = 0x30 then 4 else 0xC) ++ leBytes 2 tpt ++ leBytes 2 hd ++ leBytes 4 0 ++ leBytes 4 (crc32c body) ++
    leBytes 8 (va % 2 ^ 63 + 2 ^ 63) ++ leBytes 8 0 ++ leBytes 4 n ++ leBytes 2 0 ++ leBytes 2 slen ++ leBytes 4 0 ++
    List.replicate 200 0#8
  b ++ leBytes 4 (crc32c b)

/-- The row of a KV tile after a token's vector is put at `row`: the whole body. -/
def kvPut (fmt hd tpt row : Nat) (body : List Byte) (v : List F32) : List Byte :=
  let z := kvSizes fmt hd tpt
  let r := kvRow fmt v
  let rowLen := if fmt = 0x30 then hd * 9 / 16 else hd
  let b := if row = 0 then List.replicate (z.1 + z.2.1) 0#8 else body
  let b := overlay b (row * rowLen) r.1
  if fmt = 0x30 then b else overlay b (z.1 + row * (hd / 32)) r.2.1

/-- Tokens of a sequence that ATTN reads: tiles with their first and last row in the window (R300, R247). -/
structure KvPart where
  k    : Tile
  v    : Tile
  lo   : Nat
  hi   : Nat
  deriving DecidableEq, Repr

/-- The largest scale byte of a row of a tile, as an anchor (R244). -/
def rowAnchor (t : Tile) (o : Nat) : Int :=
  ((List.range (t.hdr.cols / 32)).foldl (fun m j => max m (t.scale o (32 * j))) 0 : Nat) - 127

/-- A lane that the array reduces over a KV tile: its position, its accumulator and the blocks that discarded a fraction. -/
structure KvLane where
  q    : Int
  acc  : LaneAcc
  cuts : List Bool

/-- The comparison of R264 over the lanes of one batch lane of a tile: the array forms the column sums itself as it reads the tile, and the
checksum lane accumulates them at the highest position of the lanes (R259, R260). With positions of their own (R244), the lanes' values are
compared at that position's unit (DESIGN CHOICE, assumption log 62). It is not made for a lane that is not finite (R263). -/
def kvCompare (ls : List KvLane) (chk : Int → LaneAcc × List Bool) : Bool × Nat :=
  if ls.any fun l => l.acc.nonfinite then (true, flUNCHECKED)
  else match ls with
    | [] => (true, 0)
    | l0 :: _ =>
      let q := ls.foldl (fun m l => max m l.q) l0.q
      let c := chk (q - 60)
      let d := dyAdd (dySum (ls.map fun l => accVal l.acc l.q)) (dyNeg (accVal c.1 q))
      let t := ((List.range c.2.length).filter fun j => (c.2 :: ls.map (·.cuts)).any fun r => (r[j]?).getD false).length
      if c.1.nonfinite then (true, flUNCHECKED)
      else (if t = 0 then decide (d.m = 0) else dyLe ⟨d.m.natAbs, d.e⟩ ⟨(ls.length + 1) * t - 1, q - 60⟩, 0)

/-- The exact sum of the weights of some elements of a tile; none if one is not finite. -/
def Tile.sumAt (t : Tile) (l : List (Nat × Nat)) : Option Dy :=
  l.foldl (fun a p => match a, t.weight p.1 p.2 with
    | some x, some y => some (dyAdd x y)
    | _, _ => none) (some dyZero)

/-- q · k_t of R300 for a query vector and one token, at the position of the token's row; none for a query without a finite nonzero
element. -/
def kvDot (p : KvPart) (o : Nat) (q : List Elem) : Option KvLane :=
  (laneMax q).map fun x =>
    let pos := rowAnchor p.k o + emaxW p.k.hdr.format + x
    let r := reduceLane (pos - 60) (p.k.rowProducts o q)
    ⟨pos, r.1, r.2⟩

/-- s_t of R300 and its flags. -/
def kvScore (l : Option KvLane) (q : List Elem) (scale : F32) : F32 × Nat :=
  let c := convWord tyFP32 (match l with
    | some r => rowValue (some r.q) r.acc
    | none => if laneEmpty q then some dyZero else none)
  (fMul (BitVec.ofNat 32 c.1) scale, c.2 ||| if l.any fun r => r.acc.inexact then flINEXACT else 0)

/-- The output of one query head over the tiles of its KV head (R300): FP32 words, flags, and the tiles whose comparison fails (R264). -/
def attnHead (parts : List KvPart) (q : List F32) (scale : F32) (hd : Nat) : List F32 × Nat × List Nat :=
  let qe := q.map f32Elem
  let rows := fun (p : KvPart) => (List.range (p.hi + 1 - p.lo)).map fun i => p.lo + i
  let dots := parts.map fun p => (rows p).map fun o => kvDot p o qe
  let kchk := (parts.zip dots).map fun x => kvCompare (x.2.filterMap id) fun u =>
    reduceLane u ((List.range hd).map fun k => prod (x.1.k.sumAt ((rows x.1).map fun o => (o, k))) ((qe[k]?).bind (·.val)))
  let scored := dots.map fun l => l.map fun x => kvScore x qe scale
  let m := fMax (scored.flatten.map (·.1))
  let ps := scored.map fun l => l.map fun x => convF32 tyBF16 (fExp2 (fSub x.1 m))
  let pe := ps.map fun l => l.map fun w => Fmt.bf16.decode w.1
  let s := fSum (ps.flatten.map fun w => asF32 tyBF16 w.1)
  let x := laneMax pe.flatten
  let parted := parts.zip pe
  let lanes : List (List KvLane) := match x, parts with
    | some x, p0 :: _ => (List.range hd).map fun c =>
      let a : Int := ((parts.foldl (fun m p => (rows p).foldl (fun m o => max m (p.v.scale o c)) m) 0 : Nat) : Int) - 127
      let pos := a + emaxW p0.v.hdr.format + x
      parted.map fun t =>
        let r := reduceLane (pos - 60) ((rows t.1).zip t.2 |>.map fun y => prod (t.1.v.weight y.1 c) y.2.val)
        ⟨pos, r.1, r.2⟩
    | _, _ => []
  let vchk := (List.range parted.length).map fun j => kvCompare (lanes.filterMap (·[j]?)) fun u =>
    match parted[j]? with
    | some t => reduceLane u ((rows t.1).zip t.2 |>.map fun y => prod (t.1.v.sumAt ((List.range hd).map fun c => (y.1, c))) y.2.val)
    | none => ({}, [])
  let outs := (List.range hd).map fun c => match lanes[c]? with
    | some ls =>
      let acc := ls.foldl (fun (l : LaneAcc) (k : KvLane) => LaneAcc.add l k.acc) {}
      let w := convWord tyFP32 (rowValue (ls.head?.map KvLane.q) acc)
      (w.1, w.2 ||| if acc.inexact then flINEXACT else 0)
    | none => convWord tyFP32 (if laneEmpty pe.flatten then some dyZero else none)
  (outs.map fun o => fMul (BitVec.ofNat 32 o.1) (fRecip s.1),
    orAll (outs.map (·.2)) ||| orAll (scored.flatten.map (·.2)) ||| orAll (ps.flatten.map (·.2)) ||| s.2 |||
      orAll ((kchk ++ vchk).map (·.2)),
    (List.range parts.length).filter fun j => !((kchk[j]?).map (·.1)).getD true || !((vchk[j]?).map (·.1)).getD true)

end Sys2Proof.Machine
end

