-- ==== Sys2Proof/Machine/Items.lean ====
section
/-!
DEFINITION. Items (06_decode_arrays.md R307 to R313): what a phase is cut into, what a run of an item reads, and what it
computes.
-/

namespace Sys2Proof.Machine

/-! ## Staged tiles by slot -/

/-- The tiles of a slot of the program's current layer. -/
def State.slotAll (s : State) (n slot : Nat) : List StageTile :=
  (s.entryNums n (s.curLayer n) fun e => e.slot == slot).flatMap fun k =>
    (s.tilesFor n (s.curLayer n) k).filter fun t => t.st ≠ .freed

/-- The present ones. -/
def State.slotTiles (s : State) (n slot : Nat) : List StageTile := (s.slotAll n slot).filter fun t => t.st = .present

/-- Does the layer's Hamper name the slot. -/
def State.slotKnown (s : State) (n slot : Nat) : Bool := !(s.entryNums n (s.curLayer n) fun e => e.slot == slot).isEmpty

/-- The tile of a slot that an array of a half reads: its own half's copy if there is one. -/
def State.slotTile (s : State) (n slot h : Nat) : Option StageTile :=
  let ts := s.slotTiles n slot
  match ts.find? fun t => t.half == h with
  | some t => some t
  | none => ts.head?

def State.slotHdr (s : State) (n slot : Nat) : Option Hdr :=
  (s.slotTiles n slot).head?.map fun t => hdrOf (s.mem.bytes t.off 256)

/-- The staged KEEP tile of a partition with a TILE_ID (R277), or one that is fetched again. -/
def State.keepTile (s : State) (part id : Nat) : Option StageTile :=
  let ts := s.stage.filter fun t => t.part == part && t.id == id && t.refs.any fun r => r.step.isNone
  match ts.find? fun t => t.st = .present with
  | some t => some t
  | none => ts.find? (·.refetch)

/-- The ANCHOR of a slot's tile (R244): of a tile with FLAGS.KV, that of its content. -/
def State.slotAnchor (s : State) (n slot : Nat) : Option Nat :=
  (s.slotTiles n slot).head?.map fun t =>
    let b := s.mem.bytes t.off t.extent
    (tileOf b (((s.keepTile t.part (hdrOf b).cbId).map fun k => s.mem.bytes (k.off + 256) 32768).getD [])).anchor

/-! ## Cutting a phase into items -/

/-- Lane groups of 64 batch lanes (R288). -/
def laneGroups (l : List (Nat × Nat)) : List (List (Nat × Nat)) :=
  let gs := ((l.map fun x => x.1 / 64).eraseDups)
  gs.map fun g => l.filter fun x => x.1 / 64 == g

/-- Cut a list into pieces of k. -/
def chunks {α : Type} (k : Nat) : Nat → List α → List (List α)
  | 0, _ => []
  | n + 1, l => l.take k :: chunks k n (l.drop k)

/-- The lanes of a lane group by item: 64 ÷ F of them in a fixed fold F (R275). -/
def foldLanes (fold : Nat) (g : List (Nat × Nat)) : List (List (Nat × Nat)) :=
  (chunks (64 / max 1 fold) (max 1 fold) g).filter fun l => !l.isEmpty

/-- All batch lanes of the step. -/
def ProgSt.allLanes (p : ProgSt) : List (Nat × Nat) := (List.range p.lanes.length).map fun b => (b, 0)

/-- The sequence of a batch lane. -/
def ProgSt.seqAt (p : ProgSt) (b : Nat) : Option SeqSt := (p.lanes[b]?).bind fun sl => p.seqs.find? fun e => e.slot == sl

/-- Formats of 8 or 16 bits per element, which run only in the half that stages the tile (R310). -/
def wideFmt (f : Nat) : Bool := f == 0x01 || f == 0x02 || f == 0x10 || f == 0x31 || f == 0x40

/-- The halves that stage a slot's tile. -/
def State.slotHalves (s : State) (n slot : Nat) : List Nat := ((s.slotAll n slot).map (·.half)).eraseDups

/-- The halves whose arrays may run an item of a staged tile (R310). -/
def State.tileHalves (s : State) (n slot : Nat) : List Nat :=
  match s.slotHdr n slot with
  | none => s.slotHalves n slot
  | some h => if wideFmt h.format then s.slotHalves n slot else [0, 1]

/-- The half that stages a slot (R312). -/
def State.slotHome (s : State) (n slot : Nat) : Nat := ((s.slotHalves n slot).head?).getD 0

/-- Array-cycles of a tile's item in fold 1 (R307). -/
def tileCycles (h : Hdr) (inType : Nat) : Nat := max 1 (h.rows / 64) * h.cols * (if inType = tyBF16 || h.format = 0x40 then 4 else 1)

def State.slotCycles (s : State) (n slot inType : Nat) : Nat := ((s.slotHdr n slot).map fun h => tileCycles h inType).getD 4096

/-- An item of a weight tile. -/
def State.tileItem (s : State) (n slot group col expert fold inType : Nat) (lanes : List (Nat × Nat)) : Item :=
  { num := 0, slot := slot, group := group, col := col, expert := expert, lanes := lanes, halves := s.tileHalves n slot,
    staged := s.slotHalves n slot, home := 0, fold := fold, cycles := s.slotCycles n slot inType }

/-- Each reduction group's owning combiner is in the half that stages its tile with the lowest slot (R312). -/
def State.ownedItems (s : State) (n : Nat) (l : List Item) : List Item :=
  l.map fun it => { it with home := s.slotHome n ((l.filter fun x => x.group == it.group).foldl (fun m x => min m x.slot) it.slot) }

/-- The SEL records of a lane: expert and gate. -/
def ProgSt.selOf (p : ProgSt) (ref b : Nat) : List (Nat × Nat) :=
  ((p.sel.find? fun e => e.1 == buOff ref && e.2.1 == b).map (·.2.2)).getD []

/-- The grid items of a GEMM: slot by slot in ascending order, then lane group (R308). `rows` are the row tiles, `mk` the
group number of a row. -/
def State.gridItems (s : State) (n base rt ct fold inType expert : Nat) (lanes : List (Nat × Nat)) (mk : Nat → Nat) : List Item :=
  (List.range rt).flatMap fun r => (List.range ct).flatMap fun c =>
    (laneGroups lanes).flatMap fun g => (foldLanes fold g).map fun l =>
      s.tileItem n (base + r * ct + c) (mk r) c expert fold inType l

def gmCOMBINE (d : List Byte) : Bool := (leAt d 0xA 1).testBit 2
def gmADD (d : List Byte) : Bool := (leAt d 0xA 1).testBit 0

/-- Put an item where slot and lane group place it. -/
def insertItem (it : Item) : List Item → List Item
  | [] => [it]
  | x :: r =>
    let key := fun (i : Item) => i.slot * 1024 + ((i.lanes.head?).map (·.1)).getD 0
    if key it < key x then it :: x :: r else x :: insertItem it r

/-- Items in ascending slot order and then in ascending lane group (R308). -/
def bySlot (l : List Item) : List Item := l.foldl (fun a it => insertItem it a) []

/-- The items of a GEMM (R296, R297). Reduction groups are numbered by row tile, with EXPERT and without COMBINE also by
expert. -/
def State.gemmItems (s : State) (n : Nat) (d : List Byte) : List Item :=
  let p := s.prog n
  let rt := leAt d 6 2
  let ct := leAt d 8 2
  let w := leAt d 4 2
  let ty := buType (leAt d 0x10 8)
  let fold := leAt d 0xB 1
  if !phExpert d then s.gridItems n w rt ct fold ty 0 p.allLanes id
  else
    let recs := (List.range p.lanes.length).flatMap fun b =>
      let l := p.selOf (leAt d 0x28 8) b
      (List.range l.length).map fun j => (b, j, ((l[j]?).getD (0, 0)).1)
    (List.range 256).flatMap fun e =>
      match (recs.filter fun x => x.2.2 == e).map fun x => (x.1, x.2.1) with
      | [] => []
      | lanes => s.gridItems n (w + e * leAt d 0x30 2) rt ct fold ty e lanes
          fun r => if gmCOMBINE d then r else e * 65536 + r

/-- The half that homes a virtual address of the program: East where it is not own memory. -/
def State.vaHalf (s : State) (p : ProgSt) (va : Nat) : Nat := halfNum (s.homeOfVA p.ctx va)

/-- First position that ATTN reads (R300). -/
def attnLo (d : List Byte) (pos : Nat) : Nat := if leAt d 0xC 4 = 0 then 0 else pos + 1 - min (pos + 1) (leAt d 0xC 4)

/-- The items of an attention phase: a KV tile pair of one sequence and head (R307, R310, R311, R312). -/
def State.attnItems (s : State) (n : Nat) (d : List Byte) : List Item :=
  let p := s.prog n
  let kh := leAt d 5 1
  let tl := leAt d 9 1
  (List.range p.lanes.length).flatMap fun b =>
    match p.seqAt b with
    | none => []
    | some q =>
      (List.range kh).flatMap fun h =>
        let t0 := attnLo d q.pos / 2 ^ tl
        (List.range (q.pos / 2 ^ tl + 1 - t0)).map fun i =>
          let half := s.vaHalf p (kvAddr d q.kvBase h (t0 + i))
          { num := 0, slot := t0 + i, group := b * 64 + h, col := h, lanes := [(b, t0 + i)],
            halves := [half], staged := [half], home := s.vaHalf p (kvAddr d q.kvBase h t0), fold := 4,
            cycles := leAt d 6 2 * 2 ^ tl / 32 }

/-- An adapter table entry (R304): A_SLOT, B_SLOT and VALID. An entry with a reserved bit set is not VALID (R13, R295). -/
def adapterOf (e : Nat) : Nat × Nat × Bool := (bits e 0 16, bits e 16 16, e.testBit 32 && e / 2 ^ 33 == 0)

/-- Tiles along a width, by the header of the first. -/
def tilesAlong (width : Nat) (one : Hdr → Nat) (h : Option Hdr) : Nat := ((h.map fun h => max 1 (width / max 1 (one h)))).getD 1

/-- The items of a LORA phase (R304, R307): for each adapter the grid tiles of A, side by side along IN from A_SLOT, and those of B, one
below the other along OUT from B_SLOT (DESIGN CHOICE, assumption log 62), against the lane groups of its lanes. -/
def State.loraItems (s : State) (n : Nat) (d : List Byte) (tbl : List Byte) : List Item :=
  let p := s.prog n
  let lanes := (List.range p.lanes.length).filterMap fun b => (p.seqAt b).map fun q => (b, q.adapter)
  bySlot ((List.range 64).flatMap fun a =>
    let mine := (lanes.filter fun x => x.2 == a).map fun x => (x.1, 0)
    let e := adapterOf (leAt tbl (8 * a) 8)
    if !e.2.2 then []
    else
      let ct := tilesAlong (buWidth (leAt d 0x10 8)) Hdr.cols (s.slotHdr n e.1)
      let rt := tilesAlong (buWidth (leAt d 0x18 8)) Hdr.rows (s.slotHdr n e.2.1)
      (laneGroups mine).flatMap fun g =>
        let grp := a * 16 + (g.head?.map (·.1)).getD 0 / 64
        ((List.range ct).map fun c => s.tileItem n (e.1 + c) grp c a 1 (buType (leAt d 0x10 8)) g) ++
          (List.range rt).map fun r => s.tileItem n (e.2.1 + r) (loraB r grp) 0 a 1 tyBF16 g)

/-- The items of the current phase; `tbl` is the adapter table of a LORA phase. EMBED has none; NORM, ACT, ROPE and SAMPLE have one for each
lane group, which any array may run. -/
def State.phaseItems (s : State) (n : Nat) (tbl : List Byte) : List Item :=
  let p := s.prog n
  let d := s.curDesc n
  let op := phOp d
  if op = phEMBED then []
  else if op = phGEMM then s.ownedItems n (s.gemmItems n d)
  else if op = phATTN then s.attnItems n d
  else if op = phLORA then s.ownedItems n (s.loraItems n d tbl)
  else if op = phROUTE then s.ownedItems n (s.gridItems n (leAt d 8 2) 1 (leAt d 0xA 2) 0 (buType (leAt d 0x10 8)) 0 p.allLanes fun _ => 0)
  else (laneGroups p.allLanes).map fun g =>
    { num := 0, slot := 0, group := (g.head?.map (·.1)).getD 0 / 64, lanes := g, halves := [0, 1], staged := [0, 1], home := 2, fold := 1,
      cycles := 2 * g.length }

/-- The output buffer references of a phase. -/
def phOuts (d : List Byte) : List Nat :=
  let op := phOp d
  if op = phEMBED then [leAt d 0x10 8]
  else if op = phROPE then [leAt d 0x10 8]
  else if op = phLORA then [leAt d 0x18 8, leAt d 0x20 8]
  else if op = phSAMPLE then []
  else [leAt d 0x18 8]

/-- Change the sequence of a batch lane. -/
def ProgSt.onLane (p : ProgSt) (b : Nat) (f : SeqSt → SeqSt) : ProgSt :=
  match p.lanes[b]? with
  | some sl => { p with seqs := p.seqs.map fun e => if e.slot = sl then f e else e }
  | none => p

/-- Status codes of a token record (R291). -/
def rcSTOP : Nat := 1
def rcMAXPOS : Nat := 2
def rcPOISON : Nat := 3
def rcNONFINITE : Nat := 4

/-- Poison ends a lane for the rest of the step (R321). -/
def ProgSt.poisonSeq (p : ProgSt) (b : Nat) : ProgSt := p.onLane b fun e => { e with status := rcPOISON, token := 0xFFFFFFFF }

/-- The SELECTION records that the lanes' SEL buffer holds as a GEMM with EXPERT begins (R297); a poisoned lane ends (R321). A lane that
cannot be read without a fault keeps the records that ROUTE wrote (assumption log 62). -/
def State.readSel (s : State) (n : Nat) (env : Env) : State :=
  let d := s.curDesc n
  if !phExpert d then s
  else
    let ref := leAt d 0x28 8
    (List.range (s.prog n).lanes.length).foldl (fun s b =>
      let p := s.prog n
      let x := p.laneVA ref b
      if s.checkExtent p.ctx x.1 x.2 .read ≠ .ok then s
      else
        let r := s.readVA p.ctx x.1 x.2 env
        let s := s.noteVA .east p.ctx x.1 x.2
        let rest := p.sel.filter fun e => !(e.1 == buOff ref && e.2.1 == b)
        if r.err || r.bad then s.setProg n ({ p with sel := rest }.poisonSeq b)
        else
          let recs := (List.range (buWidth ref)).map fun j => (leAt r.data (8 * j) 1, leAt r.data (8 * j + 4) 4)
          s.setProg n { p with sel := (buOff ref, b, recs) :: rest }) s

/-- Start the current phase of a program that may start it (R206): its items, and an empty exponent record of the output
lanes they write (R284). -/
def State.beginItems (s : State) (n : Nat) (env : Env) (tbl : List Byte := []) : State :=
  let s := s.readSel n env
  let p := s.prog n
  let items := s.phaseItems n tbl
  let offs := (phOuts (s.curDesc n)).map buOff
  let lanes := items.flatMap fun it => it.lanes.map (·.1)
  { s with itemNum := s.itemNum + items.length }.setProg n
    { p with begun := true, converted := [], residues := [], pendW := [], pendK := [],
             exps := p.exps.filter fun e => !(offs.contains e.1 && lanes.contains e.2.1),
             items := (List.range items.length).filterMap fun k => (items[k]?).map fun (it : Item) => { it with num := s.itemNum + k } }

/-! ## What a run reads -/

/-- The accesses of an array's run: each extent is checked whole in order, and a failing one stalls the array (R94,
R108). Answers whether all pass, or that one can only complete with an error (R667). -/
def State.presentAll (s : State) (a n : Nat) (access : Nat) (w : Acc) : List (Nat × Nat) → State × Presented
  | [] => (s, .pass)
  | (va, len) :: r =>
    match s.present a (s.prog n).ctx access va len w (s.rd .CUR_VALUE n) with
    | (s, .pass) => s.presentAll a n access w r
    | q => q

/-- Read extents that have passed. -/
def State.readAll (s : State) (h : Half) (c : Nat) (env : Env) (l : List (Nat × Nat)) : State × List ReadRes :=
  l.foldl (fun (acc : State × List ReadRes) x =>
    let r := acc.1.readCached h c x.1 x.2 env
    (r.1, acc.2 ++ [r.2])) (s, [])

/-- Present and read extents for an array: none while the array is stalled; a context lost to poison answers errors. -/
def State.arrReads (s : State) (a n : Nat) (env : Env) (l : List (Nat × Nat)) : State × Option (List ReadRes) :=
  match s.presentAll a n 0 .read l with
  | (s, .pass) =>
    let r := s.readAll (ofHalfNum (a / 128)) (s.prog n).ctx env l
    (match (l.zip r.2).find? fun x => x.2.refused.isSome with
     | some x => (r.1.keyFault a (s.prog n).ctx 0 x.1.1 x.1.2 (s.rd .CUR_VALUE n) (x.2.refused.getD 0), none)
     | none => (r.1, some r.2))
  | (s, .error) => (s, some (l.map fun x => { err := true, data := List.replicate x.2 0#8 }))
  | (s, .stalled) => (s, none)

/-- A buffer lane's words, none where the read returned poison or an error (R321, R667). -/
def laneWords (t n : Nat) (r : Option ReadRes) : Option (List Nat) :=
  match r with
  | some r => if r.err || r.bad then none else some (wordsOf t n r.data)
  | none => none

/-- A tile read whole by an array for a program's phase, or that it is poisoned (R667). The copy kept in the array's tile buffer serves the lane
groups that run there one after the other (R308). -/
def State.readTile (s : State) (a n : Nat) (t : StageTile) (keep : Bool := true) : State × Option (List Byte) :=
  let put := fun (s : State) (x : ArrSt) => ({ s with arrs := sput {} a { x with reads := ninsert t.num x.reads } s.arrs } : State)
  match (s.arr a).buffer.filter fun b => b.1 == t.num && b.2.1 == s.rd .CUR_VALUE n with
  | some b => (put s (s.arr a), some b.2.2)
  | none =>
    let r := s.cachedOwn (ofHalfNum (a / 128)) t.off t.extent
    if r.2.bad then ((r.1).refetch t.num, none)
    else (put r.1 (if keep then { r.1.arr a with buffer := some (t.num, r.1.rd .CUR_VALUE n, r.2.data) } else r.1.arr a), some r.2.data)

/-- What a run needs before it can compute. -/
inductive TileRead where
  | ok (t : Tile)
  | wait
  | fail (code slot : Nat)
  deriving DecidableEq, Repr

def erANCHOR : Nat := 1
def erCODEBOOK : Nat := 2
def erFAULT_ABORT : Nat := 3
def erTILE_SHAPE : Nat := 4
def erOUTPUT : Nat := 5
def erARBITRATION : Nat := 6

/-- Read the codebook of a CB8 tile (R277): the slot of the array holds it, or it is loaded from the staged KEEP tile. -/
def State.readBook (s : State) (a n : Nat) (h : Hdr) : State × Option (List Byte) × Bool :=
  let part := (s.prog n).part
  let x := s.arr a
  match x.books.find? fun b => b.1 == h.cbSlot && b.2.1 == part && b.2.2.1 == h.cbId with
  | some b => (s, some b.2.2.2, false)
  | none => match s.keepTile part h.cbId with
    | none => (s, none, false)
    | some t =>
      if t.st ≠ .present then (s, none, true)
      else
        let r := s.readTile a n t false
        match r.2 with
        | none => (r.1, none, true)
        | some b =>
          let k := hdrOf b
          if !(k.flag 5 && k.format == 0x01 && k.rows == 4096 && k.cols == 8) then (r.1, none, false)
          else
            let book := slice b 256 32768
            let x := r.1.arr a
            ({ r.1 with arrs := sput {} a { x with books := (h.cbSlot, part, h.cbId, book) :: x.books.filter fun y => y.1 ≠ h.cbSlot } r.1.arrs },
              some book, false)

/-- Read the weight tile of a slot and check it (R242, R277, R320): `shape` says whether its header is what the phase
requires. -/
def State.weightTile (s : State) (a n slot : Nat) (shape : Hdr → Bool) : State × TileRead :=
  if !s.slotKnown n slot then (s, .fail erTILE_SHAPE slot)
  else match s.slotTile n slot (a / 128) with
    | none => (s, .wait)
    | some t =>
      let r := s.readTile a n t
      match r.2 with
      | none => (r.1, .wait)
      | some b =>
        let h := hdrOf b
        if !shape h then (r.1, .fail erTILE_SHAPE slot)
        else if h.format = 0x20 then
          let k := r.1.readBook a n h
          match k.2.1 with
          | some book => if (tileOf b book).anchorError then (k.1, .fail erANCHOR slot) else (k.1, .ok (tileOf b book))
          | none => (k.1, if k.2.2 then .wait else .fail erCODEBOOK slot)
        else if (tileOf b []).anchorError then (r.1, .fail erANCHOR slot)
        else (r.1, .ok (tileOf b []))

/-- The formats of a GEMM weight tile (R278). -/
def gemmFmt (f : Nat) : Bool := [0x01, 0x02, 0x10, 0x11, 0x12, 0x13, 0x20, 0x40].contains f

/-- The largest ANCHOR of a reduction group's tiles (R244), none while one of them is not present. -/
def State.groupAnchor (s : State) (n base ct : Nat) : Option Nat :=
  (List.range ct).foldl (fun m c => match m, s.slotAnchor n (base + c) with
    | some x, some y => some (max x y)
    | _, _ => none) (some 0)

/-- X_b (R245, R284): from the record of the buffer lane's last writes, or from the elements read. -/
def ProgSt.xOf (p : ProgSt) (ref b : Nat) (whole : Bool) (xs : List Elem) : Option Int :=
  match p.exps.find? fun e => e.1 == buOff ref && e.2.1 == b with
  | some e => if whole then e.2.2 else laneMax xs
  | none => laneMax xs

/-- One lane of one weight tile: partials at the anchor position, and whether its checksum comparison failed with D_b. -/
def gemmLane (t : Tile) (anchor : Nat) (x : Option Int) (whole part : List Elem) (lane recd : Nat) (add : List Nat) :
    LaneOut × Option Nat :=
  let has := t.hdr.flag 4
  if laneEmpty whole then
    let bad := has && (List.range t.hdr.cols).any fun k => (t.csum k).isNone
    ({ lane := lane, recd := recd, rows := List.replicate t.hdr.rows {}, words := add, flags := if has then 0 else flUNCHECKED }, if bad then some 0 else none)
  else
    let q := x.map fun x => (anchor : Int) - 127 + emaxW t.hdr.format + x
    let r := tileLane t (q.getD 0) part
    ({ lane := lane, recd := recd, q := q, rows := r.rows, words := add, flags := r.flags }, if r.fails then some r.diff else none)

/-- The lanes of a run with the checksum detection over them (R260, R261): the first failing D_b and how many fail. -/
def runOf (a : Nat) (ls : List (LaneOut × Option Nat)) : RunRes :=
  let bad := ls.filterMap (·.2)
  { arr := a, outs := ls.map (·.1), trig := if bad.isEmpty then .none else .csum, syn := bad.headD 0, cnt := bad.length }

def failRun (a code slot : Nat) : RunRes := { arr := a, fail := code, fslot := slot }
def waitRun (a : Nat) : RunRes := { arr := a, wait := true }

def poisonLane (b j : Nat) : LaneOut := { lane := b, recd := j, poison := true }

/-- The width of one segment of a buffer cut by expert records, and the words of segment j. -/
def segment (ws : List Nat) (width j : Nat) : List Nat := (ws.drop (j * width)).take width

/-- What an item of a grid of weight tiles takes from its phase: the input buffer and the words of it that a lane reduces, whether those are
a lane whole (whose exponent record then counts, R284), the first slot of its reduction group and of the grid, the tiles along the
input, what the header must be beside the first tile's, and the addend of a lane: its buffer and segment (R296). -/
structure GridSt where
  inn   : Nat
  part  : Nat × Nat → List Nat → List Nat
  whole : Bool
  base  : Nat
  first : Nat
  ct    : Nat
  shape : Hdr → Hdr → Bool
  add   : Nat × Nat → Option (Nat × Nat)

/-- A run of an item of a grid. -/
def State.runGrid (s : State) (a n : Nat) (it : Item) (g : GridSt) (env : Env) : State × Option RunRes :=
  let p := s.prog n
  match s.groupAnchor n g.base g.ct, s.slotHdr n g.first with
  | some anchor, some f0 =>
    let w := s.weightTile a n it.slot fun h => g.shape h f0
    match w.2 with
    | .wait => (w.1, some (waitRun a))
    | .fail c sl => (w.1, some (failRun a c sl))
    | .ok t =>
      let adds := it.lanes.filter fun x => it.col == 0 && (g.add x).isSome
      let q := w.1.arrReads a n env ((it.lanes.map fun x => p.laneVA g.inn x.1) ++
        adds.map fun x => p.laneVA (((g.add x).map (·.1)).getD 0) x.1)
      match q.2 with
      | none => (q.1, none)
      | some rs =>
        let addOf := fun (x : Nat × Nat) => match (if adds.contains x then g.add x else none) with
          | some (ref, seg) =>
            (laneWords tyFP32 (buWidth ref) (rs[it.lanes.length + adds.findIdx (· == x)]?)).map fun ws => segment ws t.hdr.rows seg
          | none => some []
        let ls := (List.range it.lanes.length).map fun k =>
          let x := (it.lanes[k]?).getD (0, 0)
          match laneWords (buType g.inn) (buWidth g.inn) (rs[k]?), addOf x with
          | some ws, some ad =>
            let whole := elemsOf (buType g.inn) (g.part x ws)
            let xs := (whole.drop (it.col * t.hdr.cols)).take t.hdr.cols
            gemmLane t anchor (p.xOf g.inn x.1 g.whole whole) whole
              (xs ++ List.replicate (t.hdr.cols - xs.length) ((tyFmt (buType g.inn)).decode 0)) x.1 x.2 ad
          | _, _ => (poisonLane x.1 x.2, none)
        (q.1, some (runOf a ls))
  | _, _ => (s, some (if (List.range g.ct).all fun c => s.slotKnown n (g.base + c) then waitRun a else failRun a erTILE_SHAPE it.slot))

/-- The grid of a GEMM (R278, R296, R297). -/
def gemmGrid (d : List Byte) (it : Item) : GridSt :=
  let ct := leAt d 8 2
  let rt := leAt d 6 2
  let ex := phExpert d
  let comb := ex && gmCOMBINE d
  let inn := leAt d 0x10 8
  let out := leAt d 0x18 8
  let topk := if ex then buWidth (leAt d 0x28 8) else 1
  let inW := if comb then buWidth inn / max 1 topk else buWidth inn
  let outW := if ex && !comb then buWidth out / max 1 topk else buWidth out
  let r := if ex && !comb then it.group % 65536 else it.group
  let first := leAt d 4 2 + it.expert * leAt d 0x30 2
  { inn := inn, part := fun x ws => if comb then segment ws inW x.2 else ws, whole := !comb, base := first + r * ct, first := first, ct := ct,
    shape := fun h f => gemmFmt h.format && h.format == f.format && h.rows == f.rows && h.cols == f.cols && h.rows % 64 == 0 &&
      decide (64 ≤ h.rows) && decide (h.rows ≤ 2048) && h.rows * rt == outW && h.cols * ct == inW,
    add := fun x => if gmADD d && (!comb || x.2 == 0) then some (leAt d 0x20 8, if ex && !comb then x.2 * rt + r else r) else none }

/-- The grid of a ROUTE (R298). -/
def routeGrid (d : List Byte) : GridSt :=
  let inn := leAt d 0x10 8
  let ct := leAt d 0xA 2
  { inn := inn, part := fun _ ws => ws, whole := true, base := leAt d 8 2, first := leAt d 8 2, ct := ct,
    shape := fun h f => gemmFmt h.format && h.format == f.format && h.rows == f.rows && h.cols == f.cols &&
      h.rows == roundUp (leAt d 4 2) 64 && h.cols * ct == buWidth inn,
    add := fun _ => none }

/-- The grid of an adapter (R304): A against IN, or B against TMP with OUT as addend. -/
def State.loraGrid (s : State) (n : Nat) (d : List Byte) (it : Item) : GridSt :=
  let okf := fun (h : Hdr) => h.format == 0x01 || h.format == 0x10 || h.format == 0x40
  let same := fun (h f : Hdr) => okf h && h.format == f.format && h.rows == f.rows && h.cols == f.cols
  let rank := leAt d 4 1
  let inn := leAt d 0x10 8
  let out := leAt d 0x18 8
  if it.group < 2 ^ 40 then
    let ct := tilesAlong (buWidth inn) Hdr.cols (s.slotHdr n (it.slot - it.col))
    { inn := inn, part := fun _ ws => ws, whole := true, base := it.slot - it.col, first := it.slot - it.col, ct := ct,
      shape := fun h f => same h f && h.cols * ct == buWidth inn && decide (rank ≤ h.rows), add := fun _ => none }
  else
    let r := it.group / 2 ^ 40 - 1
    { inn := leAt d 0x20 8, part := fun _ ws => ws, whole := true, base := it.slot, first := it.slot - r, ct := 1,
      shape := fun h f => same h f && h.rows * tilesAlong (buWidth out) Hdr.rows (s.slotHdr n (it.slot - r)) == buWidth out && decide (rank ≤ h.cols),
      add := fun _ => some (out, r) }

/-- The query heads of a KV head: FP32 words of the QKV buffer. -/
def qkvHeads (d : List Byte) (h : Nat) : List Nat :=
  let g := leAt d 4 1 / max 1 (leAt d 5 1)
  (List.range g).map fun j => (h * g + j) * leAt d 6 2

/-- Write the new token's vector into a K or V tile for array a (R300, R302): the header is written after the rest; one whose old content is
not known is written anew. Answers the state and whether every write was accepted. -/
def State.kvWrite (s : State) (a n : Nat) (d : List Byte) (va row : Nat) (v : List F32) (hdr : Option (List Byte)) (body : List Byte) : State × Bool :=
  let fmt := leAt d 8 1
  let hd := leAt d 6 2
  let tpt := 2 ^ leAt d 9 1
  let c := (s.prog n).ctx
  let z := kvSizes fmt hd tpt
  let b := kvPut fmt hd tpt row body v
  let put := fun (q : State × Bool) (x : Nat × List Byte) =>
    if x.2.isEmpty then q
    else let r := q.1.writeVA c x.1 x.2 [] (.kv a); ((r.1).invalidateEnd c ekVA x.1 x.2.length, q.2 && r.2)
  if row = 0 then put (put (s, true) (va + 256, b)) (va, kvHeader fmt hd tpt va 1 b)
  else
    let rowLen := if fmt = 0x30 then hd * 9 / 16 else hd
    let h := match hdr with
      | some hdr =>
        let h := overlay (overlay (slice hdr 0 256) 0x28 (leBytes 4 (row + 1))) 0x14 (leBytes 4 (crc32c b))
        overlay h 0xFC (leBytes 4 (crc32c (slice h 0 0xFC)))
      | none => kvHeader fmt hd tpt va (row + 1) b
    let scales : Nat × List Byte := if fmt = 0x30 then (0, []) else (va + 256 + z.1 + row * (hd / 32), slice b (z.1 + row * (hd / 32)) (hd / 32))
    put (put (put (s, true) (va + 256 + row * rowLen, slice b (row * rowLen) rowLen)) scales) (va, h)

/-- The extents of a KV tile that the token of a row writes, the header rewritten after each token left out (R706). -/
def kvTouched (fmt hd tl row va : Nat) : List (Nat × Nat) :=
  let z := kvSizes fmt hd (2 ^ tl)
  let rowLen := if fmt = 0x30 then hd * 9 / 16 else hd
  if row = 0 then [(va, 256 + z.1 + z.2.1)]
  else (va + 256 + row * rowLen, rowLen) :: if fmt = 0x30 then [] else [(va + 256 + z.1 + row * (hd / 32), hd / 32)]

/-- A run of an attention item (R300 to R302): the item of the tile that takes position POS writes K and V first; then
the payload and scale area of the pair are read, where poison ends the lane (R321). A poisoned header is written anew (DESIGN CHOICE,
assumption log 62). -/
def State.runAttn (s : State) (a n : Nat) (it : Item) (d : List Byte) (env : Env) : State × Option RunRes :=
  let p := s.prog n
  let b := (it.lanes.headD (0, 0)).1
  let t := (it.lanes.headD (0, 0)).2
  match p.seqAt b with
  | none => (s, some { arr := a })
  | some q =>
    let fmt := leAt d 8 1
    let hd := leAt d 6 2
    let tl := leAt d 9 1
    let z := kvSizes fmt hd (2 ^ tl)
    let len := z.1 + z.2.1
    let va := kvAddr d q.kvBase it.col t
    let mine := q.pos / 2 ^ tl == t
    let row := q.pos % 2 ^ tl
    let qkv := leAt d 0x10 8
    let kvs := [(va + 256, len), (va + z.2.2 + 256, len)]
    let hdrs := [(va, 256), (va + z.2.2, 256)]
    -- the new token's writes are checked as the reads are, before anything is done
    let w := if mine then s.presentAll a n 1 .write [(va, 256 + len), (va + z.2.2, 256 + len)] else (s, .pass)
    match w with
    | (s, .stalled) => (s, none)
    | (s, .error) => (s, some (failRun a erOUTPUT 0))
    | (s, .pass) =>
      let more : List (Nat × Nat) := if !mine then [] else if row = 0 then [p.laneVA qkv b] else p.laneVA qkv b :: hdrs
      let r := s.arrReads a n env (kvs ++ more)
      match r.2 with
      | none => (r.1, none)
      | some rs =>
        let data : Nat → List Byte := fun k => ((rs[k]?).map fun (x : ReadRes) => x.data).getD []
        let badAt := fun (k : Nat) => (rs[k]?).any fun x => x.err || x.bad
        if !mine then
          if badAt 0 || badAt 1 then (r.1, some { arr := a, outs := [poisonLane b t] })
          else (r.1, some { arr := a, outs := [{ lane := b, recd := t, bytes := data 0 ++ data 1 }] })
        else match laneWords tyFP32 (buWidth qkv) (rs[2]?) with
          | none => (r.1, some { arr := a, outs := [poisonLane b t] })
          | some ws =>
              let vec := fun (o : Nat) => ((ws.drop o).take hd).map fun x => BitVec.ofNat 32 x
              let kv := vec ((leAt d 4 1 + it.col) * hd)
              let vv := vec ((leAt d 4 1 + leAt d 5 1 + it.col) * hd)
              let hdr := fun (k : Nat) => if badAt k then none else some (data k)
              let k := r.1.kvWrite a n d va row kv (hdr 3) (data 0)
              let v := k.1.kvWrite a n d (va + z.2.2) row vv (hdr 4) (data 1)
              let lines := [va, va + z.2.2].flatMap fun x => (kvTouched fmt hd tl row x).map fun e => (q.slot, e)
              let s := v.1.setProg n { v.1.prog n with written := lines ++ (v.1.prog n).written }
              if !(k.2 && v.2) then (s, some (failRun a erOUTPUT 0))
              else if row ≠ 0 && (badAt 0 || badAt 1) then (s, some { arr := a, outs := [poisonLane b t] })
              else
                let fl := (kvRow fmt kv).2.2 ||| (kvRow fmt vv).2.2
                let o : LaneOut :=
                  { lane := b, recd := t, flags := fl, words := (qkvHeads d it.col).flatMap fun o => (ws.drop o).take hd,
                    bytes := kvPut fmt hd (2 ^ tl) row (data 0) kv ++ kvPut fmt hd (2 ^ tl) row (data 1) vv }
                (s, some { arr := a, outs := [o] })

/-- Read a NORM vector: a BF16 tile of ROWS 1 (R278). -/
def State.normTile (s : State) (a n slot width : Nat) : State × TileRead :=
  let w := s.weightTile a n slot fun h => h.format == 0x40 && h.rows == 1 && h.cols == width
  match w.2 with
  | .fail 1 sl => (w.1, .fail erANCHOR sl)
  | _ => w

/-- The words of a NORM vector as FP32. -/
def Tile.vec (t : Tile) : List F32 := (List.range t.hdr.cols).map fun k => asF32 tyBF16 (t.pay (2 * k) 2)

/-- Cosine and sine of each pair at a position of the rotary table; where the table has no such position its values are
free (assumption log 4). -/
def ropePairs (rot : Nat) (raw : Option (List Byte)) (stamp : Nat) : List (F32 × F32) :=
  (List.range (rot / 2)).map fun i => match raw with
    | some b => (BitVec.ofNat 32 (leAt b (8 * i) 4), BitVec.ofNat 32 (leAt b (8 * i + 4) 4))
    | none => (BitVec.ofNat 32 (Config.freeNat (stamp * 65536 + 2 * i)), BitVec.ofNat 32 (Config.freeNat (stamp * 65536 + 2 * i + 1)))

/-- A run of an element-wise item (R299, R303, R306). -/
def State.runElem (s : State) (a n : Nat) (it : Item) (d : List Byte) (env : Env) : State × Option RunRes :=
  let p := s.prog n
  let op := phOp d
  let ref := leAt d 0x10 8
  let w := buWidth ref
  let useBeta := op == phNORM && leAt d 4 1 == 1 && leAt d 8 2 != 0xFFFF
  let g : State × TileRead := if op = phNORM then s.normTile a n (leAt d 6 2) w else (s, .ok (tileOf [] []))
  match g.2 with
  | .wait => (g.1, some (waitRun a))
  | .fail c sl => (g.1, some (failRun a c sl))
  | .ok tg =>
    let be : State × TileRead := if useBeta then g.1.normTile a n (leAt d 8 2) w else (g.1, .ok (tileOf [] []))
    match be.2 with
    | .wait => (be.1, some (waitRun a))
    | .fail c sl => (be.1, some (failRun a c sl))
    | .ok tb =>
      let rot := leAt d 8 2
      let posOf := fun (b : Nat) => ((p.seqAt b).map (·.pos)).getD 0
      let tabled := fun (x : Nat × Nat) => op == phROPE && decide (posOf x.1 < leAt d 0x20 4)
      let bufs := it.lanes.map fun x => p.laneVA ref x.1
      let tabs := (it.lanes.filter tabled).map fun x => (leAt d 0x18 8 + posOf x.1 * (rot / 2) * 8, rot / 2 * 8)
      let q := be.1.arrReads a n env (bufs ++ tabs)
      match q.2 with
      | none => (q.1, none)
      | some rs =>
        let f := q.1.fresh
        let ls := (List.range it.lanes.length).map fun k =>
          let x := (it.lanes[k]?).getD (0, 0)
          let tab := if tabled x then rs[bufs.length + (it.lanes.filter tabled).findIdx (· == x)]? else none
          match laneWords (buType ref) w (rs[k]?), tab.any fun r => r.err || r.bad with
          | some ws, false =>
            let xs := ws.map fun v => asF32 (buType ref) v
            let ys : List F32 × Nat :=
              if op = phNORM then norm (leAt d 4 1 == 1) xs tg.vec (if useBeta then tb.vec else []) (BitVec.ofNat 32 (leAt d 0xC 4))
              else if op = phACT then (act (leAt d 4 1) (leAt d 5 1 == 1) xs, 0)
              else if op = phROPE then
                (rope xs (leAt d 4 2) (leAt d 6 2) rot (leAt d 0xA 1) (ropePairs rot (tab.map (·.data)) (f.1 * 1024 + x.1)), 0)
              else match p.seqAt x.1 with
                | none => ([], 0)
                | some e =>
                  (match sampleTok (xs.take (leAt d 4 4)) e.topK (BitVec.ofNat 32 e.invTemp) (BitVec.ofNat 32 e.topP)
                      (draw e.seed e.key (e.pos + 1)) with
                   | some t => ([BitVec.ofNat 32 t], 0)
                   | none => ([], 0))
            ({ lane := x.1, words := ys.1.map (·.toNat), flags := ys.2 }, none)
          | _, _ => (poisonLane x.1 0, none)
        (f.2, some (runOf a ls))

/-- Run an item on an array: none where the array is stalled on a fault. -/
def State.runItem (s : State) (a n : Nat) (it : Item) (env : Env) : State × Option RunRes :=
  let d := s.curDesc n
  let op := phOp d
  if op = phGEMM then s.runGrid a n it (gemmGrid d it) env
  else if op = phROUTE then s.runGrid a n it (routeGrid d) env
  else if op = phATTN then s.runAttn a n it d env
  else if op = phLORA then s.runGrid a n it (s.loraGrid n d it) env
  else s.runElem a n it d env

end Sys2Proof.Machine
end

