-- ==== Sys2Proof/Machine/Arrays.lean ====
section
/-!
DEFINITION. The decode arrays at work (06_decode_arrays.md R307 to R321, 14_integrity.md R669 to R680): grants, runs and
their results, duplicates, arbitration, the combiners' conversions and output writes.
-/

namespace Sys2Proof.Machine

/-! ## Array states (R319) -/

def pooled (st : Nat) : Bool := st == arPOOL || st == arBUSY || st == arHELD

/-- Set an array's state; DA_POOL_CNT follows. -/
def State.setAstate (s : State) (a st : Nat) : State :=
  let f := if a < 128 then F.DA_POOL_CNT_EAST else F.DA_POOL_CNT_WEST
  let was := pooled (s.astate a)
  let now := pooled st
  let s := if was && !now then s.less f else if !was && now then s.wrap f else s
  let s := s.setFld F.DA_ARR_STATUS_STATE st a
  if st = arBUSY then s else s.setFld F.DA_ARR_STATUS_FOLD 0 a

def State.setArr (s : State) (a : Nat) (x : ArrSt) : State := { s with arrs := sput {} a x s.arrs }

/-- An array has ended its work: it is idle again, unless it is to be OFFLINE or SLOW (R317, R319). -/
def State.releaseArray (s : State) (a : Nat) : State :=
  let s := (s.setArr a { s.arr a with job := .none, cur := none, test := none, reads := [] }).dropClient (.kv a)
  if s.astate a = arRETIRED then s
  else if !s.halfUp (ofHalfNum (a / 128)) || s.flag F.DA_ARR_CTRL_OFFLINE a then s.setAstate a arOFFLINE
  else if (s.arr a).slow then
    ((s.setArr a { s.arr a with slow := false }).bump F.DA_SLOW_CNT_COUNT).setAstate a arSLOW |>.record
      { cls := ecDA, event := 5, inst := a, half := some (ofHalfNum (a / 128)) }
  else s.setAstate a arPOOL

/-! ## Items -/

def State.item (s : State) (n num : Nat) : Option Item := (s.prog n).items.find? fun it => it.num == num

def State.setItem (s : State) (n : Nat) (it : Item) : State :=
  let p := s.prog n
  s.setProg n { p with items := p.items.map fun x => if x.num = it.num then it else x }

/-- A program may issue new work: its partition is not in reset (R642). -/
def State.mayIssue (s : State) (n : Nat) : Bool := decide (128 ≤ (s.prog n).part) || s.partActive (s.prog n).part

/-- The programs that are live and may issue, ascending. -/
def State.livePrograms (s : State) : List Nat := (s.progs.map (·.1)).filter fun n => s.live n && s.mayIssue n

/-- Has a program work left on the arrays: a run, outputs to be written, or partials on their way to a combiner. -/
def State.arraysBusyFor (s : State) (n : Nat) : Bool :=
  s.bridge.any (fun b => b.1 == n) || !(s.prog n).pendW.isEmpty || !(s.prog n).pendK.isEmpty ||
    s.arrs.any fun a => match a.2.job with
      | .item k _ _ => k == n
      | .write k _ => k == n
      | .table k => k == n
      | _ => false

/-- A program of a partition in reset whose running items have completed halts with PARTITION_RESET (R642). -/
def State.drainHalt (s : State) (n : Nat) : State :=
  if s.mayIssue n || s.arraysBusyFor n then s else s.haltProg n hcPARTITION_RESET

/-- Start the phases that may start (R206). An EMBED phase starts otherwise, and a LORA phase with the grant of the array that
reads its adapter table. -/
def State.beginPhases (s : State) (env : Env) : State :=
  s.livePrograms.foldl (fun s n =>
    let op := phOp (s.curDesc n)
    if (s.prog n).begun || op = phEMBED || op = phLORA || !(s.waitCauses n).isEmpty then s
    else s.beginItems n env) s

/-- An array reads the adapter table of a LORA phase, which begins (R304); a fault holds the array. Poison in the table ends the lanes that
have an adapter, as poison in an activation buffer does (R667; DESIGN CHOICE, assumption log 62). -/
def State.readTable (s : State) (a n : Nat) (env : Env) : State :=
  let r := s.arrReads a n env [(leAt (s.curDesc n) 8 8, 512)]
  match r.2 with
  | none => ((r.1).setArr a { r.1.arr a with job := .table n }).setAstate a arHELD
  | some rs =>
    if rs.any fun x => x.err || x.bad then
      let p := r.1.prog n
      let lanes := (List.range p.lanes.length).filter fun b => (p.seqAt b).any fun q => decide (q.adapter < 64)
      (r.1.setProg n (lanes.foldl ProgSt.poisonSeq p)).beginItems n env
    else r.1.beginItems n env ((rs.head?.map (·.data)).getD [])

/-- The LORA phases that may start begin with array a, unless a fault holds it. -/
def State.beginLora (s : State) (a : Nat) (env : Env) : State :=
  s.livePrograms.foldl (fun s n =>
    if s.astate a = arPOOL && !(s.prog n).begun && phOp (s.curDesc n) == phLORA && (s.waitCauses n).isEmpty then s.readTable a n env else s) s

/-- The tiles that an item waits for while they are fetched again (R667). -/
def State.itemWaits (s : State) (n : Nat) (it : Item) : Bool :=
  let d := s.curDesc n
  let op := phOp d
  let missing := fun (slot : Nat) => s.slotKnown n slot && (s.slotTiles n slot).isEmpty
  let grid := fun (g : GridSt) => missing g.first || (List.range g.ct).any fun c => missing (g.base + c)
  if op = phGEMM then grid (gemmGrid d it)
  else if op = phROUTE then grid (routeGrid d)
  else if op = phLORA then grid (s.loraGrid n d it)
  else if op = phNORM then missing (leAt d 6 2) || (leAt d 4 1 == 1 && leAt d 8 2 != 0xFFFF && missing (leAt d 8 2))
  else false

/-- Arrays of some halves that are idle. -/
def State.idleArrays (s : State) (halves : List Nat) : List Nat :=
  (List.range 256).filter fun a => halves.contains (a / 128) && s.astate a == arPOOL

/-- The fold that R313 chooses for n items and a idle arrays. -/
def splitFold (n a : Nat) : Nat :=
  let t := fun (f : Nat) => (n * f + a - 1) / max 1 a * (4096 / f)
  if t 4 ≤ t 2 && t 4 ≤ t 1 then 4 else if t 2 ≤ t 1 then 2 else 1

/-- R313: the unissued FOLD 0 items of a phase, fewer than the arrays idle for them, are split. -/
def State.splitPhase (s : State) (n : Nat) : State :=
  let p := s.prog n
  let open_ := p.items.filter fun it => !it.issued
  let a := (s.idleArrays ((open_.flatMap (·.halves)).eraseDups)).length
  if open_.isEmpty || a ≤ open_.length || open_.any (fun it => it.fold != 0 || s.itemWaits n it) then s
  else
    let f := splitFold open_.length a
    if f = 1 then s
    else
      let parts := open_.flatMap fun (it : Item) => ((chunks (64 / f) f it.lanes).filter fun l => !l.isEmpty).map fun l => { it with lanes := l, fold := f }
      let parts := (List.range parts.length).filterMap fun k => (parts[k]?).map fun (it : Item) => { it with num := s.itemNum + k }
      { s with itemNum := s.itemNum + parts.length }.setProg n { p with items := (p.items.filter fun (it : Item) => it.issued) ++ parts }

/-! ## Grants (R309, R629 to R634) -/

/-- The first issuable item of a program for an array of half h (R308, R310). -/
def State.nextItem (s : State) (n h : Nat) : Option Item :=
  (s.prog n).items.find? fun it => !it.issued && (s.prog n).itemReady it && !s.itemWaits n it &&
    (it.staged.contains h || (it.halves.contains h && (s.idleArrays it.staged).isEmpty))

/-- The class of a program's claim (R309, R631, R634): the management context within its part, partitions with share left, partitions past
their share, and those with none. -/
def State.grantClass (s : State) (n h : Nat) : Nat :=
  let part := (s.prog n).part
  if s.daLeft part h then (if part = 0xFF then 0 else 1)
  else if part = 0xFF || s.daShare part == 0 then 3 else 2

/-- Does program x go before y: with share left and with none by PRIORITY and index, past the shares the one whose partition has had the
smaller multiple of its SHARE (R634). -/
def State.grantBefore (s : State) (h x y : Nat) : Bool :=
  let cx := s.grantClass x h
  let cy := s.grantClass y h
  let key := fun (n : Nat) => (7 - (s.prog n).prio) * 64 + n
  let ratio := fun (m n : Nat) => s.daUsed (s.prog m).part h * s.daShare (s.prog n).part
  if cx ≠ cy then decide (cx < cy)
  else if cx = 2 && ratio x y ≠ ratio y x then decide (ratio x y < ratio y x)
  else decide (key x < key y)

/-- The program and item that an idle array of half h is granted to. -/
def State.pickItem (s : State) (h : Nat) : Option (Nat × Item) :=
  (s.livePrograms.filterMap fun n => (s.nextItem n h).bind fun it =>
    if s.daShareOk (s.prog n).part h it.time && s.dutyOk h it.time then some (n, it) else none).foldl
      (fun (b : Option (Nat × Item)) x => match b with
        | none => some x
        | some y => if s.grantBefore h x.1 y.1 then some x else some y) none

/-- An arbitration run waits for array a (R672). -/
def State.pickArb (s : State) (a : Nat) : Option (Nat × Item) :=
  s.livePrograms.findSome? fun n =>
    ((s.prog n).items.find? fun it => it.arb && it.halves.contains (a / 128) && !it.tried.contains a && s.dutyOk (a / 128) it.time).map
      fun it => (n, it)

/-- Run an item on an array, which is BUSY, or HELD where an access of the run faults. -/
def State.execRun (s : State) (a n : Nat) (it : Item) (env : Env) : State :=
  let s := (s.setAstate a arBUSY).setFld F.DA_ARR_STATUS_FOLD (max 1 it.fold) a
  let r := s.runItem a n it env
  match r.2 with
  | some run => r.1.setArr a { r.1.arr a with cur := some run }
  | none => r.1.setAstate a arHELD

/-- Grant an array a run of an item. -/
def State.startRun (s : State) (a n : Nat) (it : Item) (arb : Bool) (env : Env) : State :=
  let it := { it with issued := true, arb := false, fold := max 1 it.fold, tried := a :: it.tried, running := a :: it.running }
  let s := (s.setItem n it).daCharge (s.prog n).part (a / 128) it.time
  (s.setArr a { s.arr a with job := .item n it.num arb, cur := none, reads := [] }).execRun a n it env |>.evalProg n

/-- ARRAY_GRANT (R309, R672): an idle array takes an arbitration run of its half, or the next item. -/
def State.grant (s : State) (a : Nat) (env : Env) : State :=
  if s.astate a ≠ arPOOL || s.thermtrip || s.engResets.any (fun r => r.cls == 0 && r.inst == a) then s
  else
    let s := (s.beginPhases env).beginLora a env
    let s := s.livePrograms.foldl State.splitPhase s
    if s.astate a ≠ arPOOL then s
    else match s.pickArb a with
    | some (n, it) => s.startRun a n it true env
    | none => match s.pickItem (a / 128) with
      | some (n, it) => s.startRun a n it false env
      | none => s

/-! ## Conversion (R312) -/

/-- What a reduction group makes: buffer writes (reference, lane, first element, words), numeric flags of lanes, lanes
ended by poison, selections (reference, lane, records) and sampled tokens. -/
structure GroupOut where
  writes : List (Nat × Nat × Nat × List Nat) := []
  flags  : List (Nat × Nat) := []
  poison : List Nat := []
  sels   : List (Nat × Nat × List (Nat × Nat)) := []
  tokens : List (Nat × Option Nat) := []
  deriving DecidableEq, Repr

/-- The partials a run hands to the combiner. Those of a run with a hardware error that no check found are free values
(assumption log 4), the same for every run that agrees with it. -/
def RunRes.results (r : RunRes) : List LaneOut :=
  if r.diff = 0 then r.outs
  else r.outs.map fun (o : LaneOut) =>
    { o with rows := (List.range o.rows.length).map fun k => { acc := Config.freeNat (r.diff * 2 ^ 40 + o.lane * 2 ^ 20 + k) },
             words := (List.range o.words.length).map fun k => Config.freeNat (r.diff * 2 ^ 40 + o.lane * 2 ^ 20 + 2 ^ 19 + k) % 2 ^ 32 }

/-- The rows of one lane and record added over the group's items (R252), with the anchor position and the addend. -/
def laneSum (os : List LaneOut) : Option Int × List LaneAcc × List Nat :=
  ((os.filterMap (·.q)).head?, os.foldl (fun a o => addRows a o.rows) [], ((os.map (·.words)).find? fun w => !w.isEmpty).getD [])

def addendAt (ws : List Nat) (o : Nat) : Option Dy := if ws.isEmpty then some dyZero else (Fmt.fp32.decode ((ws[o]?).getD 0)).val

/-- A GEMM group (R296, R297). -/
def gemmGroup (p : ProgSt) (d : List Byte) (g : Nat) (os : List LaneOut) : GroupOut :=
  let out := leAt d 0x18 8
  let ty := buType out
  let rt := leAt d 6 2
  let comb := phExpert d && gmCOMBINE d
  let r := if phExpert d && !comb then g % 65536 else g
  let keys := (os.map fun o => (o.lane, if comb then 0 else o.recd)).eraseDups
  let one := fun (k : Nat × Nat) =>
    let mine := os.filter fun o => o.lane == k.1 && (comb || o.recd == k.2)
    if comb then
      let sel := p.selOf (leAt d 0x28 8) k.1
      let per := (List.range sel.length).map fun j => (j, laneSum (mine.filter fun o => o.recd == j))
      let rows := per.foldl (fun m x => max m x.2.2.1.length) 0
      let add := ((per.map (·.2.2.2)).find? fun w => !w.isEmpty).getD []
      let expert := fun (x : Nat × Option Int × List LaneAcc × List Nat) (o : Nat) =>
        convWord tyFP32 (rowValue x.2.1 ((x.2.2.1[o]?).getD {}))
      (List.range rows).map fun o =>
        let w := convWord ty (per.foldl (fun a x =>
          addVal a (prod (Fmt.fp32.decode ((sel[x.1]?).getD (0, 0)).2).val (Fmt.fp32.decode (expert x o).1).val)) (addendAt add o))
        (w.1, w.2 ||| orAll (per.map fun x => (expert x o).2))
    else
      let t := laneSum mine
      (List.range t.2.1.length).map fun o => convWord ty (addVal (rowValue t.1 ((t.2.1[o]?).getD {})) (addendAt t.2.2 o))
  let bad := ((os.filter (·.poison)).map (·.lane)).eraseDups
  let good := keys.filter fun k => !bad.contains k.1
  let res := good.map fun k => (k, one k)
  { writes := res.map fun x => (out, x.1.1, (x.1.2 * rt + r) * x.2.length, x.2.map (·.1)),
    flags := res.map fun x => (x.1.1, orAll (x.2.map (·.2)) ||| orAll ((os.filter fun o => o.lane == x.1.1).map (·.flags))),
    poison := bad }

/-- A ROUTE group (R298). -/
def routeGroup (d : List Byte) (os : List LaneOut) : GroupOut :=
  let bad := ((os.filter (·.poison)).map (·.lane)).eraseDups
  let lanes := ((os.map (·.lane)).eraseDups).filter fun b => !bad.contains b
  let res := lanes.map fun b =>
    let t := laneSum (os.filter fun o => o.lane == b)
    let ls := t.2.1.map fun r => convWord tyFP32 (rowValue t.1 r)
    let r := route (ls.map fun l => BitVec.ofNat 32 l.1) (leAt d 4 2) (leAt d 6 1) ((leAt d 7 1).testBit 0)
    (b, r.1, orAll (ls.map (·.2)) ||| r.2 ||| orAll ((os.filter fun o => o.lane == b).map (·.flags)))
  let sel := leAt d 0x18 8
  { writes := res.map fun x => (sel, x.1, 0, x.2.1.map fun e => e.1 + e.2 * 2 ^ 32), flags := res.map fun x => (x.1, x.2.2),
    sels := res.map fun x => (buOff sel, x.1, x.2.1), poison := bad }

/-- A LORA group (R304): a group of A makes TMP, one of B replaces its part of OUT. -/
def loraGroup (d : List Byte) (g : Nat) (os : List LaneOut) : GroupOut :=
  let bad := ((os.filter (·.poison)).map (·.lane)).eraseDups
  let lanes := ((os.map (·.lane)).eraseDups).filter fun b => !bad.contains b
  let res := lanes.map fun b =>
    let t := laneSum (os.filter fun o => o.lane == b)
    (b, if g < 2 ^ 40 then (t.2.1.take (leAt d 4 1)).map fun r => convWord tyBF16 (rowValue t.1 r)
      else (List.range t.2.1.length).map fun o => convWord tyFP32 (addVal (rowValue t.1 ((t.2.1[o]?).getD {})) (addendAt t.2.2 o)))
  { writes := res.map fun x =>
      if g < 2 ^ 40 then (leAt d 0x20 8, x.1, 0, x.2.map (·.1)) else (leAt d 0x18 8, x.1, (g / 2 ^ 40 - 1) * x.2.length, x.2.map (·.1)),
    flags := res.map fun x => (x.1, orAll (x.2.map (·.2)) ||| orAll ((os.filter fun o => o.lane == x.1).map (·.flags))), poison := bad }

/-- An attention group: one KV head of one lane (R300), and the KV tiles whose comparison fails (R264). -/
def attnGroup (p : ProgSt) (d : List Byte) (g : Nat) (os : List LaneOut) : GroupOut × List Nat :=
  let b := g / 64
  let h := g % 64
  if os.any (·.poison) then ({ poison := [b] }, [])
  else match p.seqAt b with
    | none => ({}, [])
    | some q =>
      let fmt := leAt d 8 1
      let hd := leAt d 6 2
      let tl := leAt d 9 1
      let z := kvSizes fmt hd (2 ^ tl)
      let len := z.1 + z.2.1
      let lo := attnLo d q.pos
      let parts := os.map fun o =>
        let t0 := o.recd * 2 ^ tl
        ({ k := kvTile fmt hd (2 ^ tl) (o.bytes.take len), v := kvTile fmt hd (2 ^ tl) (o.bytes.drop len),
           lo := max lo t0 - t0, hi := min q.pos (t0 + 2 ^ tl - 1) - t0 } : KvPart)
      let ws := ((os.map (·.words)).find? fun w => !w.isEmpty).getD []
      let heads := (List.range ((qkvHeads d h).length)).map fun j =>
        attnHead parts ((segment ws hd j).map fun x => BitVec.ofNat 32 x) (BitVec.ofNat 32 (leAt d 0x20 4)) hd
      let conv := heads.map fun x => x.1.map fun y => convF32 (buType (leAt d 0x18 8)) y
      ({ writes := (List.range conv.length).map fun j => (leAt d 0x18 8, b, ((qkvHeads d h)[j]?).getD 0, ((conv[j]?).getD []).map (·.1)),
         flags := [(b, orAll (heads.map (·.2.1)) ||| orAll (conv.map fun x => orAll (x.map (·.2))) ||| orAll (os.map (·.flags)))] },
        ((heads.flatMap (·.2.2)).eraseDups).filterMap fun j => (os[j]?).map (·.recd))

/-- The lanes of the other operators, one run each (R299, R303, R306, R322). -/
def laneGroup (p : ProgSt) (d : List Byte) (os : List LaneOut) : GroupOut :=
  let op := phOp d
  let good := os.filter fun o => !o.poison
  let bad := (os.filter (·.poison)).map (·.lane)
  if op = phSAMPLE then
    let non := fun (b : Nat) => (p.seqAt b).any fun e => e.numstat.testBit 1
    { tokens := good.map fun o => (o.lane, if non o.lane then none else o.words.head?), poison := bad }
  else if op = phROPE then
    { writes := good.map fun o => (leAt d 0x10 8, o.lane, 0, o.words),
      flags := good.map fun o => (o.lane, if o.words.any fun w => fvOf (BitVec.ofNat 32 w) == .nan then flNONFINITE else 0), poison := bad }
  else
    let out := leAt d 0x18 8
    let conv := good.map fun o => (o.lane, o.words.map fun w => convF32 (buType out) (BitVec.ofNat 32 w))
    { writes := conv.map fun x => (out, x.1, 0, x.2.map (·.1)),
      flags := (conv.map fun x => (x.1, orAll (x.2.map (·.2)))) ++ good.map fun o => (o.lane, o.flags), poison := bad }

/-- The results taken of a group's items. -/
def ProgSt.groupRuns (p : ProgSt) (g : Nat) : List LaneOut := ((p.items.filter fun it => it.group == g).filterMap (·.taken)).flatMap RunRes.results

/-- What a group of a phase makes of its results. -/
def groupOut (p : ProgSt) (d : List Byte) (g : Nat) : GroupOut :=
  let os := p.groupRuns g
  let op := phOp d
  if op = phGEMM then gemmGroup p d g os
  else if op = phROUTE then routeGroup d os
  else if op = phATTN then (attnGroup p d g os).1
  else if op = phLORA then loraGroup d g os
  else laneGroup p d os

/-- Is a lane's output discarded for the rest of the step (R321). -/
def ProgSt.laneDead (p : ProgSt) (b : Nat) : Bool := (p.seqAt b).any fun e => e.status == rcPOISON

/-- What the results say of the lanes: flags of R274, statuses and tokens, the selections, and the largest exponents of
the words written (R284). -/
def ProgSt.settle (p : ProgSt) (o : GroupOut) : ProgSt :=
  let p := o.poison.foldl ProgSt.poisonSeq p
  let p := o.flags.foldl (fun p x => p.onLane x.1 fun e => { e with numstat := e.numstat ||| x.2 }) p
  let p := o.tokens.foldl (fun p x => p.onLane x.1 fun e =>
    if e.status = rcPOISON then e
    else match x.2 with
      | some t => { e with token := t }
      | none => { e with status := rcNONFINITE, token := 0xFFFFFFFF }) p
  let p := { p with sel := o.sels ++ p.sel.filter fun e => !o.sels.any fun x => x.1 == e.1 && x.2.1 == e.2.1 }
  o.writes.foldl (fun p w =>
    let x := laneMax (elemsOf (buType w.1) w.2.2.2)
    let old := (p.exps.find? fun e => e.1 == buOff w.1 && e.2.1 == w.2.1).map (·.2.2)
    { p with exps := (buOff w.1, w.2.1, maxExp x (old.getD none)) :: p.exps.filter fun e => !(e.1 == buOff w.1 && e.2.1 == w.2.1) }) p

/-- May array a take a fault of output writes: it has no work and no fault of its own. -/
def State.faultFree (s : State) (a : Nat) : Bool := (s.arr a).job = .none && (s.eng a).st = .run && s.astate a != arTEST

/-- Write a group's outputs, charged to array a (R312, R886): a fault holds that array, or waits for it while it works. -/
def State.writeGroup (s : State) (n g a : Nat) : State :=
  let p := s.prog n
  let o := groupOut p (s.curDesc n) g
  let ws := o.writes.filter fun w => !(p.laneDead w.2.1) && !o.poison.contains w.2.1
  let exts := ws.map fun w => ((p.laneVA w.1 w.2.1).1 + w.2.2.1 * tySize (buType w.1), bytesOf (buType w.1) w.2.2.2)
  let free := s.faultFree a
  let pre := if free then s.presentAll a n 1 .write (exts.map fun x => (x.1, x.2.length))
    else (s, if exts.all fun x => s.checkExtent p.ctx x.1 x.2.length .write = .ok then .pass else .stalled)
  let rest := { p with pendW := p.pendW.filter fun x => x.1 ≠ g }
  match pre with
  | (s, .stalled) =>
    if free then ((s.setProg n rest).setArr a { s.arr a with job := .write n g }).setAstate a arHELD
    else s.setProg n { rest with pendW := rest.pendW ++ [(g, a)] }
  | (s, .error) => s.arrayHalt n erOUTPUT 0
  | (s, .pass) =>
    let r := exts.foldl (fun (acc : State × Bool) x =>
      let w := acc.1.writeVA p.ctx x.1 x.2 [] (.outs n g a)
      ((w.1).invalidateEnd p.ctx ekVA x.1 x.2.length, acc.2 && w.2)) (s, true)
    let fl := orAll (o.flags.map (·.2))
    let s := r.1.setFld F.DA_PROG_NUMSTAT_FLAGS (r.1.fld F.DA_PROG_NUMSTAT_FLAGS n ||| fl) n
    let s := s.setProg n { rest.settle { o with writes := ws } with converted := g :: rest.converted }
    if r.2 then s else s.arrayHalt n erOUTPUT 0

/-- The home refused the region key of a group's outputs (R886): a fault of array a, or one that waits for it while it works. -/
def State.keyRefused (s : State) (n g a va fin : Nat) : State :=
  let p := s.prog n
  let p := { p with converted := p.converted.filter (· ≠ g) }
  if s.faultFree a then
    (((s.setProg n p).keyFault a p.ctx 1 va (fin - va) (s.rd .CUR_VALUE n) va).setArr a { s.arr a with job := .write n g }).setAstate a arHELD
  else s.setProg n { p with pendK := p.pendK ++ [(g, a, va, fin)] }

/-- The last answer to an array's writes has arrived: a refusal for the region key is a fault of the array (R97, R886), which holds it. What
failed otherwise is looked at where the run, or the phase, ends. -/
def State.settleWrites (s : State) (w : ReqClient) : State :=
  if s.awaits w then s
  else
    let f := s.takeFails w
    match w, keyFail f.2 with
    | .outs n g a, some x => if s.live n then f.1.keyRefused n g a x.va x.fin else f.1
    | .kv a, some x => (match (f.1.arr a).job with
      | .item n _ _ =>
        ((f.1.keyFault a (s.prog n).ctx 1 x.va (x.fin - x.va) (s.rd .CUR_VALUE n) x.va).setArr a { f.1.arr a with cur := none }).setAstate a arHELD
      | _ => f.1)
    | _, _ => s

/-! ## Detections (R669 to R680) -/

/-- A retired array leaves the pool; its item is run again elsewhere (R319, R682). -/
def State.retireArray (s : State) (a : Nat) : State :=
  if s.astate a = arRETIRED then s
  else
    let job := (s.arr a).job
    let s := (s.setAstate a arRETIRED).setBit .ERR_RETIRED (a / 64) (a % 64) true
    let s := ({ s with retired := ninsert a s.retired }.setArr a
      { s.arr a with job := .none, cur := none, test := none, retest := none, held := [], reads := [] }).dropClient (.kv a)
    let s := s.freeEngine a
    let s := match job with
      | .item n num _ => (match s.item n num with
        | some it =>
          let run := it.running.filter (· ≠ a)
          s.setItem n { it with running := run, issued := !(run.isEmpty && it.runs.isEmpty), arb := it.arb || (run.isEmpty && !it.runs.isEmpty && !it.closed) }
        | none => s)
      | .write n g => s.setProg n { s.prog n with pendW := (s.prog n).pendW ++ [(g, a)] }
      | _ => s
    s.record { cls := ecDA, event := 4, inst := a, op := 5, half := some (ofHalfNum (a / 128)) }

/-- Set the pending count of retests. -/
def State.syncRetests (s : State) : State :=
  s.setFld F.TST_STATUS_RETEST_PENDING (min 255 ((s.arrs.filter fun x => x.2.retest.isSome).length))

/-- A retest is confirmed: the array is retired (R680). -/
def State.confirmRetest (s : State) (a : Nat) : State :=
  let s := s.bump F.TST_RETEST_CNT_CONFIRMED
  ((s.record { cls := ecTST, event := 2, inst := a, op := 0xA, half := some (ofHalfNum (a / 128)) }).retireArray a).syncRetests

/-- A detection charged to an array is tracked (R680). -/
def State.track (s : State) (a env : Nat) : State :=
  let x := s.arr a
  if s.astate a = arRETIRED then s
  else match x.retest with
    | none => (s.setArr a { x with retest := some (env, s.time) }).syncRetests
    | some r => if r.1 = env then s.confirmRetest a else s.setArr a { x with held := x.held ++ [env] }

/-- Charge an array with a detection (R677). -/
def State.chargeDetect (s : State) (a env : Nat) : State := (s.chargeArray a).track a env

/-- OPCLASS of a weight format (R678). -/
def opclassOf (f : Nat) : Nat :=
  if f = 0x40 then 3 else if f = 0x20 then 2 else if f = 0x11 || f = 0x12 || f = 0x13 || f = 0x30 then 1 else 0

/-- The format and TILE_ID of the tile of an item. -/
def State.itemTile (s : State) (n : Nat) (it : Item) : Nat × Word :=
  let d := s.curDesc n
  let p := s.prog n
  if phOp d = phATTN then
    (leAt d 8 1, match (p.lanes[it.group / 64]?).bind fun sl => p.seqs.find? fun e => e.slot == sl with
      | some q => BitVec.ofNat 64 (kvAddr d q.kvBase it.col it.slot % 2 ^ 63 + 2 ^ 63)
      | none => BitVec.allOnes 64)
  else if phOp d = phGEMM || phOp d = phROUTE || phOp d = phLORA then
    match s.slotHdr n it.slot with
    | some h => (h.format, BitVec.ofNat 64 h.id)
    | none => (0, BitVec.allOnes 64)
  else (0, BitVec.allOnes 64)

/-- Two runs agree bit for bit. -/
def RunRes.same (a b : RunRes) : Bool := a.diff == b.diff && decide (a.outs = b.outs)

def RunRes.passes (r : RunRes) : Bool := r.trig = .none

/-- The result of arbitration: the run taken, the runs charged, and the outcome of AUX. -/
structure Verdict where
  taken   : Option RunRes
  charged : List RunRes
  outcome : Nat

/-- R673 over the runs A, B and C; `none` hands over to R675. -/
def verdict (trig : Trig) (a : RunRes) (b c : Option RunRes) : Option Verdict :=
  let byC : Verdict := match c with
    | some c => if c.passes then ⟨some c, (a :: b.toList), 0⟩ else ⟨none, (a :: b.toList), 2⟩
    | none => ⟨none, (a :: b.toList), 2⟩
  if trig = .dup then
    match b, c with
    | some b, some c => if c.same a then some ⟨some a, [b], 0⟩ else if c.same b then some ⟨some b, [a], 0⟩ else some ⟨none, [], 2⟩
    | _, _ => some ⟨none, [], 2⟩
  else match b with
    | none => some ⟨none, [], 2⟩
    | some b' =>
      if !b'.same a && b'.passes then some ⟨some b', [a], 0⟩
      else if b'.same a && trig = .csum then none
      else if b'.same a && b'.passes then some ⟨some a, [a], 0⟩
      else some byC

/-- Does arbitration need another run. -/
def needsRun (trig : Trig) (a : RunRes) (b c : Option RunRes) : Bool :=
  match b, c with
  | none, _ => true
  | some _, some _ => false
  | some b, none => trig = .dup || !((!b.same a && b.passes) || (b.same a && (trig = .csum || b.passes)))

def trigEvent : Trig → Nat
  | .csum => 1
  | .dup => 2
  | _ => 3

/-- The record of a detection (R677, R689). -/
def State.detectRecord (s : State) (n : Nat) (it : Item) (inst : Nat) (ev : Nat) (r : RunRes) (cnt : Nat) (taken : Option RunRes)
    (outcome : Nat) : State :=
  (s.bump F.ERR_DETECT_CNT_COUNT).record
    { cls := ecDA, event := ev, inst := inst, part := (s.prog n).part, op := 5, half := some (ofHalfNum (r.arr / 128)),
      cursor := s.rd .CUR_VALUE n, address := (s.itemTile n it).2, syndrome := BitVec.ofNat 64 r.syn, count := cnt,
      seen := r.seen, aux := ((taken.map (·.arr)).getD 0xFFFF) + outcome * 65536 }

/-- The conditions of a detection on an array now. -/
def State.seenAt (s : State) (a fmt : Nat) : DetAt :=
  let h := ofHalfNum (a / 128)
  ⟨s.envelope h (opclassOf fmt), s.time, s.tempOf h, s.voltOf h⟩

/-- An array of the pool that R310 permits and that has not run the item (R672). -/
def State.arbPossible (s : State) (it : Item) : Bool :=
  (List.range 256).any fun a => it.halves.contains (a / 128) && pooled (s.astate a) && !it.tried.contains a

/-- Arbitration could not decide (R320, R677). -/
def State.noDecision (s : State) (n : Nat) (it : Item) : State := (s.bump F.ERR_NODECIDE_CNT_COUNT).arrayHalt n erARBITRATION it.slot

/-- A checksum comparison of attention fails on an item (R264, R669): the item is arbitrated. -/
def State.kvDetect (s : State) (n : Nat) (it : Item) : State :=
  let a := it.taken.getD { arr := 0 }
  let a := { a with trig := .csum, cnt := 1, seen := some (s.seenAt a.arr (s.itemTile n it).1) }
  let s := s.bump F.ERR_ARB_CNT_COUNT
  if s.arbPossible it then s.setItem n { it with trig := .csum, runs := [a], taken := none, closed := false, arb := true }
  else (s.detectRecord n it 0xFFFF 1 a 1 none 2).noDecision n it

/-- The group's last item has completed: convert it once, when no comparison of attention fails (R264, R312, R670). -/
def State.closeGroup (s : State) (n g a : Nat) : State :=
  let p := s.prog n
  if (p.items.all fun it => it.group != g || it.closed) && !p.converted.contains g && !p.pendW.any (fun x => x.1 == g) &&
    !p.pendK.any (fun x => x.1 == g) && !(s.arrs.any fun x => x.2.job = .write n g)
  then
    let bad := if phOp (s.curDesc n) = phATTN then (attnGroup p (s.curDesc n) g (p.groupRuns g)).2 else []
    match p.items.filter fun it => it.group == g && it.trig = .none && bad.contains it.slot with
    | [] => s.writeGroup n g a
    | its => its.foldl (fun s it => s.kvDetect n it) s
  else s

/-- Carry out a verdict: records, charges, and the result taken or the halt for ARBITRATION (R673 to R677). -/
def State.arbitrate (s : State) (n : Nat) (it : Item) (v : Verdict) (last : Nat) : State :=
  let a := it.runs.headD { arr := 0 }
  let b := it.runs[1]?
  let lanes := if it.trig = .dup then
      (match b with
       | some b => (a.outs.filter fun o => !b.outs.contains o).length
       | none => 0)
    else a.cnt
  let s := if v.charged.isEmpty then
      s.detectRecord n it ((v.taken.map (·.arr)).getD 0xFFFF) (trigEvent it.trig) a lanes v.taken v.outcome
    else v.charged.foldl (fun s (x : RunRes) =>
      let ev := if x.trig = .none then trigEvent it.trig else trigEvent x.trig
      let x' := { x with seen := some (x.seen.getD (s.seenAt x.arr (s.itemTile n it).1)) }
      let s := s.detectRecord n it x.arr ev x' (if x.trig = .none then lanes else x.cnt) v.taken v.outcome
      s.chargeDetect x.arr ((x'.seen.map (·.env)).getD 0)) s
  match v.taken with
  | some r => (s.setItem n { it with taken := some r, closed := true, arb := false, recomp := false, running := [] }).closeGroup n it.group last
  | none => s.noDecision n it

/-- Go on with an item after a result: take it, compare it, or arbitrate. -/
def State.stepItem (s : State) (n num last : Nat) : State :=
  match s.item n num with
  | none => s
  | some it =>
    let det := (it.runs.take 2).find? fun r => r.trig ≠ .none
    let it :=
      if it.trig ≠ .none then it
      else match det with
        | some r => { it with trig := r.trig, runs := r :: it.runs.filter fun x => x.arr ≠ r.arr }
        | none => match it.runs with
          | x :: y :: _ => if x.same y then it else { it with trig := .dup }
          | _ => it
    let was := ((s.item n num).map (·.trig)).getD .none
    let s := if was = .none && it.trig ≠ .none then s.bump F.ERR_ARB_CNT_COUNT else s
    let s := if was = .none && it.trig = .dup then s.bump F.DA_REISSUE_MISMATCH_COUNT else s
    match it.runs with
    | [] => s
    | a :: rest =>
      if it.trig = .none then
        let it := { it with taken := some (it.taken.getD a), closed := it.running.isEmpty }
        let s := s.setItem n it
        if it.closed then s.closeGroup n it.group last else s
      else
        let b := rest[0]?
        let c := rest[1]?
        let s := s.setItem n it
        if needsRun it.trig a b c then
          if !it.running.isEmpty then s
          else if s.arbPossible it then s.setItem n { it with arb := true }
          else s.arbitrate n it ⟨none, if it.trig = .dup || b.isNone then [] else a :: b.toList, 2⟩ last
        else match verdict it.trig a b c with
          | some v => s.arbitrate n it v last
          | none => s.setItem n { it with recomp := true }

/-- A combiner finds a residue error: the group is issued again, or the program halts (R676). -/
def State.combinerResidue (s : State) (n : Nat) (it : Item) (r : RunRes) : State :=
  let p := s.prog n
  let s := s.bump F.ERR_RESIDUE_CNT_COUNT
  let s := s.detectRecord n it 0xFFFF 3 { r with seen := some (s.seenAt r.arr (s.itemTile n it).1) } 0 none 2
  if p.residues.contains it.group then s.noDecision n it
  else s.setProg n { p with residues := it.group :: p.residues, items := p.items.map fun (x : Item) =>
    if x.group = it.group then
      { x with issued := !x.running.isEmpty, runs := [], taken := none, closed := false, tried := x.running, trig := .none, arb := false, recomp := false, dup := false }
    else x }

/-- Partials reach the owning combiner (R312). -/
def State.result (s : State) (n num : Nat) (r : RunRes) : State :=
  match s.item n num with
  | none => s
  | some it =>
    let it := { it with running := it.running.filter (· ≠ r.arr) }
    if it.closed then s.setItem n it
    else if r.fail ≠ 0 then s.arrayHalt n r.fail r.fslot
    else if r.wait then
      if it.runs.isEmpty && it.running.isEmpty then s.setItem n { it with issued := false, tried := [], dup := false }
      else (s.setItem n it).stepItem n num r.arr
    else
      let s := if r.trig = .residue then s.bump F.ERR_RESIDUE_CNT_COUNT else s
      let it := { it with runs := it.runs ++ [r] }
      if r.comb then (s.setItem n it).combinerResidue n it r
      else (s.setItem n it).stepItem n num r.arr

/-- What the hardware makes of a run that went through. -/
def RunRes.seenBy (r : RunRes) (hw : RunHw) (at_ : DetAt) : RunRes :=
  if r.fail ≠ 0 || r.wait then r
  else
    let r := { r with diff := hw.diff, comb := hw.comb }
    let r := match hw.check with
      | .none => r
      | .csum l d => if r.trig = .none then { r with trig := .csum, cnt := l, syn := d } else r
      | .residue v => { r with trig := .residue, cnt := 0, syn := v }
    if r.trig = .none then r else { r with seen := some at_ }

/-- Outputs that wait for array a are written when it is free. -/
def State.retryWrites (s : State) (a : Nat) : State :=
  (s.progs.map (·.1)).foldl (fun s n =>
    let p := s.prog n
    if (s.arr a).job ≠ .none then s
    else match p.pendK.find? fun x => x.2.1 == a, p.pendW.find? fun x => x.2 == a with
      | some x, _ => (s.setProg n { p with pendK := p.pendK.erase x }).keyRefused n x.1 a x.2.2.1 x.2.2.2
      | none, some x => s.writeGroup n x.1 a
      | none, none => s) s

/-- Bytes of the partials of a run: 12 B for each integer of R249. -/
def RunRes.partialBytes (r : RunRes) (d : List Byte) : Nat :=
  12 * if phOp d = phATTN then leAt d 4 1 / max 1 (leAt d 5 1) * leAt d 6 2 else r.outs.foldl (fun a o => a + o.rows.length) 0

/-- A run ends (R312, R319): counters, the array's next state, and the partials to the owning combiner. -/
def State.runEnds (s : State) (a : Nat) (hw : RunHw) (arb : Bool) : State :=
  match (s.arr a).job, (s.arr a).cur with
  | .item n num isArb, some run =>
    if s.astate a ≠ arBUSY || isArb ≠ arb || s.awaits (.kv a) then s
    else
      let f := s.takeFails (.kv a)
      let s := f.1
      let run := if f.2.isEmpty then run else failRun a erOUTPUT 0
      let fmt := ((s.item n num).map fun it => (s.itemTile n it).1).getD 0
      let run := run.seenBy hw (s.seenAt a fmt)
      let s := if run.fail = 0 && !run.wait then
          ((s.wrap F.DA_ITEMS_DONE_COUNT).wrap F.DA_ARR_ITEMS_COUNT a).wrap F.DA_PROG_ITEMS_COUNT n else s
      let s := s.releaseArray a
      let s := match s.item n num with
        | none => s
        | some it =>
          if it.home = a / 128 || it.home = 2 || run.fail ≠ 0 || run.wait then s.result n num run
          else { s.cross (ofHalfNum (a / 128)) (ofHalfNum it.home) (run.partialBytes (s.curDesc n)) with bridge := s.bridge ++ [(n, num, run)] }
      ((s.retryWrites a).evalProg n).drainHalt n
  | _, _ => s

/-- ARRAY_GRANT (R309). -/
def execArrayGrant (a : Nat) (env : Env) (s : State) : Out := run (.arrayGrant a env) <| s.clocked <| (s.codewords 5 env).grant a env

/-- ITEM_COMPLETE (R312): a run that is no arbitration run ends. -/
def execItemComplete (a : Nat) (hw : RunHw) (s : State) : Out := run (.itemComplete a hw) <| s.clocked <| s.runEnds a hw false

/-- ARBITRATION_RUN_DONE (R673): an arbitration run ends. -/
def execArbitrationRunDone (a : Nat) (hw : RunHw) (s : State) : Out :=
  run (.arbitrationRunDone a hw) <| s.clocked <| s.runEnds a hw true

/-- PARTIALS_ARRIVE (R312): the oldest partials on their way across the bridge to a half's combiner arrive. -/
def execPartialsArrive (h : Half) (s : State) : Out :=
  .next <| s.clocked <|
    match s.bridge.find? fun x => x.2.2.arr / 128 == 1 - halfNum h with
    | none => s
    | some x => (({ s with bridge := s.bridge.erase x }.result x.1 x.2.1 x.2.2).evalProg x.1).drainHalt x.1

/-- ITEM_OVERTIME (R315, R317, R318): an item over twice its median gets one duplicate on an idle array, and the re-issue
counts against the array that runs it. -/
def execItemOvertime (a : Nat) (env : Env) (s : State) : Out :=
  run (.itemOvertime a env) <| s.clocked <|
    match (s.arr a).job with
    | .item n num false => (match s.item n num with
      | none => s
      | some it =>
        if s.astate a ≠ arBUSY || it.dup || it.closed || !it.runs.isEmpty || !s.live n || !s.mayIssue n || s.thermtrip then s
        else match (s.idleArrays it.staged ++ s.idleArrays it.halves).head? with
          | none => s
          | some b =>
            let times := (s.time :: (s.arr a).reissues).filter fun t => decide (s.time < t + 1000000000)
            let s := s.setArr a { s.arr a with reissues := times, slow := (s.arr a).slow || decide (8 < times.length) }
            let s := (s.bump F.DA_ARR_REISSUES_COUNT a).bump F.DA_REISSUE_CNT_COUNT
            let it := { it with dup := true }
            (s.setItem n it).startRun b n it false env)
    | _ => s

/-- UNCOMPARED_TIMEOUT (R671): the second result of a duplicated item, still running on array a, is abandoned. -/
def execUncomparedTimeout (a : Nat) (s : State) : Out :=
  run (.uncomparedTimeout a) <| s.clocked <|
    match (s.arr a).job with
    | .item n num _ => (match s.item n num with
      | none => s
      | some it =>
        if !it.dup || it.closed || it.taken.isNone || it.trig ≠ .none then s
        else
          let it := { it with closed := true, running := [] }
          ((s.setItem n it).bump F.ERR_UNCOMPARED_COUNT).closeGroup n it.group ((it.taken.map (·.arr)).getD a))
    | _ => s

/-! ## Recomputed checksums (R675) -/

/-- The exact sum of a column of weights (R257); none if a weight is not finite. -/
def Tile.colSum (t : Tile) (k : Nat) : Option Dy :=
  (List.range t.hdr.rows).foldl (fun a o => match a, t.weight o k with
    | some x, some y => some (dyAdd x y)
    | _, _ => none) (some dyZero)

/-- Two exact values are equal. -/
def sameVal (a b : Option Dy) : Bool :=
  match a, b with
  | some x, some y => (dyAdd x (dyNeg y)).m == 0
  | _, _ => false

/-- The lowest LSB exponent of a format (R255). -/
def lsbOf (f : Nat) : Int :=
  let (_, mb, bias) := (elemFmt f).shape
  if f = 0x30 then 0 else 1 - (bias : Int) - mb

/-- A checksum entry of a value: the smallest Ec that makes C an exact 56-bit integer (R255, R257), all ones where there is
none. -/
def csumEntry (f : Nat) (v : Option Dy) : Nat :=
  match v with
  | none => 2 ^ 64 - 1
  | some d =>
    ((List.range 255).findSome? fun (ec : Nat) =>
      let e : Int := Int.ofNat ec - 127 + lsbOf f
      let c : Option Int := if e ≤ d.e then some (d.m * pow2 (d.e - e))
        else if d.m % pow2 (e - d.e) = 0 then some (d.m / pow2 (e - d.e)) else none
      c.bind fun c => if -(2 ^ 55 : Int) ≤ c && c < (2 ^ 55 : Int) then some (ec * 2 ^ 56 + twos 56 c) else none).getD (2 ^ 64 - 1)

/-- Recompute the checksum entries of a staged tile: rewrites the area and answers true where one differs. -/
def State.recompute (s : State) (n slot : Nat) : State × Bool :=
  match (s.slotTiles n slot).head? with
  | none => (s, false)
  | some t =>
    let b := s.mem.bytes t.off t.extent
    let h := hdrOf b
    if !h.flag 4 then (s, false)
    else
      let book := ((s.keepTile (s.prog n).part h.cbId).map fun k => s.mem.bytes (k.off + 256) 32768).getD []
      let tl := tileOf b book
      let new := (List.range h.cols).map tl.colSum
      if (List.range h.cols).all fun k => sameVal ((new[k]?).getD none) (tl.csum k) then (s, false)
      else
        let area := new.flatMap fun v => leBytes 8 (csumEntry h.format v)
        let drop := fun (x : ArrSt) => { x with buffer := x.buffer.filter fun b => !(s.slotTiles n slot).any fun t => t.num == b.1 }
        let s := { s with arrs := s.arrs.map fun (x : Nat × ArrSt) => (x.1, drop x.2) }
        ((s.slotTiles n slot).foldl (fun s t =>
          let o := t.off + 256 + h.payload + h.csumOff
          (s.writeMem o area).1.invalidate (s.node * 2 ^ 48 + o) area.length) s, true)

/-- CSUM_RECOMPUTE_DONE (R675): the item that waits for the Taster's recomputation is decided. -/
def execCsumRecomputeDone (s : State) : Out :=
  .next <| s.clocked <|
    match s.livePrograms.findSome? fun n => ((s.prog n).items.find? fun it => it.recomp).map fun it => (n, it) with
    | none => s
    | some (n, it) =>
      let a := it.runs.headD { arr := 0 }
      let last := (it.runs.getLastD a).arr
      let r := if phOp (s.curDesc n) = phATTN then (s, false) else s.recompute n it.slot
      if r.2 then (r.1.bump F.ERR_CSUM_PATH_CNT_COUNT).arbitrate n it ⟨some a, [], 1⟩ last
      else r.1.arbitrate n it ⟨none, [], 2⟩ last

/-! ## Faults of arrays (R108, R111, R319, R886) -/

/-- A fault of an array is resumed: the item, or the writes, replay. -/
def State.replayArray (s : State) (a : Nat) (env : Env) : State :=
  match (s.arr a).job with
  | .item n num _ => (match s.item n num with
    | some it => (s.execRun a n it env).evalProg n
    | none => s.releaseArray a)
  | .write n g => ((s.releaseArray a).writeGroup n g a).evalProg n
  | .table n => ((s.releaseArray a).grant a env).evalProg n
  | _ => s

/-- A fault of an array is aborted: the tile fails and the program halts (R111). -/
def State.abortArray (s : State) (a : Nat) : State :=
  match (s.arr a).job with
  | .item n num _ =>
    let slot := ((s.item n num).map (·.slot)).getD 0
    (s.releaseArray a).arrayHalt n erFAULT_ABORT slot
  | .write n _ | .table n => (s.releaseArray a).arrayHalt n erFAULT_ABORT 0
  | _ => s

/-! ## DA_ARR_CTRL.OFFLINE -/

/-- ARRAY_OFFLINE (R319): the array leaves the pool when its current item completes. -/
def execArrayOffline (src : Source) (a : Nat) (s : State) : Out :=
  run (.arrayOffline src a) <| s.clocked <| s.gated src .DA_ARR_CTRL a fun s =>
    let u := s.setFlag F.DA_ARR_CTRL_OFFLINE true a
    if s.astate a = arPOOL || s.astate a = arSLOW then u.setAstate a arOFFLINE else u

/-- ARRAY_ONLINE (R319): an OFFLINE array of a half that is up returns to the pool. -/
def execArrayOnline (src : Source) (a : Nat) (s : State) : Out :=
  run (.arrayOnline src a) <| s.clocked <| s.gated src .DA_ARR_CTRL a fun s =>
    let u := s.setFlag F.DA_ARR_CTRL_OFFLINE false a
    if s.astate a = arOFFLINE && s.halfUp (ofHalfNum (a / 128)) then u.setAstate a arPOOL else u

end Sys2Proof.Machine
end

