-- ==== Sys2Proof/Machine/HomeRows.lean ====
section
/-!
DEFINITION. Stamped rows at their home (07_scoop_gather.md R353 to R366, R887): read attempts, waiting reads and updates
of the home agents, the replicas of this controller's halves, and the holder tables.
-/

namespace Sys2Proof.Machine

/-! ## Engines' commands -/

def State.scoop (s : State) (g : Nat) : List ScoopCmd := sget [] s.scoops g

def State.setScoop (s : State) (g : Nat) (l : List ScoopCmd) : State := { s with scoops := sput [] g l s.scoops }

/-- The command an engine runs. -/
def State.scoopCmd (s : State) (g : Nat) : Option ScoopCmd := (s.scoop g).head?

/-- Change the command an engine runs. -/
def State.onCmd (s : State) (g : Nat) (f : ScoopCmd → ScoopCmd) : State :=
  match s.scoop g with
  | c :: r => s.setScoop g (f c :: r)
  | [] => s

def State.onPart (s : State) (g k : Nat) (f : RowPart → RowPart) : State :=
  s.onCmd g fun (c : ScoopCmd) => { c with parts := match c.parts[k]? with | some p => c.parts.set k (f p) | none => c.parts }

def State.part (s : State) (g k : Nat) : Option RowPart := (s.scoopCmd g).bind fun c => c.parts[k]?

/-- The half of an engine. -/
def scoopHalf (g : Nat) : Nat := g / 8

/-- Statuses of R352. -/
def scFAULT_ABORT : Nat := 1
def scNO_TABLE : Nat := 2
def scOUT_OF_RANGE : Nat := 3
def scPOISON : Nat := 4
def scSRC_ERROR : Nat := 5
def scDST_ERROR : Nat := 6
def scNOT_STAMPED : Nat := 7
def scPARTITION_RESET : Nat := 8
def scIDX_ERROR : Nat := 9

/-- A status met at a list position. -/
def ScoopCmd.note (c : ScoopCmd) (status j : Nat) : ScoopCmd := { c with notes := c.notes ++ [(status, j)] }

/-! ## Poison through rows

A row is 16 B aligned, so its bytes may begin inside a line. Poison is carried as the numbers of its poisoned 16 B
units. -/

/-- The poisoned units of `n` bytes read at an address, from the numbers of the poisoned lines. -/
def poisonUnits (a n : Nat) (lines : List Nat) : List Nat :=
  (List.range (n / 16)).filter fun u => lines.contains ((a + 16 * u) / 64 - a / 64)

/-- The lines of a destination (counted from its first line) that poisoned units fall in. -/
def unitLines (a : Nat) (units : List Nat) : List Nat := (units.map fun u => (a + 16 * u) / 64 - a / 64).eraseDups

/-! ## Home operations -/

/-- The half of the engine that an operation serves: the data cross the bridge where it is not the row's home half (R22). -/
def State.clientHalf (s : State) (o : HomeOp) : Half :=
  match o.client with
  | .row g _ | .update g => ofHalfNum (scoopHalf g)
  | .install h _ => ofHalfNum h
  | _ => s.homeHalf o.row

def State.homeOp (s : State) (id : Nat) : Option HomeOp := s.homeOps.find? fun o => o.id == id

def State.setHomeOp (s : State) (o : HomeOp) : State :=
  { s with homeOps := s.homeOps.map fun x => if x.id = o.id then o else x }

/-- An operation's next access joins the accesses of its row (R887). -/
def State.homeAccess (s : State) (o : HomeOp) : State := { s with homeFifo := s.homeFifo ++ [(o.row, o.id)] }

/-- The operation's access is the first of its row. -/
def State.homeTurn (s : State) (o : HomeOp) : Bool :=
  match s.homeFifo.find? fun x => x.1 == o.row with
  | some x => x.2 == o.id
  | none => false

/-- The access has been performed. -/
def State.homeDone (s : State) (o : HomeOp) : State := { s with homeFifo := s.homeFifo.erase (o.row, o.id) }

/-- Is an update of the row, or a released waiting read, in progress. -/
def State.updating (s : State) (row : Nat) : Bool := s.homeOps.any fun o => o.row == row && o.kind = .update && o.active

/-- An operation arrives at the home. An update waits for the update in progress and for waiting reads (R355, R356,
R359); a waiting read waits for the update in progress. -/
def State.homeStart (s : State) (o : HomeOp) : State :=
  let o : HomeOp := { o with id := s.homeNum }
  let held := match o.kind with
    | .attempt => false
    | .waiting => s.updating o.row
    | .update => s.homeOps.any fun x => x.row == o.row && x.kind ≠ .attempt
  let o : HomeOp := { o with active := !held }
  let s : State := { s with homeNum := s.homeNum + 1, homeOps := s.homeOps ++ [o] }
  if held then s else s.homeAccess o

/-- Remove an operation; the row's next update starts if no update and no waiting read remains before it. -/
def State.homeEnd (s : State) (o : HomeOp) : State :=
  let s : State := { s with homeOps := s.homeOps.filter (fun x => x.id ≠ o.id), homeFifo := s.homeFifo.filter fun x => x.2 ≠ o.id }
  if o.kind = .attempt || s.updating o.row || s.homeOps.any (fun x => x.row == o.row && x.kind = .waiting) then s
  else match s.homeOps.find? fun x => x.row == o.row && x.kind = .update with
    | some u => let u : HomeOp := { u with active := true }; (s.setHomeOp u).homeAccess u
    | none => s

/-- Where a stamped row and its stamp stand (R357): both in one half of this controller. -/
def State.stampPlaceOk (s : State) (exts : List (Nat × Nat)) (stamp : Nat) : Bool :=
  let mem := fun (o n : Nat) => s.residentExtent o n
  let h := s.homeHalf stamp
  mem stamp 8 && exts.all fun x => mem x.1 x.2 && s.homeHalf x.1 == h && s.homeHalf (x.1 + x.2 - 1) == h

/-! ## Holders and replicas -/

/-- Entries of a half's holder table. -/
def State.holderCount (s : State) (row : Nat) : Nat :=
  (s.holders.filter fun x => s.homeHalf x.1 == s.homeHalf row).length

/-- Register a holder at the first stamp read (R362, R526); false where the home half's table of 65,536 is full. -/
def State.register (s : State) (row node h : Nat) : State × Bool :=
  if s.holders.contains (row, node, h) then (s, true)
  else if 65536 ≤ s.holderCount row then (s, false)
  else ({ s with holders := s.holders ++ [(row, node, h)] }, true)

def State.dropHolder (s : State) (row node h : Nat) : State := { s with holders := s.holders.erase (row, node, h) }

def State.repSlot (s : State) (h i : Nat) : Option RepSlot := s.replicas.find? fun r => r.half == h && r.idx == i

def State.setRep (s : State) (r : RepSlot) : State :=
  { s with replicas := s.replicas.map fun x => if x.half = r.half && x.idx = r.idx then r else x }

def State.freeRep (s : State) (r : RepSlot) : State :=
  { s with replicas := s.replicas.filter fun x => !(x.half == r.half && x.idx == r.idx) }

/-- The offset of a replica slot in tier 0. -/
def State.repOffset (s : State) (r : RepSlot) : Nat :=
  (if r.half = 0 then s.fld F.SCP_REPL_BASE_E_PAGE else s.fld F.SCP_REPL_BASE_W_PAGE) * pageBytes % 2 ^ 48 + 1024 * r.idx

/-- Reads of a slot in flight. -/
def State.repReading (s : State) (r : RepSlot) : Bool :=
  s.scoops.any fun e => scoopHalf e.1 == r.half && (e.2.head?).any fun c => c.parts.any fun p => p.slot == some r.idx

/-- The holder has given its copy up: the home's operation or the node that invalidates it hears so, or the home is told
of the eviction (R362, R528). -/
def State.repGone (s : State) (r : RepSlot) (op : Option Nat) (rinv : Option Packet) : State :=
  let s := s.freeRep r
  match op, rinv with
  | some id, _ =>
    (match s.homeOp id with
     | some o => s.setHomeOp { o with acks := o.acks.erase (s.node, r.half) }
     | none => s).dropHolder (r.gpa % 2 ^ 48) s.node r.half
  | none, some p =>
    if s.replicas.any fun x => x.gpa == r.gpa && (match x.st with | .draining _ (some q) => q.tag == p.tag && q.src == p.src | _ => false)
    then s
    else s.sendPacket { op := opRINV_ACK, dst := p.src, src := 0, part := p.part, tc := p.tc, tag := p.tag, off := p.off }
  | none, none =>
    if r.gpa / 2 ^ 48 = s.node then s.dropHolder (r.gpa % 2 ^ 48) s.node r.half
    else s.request .none { op := opRDEREG, dst := r.gpa / 2 ^ 48, src := 0, part := r.part, off := r.gpa % 2 ^ 48 }

/-- A VALID slot is invalidated or evicted: new lookups go to the home at once, and the slot is given up when the reads
issued to it have completed. An installing slot is only marked. -/
def State.killRep (s : State) (r : RepSlot) (op : Option Nat) (rinv : Option Packet) : State :=
  match r.st with
  | .installing _ =>
    let s := s.setRep { r with st := .installing true }
    -- R363 and R362: an installing slot is acknowledged at once; its install is abandoned when the attempt returns
    (match op, rinv with
     | some id, _ =>
       (match s.homeOp id with
        | some o => s.setHomeOp { o with acks := o.acks.erase (s.node, r.half) }
        | none => s).dropHolder (r.gpa % 2 ^ 48) s.node r.half
     | none, some p => s.sendPacket { op := opRINV_ACK, dst := p.src, src := 0, part := p.part, tc := p.tc, tag := p.tag, off := p.off }
     | none, none => s)
  | .draining _ _ => if op.isSome || rinv.isSome then s.setRep { r with st := .draining op rinv } else s
  | .valid => if s.repReading r then s.setRep { r with st := .draining op rinv } else s.repGone r op rinv

/-- Slots whose reads have returned are given up. -/
def State.settleReps (s : State) : State :=
  (s.replicas.filter fun r => match r.st with | .draining _ _ => !s.repReading r | _ => false).foldl (fun s r =>
    match r.st with
    | .draining op p => s.repGone r op p
    | _ => s) s

/-- Evict every replica that meets a condition (FLIP, RETIRE, a pool commit). -/
def State.evictReps (s : State) (f : RepSlot → Bool) : State :=
  (s.replicas.filter f).foldl (fun s r => s.killRep r none none) s

/-! ## Answers -/

/-- A part of an engine's row has its answer. -/
def State.partAnswer (s : State) (g k : Nat) (data : List Byte) (poison : List Nat) : State :=
  s.onPart g k fun (p : RowPart) => { p with res := some (data, poison), got := [] }

def State.partError (s : State) (g k : Nat) : State := s.onPart g k fun (p : RowPart) => { p with err := true, got := [] }

/-- A row as packet payload: the lines of poisoned units hold the image (R663). -/
def packetData (d : List Byte) (units : List Nat) : List Byte := withImage 0 d (unitLines 0 units)

/-- Answer a stamped read of another node (R526): parts of at most 4,096 B, the last of which begins with s1 and s2. -/
def State.answerSrd (s : State) (p : Packet) (s1 s2 : Nat) (row : List Byte) (poison : List Nat) (status : Nat) : State :=
  let base : Packet := { op := opSRD_DATA, dst := p.src, src := 0, part := p.part, tc := p.tc, tag := p.tag, off := p.off, status := status }
  if status ≠ psOK then s.sendPacket { base with data := [] }
  else
    let img := packetData row poison
    let n := (row.length + 4095) / 4096
    (List.range n).foldl (fun s k =>
      let part := (img.drop (4096 * k)).take 4096
      let lastPart := k + 1 = n
      let d := if lastPart then leBytes 8 s1 ++ leBytes 8 s2 ++ part else part
      s.sendPacket { base with partNo := k, last := lastPart, data := d, len := part.length,
                               poison := poison.any fun u => decide (u / 256 = k) }) s

/-- An attempt or waiting read has returned to its client. -/
def State.readReturned (s : State) (o : HomeOp) (err : Bool) : State :=
  let s := s.homeEnd o
  let pass := !o.bad && o.s1 % 2 == 0 && o.s2 == o.s1
  let odd := o.kind = .waiting && (o.bad || o.s1 % 2 == 1)
  let s := s.when odd fun s => s.bump F.SCP_STAMP_ODD_CNT_COUNT
  match o.client with
  | .row g k =>
    if err then s.partError g k
    else if pass || o.kind = .waiting then s.partAnswer g k o.data o.poison
    else
      -- R359: another attempt, up to four retries, and then a waiting read
      let t := ((s.part g k).map (·.tries)).getD 0 + 1
      let s := (s.wrap F.SCP_RETRIES_COUNT).onPart g k fun (p : RowPart) => { p with tries := t, waited := decide (5 ≤ t) }
      let s := s.when (decide (5 ≤ t)) fun s => s.wrap F.SCP_WAITS_COUNT
      s.homeStart { id := 0, kind := if 5 ≤ t then .waiting else .attempt, row := o.row, exts := o.exts, stamp := o.stamp, client := o.client }
  | .install h i =>
    match s.repSlot h i with
    | some r => s.setRep { r with res := some (pass && !err && !o.fail, o.data, o.poison) }
    | none => s
  | .packet p => s.answerSrd p o.s1 o.s2 o.data o.poison (if err || o.fail then psMEM_ERROR else psOK)
  | _ => s

/-- Read a row at its home: whether it failed, its bytes, and its poisoned units. -/
def State.homeRow (s : State) (exts : List (Nat × Nat)) : Bool × List Byte × List Nat :=
  exts.foldl (fun (a : Bool × List Byte × List Nat) x =>
    let r := s.readOwn x.1 x.2
    (a.1 || r.err, a.2.1 ++ r.data, a.2.2 ++ (poisonUnits x.1 x.2 r.poison).map fun u => u + a.2.1.length / 16)) (false, [], [])

/-- The row read of an attempt returns: the second stamp is read next. -/
def State.rowRead (s : State) (o : HomeOp) : State :=
  let r := s.homeRow o.exts
  let s := o.exts.foldl (fun s x => (s.noteRead x.1 x.2).crossIn (s.clientHalf o) x.1 x.2) s
  if r.1 then s.readReturned o true
  else
    let o : HomeOp := { o with step := 2, data := r.2.1, poison := r.2.2 }
    (s.setHomeOp o).homeAccess o

/-- The first stamp `v` of an attempt has been read: a holder is registered, and the row is read next. -/
def State.firstStamp (s : State) (o : HomeOp) (v : Nat) (bad : Bool) : State :=
  let q := match o.reg with
    | some (n, h) => s.register o.row n h
    | none => (s, true)
  let o : HomeOp := { o with step := 1, s1 := v, bad := o.bad || bad, fail := !q.2 }
  (q.1.setHomeOp o).homeAccess o

/-- A stamp read of an attempt returns. -/
def State.stampRead (s : State) (o : HomeOp) : State :=
  let r := s.readOwn o.stamp 8
  let s := s.noteRead o.stamp 8
  let v := leAt r.data 0 8
  if r.err then s.readReturned o true
  else if o.step = 0 then s.firstStamp o v r.bad
  else s.readReturned { o with s2 := v, bad := o.bad || r.bad } false

/-- ATTEMPT_READ_RETURN (R358): the stamp, row or second stamp read of an attempt or waiting read returns at the home,
and the next is issued. -/
def execAttemptReadReturn (id : Nat) (s : State) : Out :=
  .next <| s.clocked <|
    match s.homeOp id with
    | none => s
    | some o =>
      if o.kind = .update || !o.active || !s.homeTurn o then s
      else if o.step = 1 then (s.homeDone o).rowRead o else (s.homeDone o).stampRead o

/-- WAITING_READ_RELEASE (R359): no update of the row is in progress, and the home runs a held waiting read. -/
def execWaitingReadRelease (id : Nat) (s : State) : Out :=
  .next <| s.clocked <|
    match s.homeOp id with
    | none => s
    | some o =>
      if o.kind ≠ .waiting || o.active || s.updating o.row then s
      else
        let o : HomeOp := { o with active := true }
        (s.setHomeOp o).homeAccess o

/-! ## Updates (R355) -/

/-- An update ends: its client hears the status. -/
def State.updateEnd (s : State) (o : HomeOp) (status : Nat) : State :=
  let s := (s.homeEnd o).when (status == 0) fun s => s.wrap F.SCP_UPDATES_COUNT
  match o.client with
  | .update g => s.onCmd g fun (c : ScoopCmd) => { (if status = 0 then { c with rows := 1 } else c.note status 0) with ended := true }
  | .packet p =>
    s.sendPacket { op := opSUPD_ACK, dst := p.src, src := 0, part := p.part, tc := p.tc, tag := p.tag, off := p.off,
                   status := if status = 0 then psOK else psMEM_ERROR }
  | _ => s

/-- The odd stamp of an update (R355). -/
def oddStamp (v : Nat) : Nat := (if v % 2 = 0 then v + 1 else v + 2) % 2 ^ 64

/-- Step 2 of an update: the holders of a row are told to give their replicas up (R355, R363). -/
def State.invalidateHolders (s : State) (id row : Nat) (hs : List (Nat × Nat)) : State :=
  hs.foldl (fun s x =>
    if x.1 = s.node then
      (match s.replicas.find? fun r => r.half == x.2 && r.gpa == s.node * 2 ^ 48 + row with
       | some r => s.killRep r (some id) none
       | none =>
         (match s.homeOp id with
          | some o => s.setHomeOp { o with acks := o.acks.erase x }
          | none => s).dropHolder row x.1 x.2)
    else s.request (.inval id x.1) { op := opRINV, dst := x.1, src := 0, off := row }) s

/-- UPDATE_STAMP_ACKED (R355): the stamp has been read and the odd stamp's write is acknowledged (`ok`); the invalidations
of the row's replicas are sent. -/
def execUpdateStampAcked (id : Nat) (ok : Bool) (s : State) : Out :=
  .next <| s.clocked <|
    match s.homeOp id with
    | none => s
    | some o =>
      if o.kind ≠ .update || !o.active || o.step ≠ 0 || !s.homeTurn o then s
      else
        let s := s.homeDone o
        let r := s.readOwn o.stamp 8
        let s := s.noteRead o.stamp 8
        if r.err || r.bad then s.updateEnd o scSRC_ERROR
        else
          let v := oddStamp (leAt r.data 0 8)
          let w := if ok then s.writeOwn (s.homeHalf o.row) o.stamp (leBytes 8 v) [] else (s, false)
          if !w.2 then w.1.updateEnd o scDST_ERROR
          else
            let hs := (w.1.holders.filter fun x => x.1 == o.row).map (·.2)
            let o : HomeOp := { o with step := 1, s1 := v, acks := hs }
            let s := w.1.setHomeOp o
            s.invalidateHolders id o.row hs

/-- UPDATE_INVALIDATES_ACKED (R355): every holder has acknowledged, and the row is written; an invalidation of the home's own (step 4,
R668) ends. A holder that has become unreachable answers no more. -/
def execUpdateInvalidatesAcked (id : Nat) (s : State) : Out :=
  .next <| s.clocked <|
    match s.homeOp id with
    | none => s
    | some o =>
      if o.kind ≠ .update || (o.step ≠ 1 && o.step ≠ 4) then s
      else
        let f := o.acks.foldl (fun (a : State × List (Nat × Nat)) x =>
          if x.1 ≠ s.node && !a.1.awaits (.inval id x.1) then (((a.1.takeFails (.inval id x.1)).1.dropHolder o.row x.1 x.2), a.2)
          else (a.1, a.2 ++ [x])) (s, [])
        let o : HomeOp := { o with acks := f.2 }
        if f.2.isEmpty && o.step = 4 then f.1.homeEnd o
        else if f.2.isEmpty then
          let o : HomeOp := { o with step := 2 }
          (f.1.setHomeOp o).homeAccess o
        else f.1.setHomeOp o

/-- Write a row's bytes, with its poisoned units, to its extents, for an engine of a half. -/
def State.homeWrite (s : State) (h : Half) (exts : List (Nat × Nat)) (d : List Byte) (units : List Nat) : State × Bool :=
  (exts.foldl (fun (a : (State × Bool) × Nat) x =>
    let us := (units.filter fun u => decide (a.2 ≤ 16 * u) && decide (16 * u < a.2 + x.2)).map (· - a.2 / 16)
    let w := a.1.1.writeOwn h x.1 (slice d a.2 x.2) (unitLines x.1 us)
    ((w.1, a.1.2 && w.2), a.2 + x.2)) ((s, true), 0)).1

/-- UPDATE_ROW_ACKED (R355): the row write ends, and the even stamp is written. A failed row write leaves the row
undefined. -/
def execUpdateRowAcked (id : Nat) (ok : Bool) (s : State) : Out :=
  .next <| s.clocked <|
    match s.homeOp id with
    | none => s
    | some o =>
      if o.kind ≠ .update || o.step ≠ 2 || !s.homeTurn o then s
      else
        let s := s.homeDone o
        let w := if ok then s.homeWrite (s.clientHalf o) o.exts o.data o.poison else (s, false)
        let s := if w.2 then w.1 else o.exts.foldl (fun s x => s.undefine x.1 x.2) w.1
        let o : HomeOp := { o with step := 3, fail := !w.2 }
        (s.setHomeOp o).homeAccess o

/-- UPDATE_FINAL_STAMP_ACKED (R355): the write of the even stamp ends, and the update completes. -/
def execUpdateFinalStampAcked (id : Nat) (ok : Bool) (s : State) : Out :=
  .next <| s.clocked <|
    match s.homeOp id with
    | none => s
    | some o =>
      if o.kind ≠ .update || o.step ≠ 3 || !s.homeTurn o then s
      else
        let s := s.homeDone o
        let w := if ok then s.writeOwn (s.homeHalf o.row) o.stamp (leBytes 8 ((o.s1 + 1) % 2 ^ 64)) [] else (s, false)
        w.1.updateEnd o (if w.2 && !o.fail then 0 else scDST_ERROR)

end Sys2Proof.Machine
end

