-- ==== Sys2Proof/Machine/Scoop.lean ====
section
/-!
DEFINITION. Scoop (07_scoop_gather.md): tables and their commands, the engines and their commands row by row, and the
replica pool's counting, installs and commit.
-/

namespace Sys2Proof.Machine

/-! ## Table descriptors (R332 to R337) -/

def tdKind (d : List Byte) : Nat := leAt d 3 1
def tdStamped (d : List Byte) : Bool := (leAt d 4 1).testBit 0
def tdReplicate (d : List Byte) : Bool := (leAt d 4 1).testBit 1
def tdRows (d : List Byte) : Nat := leAt d 0x18 4
def tdRowsB (d : List Byte) : Nat := leAt d 0x38 4
def tdBytes (d : List Byte) : Nat := leAt d 0x1C 2 * 16
def tdBytesB (d : List Byte) : Nat := leAt d 0x3C 2 * 16

/-- Bytes of a delivered row. -/
def tdDelivered (d : List Byte) : Nat := if tdKind d = 2 then tdBytes d + tdBytesB d else tdBytes d

/-- RESULT of SCP_CMD_STATUS. -/
def srOK : Nat := 0
def srSTATE : Nat := 1
def srENCODING : Nat := 2
def srLIMIT : Nat := 3
def srSOURCE : Nat := 4
def srPARTITION : Nat := 5

/-- The check of a descriptor (R334). -/
def tableCheck (d : List Byte) : Nat :=
  let k := tdKind d
  let z := fun (o n : Nat) => leAt d o n == 0
  if leAt d 0 2 ≠ 0x5C0B || leAt d 2 1 ≠ 1 || 2 < k || 3 < leAt d 4 1 || !z 5 3 || !z 0x1E 2 || !z 0x3E 2 ||
    leAt d 8 8 % 16 ≠ 0 || leAt d 0x10 8 % 8 ≠ 0 || (!tdStamped d && !z 0x10 8) || z 0x18 4 || z 0x1C 2 ||
    (k ≠ 1 && !z 0x20 8) || (k ≠ 2 && !(z 0x28 8 && z 0x30 8 && z 0x38 4 && z 0x3C 2)) ||
    (k = 2 && (leAt d 0x28 8 % 16 ≠ 0 || leAt d 0x30 8 % 8 ≠ 0 || z 0x3C 2 || z 0x38 4 || (!tdStamped d && !z 0x30 8))) ||
    (tdReplicate d && !tdStamped d) then srENCODING
  else if 1024 < leAt d 0x1C 2 + leAt d 0x3C 2 then srLIMIT
  else srOK

/-- The hash of R336. -/
def rowHash (i seed : Nat) : Nat :=
  let v := BitVec.ofNat 64 i ^^^ (BitVec.ofNat 64 seed * 0xB7E15A2C93D46F0B#64)
  let v := v ^^^ (v >>> 30)
  let v := v * 0x6C3FD8A14E9725B3#64
  let v := v ^^^ (v >>> 27)
  let v := v * 0xE29A7C5D0B63F1C7#64
  (v ^^^ (v >>> 31)).toNat

/-- Row r of table A (`b` false) or B: its extent and its stamp (R333). -/
def tdRow (d : List Byte) (b : Bool) (r : Nat) : RowPart :=
  if b then { va := leAt d 0x28 8 + r * tdBytesB d, len := tdBytesB d, stamp := if tdStamped d then some (leAt d 0x30 8 + 8 * r) else none }
  else { va := leAt d 8 8 + r * tdBytes d, len := tdBytes d, stamp := if tdStamped d then some (leAt d 0x10 8 + 8 * r) else none }

/-- The rows delivered for an index, none where it is out of range (R335 to R337). -/
def tdLookup (d : List Byte) (i : Nat) : Option (List RowPart) :=
  if tdKind d = 0 then (if i < tdRows d then some [tdRow d false i] else none)
  else if tdKind d = 1 then some [tdRow d false (rowHash i (leAt d 0x20 8) % tdRows d)]
  else if i / tdRows d < tdRowsB d then some [tdRow d false (i % tdRows d), tdRow d true (i / tdRows d)]
  else none

/-! ## Tables -/

def State.tbl (s : State) (t : Nat) : TblSt := sget {} s.tbls t

def State.setTbl (s : State) (t : Nat) (x : TblSt) : State := { s with tbls := sput {} t x s.tbls }

def State.activeBank (s : State) (t : Nat) : Nat := s.fld F.SCP_TBL_STATUS_ACTIVE_BANK t

def TblSt.bank (x : TblSt) (b : Nat) : List Byte := if b = 0 then x.bank0 else x.bank1

/-- A table command completes. -/
def State.scpResult (s : State) (r : Nat) : State :=
  (s.setFld F.SCP_CMD_STATUS_RESULT r).setFlag F.SCP_CMD_STATUS_BUSY false

/-- The context of a partition code. -/
def partCtx (part : Nat) : Nat := if part = 0xFF then 128 else part

/-- A partition code that names no partition (R377). -/
def partBad (part : Nat) : Bool := decide (128 ≤ part) && part != 0xFF

/-- The virtual addresses by which a context reaches a line of own memory. -/
def State.lineVAs (s : State) (c gpa : Nat) : List Nat :=
  let x := s.ctx c
  (x.table.map rngOf).filterMap fun r =>
    if !r.valid then none
    else if r.mode == modeDirect then
      (if inExt (r.target * pageBytes) (r.len * pageBytes) gpa then some (r.va * pageBytes + (gpa - r.target * pageBytes)) else none)
    else if r.mode == modeMigrate then
      let base := s.fld F.XLT_POOL_BASE_PAGE c * pageBytes + r.poolOff * pageBytes
      (if inExt base (r.len * pageBytes) gpa && x.resident.contains ((gpa - s.fld F.XLT_POOL_BASE_PAGE c * pageBytes) / pageBytes)
       then some (r.va * pageBytes + (gpa - base)) else none)
    else none

/-- Drop the engine-cache lines of both halves that a context reaches in a virtual extent (R341, R409). -/
def State.invalidateVA (s : State) (c va n : Nat) : State :=
  let keep := fun (l : Nat) => (s.ctx c).lost || !(s.lineVAs c (64 * l)).any fun a => decide (a < va + n) && decide (va < a + 64)
  { s with cacheE := s.cacheE.filter (fun e => keep e.1), cacheW := s.cacheW.filter (fun e => keep e.1) }

/-- DEFINE (R339, R340). -/
def State.scpDefine (s : State) (t part : Nat) (env : Env) : State :=
  if partBad part then s.scpResult srPARTITION
  else if (s.tbl t).owner.any (· != part) || !s.flag F.SCP_TBL_STATUS_OLD_DRAINED t then s.scpResult srSTATE
  else match s.peek (partCtx part) (s.fld F.SCP_CMD_ARG_VA * 64) 64 env with
  | (s, none) => s.scpResult srSOURCE
  | (s, some d) =>
    if tableCheck d ≠ srOK then s.scpResult (tableCheck d)
    else
      let x := s.tbl t
      let x : TblSt := if s.activeBank t = 0 then { x with bank1 := d, owner := some part } else { x with bank0 := d, owner := some part }
      (((s.setTbl t x).setFlag F.SCP_TBL_STATUS_STAGED true t).setFld F.SCP_TBL_STATUS_PARTITION part t).scpResult srOK

/-- FLIP (R341 to R346). -/
def State.scpFlip (s : State) (t part : Nat) (inv : Bool) : State :=
  if partBad part || (s.tbl t).owner.any (· != part) then s.scpResult srPARTITION
  else if !s.flag F.SCP_TBL_STATUS_STAGED t then s.scpResult srSTATE
  else
    let b := 1 - s.activeBank t
    let d := (s.tbl t).bank b
    let s := if inv then
        let s := s.invalidateVA (partCtx part) (leAt d 8 8) (tdRows d * tdBytes d)
        if tdKind d = 2 then s.invalidateVA (partCtx part) (leAt d 0x28 8) (tdRowsB d * tdBytesB d) else s
      else s
    let s := (s.setFld F.SCP_TBL_STATUS_ACTIVE_BANK b t).setFlag F.SCP_TBL_STATUS_STAGED false t
    let s := (s.setFlag F.SCP_TBL_STATUS_VALID true t).wrap F.SCP_TBL_STATUS_VERSION t
    ((s.setFlag F.SCP_TBL_STATUS_OLD_DRAINED false t).evictReps fun r => r.tbl == t).scpResult srOK

/-- A table becomes free, with no owner. -/
def State.freeTable (s : State) (t : Nat) : State :=
  (s.setTbl t { s.tbl t with owner := none }).setFld F.SCP_TBL_STATUS_PARTITION 0 t

/-- RETIRE (R347). -/
def State.scpRetire (s : State) (t part : Nat) : State :=
  if partBad part || (s.tbl t).owner.any (· != part) then s.scpResult srPARTITION
  else if !s.flag F.SCP_TBL_STATUS_VALID t && !s.flag F.SCP_TBL_STATUS_STAGED t then s.scpResult srSTATE
  else
    let s := (s.setFlag F.SCP_TBL_STATUS_VALID false t).setFlag F.SCP_TBL_STATUS_STAGED false t
    let s := s.evictReps fun r => r.tbl == t
    (if s.flag F.SCP_TBL_STATUS_OLD_DRAINED t then s.freeTable t else s).scpResult srOK

/-- A write of SCP_CMD (R377): refused while BUSY; its OP selects the command. -/
def State.scpCmd (s : State) (op t part : Nat) (inv : Bool) (env : Env) : State × Nat :=
  if s.flag F.SCP_CMD_STATUS_BUSY then (s, stBusy)
  else
    (if op = 1 then s.scpDefine t part env
     else if op = 2 then s.scpFlip t part inv
     else if op = 3 then s.scpRetire t part
     else s.scpResult srENCODING, stOK)

/-- DEFINE (R339). -/
def execDefine (src : Source) (t part : Nat) (env : Env) (s : State) : Out :=
  run (.define src t part env) <| s.clocked <| s.guarded src .SCP_CMD 0 fun s => s.scpCmd 1 t part false env

/-- FLIP (R341). -/
def execFlip (src : Source) (t part : Nat) (inv : Bool) (s : State) : Out :=
  run (.flip src t part inv) <| s.clocked <| s.guarded src .SCP_CMD 0 fun s => s.scpCmd 2 t part inv []

/-- RETIRE (R347). -/
def execRetire (src : Source) (t part : Nat) (s : State) : Out :=
  run (.retire src t part) <| s.clocked <| s.guarded src .SCP_CMD 0 fun s => s.scpCmd 3 t part false []

/-- SCP_CMD_RESERVED_OP (R377): completes with ENCODING. -/
def execScpCmdReservedOp (src : Source) (op : Nat) (s : State) : Out :=
  run (.scpCmdReservedOp src op) <| s.clocked <| s.guarded src .SCP_CMD 0 fun s => s.scpCmd op 0 0 false []

/-- Commands of a table that latched the bank that is not active. -/
def State.oldLatched (s : State) (t : Nat) : Bool :=
  s.scoops.any fun e => e.2.any fun c => c.started && c.desc.isSome && c.tbl == t && c.bank != s.activeBank t

/-- TABLE_OLD_DRAINED (R344, R347): no command of the previous bank remains; a retired table becomes free. -/
def execTableOldDrained (t : Nat) (s : State) : Out :=
  run (.tableOldDrained t) <| s.clocked <|
    if s.flag F.SCP_TBL_STATUS_OLD_DRAINED t || s.oldLatched t then s
    else
      let s := s.setFlag F.SCP_TBL_STATUS_OLD_DRAINED true t
      if s.flag F.SCP_TBL_STATUS_VALID t || s.flag F.SCP_TBL_STATUS_STAGED t then s else s.freeTable t

/-! ## Engines -/

/-- SCP_ENG_STATUS states. -/
def seIDLE : Nat := 0
def seRUN : Nat := 1
def seHELD : Nat := 2
def seOFFLINE : Nat := 3
def seFAILED : Nat := 4

/-- Outstanding line reads of an engine: those of the row in progress (R328). -/
def ScoopCmd.lines (c : ScoopCmd) : Nat :=
  if c.issued then c.parts.foldl (fun a p => a + (linesOf p.va p.len).length + (if p.stamp.isSome && p.slot.isNone then 2 else 0)) 0
  else 0

/-- STATE, PARTITION and OUTSTANDING of an engine follow what it does. -/
def State.syncScoop (s : State) (g : Nat) : State :=
  let st := s.fld F.SCP_ENG_STATUS_STATE g
  if st = seFAILED || s.halfDown (ofHalfNum (scoopHalf g)) then s
  else
    let off := s.flag F.SCP_ENG_CTRL_OFFLINE g
    let new := match s.scoopCmd g with
      | none => if off then seOFFLINE else seIDLE
      | some _ => if (s.eng (slotScoop g)).st = .run then seRUN else seHELD
    let s := (s.setFld F.SCP_ENG_STATUS_STATE new g).setFld F.SCP_ENG_STATUS_OUTSTANDING (((s.scoopCmd g).map ScoopCmd.lines).getD 0) g
    match s.scoopCmd g with
    | some c => s.setFld F.SCP_ENG_STATUS_PARTITION (ctxPart c.ctx) g
    | none => s

/-- An engine that takes commands. -/
def State.scoopOpen (s : State) (g : Nat) : Bool :=
  !s.flag F.SCP_ENG_CTRL_OFFLINE g && s.fld F.SCP_ENG_STATUS_STATE g != seFAILED &&
    !s.halfDown (ofHalfNum (scoopHalf g)) && !s.engResets.any (fun r => r.cls == 1 && r.inst == g)

/-- The engine with the fewest outstanding reads, ties to the lower number (R329, R330); outstanding reads of commands
it holds behind the current one count by their number. -/
def State.scoopChoose (s : State) (half : Option Nat) : Option Nat :=
  let load := fun g => ((s.scoop g).length, s.fld F.SCP_ENG_STATUS_OUTSTANDING g)
  ((List.range 16).filter fun g => s.scoopOpen g && half.all (· == scoopHalf g)).foldl (fun b g =>
    match b with
    | none => some g
    | some k =>
      let x := load g; let y := load k
      if x.2 < y.2 || (x.2 = y.2 && x.1 < y.1) then some g else some k) none

/-- The cursor a fault of a command names. -/
def State.cmdCursor (s : State) (c : ScoopCmd) : Word := if c.op = 1 then s.rd .CUR_VALUE c.prog else BitVec.allOnes 64

/-- Is the command one of an EMBED phase that its program no longer waits for. -/
def State.embedGone (s : State) (c : ScoopCmd) : Bool := c.op = 1 && !(s.prog c.prog).embeds.contains c.num

/-! ## Hot rows (R361, R362) -/

def hotKey (tbl gpa : Nat) : Nat := tbl * 2 ^ 56 + gpa

/-- Slots of a half's pool. -/
def State.repSlots (s : State) (h : Nat) : Nat := if h = 0 then s.fld F.SCP_REPL_SLOTS_EAST else s.fld F.SCP_REPL_SLOTS_WEST

/-- A free slot of a half, the lowest. -/
def State.repFree (s : State) (h : Nat) : Option Nat :=
  (List.range (s.repSlots h)).find? fun i => (s.repSlot h i).isNone

/-- Begin an install: a stamped read with registration (R362). -/
def State.installBegin (s : State) (h i tbl part gpa len stampGpa : Nat) (exts : List (Nat × Nat)) : State :=
  let r : RepSlot := { half := h, idx := i, gpa := gpa, tbl := tbl, part := part, len := len }
  let s : State := { s with replicas := s.replicas ++ [r] }
  if gpa / 2 ^ 48 = s.node then
    s.homeStart { id := 0, kind := .attempt, row := gpa % 2 ^ 48, exts := exts, stamp := stampGpa % 2 ^ 48,
                  client := .install h i, reg := some (s.node, h) }
  else s.request (.install h i) { op := opSRD, dst := gpa / 2 ^ 48, src := 0, part := part, off := gpa % 2 ^ 48, reg := true, len := min len 4096 }

/-- A row's count has reached THRESH: a replica is installed, after the least recently read VALID one is evicted where no
slot is free. -/
def State.hotInstall (s : State) (h tbl part gpa len stampGpa : Nat) (exts : List (Nat × Nat)) : State :=
  if 1024 < len || (s.replicas.any fun r => r.half == h && r.gpa == gpa) then s
  else
    let s := match s.repFree h with
      | some _ => s
      | none =>
        match (s.replicas.filter fun (r : RepSlot) => r.half == h && decide (r.st = RepSt.valid)) with
        | [] => s
        | v :: rest => s.killRep (rest.foldl (fun (b r : RepSlot) => if r.use < b.use then r else b) v) none none
    match s.repFree h with
    | some i => s.installBegin h i tbl part gpa len stampGpa exts
    | none => s

/-- Count a lookup of a row by a half's engines (R361); a row that finds the 4,096 counts in use is not counted. -/
def State.countHot (s : State) (h tbl part gpa len stampGpa : Nat) (exts : List (Nat × Nat)) : State :=
  let k := hotKey tbl gpa
  let old := ((s.hot.find? fun x => x.1 == h && x.2.1 == k).map (·.2.2)).getD 0
  let n := old + 1
  if old = 0 && 4096 ≤ (s.hot.filter fun x => x.1 == h).length then s
  else
    let s : State := { s with hot := (h, k, n) :: s.hot.filter fun x => !(x.1 == h && x.2.1 == k) }
    if s.flag F.SCP_HOT_CTRL_EN && s.fld F.SCP_HOT_CTRL_THRESH ≤ n then s.hotInstall h tbl part gpa len stampGpa exts else s

/-- REPLICA_INSTALL_DONE (R362): the install attempt has returned; the row is written to the slot, or the install is
abandoned. -/
def execReplicaInstallDone (h i : Nat) (s : State) : Out :=
  run (.replicaInstallDone h i) <| s.clocked <|
    match s.repSlot h i with
    | none => s
    | some r =>
      let f := s.takeFails (.install h i)
      let abandon := fun (s : State) => (s.freeRep r).bump F.SCP_ABANDON_CNT_COUNT
      match r.st, r.res with
      | .installing killed, some (pass, d, units) =>
        if !pass || killed then abandon s
        else
          let w := s.writeMem (s.repOffset r) d (unitLines (s.repOffset r) units)
          if w.2 then (w.1.setRep { r with st := .valid, use := s.repUse, res := none }).wrap F.SCP_REPL_INSTALLS_COUNT
          else abandon w.1
      | .installing _, none => if f.2.isEmpty then s else abandon f.1
      | _, _ => s

/-- HOT_COUNT_DECAY (R361): every count of a half is halved. -/
def execHotCountDecay (h : Half) (s : State) : Out :=
  .next <| s.clocked <|
    { s with hot := (s.hot.map fun x => if x.1 = halfNum h then (x.1, x.2.1, x.2.2 / 2) else x).filter fun x => x.2.2 ≠ 0 }

/-! ## Issue of rows (R331) -/

/-- Where the row's extents and stamp lie: of one home, as offsets; none where R357 is broken on this side. -/
def State.rowHome (s : State) (c : Nat) (p : RowPart) : Option (Nat × List (Nat × Nat) × Nat × Nat × Nat) :=
  let ps := (pieces p.va p.len).map fun x => (s.target c x.1, x.2)
  match p.stamp.bind fun v => s.target c v with
  | some (.own st) =>
    (ps.foldr (fun (x : Option Target × Nat) (acc : Option (List (Nat × Nat))) =>
      match x.1, acc with | some (.own o), some l => some ((o, x.2) :: l) | _, _ => none) (some [])).bind fun exts =>
        if s.stampPlaceOk exts st then some (s.node, exts, st, 0xFF, 0) else none
  | some (.remote nd st part key) =>
    (ps.foldr (fun (x : Option Target × Nat) (acc : Option (List (Nat × Nat))) =>
      match x.1, acc with | some (.remote m o _ _), some l => if m = nd then some ((o, x.2) :: l) else none | _, _ => none) (some [])).bind
        fun exts =>
          -- a request names one offset, so the row must be one extent there
          let one := (exts.foldl (fun (a : Bool × Nat) x => (a.1 && (a.2 == x.1 || a.2 == 0), x.1 + x.2)) (true, 0)).1
          if nd < 64 && one then some (nd, exts, st, part, key) else none
  | _ => none

/-- Issue the reads of part k of an engine's row. -/
def State.issuePart (s : State) (g k : Nat) (c : ScoopCmd) (d : List Byte) (p : RowPart) : State :=
  if p.stamp.isNone then s
  else match s.rowHome c.ctx p with
  | none => s.partError g k
  | some (nd, exts, st, part, _) =>
    let h := scoopHalf g
    let off := (exts.head?.map (·.1)).getD 0
    let gpa := nd * 2 ^ 48 + off
    let tag := ctxPart c.ctx
    let hot := tdReplicate d && c.op ≠ 0x21
    let slot := if hot then (s.replicas.find? fun r => r.half == h && r.gpa == gpa && r.tbl == c.tbl && r.st = .valid) else none
    match slot with
    | some r =>
      let r : RepSlot := { r with use := s.repUse + 1 }
      let s : State := { s.setRep r with repUse := s.repUse + 1 }
      (s.onPart g k fun (p : RowPart) => { p with slot := some r.idx }).countHot h c.tbl tag gpa p.len (nd * 2 ^ 48 + st) exts
    | none =>
      let s := if hot then s.countHot h c.tbl tag gpa p.len (nd * 2 ^ 48 + st) exts else s
      if nd = s.node then
        s.homeStart { id := 0, kind := .attempt, row := off, exts := exts, stamp := st, client := .row g k }
      else s.request (.row g k) { op := opSRD, dst := nd, src := 0, part := part, off := off, len := min p.len 4096 }

/-- Count the line reads of a row as it is issued (SCP_ENG_LINES). -/
def State.countLines (s : State) (g : Nat) : State :=
  s.wrap F.SCP_ENG_LINES_COUNT g (((s.scoopCmd g).map ScoopCmd.lines).getD 0)

/-- What an engine finds for the entry in progress. -/
inductive NextRow where
  | row (parts : List RowPart) (dst : Nat)
  | skip                 -- out of range
  | stop                 -- the index read failed
  | stalled
  deriving DecidableEq, Repr

/-- Read index j of a GATHER's list through the engine cache, or take an EMBED lane's token (R338). -/
def State.nextRow (s : State) (g : Nat) (c : ScoopCmd) (d : List Byte) (env : Env) : State × NextRow :=
  let look := fun (i dst : Nat) => match tdLookup d i with
    | some ps => NextRow.row ps dst
    | none => .skip
  if c.op = 1 then
    match c.lanes[c.j]? with
    | some l => (s, look l.2.1 l.2.2)
    | none => (s, .stop)
  else
    let w := if c.idx64 then 8 else 4
    let va := c.idxVA + c.j * w
    match s.present (slotScoop g) c.ctx 0 va w .read (s.cmdCursor c) with
    | (s, .stalled) => (s, .stalled)
    | (s, .error) => (s, .stop)
    | (s, .pass) =>
      let r := s.readCached (ofHalfNum (scoopHalf g)) c.ctx va w env
      if r.2.refused.isSome then (r.1.keyFault (slotScoop g) c.ctx 0 va w (s.cmdCursor c) va, .stalled)
      else if r.2.err || r.2.bad then (r.1, .stop)
      else (r.1, look (leAt r.2.data 0 w) (c.dstVA + c.j * c.stride))

/-- Present the accesses of a row in order: each source row and stamp, then the destination. -/
def State.presentRow (s : State) (g : Nat) (c : ScoopCmd) (dst n : Nat) : List RowPart → State × Presented × Bool
  | [] =>
    let r := s.present (slotScoop g) c.ctx 1 dst n .write (s.cmdCursor c)
    (r.1, r.2, true)
  | p :: rest =>
    match s.present (slotScoop g) c.ctx 0 p.va p.len .read (s.cmdCursor c) with
    | (s, .pass) =>
      (match p.stamp with
       | none => s.presentRow g c dst n rest
       | some v =>
         match s.present (slotScoop g) c.ctx 0 v 8 .read (s.cmdCursor c) with
         | (s, .pass) => s.presentRow g c dst n rest
         | (s, r) => (s, r, false))
    | (s, r) => (s, r, false)

/-- An EMBED lane without a row receives the canonical NaN in every element (R371). -/
def nanLane (otype width : Nat) : List Byte :=
  (List.range width).flatMap fun _ => leBytes (tySize otype) (tyFmt otype).nan

/-- Take what an engine has asked for its row in progress out of every queue. -/
def State.dropRow (s : State) (g : Nat) : State :=
  let mine := fun (c : HomeClient) => match c with | .row h _ => h == g | _ => false
  let s := (s.homeOps.filter fun o => mine o.client).foldl (fun s o => s.homeEnd o) s
  ((s.dropClient (.row g 0)).dropClient (.row g 1)).onCmd g fun (c : ScoopCmd) => { c with issued := false, parts := [], half := none }

/-- An EMBED lane is written: engine-cache lines of the destination are dropped in both halves (R374), and the exponents of
the buffer lane are those of its elements (R284). -/
def State.laneWritten (s : State) (c : ScoopCmd) (lane dst : Nat) (d : List Byte) : State :=
  let s := s.invalidateEnd c.ctx ekVA dst d.length
  let x := laneMax (elemsOf c.otype ((List.range c.width).map fun i => leAt d (i * tySize c.otype) (tySize c.otype)))
  let p := s.prog c.prog
  let off := dst - p.actBase - lane * roundUp (c.width * tySize c.otype) 64
  s.setProg c.prog { p with exps := (off, lane, x) :: p.exps.filter fun e => !(e.1 == off && e.2.1 == lane) }

/-- Out of range: the row's destination is unchanged, and it counts; an EMBED lane takes NaN (R352, R371). -/
def State.skipRow (s : State) (g : Nat) (c : ScoopCmd) : State :=
  let s := s.bump F.SCP_OOR_CNT_COUNT
  if c.op = 1 then
    match c.lanes[c.j]? with
    | some l =>
      let p := s.prog c.prog
      let s := s.setProg c.prog (p.onLane l.1 fun e => { e with numstat := e.numstat ||| flNONFINITE })
      (match s.present (slotScoop g) c.ctx 1 l.2.2 (c.width * tySize c.otype) .write (s.cmdCursor c) with
       | (s, .pass) =>
         let w := s.writeVA c.ctx l.2.2 (nanLane c.otype c.width) [] (.scoop g)
         ((w.1.laneWritten c l.1 l.2.2 (nanLane c.otype c.width)).when (!w.2) fun s => s.arrayHalt c.prog erOUTPUT 0).onCmd g
           fun (c : ScoopCmd) => { c with j := c.j + 1 }
       | (s, .error) => s.arrayHalt c.prog erOUTPUT 0
       | (s, .stalled) => s)
    | none => s
  else s.onCmd g fun (c : ScoopCmd) => { (c.note scOUT_OF_RANGE c.j) with j := c.j + 1 }

/-- Issue the next row of the command an engine runs; entries out of range are passed over. -/
def State.issueRows (s : State) (g : Nat) (env : Env) : Nat → State
  | 0 => s
  | fuel + 1 =>
    match s.scoopCmd g with
    | none => s
    | some c =>
      if !c.started || c.ended || c.issued || c.count ≤ c.j || (s.eng (slotScoop g)).st ≠ .run || c.op = 0x21 then s
      else
        match c.desc with
        | none => (s.skipRow g c).issueRows g env fuel
        | some d =>
          match s.nextRow g c d env with
          | (s, .stalled) => s
          | (s, .stop) => s.onCmd g fun (c : ScoopCmd) => { (c.note scIDX_ERROR c.j) with ended := true }
          | (s, .skip) =>
            let t := s.skipRow g c
            t.issueRows g env fuel
          | (s, .row ps dst) =>
            let n := if c.op = 1 then c.width * tySize c.otype else tdDelivered d
            match s.presentRow g c dst n ps with
            | (s, .stalled, _) => s
            | (s, .error, w) =>
              if c.op = 1 then s.arrayHalt c.prog (if w then erOUTPUT else erFAULT_ABORT) 0
              else (s.onCmd g fun (c : ScoopCmd) =>
                { (c.note (if w then scDST_ERROR else scSRC_ERROR) c.j) with j := c.j + 1 }).issueRows g env fuel
            | (s, .pass, _) =>
              let s := s.onCmd g fun (c : ScoopCmd) => { c with parts := ps, dst := dst, issued := true }
              let s := (List.range ps.length).foldl (fun s k =>
                match ps[k]? with | some p => s.issuePart g k c d p | none => s) s
              s.countLines g

/-! ## ROW_UPDATE (R355) -/

/-- The row of a ROW_UPDATE: its place in the table, none where it is out of range. -/
def updateRow (d : List Byte) (row : Nat) : Option RowPart :=
  if tdKind d = 2 then
    let b := decide (2 ^ 63 ≤ row)
    let r := row % 2 ^ 63
    if r < (if b then tdRowsB d else tdRows d) then some (tdRow d b r) else none
  else if row < tdRows d then some (tdRow d false row) else none

/-- Read the source row, and send the update to the row's home. -/
def State.sendUpdate (s : State) (g : Nat) (env : Env) : State :=
  match s.scoopCmd g with
  | none => s
  | some c =>
    match c.desc.bind fun d => updateRow d c.row with
    | none => s.onCmd g fun (c : ScoopCmd) => { (c.note scNOT_STAMPED 0) with ended := true }
    | some p =>
      let fail := fun (s : State) (st : Nat) => s.onCmd g fun (c : ScoopCmd) => { (c.note st 0) with ended := true }
      match s.present (slotScoop g) c.ctx 0 c.srcVA p.len .read (s.cmdCursor c) with
      | (s, .stalled) => s
      | (s, .error) => fail s scSRC_ERROR
      | (s, .pass) =>
        match s.present (slotScoop g) c.ctx 1 p.va p.len .write (s.cmdCursor c) with
        | (s, .stalled) => s
        | (s, .error) => fail s scDST_ERROR
        | (s, .pass) =>
          match s.present (slotScoop g) c.ctx 1 (p.stamp.getD 0) 8 .write (s.cmdCursor c) with
          | (s, .stalled) => s
          | (s, .error) => fail s scDST_ERROR
          | (s, .pass) =>
            let r := s.readVA c.ctx c.srcVA p.len env
            if r.refused.isSome then s.keyFault (slotScoop g) c.ctx 0 c.srcVA p.len (s.cmdCursor c) (r.refused.getD 0)
            else if r.err then fail s scSRC_ERROR
            else
              let units := poisonUnits c.srcVA p.len r.poison
              let s := (s.noteVA (ofHalfNum (scoopHalf g)) c.ctx c.srcVA p.len).onCmd g fun (c : ScoopCmd) =>
                { (if units.isEmpty then c else c.note scPOISON 0) with buf := r.data, bufPoison := units, sent := true, issued := true, parts := [{ p with stamp := none }] }
              let s := s.countLines g
              match s.rowHome c.ctx p with
              | none => fail s scSRC_ERROR
              | some (nd, exts, st, part, _) =>
                if nd = s.node then
                  s.homeStart { id := 0, kind := .update, row := (exts.head?.map (·.1)).getD 0, exts := exts, stamp := st,
                                client := .update g, data := r.data, poison := units }
                else
                  let img := packetData r.data units
                  let n := (p.len + 4095) / 4096
                  let off := (exts.head?.map (·.1)).getD 0
                  -- the parts of one SUPD carry one TAG; the response comes to it
                  let first := s.freeTag
                  (List.range n).foldl (fun s k =>
                    let d := (img.drop (4096 * k)).take 4096
                    let pk : Packet := { op := opSUPD, dst := nd, src := 0, part := part, off := off, partNo := k, last := k + 1 = n, data := d,
                                         len := d.length, poison := units.any fun u => decide (u / 256 = k) }
                    if k = 0 then s.request (.update g) pk
                    else s.sendPacket { pk with tag := first, tc := s.tcOf part }) s

/-! ## Commands -/

/-- The head command starts: it latches the active bank of its table (R343), or ends with NO_TABLE or NOT_STAMPED. -/
def State.scoopStart (s : State) (g : Nat) (env : Env) : State :=
  match s.scoopCmd g with
  | none => s.syncScoop g
  | some c =>
    if c.started then s.syncScoop g
    else
      let ok := s.flag F.SCP_TBL_STATUS_VALID c.tbl && (s.tbl c.tbl).owner == some (ctxPart c.ctx)
      let b := s.activeBank c.tbl
      let d := (s.tbl c.tbl).bank b
      let s := s.onCmd g fun (c : ScoopCmd) =>
        if ok then { c with started := true, desc := some d, bank := b }
        else if c.op = 1 then { c with started := true }
        else { (c.note scNO_TABLE 0) with started := true, ended := true }
      let s :=
        if c.op = 0x21 && ok then
          (if tdStamped d then s.sendUpdate g env
           else s.onCmd g fun (c : ScoopCmd) => { (c.note scNOT_STAMPED 0) with ended := true })
        else s.issueRows g env (c.count + 1)
      s.syncScoop g

/-- Give a command to an engine, which starts it at once if it holds no other; it waits where no engine is open. -/
def State.scoopGive (s : State) (c : ScoopCmd) (half : Option Nat) (env : Env) : State :=
  match s.scoopChoose half with
  | none => { s with scoopWait := s.scoopWait ++ [c] }
  | some g =>
    let l := s.scoop g
    let s := s.setScoop g (l ++ [c])
    if l.isEmpty then s.scoopStart g env else s

/-- The half an EMBED command is bound to (R330). -/
def State.embedHalf (s : State) (c : ScoopCmd) : Option Nat := if c.op = 1 then some (s.prog c.prog).descHalf else none

/-- Commands that waited for an engine are given to one. -/
def State.drainScoop (s : State) (env : Env) : State :=
  s.scoopWait.foldl (fun s c => s.scoopGive c (s.embedHalf c) env) { s with scoopWait := [] }

/-- The next command of an engine starts; one that has gone offline gives what it holds to others. -/
def State.scoopNext (s : State) (g : Nat) (env : Env) : State :=
  if s.scoopOpen g then (s.scoopStart g env).drainScoop env
  else
    let l := s.scoop g
    (l.foldl (fun s c => s.scoopGive c (s.embedHalf c) env) (s.setScoop g [])).syncScoop g

/-- The rows of an engine's row in progress as they are now: bytes with poisoned units, none while one is awaited, or
an error. A replica that proves poisoned is evicted, and its row is asked of the home (R362). -/
inductive RowNow where
  | waiting
  | error
  | refused (va : Nat)
  | data (bytes : List Byte) (units : List Nat)
  deriving DecidableEq, Repr

/-- Gather the parts of the row in progress. -/
def State.collect (s : State) (g : Nat) (c : ScoopCmd) (env : Env) : State × RowNow :=
  (List.range c.parts.length).foldl (fun (a : State × RowNow) k =>
    match c.parts[k]?, a.2 with
    | some p, .data bs us =>
      let add := fun (s : State) (d : List Byte) (u : List Nat) => (s, RowNow.data (bs ++ d) (us ++ u.map (· + bs.length / 16)))
      if p.err || !(a.1.takeFails (.row g k)).2.isEmpty then ((a.1.takeFails (.row g k)).1, .error)
      else match p.slot with
      | some i =>
        (match a.1.repSlot (scoopHalf g) i with
         | some r =>
           let m := a.1.readMem (a.1.repOffset r) p.len
           if m.bad then
             -- served from the home, and the slot evicted
             let s := (a.1.onPart g k fun (p : RowPart) => { p with slot := none }).killRep r none none
             (match c.desc with
              | some d => let s := s.issuePart g k { c with op := 0x21 } d { p with slot := none }; (s, .waiting)
              | none => (s, .waiting))
           else add ((a.1.noteRead (a.1.repOffset r) p.len).wrap F.SCP_REPL_HITS_COUNT) m.data []
         | none => (a.1, .error))
      | none =>
        match p.stamp with
        | some _ =>
          (match p.res with
           | some (d, u) => add a.1 d u
           | none => (a.1, .waiting))
        | none =>
          let r := a.1.readCached (ofHalfNum (scoopHalf g)) c.ctx p.va p.len env (a.1.asOf (slotScoop g) c.ctx)
          if r.2.refused.isSome then (r.1, .refused (r.2.refused.getD 0))
          else if r.2.err then (r.1, .error)
          else add r.1 r.2.data (poisonUnits p.va p.len r.2.poison)
    | _, x => (a.1, x)) (s, .data [] [])

/-- The row in progress is done with: the next one is issued. -/
def State.rowDone (s : State) (g : Nat) (env : Env) (f : ScoopCmd → ScoopCmd) : State :=
  let s := s.onCmd g fun (c : ScoopCmd) => let c := f c; { c with j := c.j + 1, issued := false, parts := [], half := none }
  let s := (s.endAccess (slotScoop g)).settleReps
  (s.issueRows g env (((s.scoopCmd g).map (·.count)).getD 0 + 1)).syncScoop g

/-- Writes of a row that failed are known before the engine goes on: DST_ERROR, or a fault of the engine where an edge agent refused the
region key, and the row is delivered again at a resume (R97, R886). The row is the one before, or the one whose parts with a key
have been written. Answers whether the engine stays free to go on. -/
def State.previousWrites (s : State) (g : Nat) (c : ScoopCmd) : State × Bool :=
  let f := s.takeFails (.scoop g)
  if f.2.isEmpty then (s, true)
  else
    let done := if c.half.isSome then 0 else 1
    let j := c.j - done
    match keyFail f.2 with
    | some x =>
      (((f.1.dropRow g).onCmd g fun (c : ScoopCmd) => { c with j := j, rows := c.rows - done }).keyFault (slotScoop g) c.ctx 1 x.va (x.fin - x.va)
        (s.cmdCursor c) x.va, false)
    | none =>
      if c.op = 1 then (f.1.arrayHalt c.prog erOUTPUT 0, false)
      else (f.1.onCmd g fun (c : ScoopCmd) => { (c.note scDST_ERROR j) with rows := c.rows - done }, true)

/-- Deliver the row in progress, its parts with a region key first: where a home may refuse the key, nothing else is written before it
has answered (R367). `half` says that those have been written. Answers the state, whether every part was accepted, and whether
the row is written whole. -/
def State.writeRow (s : State) (g : Nat) (c : ScoopCmd) (dst : Nat) (d : List Byte) (units : List Nat) : State × Bool × Bool :=
  let v := s.asOf (slotScoop g) c.ctx
  let mixed := (pieces dst d.length).any fun p => (v.target c.ctx p.1).any Target.keyed
  if c.half.isSome then
    let w := s.writeVA c.ctx dst d (unitLines dst units) (.scoop g) v fun t => !t.keyed
    (w.1, w.2, true)
  else if mixed then
    let w := s.writeVA c.ctx dst d (unitLines dst units) (.scoop g) v Target.keyed
    (w.1.onCmd g fun (c : ScoopCmd) => { c with half := some (d, units) }, w.2, !w.2)
  else
    let w := s.writeVA c.ctx dst d (unitLines dst units) (.scoop g) v
    (w.1, w.2, true)

/-- A row of a GATHER, or of an EMBED lane, is delivered. -/
def State.deliverRow (s : State) (g : Nat) (c : ScoopCmd) (d : List Byte) (units : List Nat) (env : Env) : State :=
  let w := s.writeRow g c c.dst d units
  if !w.2.2 then w.1
  else if c.op = 1 then
    (((w.1.laneWritten c ((c.lanes[c.j]?).map (·.1) |>.getD 0) c.dst d).when (!w.2.1) fun s => s.arrayHalt c.prog erOUTPUT 0).wrap
      F.SCP_ROWS_COUNT).rowDone g env fun c => { c with rows := c.rows + 1 }
  else if !w.2.1 then
    (w.1.undefineEnd c.ctx ekVA c.dst d.length (s.asOf (slotScoop g) c.ctx)).rowDone g env fun c => c.note scDST_ERROR c.j
  else
    (w.1.wrap F.SCP_ROWS_COUNT).rowDone g env fun c =>
      let c := if units.isEmpty then c else c.note scPOISON c.j
      { c with rows := c.rows + 1 }

/-- SCOOP_ROW_RETURN (R331): the reads of an engine's row have returned; the row is written to its destination, and the
next row is issued. -/
def execScoopRowReturn (g : Nat) (env : Env) (s : State) : Out :=
  run (.scoopRowReturn g env) <| s.clocked <|
    let s := s.codewords 6 env
    match s.scoopCmd g with
    | none => s
    | some c =>
      if !c.issued || c.ended || c.op = 0x21 || s.awaits (.scoop g) then s
      else if s.embedGone c then ((s.setScoop g ((s.scoop g).drop 1)).settleReps).scoopNext g env
      else
        match s.previousWrites g c with
        | (s, false) => s.syncScoop g
        | (s, true) =>
          match (match c.half with | some x => (s, .data x.1 x.2) | none => s.collect g c env : State × RowNow) with
          | (s, .waiting) => s
          | (s, .error) =>
            if c.op = 1 then
              (s.setProg c.prog ((s.prog c.prog).poisonSeq (((c.lanes[c.j]?).map (·.1)).getD 0))).rowDone g env id
            else s.rowDone g env fun c => c.note scSRC_ERROR c.j
          | (s, .refused va) =>
            let p := (c.parts.find? fun p => inExt p.va p.len va).getD { va := va, len := 16 }
            ((s.dropRow g).keyFault (slotScoop g) c.ctx 0 p.va p.len (s.cmdCursor c) va).syncScoop g
          | (s, .data d units) =>
            if c.op = 1 then
              match c.lanes[c.j]? with
              | none => s
              | some l =>
                if !units.isEmpty then
                  -- R372: as a poisoned KV read, the lane's outputs are discarded
                  let s := s.setProg c.prog ((s.prog c.prog).poisonSeq l.1)
                  (s.wrap F.SCP_ROWS_COUNT).rowDone g env fun c => { c with rows := c.rows + 1 }
                else
                  let n := c.width * tySize c.otype
                  -- a row shorter than the lane leaves its last bytes open
                  let pad := (List.range (n - d.length)).map fun i => Config.freeByte s.free i
                  let s : State := if d.length < n then { s with free := s.free + 1 } else s
                  s.deliverRow g c ((d ++ pad).take n) [] env
            else s.deliverRow g c d units env

/-- The order of the statuses in R352, highest first. -/
def scOrder : List Nat := [scFAULT_ABORT, scPARTITION_RESET, scNO_TABLE, scNOT_STAMPED, scIDX_ERROR, scDST_ERROR, scSRC_ERROR, scPOISON, scOUT_OF_RANGE]

/-- The status of a command and its FAIL_INDEX. -/
def ScoopCmd.verdict (c : ScoopCmd) : Nat × Nat :=
  match scOrder.find? fun st => c.notes.any fun x => x.1 == st with
  | none => (0, 0)
  | some st => (st, (c.notes.filter fun x => x.1 == st).foldl (fun m x => min m x.2) (2 ^ 24))

/-- A command ends: its completion is reported, and the engine's next command starts. -/
def State.scoopEnd (s : State) (g : Nat) (env : Env) : State :=
  match s.scoopCmd g with
  | none => s
  | some c =>
    let s := ((s.setScoop g ((s.scoop g).drop 1)).endAccess (slotScoop g)).settleReps
    let s := if c.op = 1 then
        let p := s.prog c.prog
        s.setProg c.prog { p with embeds := p.embeds.erase c.num }
      else
        let v := c.verdict
        s.finishWork c.src v.1 c.rows (v.2 % 2 ^ 24)
    s.scoopNext g env

/-- SCOOP_COMMAND_COMPLETE (R352): every row has been delivered or passed over and every write acknowledged; the command
completes with its status and FAIL_INDEX. -/
def execScoopCommandComplete (g : Nat) (env : Env) (s : State) : Out :=
  run (.scoopCommandComplete g env) <| s.clocked <|
    match s.scoopCmd g with
    | none => s
    | some c =>
      if !c.started || s.awaits (.scoop g) || (s.eng (slotScoop g)).st ≠ .run || (c.issued && c.op ≠ 0x21) then s
      else
        let u := s.takeFails (.update g)
        if c.op = 0x21 then
          (if c.ended then s.scoopEnd g env
           else if !u.2.isEmpty then
             (u.1.onCmd g fun (c : ScoopCmd) => c.note (if u.2.any (fun f => f.status == psSTAMP) then scSRC_ERROR else scDST_ERROR) 0).scoopEnd g env
           else s)
        else if !c.ended && c.j < c.count then s
        else
          match s.previousWrites g c with
          | (s, false) => s.syncScoop g
          | (s, true) => s.scoopEnd g env

/-- Put a command back to its beginning (R369). -/
def ScoopCmd.restart (c : ScoopCmd) : ScoopCmd :=
  { c with desc := none, started := false, j := 0, parts := [], issued := false, sent := false, rows := 0, notes := [], buf := [],
           bufPoison := [], half := none, ended := false }

/-- Take an engine's row in progress out of every queue; an update already sent runs on at its home (R370). -/
def State.scoopDetach (s : State) (g : Nat) : State :=
  let s := s.dropRow g
  let s : State := { s with homeOps := s.homeOps.map fun (o : HomeOp) => if o.client = .update g then { o with client := .none } else o }
  (((s.dropClient (.update g)).dropClient (.scoop g)).endAccess (slotScoop g)).freeEngine (slotScoop g)

/-- An engine's commands restart from entry 0 on other engines (R369). -/
def State.scoopMove (s : State) (g : Nat) (env : Env) : State :=
  let l := s.scoop g
  let s := ((s.scoopDetach g).setScoop g []).settleReps
  (l.foldl (fun s c => s.scoopGive c.restart (s.embedHalf c) env) s).syncScoop g

/-- SCOOP_ENGINE_FAIL (R369). -/
def execScoopEngineFail (g : Nat) (env : Env) (s : State) : Out :=
  run (.scoopEngineFail g env) <| s.clocked <|
    let s := s.setFld F.SCP_ENG_STATUS_STATE seFAILED g
    let s := s.record { cls := ecSCP, event := 1, inst := g, part := ((s.scoopCmd g).map fun c => ctxPart c.ctx).getD 0xFE,
                        op := 6, half := some (ofHalfNum (scoopHalf g)) }
    s.scoopMove g env

/-! ## Queue entries -/

/-- Is a piece of work preceded by a started entry of its queue. -/
def State.behind (s : State) (w : WorkSrc) : Bool :=
  match w with
  | .queue p q slot => (match (s.queue p q).started with
      | e :: _ => e.slot ≠ slot
      | [] => false)
  | _ => false

/-- The first waiting entry of an operation that may start, taken out: an entry with FENCE, and every entry of an
operation in `last`, starts only when the earlier entries of its queue have completed (R161, R405, R408). -/
def State.takeEntry (s : State) (op : Nat) (last : Bool) : Option (State × Nat × WorkSrc × List Byte) :=
  let can := fun (e : Nat × WorkSrc × List Byte) =>
    leAt e.2.2 0 1 == op && !((last || (leAt e.2.2 1 1).testBit 0) && s.behind e.2.1)
  match s.waitingCmds.find? can with
  | none => none
  | some e => some ({ s with waitingCmds := s.waitingCmds.erase e }, e.1, e.2.1, e.2.2)

/-- The command of a GATHER entry (R349). -/
def gatherOf (num ctx : Nat) (w : WorkSrc) (b : List Byte) : ScoopCmd :=
  { num := num, src := w, ctx := ctx, op := 0x20, tbl := leAt b 2 2, idx64 := (leAt b 1 1).testBit 3, count := leAt b 4 4,
    idxVA := leAt b 8 8, dstVA := leAt b 0x10 8, stride := leAt b 0x20 4 }

/-- The command of a ROW_UPDATE entry (R351). -/
def updateOf (num ctx : Nat) (w : WorkSrc) (b : List Byte) : ScoopCmd :=
  { num := num, src := w, ctx := ctx, op := 0x21, tbl := leAt b 2 2, row := leAt b 8 8, srcVA := leAt b 0x10 8 }

/-- Reserved encodings of a Scoop entry (R349 to R351, R13); the stride is held against the bank that would be latched. -/
def State.scoopReserved (s : State) (ctx : Nat) (b : List Byte) : Bool :=
  let t := leAt b 2 2
  let fl := leAt b 1 1
  decide (1023 < t) ||
  if leAt b 0 1 = 0x20 then
    let d := (s.tbl t).bank (s.activeBank t)
    let ok := s.flag F.SCP_TBL_STATUS_VALID t && (s.tbl t).owner == some (ctxPart ctx)
    fl % 16 != fl || fl.testBit 1 || leAt b 4 4 == 0 || decide (2 ^ 24 < leAt b 4 4) ||
      leAt b 8 8 % (if fl.testBit 3 then 8 else 4) != 0 || leAt b 0x10 8 % 16 != 0 || leAt b 0x20 4 % 16 != 0 ||
      (ok && decide (leAt b 0x20 4 < tdDelivered d)) || !zeros b 0x24 28
  else (fl &&& 0xFA) != 0 || leAt b 4 4 != 0 || leAt b 0x10 8 % 16 != 0 || !zeros b 0x20 32

/-- Start the next Scoop entry of an operation; bytes given are a command of management firmware, which waits behind the
others unless it carries a reserved encoding. -/
def State.scoopEntry (s : State) (op : Nat) (fw : List Byte) (env : Env) : State :=
  let s : State :=
    if fw.isEmpty then s
    else if leAt fw 0 1 ≠ op || s.scoopReserved 128 fw then s.emit (.note "firmware command rejected" [])
    else { s with waitingCmds := s.waitingCmds ++ [(128, .fw (leAt fw 0x18 8), fw)] }
  if (s.scoopChoose none).isNone then s
  else match s.takeEntry op false with
  | none => s
  | some (s, ctx, w, b) =>
    let c := if op = 0x20 then gatherOf s.scoopNum ctx w b else updateOf s.scoopNum ctx w b
    { s with scoopNum := s.scoopNum + 1 }.scoopGive c none env

/-- GATHER (R349). -/
def execGather (fw : List Byte) (env : Env) (s : State) : Out := .next <| s.clocked (s.scoopEntry 0x20 fw env)

/-- ROW_UPDATE (R355). -/
def execRowUpdate (fw : List Byte) (env : Env) (s : State) : Out := .next <| s.clocked (s.scoopEntry 0x21 fw env)

/-! ## EMBED phases (R330, R371 to R374) -/

/-- Start an EMBED phase: one command per lane group of 64, on engines of the half that holds the descriptors. -/
def State.startEmbed (s : State) (n : Nat) (d : List Byte) (env : Env) : State :=
  let p := s.prog n
  let out := leAt d 0x10 8
  let lanes := (List.range p.lanes.length).map fun b =>
    (b, ((p.seqAt b).map (·.last)).getD 0, (p.laneVA out b).1)
  let groups := (List.range ((lanes.length + 63) / 64)).map fun k => (lanes.drop (64 * k)).take 64
  let nums := (List.range groups.length).map (s.scoopNum + ·)
  let s : State := { s.setProg n { p with embeds := nums, begun := true } with scoopNum := s.scoopNum + groups.length }
  (groups.zip nums).foldl (fun s x =>
    s.scoopGive { num := x.2, ctx := p.ctx, op := 1, tbl := leAt d 4 2, prog := n, lanes := x.1, width := buWidth out,
                  otype := buType out, count := x.1.length } (some p.descHalf) env) s

/-! ## Faults of an engine -/

/-- The held access of an engine is presented again (R108). -/
def State.replayScoop (s : State) (g : Nat) (env : Env) : State :=
  match s.scoopCmd g with
  | none => s
  | some c =>
    if c.op = 0x21 then (if c.sent then s else (s.sendUpdate g env).syncScoop g)
    else (s.issueRows g env (c.count + 1)).syncScoop g

/-- A fault is aborted (R367, R373): the command ends with FAULT_ABORT at the faulting entry; a program halts. -/
def State.abortScoop (s : State) (g : Nat) (env : Env) : State :=
  match s.scoopCmd g with
  | none => s
  | some c =>
    if c.op = 1 then ((s.arrayHalt c.prog erFAULT_ABORT 0).setScoop g ((s.scoop g).drop 1)).scoopNext g env
    else ((s.dropRow g).onCmd g fun (c : ScoopCmd) => { (c.note scFAULT_ABORT c.j) with ended := true }).syncScoop g

/-- The destination rows of a GATHER that a reset leaves unacknowledged are undefined (R352): the row whose writes are awaited, and those from
the row in progress on. -/
def State.undefineRows (s : State) (g : Nat) (c : ScoopCmd) : State :=
  match c.desc with
  | some d =>
    if c.op ≠ 0x20 then s
    else
      let first := if s.awaits (.scoop g) && c.half.isNone then c.j - 1 else c.j
      let v := s.asOf (slotScoop g) c.ctx
      (List.range (c.count - first)).foldl (fun s k => s.undefineEnd c.ctx ekVA (c.dstVA + (first + k) * c.stride) (tdDelivered d) v) s
  | none => s

/-- A partition reset reaches the engine's command (R370): it stops issuing and completes with PARTITION_RESET. -/
def State.resetScoop (s : State) (g : Nat) (env : Env) : State :=
  let s := match s.scoopCmd g with | some c => s.undefineRows g c | none => s
  ((s.scoopDetach g).onCmd g fun (c : ScoopCmd) => { (c.note scPARTITION_RESET c.j) with ended := true }).scoopEnd g env

/-! ## Commit of the replica pool (R376) -/

/-- A pool lies wholly in its own half's tier 0 resident region. -/
def State.poolRangeBad (s : State) (h : Half) (gpa bytes : Nat) : Bool :=
  let off := gpa % 2 ^ 48
  bytes != 0 && !(gpa / 2 ^ 48 == s.node && decide (off + bytes ≤ t0Size) && s.residentExtent off bytes &&
    s.homeHalf off == h && s.homeHalf (off + bytes - 1) == h)

/-- The checks of a commit of the replica pool group. -/
def State.replCheck (s : State) : Nat :=
  let slots := s.snapOf .repl 0 .SCP_REPL_SLOTS 0
  let e := F.SCP_REPL_SLOTS_EAST.get slots
  let w := F.SCP_REPL_SLOTS_WEST.get slots
  if 32768 < e || 32768 < w then 2
  else if s.poolRangeBad .east (F.SCP_REPL_BASE_E_PAGE.get (s.snapOf .repl 0 .SCP_REPL_BASE_E 0) * pageBytes) (1024 * e) ||
    s.poolRangeBad .west (F.SCP_REPL_BASE_W_PAGE.get (s.snapOf .repl 0 .SCP_REPL_BASE_W 0) * pageBytes) (1024 * w) then 1
  else 0

/-- Commit the replica pool group: checks now, the new pool at the safe point, after every replica is evicted. -/
def State.commitRepl (s : State) : State :=
  let s := s.beginCommit .repl 0
  if s.replCheck ≠ 0 then s.rejectCommit .repl 0 s.replCheck else s.evictReps fun _ => true

/-- SCP_REPL_COMMIT (R376). -/
def execScpReplCommit (src : Source) (s : State) : Out :=
  run (.scpReplCommit src) <| s.clocked <| s.gated src .SCP_REPL_COMMIT 0 State.commitRepl

end Sys2Proof.Machine
end

