-- ==== Sys2Proof/Machine/Coherence.lean ====
section
/-!
DEFINITION. The coherent domain at its home (09_coherent_domains.md): the directory, coherent requests and their snoops,
write-backs, collapse and re-initialisation, and the commit of the domain's configuration.
-/

namespace Sys2Proof.Machine

/-! ## Messages and the coherence word (R429, R430) -/

def cmRdShared : Nat := 0
def cmRdOwn : Nat := 1
def cmUpgrade : Nat := 2
def cmWbData : Nat := 3
def cmEvictClean : Nat := 4
def cmSnpShared : Nat := 5
def cmSnpInv : Nat := 6
def cmFwdData : Nat := 7
def cmAck : Nat := 8
def cmWbPending : Nat := 9

def cohMsg (w : Nat) : Nat := w / 2 ^ 28 % 16
def cohStatus (w : Nat) : Nat := w / 2 ^ 24 % 16
def cohKept (w : Nat) : Nat := w / 2 ^ 22 % 4
def cohSrc (w : Nat) : Nat := w / 2 ^ 20 % 4
def cohTxn (w : Nat) : Nat := w % 65536

def cohWord (msg status grant src txn : Nat) : Nat :=
  msg % 16 * 2 ^ 28 + status % 16 * 2 ^ 24 + grant % 4 * 2 ^ 22 + src % 4 * 2 ^ 20 + txn % 65536

/-- Grants: S, E, M. -/
def grS : Nat := 1
def grE : Nat := 2
def grM : Nat := 3

/-- States of COH_DOM_STATUS (R444). -/
def cdDISABLED : Nat := 0
def cdUP : Nat := 1
def cdDOWN : Nat := 2
def cdREINIT : Nat := 3

def State.domState (s : State) : Nat := s.fld F.COH_DOM_STATUS_STATE

/-- The member slot of a node. -/
def State.memberSlot (s : State) (node : Nat) : Option Nat :=
  (List.range 16).find? fun k => s.flag F.COH_MEMBER_VALID k && s.fld F.COH_MEMBER_NODE k == node

def State.memberNode (s : State) (slot : Nat) : Nat := s.fld F.COH_MEMBER_NODE slot

/-- The valid windows: local offset and length. -/
def State.cohWindows (s : State) : List (Nat × Nat) :=
  (List.range 16).filterMap fun w =>
    if s.flag F.COH_WIN_BASE_VALID w then some (s.fld F.COH_WIN_BASE_PAGE w * pageBytes, s.fld F.COH_WIN_LEN_PAGES w * pageBytes) else none

def State.windowed (s : State) (o : Nat) : Bool := s.cohWindows.any fun w => inExt w.1 w.2 o

/-! ## Directory (R425 to R428) -/

/-- A half's set of a line: bits 17:0 of its number; the West half's sets come after the East's. -/
def State.cohSet (s : State) (line : Nat) : Nat := line % 2 ^ 18 + halfNum (s.homeHalf (64 * line)) * 2 ^ 18

def State.cohBusy (s : State) (line : Nat) : Bool := s.cohTxns.any fun t => t.line == line

/-- Enter an entry as the most recently used, or free it. -/
def State.setDir (s : State) (line : Nat) (e : Option DirEnt) : State :=
  { s with dir := e.toList ++ s.dir.filter fun (x : DirEnt) => x.line ≠ line }.syncDir

/-- Everyone an entry records. -/
def DirEnt.holders (e : DirEnt) : List Nat := e.owner.toList ++ e.sharers

/-- An entry after a holder has gone; none when nobody is left. -/
def DirEnt.without (e : DirEnt) (slot : Nat) : Option DirEnt :=
  let e : DirEnt := { e with owner := if e.owner = some slot then none else e.owner, sharers := e.sharers.filter (· ≠ slot) }
  if e.holders.isEmpty then none else some e

/-! ## Memory at the home -/

/-- A line of memory for a coherent request: bytes, and whether it reads as poison. -/
def State.cohRead (s : State) (line : Nat) : State × List Byte × Bool :=
  let a := 64 * line
  let gone := s.halfDown (s.homeHalf a) || s.memFailed a
  let s := s.when (!gone && s.mem.poisoned line && !s.mem.fresh.contains line) fun s => s.wrap F.ERR_POISON_RD_COUNT
  (s.tally a 64 false, s.mem.bytes a 64, gone || s.mem.poisoned line)

/-- Write a line of dirty data to memory. -/
def State.cohWrite (s : State) (line : Nat) (d : List Byte) (poison : Bool) : State :=
  let a := 64 * line
  if s.halfDown (s.homeHalf a) || s.memFailed a then s
  else (if poison then s.poisonLine line else s.storeLine line d).tally a 64 true

/-- Poison a line whose value is lost (R445, R448). -/
def State.cohPoison (s : State) (line : Nat) : State :=
  (s.poisonLine line).bump F.COH_POISONED_COUNT

/-! ## Sending -/

def State.cohSend (s : State) (like : Packet) (dst off word status : Nat) (d : List Byte) (poison : Bool) (tag : Nat) : State :=
  s.sendPacket { op := opCOH, dst := dst, src := s.node, part := like.part, tc := like.tc, tag := tag, off := off, status := status,
                 len := max 1 d.length, coh := word, data := d, poison := poison }

/-- The grant Ack of a request (R430, R433). -/
def State.cohGrant (s : State) (p : Packet) (status grant src : Nat) : State :=
  s.cohSend p p.src p.off (cohWord cmAck status grant src (cohTxn p.coh)) (if status = 3 then psWINDOW_COH else psOK) [] false p.tag

/-- The line to the requester from the home. -/
def State.cohFwd (s : State) (p : Packet) (d : List Byte) (poison : Bool) : State :=
  s.cohSend p p.src p.off (cohWord cmFwdData 0 0 0 (cohTxn p.coh)) psOK d poison p.tag

/-- Line data from memory to the requester, and the grant with DATA_SRC home. -/
def State.cohFromHome (s : State) (p : Packet) (grant : Nat) : State :=
  let r := s.cohRead (p.off / 64)
  (r.1.cohFwd p r.2.1 r.2.2).cohGrant p 0 grant 1

/-- Snoops to some slots for a transaction; TAG names the node that is to have the data (assumption log). -/
def State.cohSnoop (s : State) (like : Packet) (line msg txn dataTo : Nat) (slots : List Nat) : State :=
  slots.foldl (fun s k =>
    (s.cohSend like (s.memberNode k) (64 * line) (cohWord msg 0 0 0 txn) psOK [] false dataTo).wrap F.COH_SNOOPS_COUNT) s

/-! ## Serving requests (R431, R435, R452) -/

/-- Begin a transaction with snoops. -/
def State.cohBegin (s : State) (p : Packet) (slot msg : Nat) (owner : Option Nat) (slots : List Nat) : State :=
  let t : CohTxn := { line := p.off / 64, req := some p, slot := slot, txn := cohTxn p.coh, waits := slots, owner := owner }
  { s with cohTxns := s.cohTxns ++ [t] }.cohSnoop p (p.off / 64) msg (cohTxn p.coh) p.src slots

/-- A way for a new entry of a line: true where one is free; else the least recently used entry of its set that is not
BUSY is back-invalidated (R427, R428), and the request waits. -/
def State.cohWay (s : State) (p : Packet) : State × Bool :=
  let line := p.off / 64
  let ways := s.dir.filter fun e => s.cohSet e.line == s.cohSet line
  -- every request that waits for a way of the set has had its entry back-invalidated
  let waiting := ((s.cohWait.filter fun q => s.cohSet (q.off / 64) == s.cohSet line && (s.dirAt (q.off / 64)).isNone).map (·.off / 64)).eraseDups
  let running := s.cohTxns.filter fun t => t.req.isNone && s.cohSet t.line == s.cohSet line
  if ways.length < 16 then (s, true)
  else if waiting.length < running.length then (s, false)
  else match (ways.filter fun e => !s.cohBusy e.line).getLast? with
    | none => (s, false)
    | some e =>
      let txn := 0xF000 + s.cohNum % 0x1000
      let t : CohTxn := { line := e.line, txn := txn, waits := e.holders, owner := e.owner }
      let s : State := { s with cohTxns := s.cohTxns ++ [t], cohNum := s.cohNum + 1 }
      ((s.wrap F.COH_BACKINV_COUNT).cohSnoop { p with part := 0xFF, tc := 0 } e.line cmSnpInv txn s.node e.holders, false)

/-- Serve a request to a line that is not BUSY; a request that finds no way waits. -/
def State.cohServe (s : State) (p : Packet) (slot : Nat) : State :=
  let line := p.off / 64
  let msg := cohMsg p.coh
  let sole : DirEnt := { line := line, owner := some slot }
  match s.dirAt line with
  | none =>
    let w := s.cohWay p
    if w.2 then (w.1.setDir line (some sole)).cohFromHome p (if msg = cmRdShared then grE else grM) |>.wrap F.COH_REQS_COUNT
    else { w.1 with cohWait := w.1.cohWait ++ [p] }
  | some e =>
    let s := s.wrap F.COH_REQS_COUNT
    let others := e.holders.filter (· ≠ slot)
    let known := e.holders.contains slot
    if msg = cmRdShared then
      match e.owner with
      | none => (s.setDir line (some { e with sharers := ninsert slot e.sharers })).cohFromHome p grS
      | some o =>
        if o = slot then (s.setDir line (some { e with owner := none, sharers := ninsert slot e.sharers })).cohFromHome p grS
        else s.cohBegin p slot cmSnpShared (some o) [o]
    else if others.isEmpty then
      let s := s.setDir line (some sole)
      if (msg = cmUpgrade && known) || e.owner = some slot then s.cohGrant p 0 grM 0 else s.cohFromHome p grM
    else s.cohBegin p slot cmSnpInv (if e.owner = some slot then none else e.owner) others

/-- A COH packet that asks something of the control window: STATUS ADDR, and ERROR in the Ack (R879). -/
def State.cohCtl (s : State) (p : Packet) : State :=
  (s.bump F.XLT_CTL_REFUSED_COUNT).cohSend p p.src p.off (cohWord cmAck 4 0 0 (cohTxn p.coh)) psADDR [] false p.tag

/-- A coherent request: refused under R452, R444 and R879, else it waits for the line, or is served. -/
def State.cohRequest (s : State) (p : Packet) : State :=
  if s.region p.off = .control then s.cohCtl p
  else match s.memberSlot p.src with
  | none => (s.bump F.COH_REFUSED_CNT_COUNT).cohGrant p 3 0 0
  | some slot =>
    if !s.windowed p.off || s.domState = cdDISABLED then (s.bump F.COH_REFUSED_CNT_COUNT).cohGrant p 3 0 0
    else if s.domState ≠ cdUP then (s.bump F.COH_REFUSED_CNT_COUNT).cohGrant p 2 0 0
    else if s.cohBusy (p.off / 64) || s.cohWait.any (fun q => q.off / 64 == p.off / 64) then { s with cohWait := s.cohWait ++ [p] }
    else s.cohServe p slot

/-- Waiting requests in arrival order, each if its line is free. -/
def State.cohRetry (s : State) : State :=
  s.cohWait.foldl (fun s p =>
    if s.cohBusy (p.off / 64) || s.cohWait.any (fun q => q.off / 64 == p.off / 64) then { s with cohWait := s.cohWait ++ [p] }
    else match s.memberSlot p.src with
      | some slot => s.cohServe p slot
      | none => (s.bump F.COH_REFUSED_CNT_COUNT).cohGrant p 3 0 0) { s with cohWait := [] }

/-! ## Ends of transactions (R433, R434, R439) -/

/-- Acknowledge a WbData or EvictClean. -/
def State.cohAck (s : State) (p : Packet) : State :=
  s.cohSend p p.src p.off (cohWord cmAck 0 0 0 (cohTxn p.coh)) psOK [] false p.tag

/-- The entry of the line after the transaction. -/
def CohTxn.entry (t : CohTxn) (e : DirEnt) (shared : Bool) : DirEnt :=
  if !shared then { line := t.line, owner := some t.slot }
  else
    let sh := ninsert t.slot e.sharers
    match t.owner with
    | none => { e with sharers := sh }
    | some o =>
      if t.kept = 2 then { e with owner := some o, sharers := sh }
      else { e with owner := none, sharers := if t.kept = 1 then ninsert o sh else sh }

/-- Every response of a transaction is in: data that came to the home is written, the requester has its data and grant,
the entry is updated; then the waiting requests are looked at. -/
def State.cohFinish (s : State) (t : CohTxn) : State :=
  let s : State := { s with cohTxns := s.cohTxns.filter fun x => !(x.txn == t.txn && x.line == t.line) }
  let s := match t.wb with
    | some w => ((s.cohWrite t.line w.data w.poison).cohAck w).bump F.COH_WBPEND_CNT_COUNT
    | none => (match t.data with
      | some d => s.cohWrite t.line d.1 d.2
      | none => s)
  match t.req with
  | none => (s.setDir t.line none).cohRetry
  | some p =>
    let e := (s.dirAt t.line).getD { line := t.line }
    let msg := cohMsg p.coh
    let shared := msg == cmRdShared
    let known := e.holders.contains t.slot
    let grant := if shared then grS else grM
    let s := s.setDir t.line (some (t.entry e shared))
    let s :=
      if t.wb.isSome then
        (match t.wb with
         | some w => (s.cohFwd p w.data w.poison).cohGrant p 0 grant 1
         | none => s)
      else if msg = cmUpgrade && known then s.cohGrant p 0 grant 0
      else if t.fwd then s.cohGrant p 0 grant 2
      else s.cohFromHome p grant
    s.cohRetry

/-- Put a transaction back, or end it when nothing is awaited any more. -/
def State.cohStep (s : State) (t : CohTxn) : State :=
  let s : State := { s with cohTxns := s.cohTxns.map fun x => if x.txn == t.txn && x.line == t.line then t else x }
  let dataDue := t.req.isNone && t.fwd && t.data.isNone
  if t.waits.isEmpty && (t.pend.isNone || t.wb.isSome) && !dataDue then s.cohFinish t else s

/-- The transaction that a snoop response of a member answers. -/
def State.cohFind (s : State) (p : Packet) : Option (CohTxn × Nat) :=
  match s.memberSlot p.src with
  | none => none
  | some slot => (s.cohTxns.find? fun t => t.line == p.off / 64 && t.txn == cohTxn p.coh && t.waits.contains slot).map fun t => (t, slot)

def cohKind (m : Nat) (p : Packet) : Bool := p.op == opCOH && cohMsg p.coh == m


/-- RDOWN (R431). -/
def execRdown (k : Nat) (s : State) : Out := .next <| s.clocked <| s.perform k (cohKind cmRdOwn) State.cohRequest

/-- UPGRADE (R431). -/
def execUpgrade (k : Nat) (s : State) : Out := .next <| s.clocked <| s.perform k (cohKind cmUpgrade) State.cohRequest

/-- WBDATA (R429, R439, R441): dirty data of the recorded owner is written and its ownership ends; where a snoop of that
agent is open, the data is the current value of the line; data of another agent is discarded. -/
def execWbdata (k : Nat) (s : State) : Out :=
  .next <| s.clocked <| s.perform k (cohKind cmWbData) fun s p =>
    let line := p.off / 64
    if s.region p.off = .control then s.cohCtl p
    else match s.memberSlot p.src, s.dirAt line with
    | some slot, some e =>
      if e.owner = some slot then
        (match s.cohTxns.find? fun t => t.line == line && (t.waits.contains slot || t.pend == some slot) with
         | some t => s.cohStep { t with wb := some p }
         | none => ((s.cohWrite line p.data p.poison).setDir line (e.without slot)).cohAck p)
      else (s.bump F.COH_PROTO_CNT_COUNT).cohAck p
    | _, _ => (s.bump F.COH_PROTO_CNT_COUNT).cohAck p

/-- EVICTCLEAN (R429, R440): a recorded holder that has no snoop response behind it leaves the entry. -/
def execEvictclean (k : Nat) (s : State) : Out :=
  .next <| s.clocked <| s.perform k (cohKind cmEvictClean) fun s p =>
    let line := p.off / 64
    if s.region p.off = .control then s.cohCtl p
    else match s.memberSlot p.src, s.dirAt line with
    | some slot, some e =>
      let answered := s.cohTxns.any fun t => t.line == line && !t.waits.contains slot
      (if answered || !e.holders.contains slot then s else s.setDir line (e.without slot)).cohAck p
    | _, _ => s.cohAck p

/-- SNOOP_ACK (R432, R434): an agent answers a snoop without a write-back in flight. -/
def execSnoopAck (k : Nat) (s : State) : Out :=
  .next <| s.clocked <| s.perform k (cohKind cmAck) fun s p =>
    match s.cohFind p with
    | none => s
    | some (t, slot) =>
      let t := { t with waits := t.waits.filter (· ≠ slot) }
      s.cohStep (if t.owner = some slot then { t with kept := cohKept p.coh, fwd := cohSrc p.coh == 2 } else t)

/-- SNPRESPWBPENDING (R439): the snoop met a write-back in flight, whose data is awaited. -/
def execSnprespwbpending (k : Nat) (s : State) : Out :=
  .next <| s.clocked <| s.perform k (cohKind cmWbPending) fun s p =>
    match s.cohFind p with
    | none => s
    | some (t, slot) => s.cohStep { t with waits := t.waits.filter (· ≠ slot), pend := some slot, kept := 0, fwd := false }

/-- FWDDATA (R427, R429): the data of an own snoop arrives at the home. -/
def execFwddata (k : Nat) (s : State) : Out :=
  .next <| s.clocked <| s.perform k (cohKind cmFwdData) fun s p =>
    match s.cohTxns.find? fun t => t.line == p.off / 64 && t.txn == cohTxn p.coh && t.req.isNone with
    | some t => s.cohStep { t with data := some (p.data, p.poison) }
    | none => s

/-! ## Collapse and re-initialisation (R443 to R449) -/

/-- The collapse actions (R445): the dead agent's lines are poisoned, requests end with POISON, snoops are abandoned. -/
def State.collapse (s : State) (cause : Nat) (dead : Option Nat) : State :=
  let lost := s.dir.filter fun e => dead.isSome && e.owner == dead
  let s := lost.foldl (fun s e => s.cohPoison e.line) s
  let s : State := match dead with
    | some d => { s with dir := s.dir.filterMap fun (e : DirEnt) => e.without d }.syncDir
    | none => s
  let txns := s.cohTxns
  let waits := s.cohWait
  let s : State := { s with cohTxns := [], cohWait := [] }
  let s := txns.foldl (fun s t => match t.wb with
    | some w =>
      let s := (s.cohWrite t.line w.data w.poison).cohAck w
      (match s.dirAt t.line, s.memberSlot w.src with
       | some e, some k => s.setDir t.line (e.without k)
       | _, _ => s)
    | none => s) s
  let s := (txns.filterMap (·.req) ++ waits).foldl (fun s p => s.cohGrant p 1 0 0) s
  let s := s.setFld F.COH_DOM_STATUS_STATE cdDOWN
  let s := s.setFld F.COH_DOM_STATUS_CAUSE cause
  let s := (s.setFlag F.COH_DOM_STATUS_DEAD_VALID dead.isSome).setFld F.COH_DOM_STATUS_DEAD_SLOT (dead.getD 0)
  s.record { cls := ecCOH, event := 1, inst := dead.getD 0xFFFF, aux := cause }

/-- The collapse notice to every other home (R444, R446, R547). -/
def State.collapseNotice (s : State) : State :=
  ((List.range 64).filter fun n => n != s.node && s.bit .COH_HOMES 0 n).foldl (fun s n =>
    s.sendPacket { op := opMGMT, dst := n, src := s.node, part := 0xFF, tc := 7, len := 8,
                   data := leBytes 8 (2 + s.fld F.COH_CFG_DOMAIN * 256) }) s

/-- An agent of the domain is dead (R443). -/
def State.agentDead (s : State) (cause : Nat) (slot : Option Nat) : State :=
  if s.domState = cdUP then (s.collapseNotice).collapse cause slot else s

/-! ## Words of control SRAM (R668) -/

/-- The lines of the valid windows in the home half of a line that map to the line's set (R425). -/
def State.setLines (s : State) (line : Nat) : List Nat :=
  (s.cohWindows.flatMap fun w =>
    let a := w.1 / 64
    let first := a + (line % 2 ^ 18 + 2 ^ 18 - a % 2 ^ 18) % 2 ^ 18
    ((List.range (w.2 / 64 / 2 ^ 18 + 1)).map fun k => first + 2 ^ 18 * k).filter fun l =>
      decide (l < a + w.2 / 64) && s.cohSet l == s.cohSet line).eraseDups

/-- An uncorrectable directory entry (R668): every line that maps to its set is written as poison, and the domain collapses by the path
of COH_DOM_CTRL.COLLAPSE. -/
def State.dirLost (s : State) (line : Nat) : State :=
  let s := (s.setLines line).foldl (fun s l => s.cohWrite l [] true) s
  let s := (s.setDir line none).agentDead 5 none
  s.record { cls := ecCOH, event := 2, inst := 0xFFFF, op := 9, half := some (s.homeHalf (64 * line)),
             address := BitVec.ofNat 64 (s.node * 2 ^ 48 + 64 * line) }

/-- An uncorrectable word of a holder table (R668): every replica of the row is invalidated (R355, step 2) before the next update of the
row is served. Holders whose acknowledgement an update of the row awaits already are left to it. -/
def State.holderLost (s : State) (row : Nat) : State :=
  let waits := (s.homeOps.filter fun o => o.row == row).flatMap (·.acks)
  let hs := ((s.holders.filter fun x => x.1 == row).map (·.2)).filter fun x => !waits.contains x
  if hs.isEmpty then s
  else
    let id := s.homeNum
    ({ s with homeNum := id + 1,
              homeOps := s.homeOps ++ [{ id := id, kind := .update, row := row, exts := [], stamp := row, client := .none, step := 4, acks := hs }] }
      : State).invalidateHolders id row hs

/-- A word of control SRAM is read with wrong symbols: corrected, or handled as R668 gives. A lookaside or residency word is invalidated
and filled again by the next access that needs it; what else is refilled from memory reads as before. -/
def State.controlWord (s : State) (w : CtlWord) (err : List Byte) : State :=
  match codeWord.decode [] false err with
  | .ok _ => s
  | .other _ _ => s
  | .bad =>
    match w with
    | .dir line => s.dirLost line
    | .look h k => let x := s.look h; s.setLook h { x with ranges := x.ranges.eraseIdx k }
    | .residency h k => let x := s.look h; s.setLook h { x with bits := x.bits.eraseIdx k }
    | .table => s
    | .holder row => s.holderLost row

/-- The codewords and control words that a request at the home reads with wrong symbols. -/
def State.homeWords (s : State) (env : Env) : State :=
  env.foldl (fun s e => match e.space with
    | .control w => s.controlWord w e.data
    | _ => s) (s.codewords 1 env)

/-- RDSHARED (R431): a delivered packet is performed. -/
def execRdshared (q : InboxRead) (s : State) : Out :=
  .next <| s.clocked <| (s.homeWords q.env).perform q.k (cohKind cmRdShared) State.cohRequest

/-- SNOOP_TIMEOUT (R443): a snoop of the k-th transaction to a slot got no response within 100 µs. -/
def execSnoopTimeout (k slot : Nat) (s : State) : Out :=
  run (.snoopTimeout k slot) <| s.clocked <|
    match s.cohTxns[k]? with
    | some t => if t.waits.contains slot then s.agentDead 1 (some slot) else s
    | none => s

/-- The edge link to a node has failed (R443). -/
def State.cohLinkDown (s : State) (node : Nat) : State :=
  match s.memberSlot node with
  | some k => s.agentDead 2 (some k)
  | none => s

/-- Re-initialisation (R448): every owned line is poisoned, and every entry is discarded. -/
def State.cohClear (s : State) : State :=
  let s := (s.dir.filter fun e => e.owner.isSome).foldl (fun s e => s.cohPoison e.line) s
  { s with dir := [] }.syncDir

/-- The domain comes up (R444): the directory is empty, EPOCH advances. -/
def State.cohUp (s : State) : State := (s.setFld F.COH_DOM_STATUS_STATE cdUP).wrap F.COH_DOM_STATUS_EPOCH

/-- Writes of COH_DOM_CTRL: COLLAPSE only in UP, REINIT only in DOWN. -/
def State.domCtrl (s : State) (collapse reinit : Bool) : State :=
  let s := if collapse then s.agentDead 5 none else s
  if reinit && s.domState = cdDOWN then (s.cohClear).setFld F.COH_DOM_STATUS_STATE cdREINIT else s

/-- COLLAPSE (R444). -/
def execCollapse (src : Source) (s : State) : Out :=
  run (.collapse src) <| s.clocked <| s.gated src .COH_DOM_CTRL 0 fun s => s.domCtrl true false

/-- REINIT (R444, R448). -/
def execReinit (src : Source) (s : State) : Out :=
  run (.reinit src) <| s.clocked <| s.gated src .COH_DOM_CTRL 0 fun s => s.domCtrl false true

/-- REINIT_DONE (R444): the directory is cleared. -/
def execReinitDone (s : State) : Out :=
  .next <| s.clocked <| if s.domState = cdREINIT then s.cohUp else s

/-! ## Commit (R450) -/

/-- The replica pools in force: local offset and length (R376). -/
def State.replPools (s : State) : List (Nat × Nat) :=
  [(s.fld F.SCP_REPL_BASE_E_PAGE * pageBytes % 2 ^ 48, 1024 * s.fld F.SCP_REPL_SLOTS_EAST),
   (s.fld F.SCP_REPL_BASE_W_PAGE * pageBytes % 2 ^ 48, 1024 * s.fld F.SCP_REPL_SLOTS_WEST)]

/-- The windows of the snapshot. -/
def State.snapWindows (s : State) : List (Nat × Nat) :=
  (List.range 16).filterMap fun w =>
    let b := s.snapOf .coh 0 .COH_WIN_BASE w
    if F.COH_WIN_BASE_VALID.get b ≠ 0 then
      some (F.COH_WIN_BASE_PAGE.get b * pageBytes, F.COH_WIN_LEN_PAGES.get (s.snapOf .coh 0 .COH_WIN_LEN w) * pageBytes) else none

/-- The members of the snapshot. -/
def State.snapMembers (s : State) : List Nat :=
  (List.range 16).filterMap fun k =>
    let m := s.snapOf .coh 0 .COH_MEMBER k
    if F.COH_MEMBER_VALID.get m ≠ 0 then some (F.COH_MEMBER_NODE.get m) else none

def distinct : List Nat → Bool
  | [] => true
  | a :: r => !r.contains a && distinct r

/-- No two extents of a list share a byte. -/
def disjoint : List (Nat × Nat) → Bool
  | [] => true
  | a :: r => r.all (fun b => !meets a.1 a.2 b.1 b.2) && disjoint r

/-- The checks of a commit of the group, in the order of their codes. -/
def State.cohCheck (s : State) : Nat :=
  let cfg := s.snapOf .coh 0 .COH_CFG 0
  let homes := s.snapOf .coh 0 .COH_HOMES 0
  let ws := s.snapWindows
  if s.domState = cdUP || s.domState = cdREINIT then 1
  else if !(s.snapMembers.all fun n => decide (0x40 ≤ n) && decide (n ≤ 0xBF)) || !distinct s.snapMembers then 2
  else if !(ws.all fun w => w.2 != 0 && s.residentExtent w.1 w.2 && !s.replPools.any fun q => meets w.1 w.2 q.1 q.2) || !disjoint ws then 3
  else if !homes.getLsbD s.node || (F.COH_CFG_EN.get cfg != 0 && F.COH_CFG_DOMAIN.get cfg == 0) then 4
  else if s.flag F.CNT_CFG_EN && homes.getLsbD (s.fld F.CNT_CFG_PARTNER) then 5
  else 0

/-- A commit of the group. -/
def State.commitCoh (s : State) : State :=
  let s := s.beginCommit .coh 0
  if s.cohCheck ≠ 0 then s.rejectCommit .coh 0 s.cohCheck else s

/-- COH_COMMIT (R450). -/
def execCohCommit (src : Source) (s : State) : Out :=
  run (.cohCommit src) <| s.clocked <| s.gated src .COH_COMMIT 0 State.commitCoh

/-- What an accepted commit does at its safe point (R444). -/
def State.applyCoh (s : State) : State :=
  let s := s.finishCommit .coh 0
  if s.flag F.COH_CFG_EN then (if s.domState = cdDISABLED then ({ s with dir := [] }.syncDir).cohUp else s)
  else if s.domState = cdDOWN then s.cohClear.setFld F.COH_DOM_STATUS_STATE cdDISABLED
  else s

/-! ## Staging sizes (R119 to R122) and memory that fails at run time (R132) -/

/-- The staging region of a half at a size in GiB. -/
def stageAt (h : Half) (n : Nat) : Nat × Nat :=
  match h with
  | .east => (t0Half - n * gib, n * gib)
  | .west => (reserveBase - n * gib, n * gib)

/-- The extents whose role a commit of the staging group changes. -/
def State.stageDelta (s : State) : List (Nat × Nat) :=
  [(Half.east, F.TIER_T0_STAGE_EAST_GIB), (Half.west, F.TIER_T0_STAGE_WEST_GIB)].filterMap fun x =>
    let a := s.fld x.2
    let b := x.2.get (s.snapOf .stage 0 .TIER_T0_STAGE 0)
    if a = b then none else some ((stageAt x.1 (max a b)).1, (max a b - min a b) * gib)

/-- What a commit of the staging group may not change the role of (R121). -/
def State.roleUsers (s : State) : List (Nat × Nat) :=
  let tables := (List.range 129).flatMap fun c => ((s.ctx c).table.map rngOf).filterMap fun r =>
    if r.valid && r.mode == modeDirect && r.target * pageBytes / 2 ^ 48 == s.node then some (r.target * pageBytes % 2 ^ 48, r.len * pageBytes) else none
  let pools := (List.range 129).map fun c => (s.fld F.XLT_POOL_BASE_PAGE c * pageBytes % 2 ^ 48, s.fld F.XLT_POOL_PAGES_PAGES c * pageBytes)
  let hoff := if s.flag F.CNT_HOFF_BASE_VALID then [(s.fld F.CNT_HOFF_BASE_PAGE * pageBytes, s.fld F.CNT_HOFF_LEN_PAGES * pageBytes)] else []
  let bells := (List.range 2048).filterMap fun k =>
    if s.flag F.HIF_SQ_CTRL_EN k && s.flag F.HIF_SQ_CTRL_DB_MEM k then some ((s.rd .HIF_SQ_DBADDR k).toNat % 2 ^ 48 / 8 * 8, 8) else none
  tables ++ pools ++ s.replPools ++ s.cohWindows ++ hoff ++ bells

/-- The checks of a commit of the staging group. -/
def State.stageCheck (s : State) : Nat :=
  let v := s.snapOf .stage 0 .TIER_T0_STAGE 0
  let out := fun (n : Nat) => decide (n < 4) || decide (64 < n)
  if out (F.TIER_T0_STAGE_EAST_GIB.get v) || out (F.TIER_T0_STAGE_WEST_GIB.get v) then 1
  else if (List.range 64).any (fun n => s.pstate n != pgEMPTY) ||
    s.stageDelta.any (fun d => s.roleUsers.any fun u => meets d.1 d.2 u.1 u.2) then 2
  else 0

/-- A commit of the staging group. -/
def State.commitStage (s : State) : State :=
  let s := s.beginCommit .stage 0
  if s.stageCheck ≠ 0 then s.rejectCommit .stage 0 s.stageCheck else s

/-- STAGE_COMMIT (R121). -/
def execStageCommit (src : Source) (s : State) : Out :=
  run (.stageCommit src) <| s.clocked <| s.gated src .TIER_T0_COMMIT 0 State.commitStage

/-- What an accepted commit does at its safe point: offsets that change role have undefined content (R122). -/
def State.applyStage (s : State) : State :=
  let d := s.stageDelta
  (d.foldl (fun s x => s.undefine x.1 x.2) (s.finishCommit .stage 0)).syncFree

/-- MEM_RUNTIME_FAIL (R132, R133): a stack (0 to 7) or channel (0x10 on) enters FAILED; a half that loses a stack loses its
staging region. -/
def execMemRuntimeFail (dev : Nat) (s : State) : Out :=
  run (.memRuntimeFail dev) <| s.clocked <|
    let f : Fld := if dev < 16 then ⟨.TIER_T0_STATUS, 2 * dev, 2⟩ else ⟨.TIER_T1_STATUS, 2 * (dev - 16), 2⟩
    if s.fld f == 2 then s
    else
      let h := if dev < 16 then ofHalfNum (dev / 4) else ofHalfNum ((dev - 16) / 8)
      let s := (s.setFld f 2).record { cls := ecTIER, event := 3, inst := dev, op := 0, half := some h }
      if dev < 16 && !s.stageGone h then s.withdrawStage h else s

end Sys2Proof.Machine
end

