-- ==== Sys2Proof/Machine/Life.lean ====
section
/-!
DEFINITION. Calendar time and the life log (18_boot_identity_life.md R843, R847 to R851).
-/

namespace Sys2Proof.Machine

/-- Calendar time in ns since 1970; 0 where it has not been restored (R843). -/
def State.utcNs (s : State) : Nat :=
  if s.flag F.BOOT_TIME_STATUS_RESTORED then (s.time + s.fld F.BOOT_UTC_OFFSET_VALUE) % 2 ^ 64 else 0

/-! ## Entries of the life log (R847) -/

def lifeKey (idx sub : Nat) : Nat := idx * 256 + sub

def State.lifeGet (s : State) (idx sub : Nat) : Nat := sget 0 s.life (lifeKey idx sub)

def State.lifeSet (s : State) (idx sub v : Nat) : State := { s with life := sput 0 (lifeKey idx sub) (v % 2 ^ 64) s.life }

/-- LIFE_POWER_ON_S follows its entry. -/
def State.syncLife (s : State) : State := s.setFld F.LIFE_POWER_ON_S_COUNT (s.lifeGet 0x5000 1)

/-- The retired set, entries 0x5074. -/
def State.lifeRetired (s : State) : List Nat :=
  (List.range 256).filter fun a => (s.lifeGet 0x5074 (a / 64 + 1)).testBit (a % 64)

/-- An array joins the retired set (R682). -/
def State.lifeRetire (s : State) (a : Nat) : State :=
  s.lifeSet 0x5074 (a / 64 + 1) (s.lifeGet 0x5074 (a / 64 + 1) ||| 2 ^ (a % 64))

/-! ## Snapshots (R850, R851) -/

/-- Subindices of the life log (R847): the counters of an index. -/
def lifeSubs (idx : Nat) : Nat :=
  if idx = 0x5000 then 9
  else if idx = 0x5001 then 6
  else if 0x5010 ≤ idx && idx ≤ 0x5017 then 32
  else if 0x5020 ≤ idx && idx ≤ 0x505F then 20
  else if idx = 0x5060 then 96
  else if idx = 0x5061 then 16
  else if idx = 0x5062 then 8
  else if 0x5070 ≤ idx && idx ≤ 0x5073 then 64
  else if idx = 0x5074 then 4
  else if idx = 0x5080 then 18
  else 0

/-- A U64 entry of the life log: MANUFACTURE comes from the factory block. -/
def State.lifeEntry (s : State) (idx sub : Nat) : Nat := if (idx, sub) = (0x5080, 1) then Config.manufacture else s.lifeGet idx sub

/-- The 16 KiB of a snapshot (R850): header, the entries in index and subindex order, zero fill, and the CRC-32C. -/
def State.snapBytes (s : State) (seq : Nat) : List Byte :=
  let entries := (List.range 0x81).flatMap fun i => (List.range (lifeSubs (0x5000 + i))).flatMap fun k => leBytes 8 (s.lifeEntry (0x5000 + i) (k + 1))
  let body := slice ((List.range 64).map (Config.snapHeader 0x4C46 seq entries.length s.utcNs) ++ entries) 0 16380
  body ++ leBytes 4 (crc32c body)

/-- A snapshot begins, in the next slot of the ring, whose 64 KiB sector is erased first where the slot is the first of it; one asked for
while another is being written follows it. -/
def State.beginSnap (s : State) : State :=
  if s.snaps.busy.isSome then { s with snaps := { s.snaps with again := true } }
  else
    let t := (s.lifeSet 0x5000 5 (s.lifeGet 0x5000 5 + 1)).lifeSet 0x5000 6 (s.utcNs / 1000000)
    let snap : Snap := ⟨(s.snaps.saved.elim 0 fun p => p.seq + 1) % 2 ^ 32, t.life, s.snaps.service⟩
    let s : State := { s with snaps := { s.snaps with busy := some snap, again := false } }
    let at_ := 0xF00000 + 0x4000 * s.snaps.slot
    let s := s.setFlag F.LIFE_STATUS_PERSIST_BUSY true
    (s.when (s.snaps.slot % 4 == 0) fun s => s.emit (.note "flash sector erase" [at_])).emit (.flashWrite at_ (t.snapBytes snap.seq))

/-- A snapshot has been written, or its write has failed (R851); the next one goes to the next slot. -/
def State.endSnap (s : State) (ok : Bool) : State :=
  match s.snaps.busy with
  | none => s
  | some b =>
    let x : LifeSt := { s.snaps with busy := none, slot := (s.snaps.slot + 1) % 32 }
    let s := ({ s with snaps := x } : State).setFlag F.LIFE_STATUS_PERSIST_BUSY false
    let s := s.setFlag F.LIFE_STATUS_LAST_FAIL !ok
    let s :=
      if ok then
        let s : State := { s with snaps := { s.snaps with saved := some b } }
        ((s.lifeSet 0x5000 5 (sget 0 b.life (lifeKey 0x5000 5))).lifeSet 0x5000 6 (sget 0 b.life (lifeKey 0x5000 6))).setFld
          F.LIFE_STATUS_AGE_S 0
      else s.record { cls := ecLIFE, event := 1 }
    if s.snaps.again then s.beginSnap else s

/-- The counters are restored from the newest valid snapshot (R851), and the retired arrays retired again (R682). -/
def State.restoreLife (s : State) : State :=
  let s : State := { s with life := s.snaps.saved.elim [] (·.life), snaps := { s.snaps with busy := none, again := false, service := s.snaps.saved.elim 0 (·.service) } }
  let s := s.setFlag F.LIFE_STATUS_EMPTY s.snaps.saved.isNone
  let s := s.lifeRetired.foldl (fun s a =>
    (({ s with retired := ninsert a s.retired } : State).setFld F.DA_ARR_STATUS_STATE 5 a).setBit .ERR_RETIRED (a / 64) (a % 64) true) s
  s.syncLife

/-- LIFE_SNAPSHOT_TIMER (R850): 600 s of device time have passed. -/
def execLifeSnapshotTimer (s : State) : Out := .next <| s.clocked <| s.beginSnap

/-- PERSIST_NOW (R850). -/
def execPersistNow (src : Source) (s : State) : Out :=
  run (.persistNow src) <| s.clocked <| s.gated src .LIFE_CTRL 0 State.beginSnap

/-- A write of LIFE_SERVICE_ADD (R847, R850): a service record, the oldest overwritten, and a snapshot. -/
def State.addService (s : State) (v : Word) : State :=
  let k := s.snaps.service
  let s := s.lifeSet 0x5080 (3 + k) (v.toNat / 65536 * 65536)
  ({ s with snaps := { s.snaps with service := (k + 1) % 16 } } : State).beginSnap

/-- LIFE_SERVICE_ADD (R850). -/
def execLifeServiceAdd (src : Source) (v : Word) (s : State) : Out :=
  run (.lifeServiceAdd src v) <| s.clocked <| s.gated src .LIFE_SERVICE_ADD 0 fun s => s.addService v

end Sys2Proof.Machine
end

