-- ==== Sys2Proof/Machine/Drive.lean ====
section
/-!
DEFINITION. The NVMe drives of tier 2 (03_tiers_and_tiles.md R134 to R142): the states of R141 and the health poll.
-/

namespace Sys2Proof.Machine

/-- Set a drive's state; TIER_T2_STATUS holds a copy (R166). -/
def State.setDrive (s : State) (d st : Nat) : State :=
  let s := s.setFld F.TIER_N_STATE_STATE st d
  let s := s.setFld ⟨.TIER_T2_STATUS, 4 * d, 4⟩ st
  s.setFld F.TIER_N_STATE_IOQ (if st = dvREADY then 16 else 0) d

def State.drive (s : State) (d : Nat) : Nat := s.fld F.TIER_N_STATE_STATE d

/-- A drive enters FAILED: a record with unit class TIER (R141). -/
def State.failDrive (s : State) (d : Nat) : State :=
  (s.setDrive d dvFAILED).record { cls := ecTIER, event := 4, inst := d, half := some (driveHalf d) }

/-- Every outstanding command of a drive completes with T2_ERROR (R141). -/
def State.failOutstanding (s : State) (d : Nat) : State := (s.chansOn d).foldl (fun s ch => s.t2Failed ch) s

/-- Initialisation begins: the controller is identified and the number of queues asked for (R135, R141). -/
def State.initDrive (s : State) (d : Nat) : State :=
  (s.emit (.driveCmd d "Identify" [])).emit (.driveCmd d "Set Features: Number of Queues" [15, 15])

/-- The 16 I/O queue pairs are created, completion queue first, each of depth 256 (R134, R135, R137). -/
def State.createQueues (s : State) (d : Nat) : State :=
  s.each 16 fun s k => (s.emit (.driveCmd d "Create I/O Completion Queue" [k + 1, 256])).emit (.driveCmd d "Create I/O Submission Queue" [k + 1, 256])

/-- The checks of R134: what the drive answered, and the link it has. -/
def State.driveOk (s : State) (d pairs : Nat) (i : DriveId) : Bool :=
  decide (0x20000 ≤ i.version) && i.nvm && i.lbaBytes == 4096 && i.metadata == 0 && decide (16 ≤ pairs) && decide (256 ≤ i.depth) &&
    [4, 8].contains (s.fld F.TIER_N_STATE_LINK_WIDTH d) && [4, 5, 6].contains (s.fld F.TIER_N_STATE_LINK_GEN d)

/-- A drive enters service (R141); a TIER_N_CTRL.OFFLINE that is 1 already does not take it out again: only setting it does (DESIGN CHOICE,
assumption log 61). -/
def State.driveReady (s : State) (d : Nat) (i : DriveId) : State :=
  ((s.createQueues d).setDrive d dvREADY).setFld F.TIER_N_CAPACITY_LBAS i.lbas d

/-- DRIVE_LINK_UP (R141): a port link comes up with a drive present; initialisation begins. -/
def execDriveLinkUp (d width gen : Nat) (s : State) : Out :=
  run (.driveLinkUp d width gen) <| s.clocked <|
    if s.drive d = dvABSENT then
      let s := (s.setDrive d dvINIT).setFld F.TIER_N_STATE_LINK_WIDTH width d
      (s.setFld F.TIER_N_STATE_LINK_GEN gen d).initDrive d
    else s

/-- DRIVE_INIT_DONE (R134, R141): initialisation completes with the I/O queue pairs that the drive granted and what it answered, none where
a command of it failed; the drive enters READY if every check of R134 passes. -/
def execDriveInitDone (d pairs : Nat) (id : Option DriveId) (s : State) : Out :=
  run (.driveInitDone d pairs id) <| s.clocked <|
    if s.drive d = dvINIT then
      (match id with
       | some i => if s.driveOk d pairs i then s.driveReady d i else s.failDrive d
       | none => s.failDrive d)
    else s

/-- DRIVE_INIT_TIMEOUT (R141): initialisation exceeds 5 s. -/
def execDriveInitTimeout (d : Nat) (s : State) : Out :=
  run (.driveInitTimeout d) <| s.clocked <| if s.drive d = dvINIT then s.failDrive d else s

/-- NVME_COMMAND_TIMEOUT (R141): a command exceeds 2 s; the drive's controller is reset and every outstanding command
completes with T2_ERROR. -/
def execNvmeCommandTimeout (d : Nat) (s : State) : Out :=
  run (.nvmeCommandTimeout d) <| s.clocked <|
    if s.drive d = dvREADY then
      let s := (s.bump F.TIER_T2_TIMEOUT_CNT_COUNT).emit (.driveCmd d "clear CC.EN" [])
      ((s.setDrive d dvRECOVER).failOutstanding d).initDrive d
    else s

/-- One hour of device time. -/
def hourNs : Nat := 3600 * 1000000000

/-- DRIVE_RECOVER_DONE (R141): re-initialisation passes within 5 s and the drive returns to READY, unless this is the
third recovery within 1 h; or it fails. A recovery is dated when it ends, and one that failed counts too (DESIGN CHOICE, assumption log 61). -/
def execDriveRecoverDone (d : Nat) (id : Option (Nat × DriveId)) (s : State) : Out :=
  run (.driveRecoverDone d id) <| s.clocked <|
    if s.drive d = dvRECOVER then
      let recent := (s.drv d).recoveries.filter fun t => decide (s.time < t + hourNs)
      let s := { s with drvs := sput {} d { s.drv d with recoveries := recent ++ [s.time] } s.drvs }
      match id with
      | some (n, i) => if s.driveOk d n i && decide (recent.length < 2) then s.driveReady d i else s.failDrive d
      | none => s.failDrive d
    else s

/-- Take a drive out of service: new moves are refused (R142), outstanding commands finish, then comes the normal shutdown
notification. -/
def State.driveOffline (s : State) (d : Nat) : State :=
  let u := s.setFlag F.TIER_N_CTRL_OFFLINE true d
  if s.drive d = dvREADY then
    ({ u.setDrive d dvOFFLINE with drvs := sput {} d { u.drv d with closing := true } u.drvs } : State).closeDrive d
  else u

/-- Return a drive to service. -/
def State.driveOnline (s : State) (d : Nat) : State :=
  let u := s.setFlag F.TIER_N_CTRL_OFFLINE false d
  if s.drive d = dvOFFLINE then (({ u with drvs := sput {} d { u.drv d with closing := false } u.drvs } : State).setDrive d dvINIT).initDrive d
  else u

/-- Reset a FAILED drive; ignored in other states. -/
def State.driveReset (s : State) (d : Nat) : State :=
  if s.drive d = dvFAILED then ((s.setDrive d dvINIT).emit (.driveCmd d "controller reset" [])).initDrive d else s

/-- What a write of TIER_N_CTRL does (R141, R167). -/
def State.writeDriveCtrl (s : State) (d : Nat) (v : Word) : State :=
  let off := F.TIER_N_CTRL_OFFLINE.get v != 0
  let s := if off && !s.flag F.TIER_N_CTRL_OFFLINE d then s.driveOffline d
    else if !off && s.flag F.TIER_N_CTRL_OFFLINE d then s.driveOnline d else s
  if F.TIER_N_CTRL_RESET.get v != 0 then s.driveReset d else s

/-- DRIVE_OFFLINE (R141): TIER_N_CTRL.OFFLINE set to 1. -/
def execDriveOffline (src : Source) (d : Nat) (s : State) : Out :=
  run (.driveOffline src d) <| s.clocked <| s.gated src .TIER_N_CTRL d fun s => s.driveOffline d

/-- DRIVE_ONLINE (R141): TIER_N_CTRL.OFFLINE set to 0. -/
def execDriveOnline (src : Source) (d : Nat) (s : State) : Out :=
  run (.driveOnline src d) <| s.clocked <| s.gated src .TIER_N_CTRL d fun s => s.driveOnline d

/-- DRIVE_RESET (R141): TIER_N_CTRL.RESET written 1. -/
def execDriveReset (src : Source) (d : Nat) (s : State) : Out :=
  run (.driveReset src d) <| s.clocked <| s.gated src .TIER_N_CTRL d fun s => s.driveReset d

/-- DRIVE_SURPRISE_DOWN (R141): outstanding commands complete with T2_ERROR and the drive is ABSENT, with a record. -/
def execDriveSurpriseDown (d : Nat) (s : State) : Out :=
  run (.driveSurpriseDown d) <| s.clocked <|
    let s := (s.failOutstanding d).setDrive d dvABSENT
    let s : State := { s with drvs := sput {} d { s.drv d with closing := false } s.drvs }
    let s := (s.setFld F.TIER_N_STATE_LINK_WIDTH 0 d).setFld F.TIER_N_STATE_LINK_GEN 0 d
    s.record { cls := ecTIER, event := 5, inst := d, half := some (driveHalf d) }

/-- SMART_POLL (R138): the health log of a READY drive is read into TIER_N_HEALTH. -/
def execSmartPoll (d warn used temp : Nat) (s : State) : Out :=
  run (.smartPoll d warn used temp) <| s.clocked <|
    if s.drive d = dvREADY then
      let s := s.emit (.driveCmd d "Get Log Page: SMART / Health Information" [2])
      let s := s.setFld F.TIER_N_HEALTH_CRIT_WARN warn d
      let s := s.setFld F.TIER_N_HEALTH_PCT_USED (min used 255) d
      (s.setFld F.TIER_N_HEALTH_TEMP_K temp d).lifeSet 0x5062 (d + 1)
        (min used 255 * 2 ^ 56 + warn % 256 * 2 ^ 48 + s.time / 1000000000 % 2 ^ 48)
    else s

end Sys2Proof.Machine
end

