-- ==== Sys2Proof/Machine/Taster.lean ====
section
/-!
DEFINITION. The Taster (14_integrity.md R678 to R688): slots on arrays of the pool, retests of charged arrays, and full
sweeps. Which of the compared results differ is an operand of the command that ends a slot.
-/

namespace Sys2Proof.Machine

/-- Cycles of one slot on one array (R683). -/
def testCycles : Nat := 2048

/-- Array-cycles of a half that tests have used in the last second (R686). -/
def State.tstCharged (s : State) (h : Nat) : Nat :=
  (s.tstUsed.filter fun g => decide (s.time < g.1 + 1000000000) && g.2.1 == h).foldl (fun a g => a + g.2.2) 0

/-- Would `cycles` more stay inside the budget of R686. -/
def State.tstBudgetOk (s : State) (h cycles : Nat) : Bool :=
  decide ((s.tstCharged h + cycles) * 1024 ≤ s.fld F.TST_CTRL_BUDGET * 128 * 1000000000)

/-- Arrays of a half in POOL, ascending. -/
def State.poolOf (s : State) (h : Nat) : List Nat := (List.range 256).filter fun a => a / 128 == h && s.astate a == arPOOL

/-- The reference array: the next in POOL after a in ascending number, wrapping (R684). -/
def State.refFor (s : State) (a : Nat) : Option Nat :=
  let l := (s.poolOf (a / 128)).filter (· ≠ a)
  match l.find? fun x => decide (a < x) with
  | some x => some x
  | none => l.head?

/-- Take one slot on array a: the array and its reference go into TEST; a retest has 16 items (R681). -/
def State.takeSlot (s : State) (a opclass : Nat) (retest : Bool) : State :=
  match s.refFor a with
  | none => s
  | some r =>
    let cyc := 2 * testCycles * (if retest then 16 else 1)
    if !s.tstBudgetOk (a / 128) cyc || !s.dutyOk (a / 128) cyc then s
    else
      let s := s.setArr a { s.arr a with job := .test, test := some ⟨r, opclass, retest⟩ }
      let s := s.setArr r { s.arr r with job := .test }
      { (s.setAstate a arTEST).setAstate r arTEST with
        tstUsed := (s.time, a / 128, cyc) :: s.tstUsed.filter fun g => decide (s.time < g.1 + 1000000000) }

/-- Retests that may run now: the array is in POOL and the current envelope is that of its detection (R680). -/
def State.dueRetests (s : State) (h : Nat) : List (Nat × Nat) :=
  (s.poolOf h).filterMap fun a => match (s.arr a).retest with
    | some (e, _) => if s.envelope (ofHalfNum h) (e % 4) = e then some (a, e % 4) else none
    | none => none

/-- The key of OPCLASS with the current TBAND and VBAND in an array's counts. -/
def State.bandKey (s : State) (h opclass : Nat) : Nat := s.envelope (ofHalfNum h) 0 / 16 * 4 + opclass

def ArrSt.timesTested (x : ArrSt) (key : Nat) : Nat := ((x.tested.find? fun e => e.1 == key).map (·.2)).getD 0

/-- The array whose last slot is oldest, and the OPCLASS tested least often on it (R684). -/
def State.nextTest (s : State) (h : Nat) : Option (Nat × Nat) :=
  match s.poolOf h with
  | [] => none
  | a :: rest =>
    let a := rest.foldl (fun b c => if (s.arr c).lastSlot < (s.arr b).lastSlot then c else b) a
    let n := fun c => (s.arr a).timesTested (s.bandKey h c)
    some (a, [1, 2, 3].foldl (fun b c => if n c < n b then c else b) 0)

/-- The retests of a half that are due (R680, R681), whatever TST_CTRL.EN and PER_BOUNDARY say. -/
def State.takeRetests (s : State) (h : Nat) : State :=
  (s.dueRetests h).foldl (fun s x => if s.astate x.1 = arPOOL then s.takeSlot x.1 x.2 true else s) s

/-- Up to k slots of a half (R683). -/
def State.takePlain (s : State) (h : Nat) : Nat → State
  | 0 => s
  | k + 1 =>
    if !s.flag F.TST_CTRL_EN then s
    else match s.nextTest h with
      | some (a, c) => (s.takeSlot a c false).takePlain h k
      | none => s

/-- The slots of a half: retests go before the others (R681). -/
def State.takeSlots (s : State) (h k : Nat) : State := (s.takeRetests h).takePlain h k

/-- The slots of a layer boundary of a RUNNING program (R683). -/
def State.boundarySlots (s : State) : State :=
  (s.takeSlots 0 (s.fld F.TST_CTRL_PER_BOUNDARY)).takeSlots 1 (s.fld F.TST_CTRL_PER_BOUNDARY)

/-- TASTER_IDLE_SLOT (R683): with no program RUNNING, each Taster takes one slot. -/
def execTasterIdleSlot (s : State) : Out :=
  .next <| s.clocked <|
    if s.progs.any fun e => s.pstate e.1 == pgRUNNING then s else (s.takeSlots 0 1).takeSlots 1 1

/-- A slot is over: both arrays leave TEST; counts, and when and what was tested. -/
def State.endSlot (s : State) (a : Nat) (t : TestSt) : State :=
  let cyc := 2 * testCycles * (if t.retest then 16 else 1)
  let key := s.bandKey (a / 128) t.opclass
  let x := s.arr a
  let s := s.setArr a { x with lastSlot := s.time, tested := (key, x.timesTested key + 1) :: x.tested.filter fun e => e.1 ≠ key }
  ((s.releaseArray a).releaseArray t.ref |>.wrap F.TST_SLOTS_COUNT).wrap F.TST_CYCLES_COUNT 0 cyc

/-- The arrays that arbitration of a mismatch charges: `res` 1 where a third array equals the reference, 2 where it
equals the tested array, 3 where it equals neither (R673). -/
def slotCharged (a : Nat) (t : TestSt) (res : Nat) : List Nat :=
  if res = 1 then [a] else if res = 2 then [t.ref] else if res = 3 then [a, t.ref] else []

/-- A mismatch in a slot: one record for each array charged (R677, R685). -/
def State.slotMismatch (s : State) (t : TestSt) (l : List Nat) : State :=
  if l.isEmpty then s
  else
    let s := (s.bump F.TST_MISMATCH_COUNT).bump F.ERR_ARB_CNT_COUNT
    l.foldl (fun s x => (s.bump F.ERR_DETECT_CNT_COUNT).record
      { cls := ecTST, event := 1, inst := x, op := 0xA, half := some (ofHalfNum (x / 128)), opclass := t.opclass }) s

def State.envNow (s : State) (a opclass : Nat) : Nat := s.envelope (ofHalfNum (a / 128)) opclass

/-- TASTER_SLOT_DONE (R685): the results are compared; a mismatch is arbitrated and the charged arrays are tracked. -/
def execTasterSlotDone (a res : Nat) (s : State) : Out :=
  run (.tasterSlotDone a res) <| s.clocked <|
    match (s.arr a).test with
    | some t =>
      if t.retest then s
      else
        let l := slotCharged a t res
        let env := s.envNow a t.opclass
        let s := (s.endSlot a t).slotMismatch t l
        l.foldl (fun s x => s.chargeDetect x env) s
    | none => s

/-- Device time of 24 h. -/
def dayNs : Nat := 86400000000000

/-- Enter one unconfirmed retest in E's record, of which an array keeps 8 (R679). -/
def ArrSt.enterRetest (x : ArrSt) (e now : Nat) : ArrSt :=
  let old := ((x.envs.find? fun r => r.1 == e).map (·.2)).getD []
  let l := now :: old.filter fun t => decide (now < t + dayNs)
  let rest := x.envs.filter fun r => r.1 ≠ e
  let rest := if rest.length < 8 then rest
    else
      let last := fun (r : Nat × List Nat) => r.2.headD 0
      let m := rest.foldl (fun b r => min b (last r)) now
      match rest.find? fun r => last r == m with
      | some r => rest.erase r
      | none => rest
  { x with envs := (e, l) :: rest }

/-- A retest that passes (R680): unconfirmed; the third within 24 h retires the array, otherwise the array is CLEAR and
the next held detection is tracked. -/
def State.passRetest (s : State) (a e : Nat) : State :=
  let s := (s.bump F.TST_RETEST_CNT_UNCONFIRMED).record
    { cls := ecTST, event := 3, inst := a, op := 0xA, half := some (ofHalfNum (a / 128)) }
  let x := { (s.arr a).enterRetest e s.time with retest := none }
  let s := s.setArr a x
  if 3 ≤ ((x.envs.find? fun r => r.1 == e).map (·.2.length)).getD 0 then (s.retireArray a).syncRetests
  else match x.held with
    | [] => s.syncRetests
    | h :: rest => (s.setArr a { x with held := rest }).track a h |>.syncRetests

/-- RETEST_SLOT_DONE (R680): a mismatch charged to the array confirms; otherwise the retest passes. -/
def execRetestSlotDone (a res : Nat) (s : State) : Out :=
  run (.retestSlotDone a res) <| s.clocked <|
    match (s.arr a).test, (s.arr a).retest with
    | some t, some (e, _) =>
      if !t.retest then s
      else
        let l := slotCharged a t res
        let env := s.envNow a t.opclass
        let s := (s.endSlot a t).slotMismatch t l
        let s := (l.filter (· ≠ a)).foldl (fun s x => s.chargeDetect x env) s
        if l.contains a then (s.chargeArray a).confirmRetest a else s.passRetest a e
    | _, _ => s

/-- RETEST_TIMEOUT (R680): 1 s after the detection no retest slot has run; it counts as one that passes. -/
def execRetestTimeout (a : Nat) (s : State) : Out :=
  run (.retestTimeout a) <| s.clocked <|
    match (s.arr a).retest with
    | some (e, _) => if (s.arr a).test.any (·.retest) then s else s.passRetest a e
    | none => s

/-! ## Full sweeps (R687) -/

def sweepFld (h : Nat) : Fld := if h = 0 then F.TST_STATUS_SWEEP_E else F.TST_STATUS_SWEEP_W

/-- Begin a sweep of some arrays: they go into TEST. -/
def State.beginSweep (s : State) (h : Nat) (array : Option Nat) (l : List Nat) : State :=
  let s := l.foldl (fun s a => (s.setArr a { s.arr a with job := .test }).setAstate a arTEST) s
  let s := if array.isNone then s.setFld (sweepFld h) 1 else s
  { s with sweeps := s.sweeps ++ [({ half := h, array := array, arrays := l } : SweepSt)] }.setFld F.TST_STATUS_STAGE 0

/-- Sweep every array of a half that is in POOL, unless that half's sweep runs. -/
def State.sweepHalf (s : State) (h : Nat) : State :=
  if s.sweeps.any fun w => w.half == h && w.array.isNone then s else s.beginSweep h none (s.poolOf h)

/-- RESTORE (R319): DA_ARR_CTRL.RESTORE written 1 sweeps a SLOW array; ignored in other states. -/
def execRestore (src : Source) (a : Nat) (s : State) : Out :=
  run (.restore src a) <| s.clocked <| s.gated src .DA_ARR_CTRL a fun s =>
    if s.astate a = arSLOW then s.beginSweep (a / 128) (some a) [a] else s

/-- A write of TST_SWEEP_CTRL (R687): refused while any program is RUNNING or STALLED (R688). -/
def State.writeSweep (s : State) (v : Word) : State × Nat :=
  if s.progs.any fun e => s.live e.1 then (s, stState)
  else
    let s := s.when (F.TST_SWEEP_CTRL_HALF_E.get v != 0) fun s => s.sweepHalf 0
    (s.when (F.TST_SWEEP_CTRL_HALF_W.get v != 0) fun s => s.sweepHalf 1, stOK)

/-- SWEEP (R687). -/
def execSweep (src : Source) (v : Word) (s : State) : Out :=
  run (.sweep src v) <| s.clocked <| s.guarded src .TST_SWEEP_CTRL 0 fun s => s.writeSweep v

/-- A sweep is over: its arrays leave TEST, the array of a RESTORE retires where the sweep failed (R319), and the result
is recorded. -/
def State.endSweep (s : State) (w : SweepSt) : State :=
  let s := w.arrays.foldl (fun s a => if s.astate a = arTEST then s.releaseArray a else s) s
  let s := match w.array with
    | some a => if w.failed then s.retireArray a else s
    | none => s.setFld (sweepFld w.half) (if w.failed then 3 else 2)
  s.record { cls := ecTST, event := if w.failed then 5 else 4, inst := w.array.getD 0xFFFF, op := 0xA,
             half := some (ofHalfNum w.half) }

/-- What a stage of a sweep counts: its 30 s on each array under sweep, and the slots of 2,048 cycles that its duty gives, each of which
occupies two arrays (assumption log 70). -/
def State.sweepCounts (s : State) (w : SweepSt) : State :=
  let cyc := w.arrays.length * 30000000000
  let duty := if w.stage = 0 then 20 else if w.stage = 1 then 50 else 100
  (s.wrap F.TST_CYCLES_COUNT 0 cyc).wrap F.TST_SLOTS_COUNT 0 (cyc * duty / 100 / (2 * testCycles))

/-- SWEEP_STAGE_END (R687): a stage of 30 s ends with detections charged to some of the arrays; the next stage starts, or
the sweep reports. -/
def execSweepStageEnd (k : Nat) (charged : List Nat) (s : State) : Out :=
  run (.sweepStageEnd k charged) <| s.clocked <|
    match s.sweeps[k]? with
    | none => s
    | some w =>
      let l := charged.filter w.arrays.contains
      let s := s.sweepCounts w
      let s := l.foldl (fun s a =>
        ((((s.bump F.ERR_DETECT_CNT_COUNT).bump F.TST_MISMATCH_COUNT).bump F.ERR_ARB_CNT_COUNT).record
          { cls := ecTST, event := 1, inst := a, op := 0xA, half := some (ofHalfNum (a / 128)) }).chargeDetect a (s.envNow a 0)) s
      let w := { w with failed := w.failed || !l.isEmpty, stage := w.stage + 1 }
      if w.stage < 3 then { s with sweeps := s.sweeps.set k w }.setFld F.TST_STATUS_STAGE w.stage
      else ({ s with sweeps := s.sweeps.eraseIdx k }.setFld F.TST_STATUS_STAGE 0).endSweep w

end Sys2Proof.Machine
end

