-- ==== Sys2Proof/Machine/Mirror.lean ====
section
/-!
DEFINITION. The mirror of the primary (15_continuity.md R703 to R713): copies and pushes of key/value state to the
partner, and the commit of each step.
-/

namespace Sys2Proof.Machine

/-! ## States of CNT_STATE.STATE (R702) -/

def csOFF : Nat := 0
def csPAIRING : Nat := 1
def csPAIRED : Nat := 2
def csSERVING : Nat := 3
def csRETURNING : Nat := 4
def csALONE : Nat := 5

def State.cntState (s : State) : Nat := s.fld F.CNT_STATE_STATE

def State.partner (s : State) : Nat := s.fld F.CNT_CFG_PARTNER

/-- The program is mirrored: it was accepted at LOAD, its region lies in the partner's mirror region (R705), and the
controller is PAIRED. -/
def State.mirrors (s : State) (n : Nat) : Bool :=
  let p := s.prog n
  s.cntState == csPAIRED && p.mir.cfg.any fun c =>
    let r := mirRegion c p.maxSeqs
    decide (gib ≤ r.1) && decide (r.1 + r.2 ≤ s.partnerSize * gib)

/-- Slot size S. -/
def ProgSt.mirSlot (p : ProgSt) : Nat := F.CNT_PROG_MIR_SLOT_MIB.get (p.mir.cfg.getD 0) * 1048576

/-- The offset at the partner of a byte of the program's region. -/
def State.mirOff (s : State) (n o : Nat) : Nat :=
  let p := s.prog n
  s.partnerBase * gib + (mirRegion (p.mir.cfg.getD 0) p.maxSeqs).1 + o

/-- The clients of a program's mirror writes: the pushes of a step, the bank and header, and the copy of a slot. -/
def mirPush (n step : Nat) : ReqClient := .mirror (n + 64 * (step % 2))
def mirBank (n : Nat) : ReqClient := .mirror (n + 128)
def mirCopy (n slot : Nat) : ReqClient := .mirror (n + 256 + 64 * slot)

/-- The program of a mirror client. -/
def mirProg (k : Nat) : Nat := k % 64

/-- A write to the partner's mirror region: partition tag 0xFF and TC 6 (R711). -/
def State.mirWrite (s : State) (c : ReqClient) (off : Nat) (d : List Byte) (poison : Bool) : State :=
  (split4k (d.length / 4096 + 2) off d).foldl (fun s x =>
    (s.request c { op := opWR, dst := s.partner, src := 0, part := 0xFF, tc := 6, off := x.1, len := x.2.length,
                   data := x.2, poison := poison }).wrap F.CNT_MIRROR_BYTES_COUNT 0 x.2.length) s

/-- Push the whole 64 B lines that an extent of a slot's KV area touches to the slot of the mirror (R706). -/
def State.pushLines (s : State) (c : ReqClient) (n : Nat) (e : SeqSt) (va len : Nat) (env : Env) : State :=
  let p := s.prog n
  (linesOf va len).foldl (fun s l =>
    let r := s.readVA p.ctx (64 * l) 64 env
    (s.noteVA .east p.ctx (64 * l) 64).mirWrite c (s.mirOff n (0x40000 + e.slot * p.mirSlot + (64 * l - e.kvBase))) (slice r.data 0 64) (r.err || r.bad)) s

/-- The attention phases of a program. -/
def ProgSt.attns (p : ProgSt) : List (List Byte) := (p.layers.flatMap (·.phases)).filter fun d => phOp d == phATTN

/-- The KV tiles that hold positions 0 to pos − 1 of a sequence (R301). -/
def ProgSt.kvTiles (p : ProgSt) (base pos : Nat) : List (Nat × Nat) :=
  p.attns.flatMap fun d =>
    let tpt := 2 ^ leAt d 9 1
    let z := kvSizes (leAt d 8 1) (leAt d 6 2) tpt
    (List.range (leAt d 5 1)).flatMap fun h => (List.range ((pos + tpt - 1) / tpt)).flatMap fun t =>
      let va := kvAddr d base h t
      [(va, 256 + z.1 + z.2.1), (va + z.2.2, 256 + z.1 + z.2.1)]

/-- The KV area of a sequence at MAX_POS fits in its slot (R709). -/
def ProgSt.kvFits (p : ProgSt) (e : SeqSt) : Bool :=
  (p.kvTiles 0 e.maxPos).all fun x => decide (roundUp (x.1 + x.2) 64 ≤ p.mirSlot)

/-- The channels that copy some slots of a program are free again. -/
def State.freeCopies (s : State) (n : Nat) (f : Nat → Bool) : State :=
  (s.chans.filter fun e => e.2.phase = .copy && e.2.desc.cookie % 64 == n && f (e.2.desc.cookie / 64)).foldl (fun s e =>
    (s.setChan e.1 {}).endAccess (slotMover e.1)) s

/-- Copy every sequence that is not yet mirrored and may be, each with a tile mover channel outside PRF_CH_MASK (R708); one that finds no
free channel waits. -/
def State.startCopies (s : State) (n : Nat) (env : Env) : State :=
  if !s.mirrors n then s
  else
    let p := s.prog n
    let new := p.seqs.filter fun e => !p.mir.copying.contains e.slot && !p.mir.copied.contains e.slot && p.kvFits e
    new.foldl (fun s e =>
      match (List.range 64).find? (s.chanFree .none) with
      | none => s
      | some ch =>
        let s := s.setChan ch { phase := .copy, ctx := 128, desc := { cookie := n + 64 * e.slot } }
        let s := (p.kvTiles e.kvBase e.pos).foldl (fun s x => s.pushLines (mirCopy n e.slot) n e x.1 x.2 env) s
        let q := s.prog n
        s.setProg n { q with mir := { q.mir with copying := q.mir.copying ++ [e.slot] } }) s

/-- CNT_MIRRORED follows the last commit (R709). -/
def State.syncMirrored (s : State) (n : Nat) : State :=
  let p := s.prog n
  s.setBit .CNT_MIRRORED 0 n (s.mirrors n && p.mir.committed.any fun l => p.seqs.all fun e => l.contains e.slot)

/-- The pushes of a layer boundary (R706); the lines of the layer are forgotten. -/
def State.pushLayer (s : State) (n : Nat) (env : Env) : State :=
  let p := s.prog n
  let s := if !s.mirrors n then s
    else p.written.foldl (fun s w =>
      match p.seqs.find? fun e => e.slot == w.1 && (p.mir.copying.contains e.slot || p.mir.copied.contains e.slot) with
      | some e => s.pushLines (mirPush n (s.curStep n)) n e w.2.1 w.2.2 env
      | none => s) s
  s.setProg n { s.prog n with written := [] }

/-- A step has ended: its commit is to follow, with the sequences that were active through it and stay (R707, R708). -/
def State.queueCommit (s : State) (n step : Nat) (before : List Nat) : State :=
  let p := s.prog n
  let gone := fun (l : List Nat) => l.filter fun k => p.seqs.any fun e => e.slot == k
  let m := { p.mir with copying := gone p.mir.copying, copied := gone p.mir.copied }
  let s := s.freeCopies n fun k => !m.copying.contains k
  let m := if s.mirrors n then { m with steps := m.steps ++ [(step, p.seqs.filter fun e => before.contains e.slot)] } else m
  (s.setProg n { p with mir := m }).syncMirrored n

/-- A sequence slot that a new sequence took over is copied again. -/
def State.forgetSlot (s : State) (n slot : Nat) : State :=
  let s := s.freeCopies n (· == slot)
  let p := s.prog n
  s.setProg n { p with mir := { p.mir with copying := p.mir.copying.filter (· ≠ slot), copied := p.mir.copied.filter (· ≠ slot) } }

/-- Is the program to park at this boundary because the step before the ended one is not committed (R710). -/
def State.mirLate (s : State) (n : Nat) : Bool := s.mirrors n && decide (2 ≤ (s.prog n).mir.steps.length)

/-- A mirror-wait park ends. -/
def State.mirRelease (s : State) (n : Nat) : State :=
  if s.bit .CNT_MIRROR_WAIT 0 n then
    let s := s.setBit .CNT_MIRROR_WAIT 0 n false
    if (s.prog n).started then s.runProg n else s
  else s

/-- CNT_PROG_TAKEN: own programs taken over by the partner (R713), and the partner's programs served here (R721). -/
def State.syncTaken (s : State) : State :=
  s.each 64 fun s n => s.setBit .CNT_PROG_TAKEN 0 n (s.takenOwn.contains n || s.served.any fun v => v.prog == n)

/-- A push or commit was answered with an error (R713): ADDR parks the program and marks it taken; with another status the
commit is not performed. -/
def State.mirFailed (s : State) (n status : Nat) : State :=
  let p := s.prog n
  let s := s.setProg n { p with mir := { p.mir with bad := true } }
  if status = psADDR && s.pstate n ≠ pgEMPTY then
    let s : State := { s with takenOwn := ninsert n s.takenOwn }
    let s := s.syncTaken
    if s.live n then s.setPstate n pgPARKED else s
  else s

/-- Have the writes of a client been performed. -/
def State.mirDone (s : State) (n : Nat) (c : ReqClient) : Bool := !s.awaits c && !(s.prog n).mir.bad

/-- SEQUENCE_COPY_DONE (R708): the copy of a sequence has been performed. -/
def execSequenceCopyDone (n slot : Nat) (s : State) : Out :=
  run (.sequenceCopyDone n slot) <| s.clocked <|
    let p := s.prog n
    if p.mir.copying.contains slot && s.mirrors n && s.mirDone n (mirCopy n slot) then
      (s.setProg n { p with mir := { p.mir with copying := p.mir.copying.filter (· ≠ slot), copied := slot :: p.mir.copied } }).freeCopies n (· == slot)
    else s

/-- The 64 bytes of a sequence entry (R289). -/
def SeqSt.bytes (e : SeqSt) : List Byte :=
  leBytes 1 0 ++ leBytes 1 e.adapter ++ leBytes 1 e.topK ++ leBytes 1 0 ++ leBytes 4 e.key ++ leBytes 4 e.pos ++ leBytes 4 e.maxPos ++
  leBytes 8 e.kvBase ++ leBytes 8 e.seed ++ leBytes 4 e.invTemp ++ leBytes 4 e.topP ++ leBytes 4 e.last ++ leBytes 4 e.stop ++
  leBytes 16 0

/-- MIRROR_PUSH_DONE (R707): every push of the oldest uncommitted step is performed; its entries go into the bank. -/
def execMirrorPushDone (n : Nat) (s : State) : Out :=
  run (.mirrorPushDone n) <| s.clocked <|
    let p := s.prog n
    match p.mir.steps with
    | (step, es) :: rest =>
      if p.mir.stage = 0 && s.mirrors n && s.mirDone n (mirPush n step) then
        let es := es.filter fun e => p.mir.copied.contains e.slot
        let s := es.foldl (fun s e => s.mirWrite (mirBank n) (s.mirOff n (0x1000 + step % 2 * 0x10000 + 64 * e.slot)) e.bytes false) s
        s.setProg n { s.prog n with mir := { p.mir with stage := 1, steps := (step, es) :: rest } }
      else s
    | [] => s

/-- The bits of a set of slots as bytes, slot 0 in bit 0 of the first. -/
def slotMap (l : List Nat) : List Byte :=
  (List.range 128).map fun k => BitVec.ofNat 8 ((List.range 8).foldl (fun a j => if l.contains (8 * k + j) then a + 2 ^ j else a) 0)

/-- The region header of a committed step (R704). -/
def mirHeader (n part step : Nat) (frozen : Bool) (slots : List Nat) : List Byte :=
  let b := leBytes 2 0xC0A7 ++ leBytes 1 1 ++ leBytes 1 (step % 2) ++ leBytes 1 (if frozen then 1 else 0) ++ leBytes 1 n ++
    leBytes 1 part ++ leBytes 1 0 ++ leBytes 8 step ++ slotMap slots ++ List.replicate 108 0#8
  b ++ leBytes 4 (crc32c b)

/-- MIRROR_BANK_WRITTEN (R707): the bank is performed and the header follows. -/
def execMirrorBankWritten (n : Nat) (s : State) : Out :=
  run (.mirrorBankWritten n) <| s.clocked <|
    let p := s.prog n
    match p.mir.steps with
    | (step, es) :: _ =>
      if p.mir.stage = 1 && s.mirrors n && s.mirDone n (mirBank n) then
        let s := s.mirWrite (mirBank n) (s.mirOff n 0) (mirHeader n p.part step false (es.map (·.slot))) false
        s.setProg n { s.prog n with mir := { p.mir with stage := 2 } }
      else s
    | [] => s

/-- MIRROR_COMMITTED (R707, R710): the header is performed, which commits the step. -/
def execMirrorCommitted (n : Nat) (s : State) : Out :=
  run (.mirrorCommitted n) <| s.clocked <|
    let p := s.prog n
    match p.mir.steps with
    | (_, es) :: rest =>
      if p.mir.stage = 2 && s.mirrors n && s.mirDone n (mirBank n) then
        ((s.setProg n { p with mir := { p.mir with stage := 0, steps := rest, committed := some (es.map (·.slot)) } }).syncMirrored n).mirRelease n
      else s
    | [] => s

/-! ## Freezing a shadow program (R723) -/

/-- The virtual address of the region of the partner's program n, in the shadow program's partition. -/
def State.shadowVA (s : State) (n : Nat) : Nat := s.fld F.CNT_SHADOW_VA n * 65536

/-- The step of a parked shadow program is committed with FROZEN set, under the original KV_BASE of each sequence. -/
def State.freeze (s : State) (v : Served) : State :=
  let p := s.prog v.loc
  let base := s.shadowVA v.prog
  let old := (s.readVA p.ctx base 256 []).data
  let s := s.noteVA .east p.ctx base 256
  let step := s.curStep v.loc - 1
  let es := p.seqs.filterMap fun e => (v.slots.find? fun x => x.1 == e.slot).map fun x => ({ e with kvBase := x.2 } : SeqSt)
  let s := es.foldl (fun s e => (s.writeVA p.ctx (base + 0x1000 + step % 2 * 0x10000 + 64 * e.slot) e.bytes).1) s
  let s := (s.writeVA p.ctx base (mirHeader v.prog (leAt old 6 1) step true (es.map (·.slot)))).1
  { s with served := s.served.map fun w => if w.prog = v.prog then { w with frozen := true } else w }

/-- A program has parked: every handback asked of it is frozen. -/
def State.freezeParked (s : State) (n : Nat) : State :=
  (s.served.filter fun v => v.loc == n && v.back && !v.frozen).foldl State.freeze s

/-- The controller leaves PAIRED: nothing is pushed any more, and the programs run unprotected (R702). -/
def State.stopMirrors (s : State) : State :=
  (List.range 64).foldl (fun s n =>
    let p := s.prog n
    let s := (s.setProg n { p with mir := { cfg := p.mir.cfg } }).freeCopies n fun _ => true
    (s.setBit .CNT_MIRRORED 0 n false).mirRelease n) s

end Sys2Proof.Machine
end

