-- ==== Sys2Proof/Machine/Cursor.lean ====
section
/-!
DEFINITION. The cursor (04_layer_cursor.md R171 to R176, R203 to R216; 06_decode_arrays.md R287 to R294): the end of a
phase, the layer boundary, the step boundary with its token records, and speculative routing.
-/

namespace Sys2Proof.Machine

/-! ## The end of a phase (R171) -/

/-- Everything issued for the program's phase has completed and its results are written. -/
def State.phaseDone (s : State) (n : Nat) : Bool :=
  let p := s.prog n
  s.live n && p.begun && p.embeds.isEmpty && p.pendW.isEmpty && p.pendK.isEmpty &&
  (p.items.all fun it => it.closed && p.converted.contains it.group) &&
  !(s.arrs.any fun x => match x.2.job with | .write m _ => m == n | _ => false) && !s.reqs.any fun r => match r.client with | .outs m _ _ => m == n | _ => false

/-- Entries of a layer for some experts. -/
def State.expertNums (s : State) (n l : Nat) (es : List Nat) : List Nat :=
  s.entryNums n l fun e => e.expert.any es.contains

/-- The routing phase of a layer has completed: selected experts that are neither present nor in flight are issued, and
the speculation is counted (R205). -/
def State.routed (s : State) (n : Nat) : State :=
  let p := s.prog n
  let l := s.curLayer n
  let sel := s.selected n
  let pred := (p.predicted.filter fun x => x.1 == l).map (·.2)
  let s := s.wrap F.PRF_SPEC_HIT_COUNT n (sel.filter pred.contains).length
  let s := s.wrap F.PRF_SPEC_MISS_TILES_COUNT n (sel.filter fun e => !pred.contains e).length
  let wrong := (s.expertNums n l (pred.filter fun e => !sel.contains e)).flatMap fun k => (s.tilesFor n l k).map (·.len)
  let s := s.wrap F.PRF_SPEC_WASTE_COUNT n (wrong.foldl (· + ·) 0)
  let s := s.setProg n { s.prog n with spec := p.spec.filter (· ≠ l) }
  ((s.expertNums n l sel).filter fun k => (s.tilesFor n l k).isEmpty).foldl (fun s k => s.issueEntry n l k (s.curStep n)) s

/-- A phase is over: its items and its bookkeeping are forgotten. -/
def State.clearPhase (s : State) (n : Nat) : State :=
  s.setProg n { s.prog n with begun := false, items := [], converted := [], residues := [] }

/-- Start the EMBED phases that may start (R206, R296). -/
def State.beginEmbeds (s : State) (env : Env) : State :=
  s.livePrograms.foldl (fun s n =>
    if (s.prog n).begun || phOp (s.curDesc n) ≠ phEMBED || !(s.waitCauses n).isEmpty then s
    else s.startEmbed n (s.curDesc n) env) s

/-! ## The layer boundary (R173) -/

/-- The routing phase of a layer. -/
def State.routePhase (s : State) (n l : Nat) : Option (List Byte) :=
  (((s.prog n).layers[l]?).getD {}).phases.find? fun d => phOp d == phROUTE

/-- The entry numbers of the router's tiles of a layer. -/
def State.routerNums (s : State) (n l : Nat) : List Nat :=
  ((s.routePhase n l).map fun d => (List.range (leAt d 0xA 2)).flatMap fun c =>
    s.entryNums n l fun e => e.slot == leAt d 8 2 + c).getD []

/-- The router's tiles of a layer are present. -/
def State.routerPresent (s : State) (n l : Nat) : Bool :=
  (s.routePhase n l).isSome && (s.routerNums n l).all fun k => s.entryPresent n l k

/-- The cursor leaves layer l: its mirror lines are pushed (R706), the references of its entries without KEEP for this step are dropped
(R195, R205), and speculation for the next layer is skipped where that layer's router tiles are not present (R204). -/
def State.leaveLayer (s : State) (n l : Nat) (env : Env) : State :=
  let s := s.pushLayer n env
  let step := s.curStep n
  let s := s.dropRefs fun r => r.prog == n && r.layer == l && r.step == some step
  let p := s.prog n
  s.setProg n { p with predicted := p.predicted.filter (fun x => x.1 ≠ l),
                       spec := p.spec.filter fun k => k ≠ l && s.routerPresent n k }

/-! ## The step boundary (R174, R287 to R294) -/

/-- A sequence after its step: the token is at the next position; a stop token or the last position ends it. -/
def SeqSt.finishStep (e : SeqSt) : SeqSt :=
  let status :=
    if e.status ≠ 0 then e.status
    else if e.token = e.stop && e.stop ≠ 0xFFFFFFFF then rcSTOP
    else if e.maxPos ≤ e.pos + 1 then rcMAXPOS
    else 0
  { e with status := status, pos := e.pos + 1,
           last := if e.token = 0xFFFFFFFF then e.last else e.token }

/-- The token record of a sequence (R291). -/
def tokenRecord (e : SeqSt) (step : Nat) : List Byte :=
  leBytes 4 e.key ++ leBytes 2 e.slot ++ leBytes 1 e.status ++ leBytes 1 (e.numstat % 16) ++ leBytes 4 e.token ++
  leBytes 4 e.pos ++ leBytes 8 step ++ leBytes 8 0

/-- The records of the step go to the token ring, or wait for room (R291, R294). -/
def State.stepRecords (s : State) (n : Nat) (recs : List (List Byte)) : State :=
  if recs.isEmpty then s
  else
    let r := s.writeTokens n recs
    if r.2 then r.1
    else { r.1 with ringWait := sput [] n recs r.1.ringWait }.setFlag F.DA_PROG_STATUS_RING_WAIT true n

/-- Sequences change (R287, R288, R292): ended ones leave, pending admissions and removals take effect, lanes are
assigned. -/
def State.reseat (s : State) (n : Nat) : State :=
  let p := s.prog n
  let stay := (p.seqs.filter fun e => e.status == 0).map fun (e : SeqSt) => { e with token := 0xFFFFFFFF, numstat := 0 }
  let s := s.setProg n { (p.pend.foldl ProgSt.apply { p with seqs := stay }).assignLanes with pend := [] }
  (p.pend.foldl (fun s c => if c.2.isSome then s.forgetSlot n c.1 else s) s).syncProg n

/-- What the schedule does at a step boundary: PARK and TURN (R178, R279), a wait for ring room (R294) or for the mirror
(R710) park the program; otherwise the triggers of its new position fire. -/
def State.afterStep (s : State) (n : Nat) : State :=
  let p := s.prog n
  let f := F.PRF_PROG_CFG_FOLLOWER.get p.cfg
  let s := if s.mirLate n then s.setBit .CNT_MIRROR_WAIT 0 n true else s
  if p.parkReq || p.turn then
    let s := (s.setPstate n pgPARKED).setProg n { s.prog n with started := false, parkReq := false }
    let s := if p.parkReq then s.freezeParked n else s
    if p.turn && !(p.parkReq && f == n) && s.pstate f = pgPARKED then s.startProg f else s
  else if s.parkHeld n then s.setPstate n pgPARKED
  else s.fireTriggers n

/-- The cursor leaves the last layer of a step (R174, R176). -/
def State.endStep (s : State) (n : Nat) (env : Env) : State :=
  let step := s.curStep n
  if 2 ^ 40 ≤ step + 1 then s.haltProg n hcSTEP_LIMIT
  else
    let p := s.prog n
    let before := p.seqs.map (·.slot)
    let s := s.setProg n { p with seqs := p.seqs.map SeqSt.finishStep }
    let s := ((s.leaveLayer n (s.curLayer n) env).setCursor n (step + 1) 0 0).boundarySlots
    let s := s.stepRecords n ((s.prog n).seqs.map fun e => tokenRecord e (step + 1))
    if s.pstate n = pgHALTED then s
    else
      let s := (s.reseat n).queueCommit n step before
      let q := s.prog n
      let s := s.setProg n { q with sel := [], cfg := s.rd .PRF_PROG_CFG n, fired := q.fired.filter (fun x => step < x.1) }
      (s.afterStep n).startCopies n env

/-- The cursor advances (R172 to R174). -/
def State.advance (s : State) (n : Nat) (env : Env) : State :=
  let p := s.prog n
  let l := s.curLayer n
  let ph := s.curPhase n
  let s := if phOp (s.curDesc n) = phROUTE then s.routed n else s
  let s := s.clearPhase n
  let s :=
    if ph + 1 < ((p.layers[l]?).map (·.phases.length)).getD 0 then s.setCursor n (s.curStep n) l (ph + 1)
    else if l + 1 < p.layers.length then (((s.leaveLayer n l env).setCursor n (s.curStep n) (l + 1) 0).boundarySlots).fireTriggers n
    else s.endStep n env
  (s.fireMatch n).evalProg n

/-- PHASE_COMPLETE (R171): the last results of a program's phase are written and the cursor advances. -/
def execPhaseComplete (n : Nat) (env : Env) (s : State) : Out :=
  run (.phaseComplete n env) <| s.clocked <|
    if s.phaseDone n && s.mayIssue n then ((s.advance n env).beginPhases env).beginEmbeds env else s

/-! ## Speculative routing (R203 to R205) -/

/-- The experts that speculative routing takes for one sequence: the first `m` of a ranking of the `count` experts, where experts that the
guess does not name follow in ascending order. Which experts rank first is the guess, which changes no result (assumption log 63). -/
def specTake (guess : List Nat) (m count : Nat) : List Nat :=
  (((guess ++ List.range count).filter fun e => decide (e < count)).eraseDups).take m

/-- The array-cycles of speculative routing: the tiles of the router, for every lane group. -/
def State.specCycles (s : State) (n l : Nat) : Nat :=
  let p := s.prog n
  let ty := ((s.routePhase n l).map fun d => buType (leAt d 0x10 8)).getD 0
  let tiles := (s.routerNums n l).filterMap fun k => (s.tilesFor n l k).head?
  (p.lanes.length + 63) / 64 * (tiles.map fun t => tileCycles (hdrOf (s.mem.bytes t.off 256)) ty).foldl (· + ·) 0

/-- SPEC_ROUTING_DONE (R203, R204): speculative routing of the next layer, run within the program's array share, has guessed experts for
each sequence of the batch; the tiles of their union are issued. -/
def execSpecRoutingDone (n : Nat) (guess : List (List Nat)) (s : State) : Out :=
  run (.specRoutingDone n guess) <| s.clocked <|
    let p := s.prog n
    match p.spec with
    | [] => s
    | l :: rest =>
      let cyc := s.specCycles n l
      match [0, 1].find? fun h => s.arrayFree p.part h cyc with
      | none => s
      | some h =>
        if !s.live n || !s.mayIssue n || !s.routerPresent n l then s
        else
          let d := (s.routePhase n l).getD []
          let take := leAt d 6 1 + F.PRF_PROG_CFG_SPEC_EXTRA.get p.cfg
          let es := ((List.range p.lanes.length).flatMap fun b => specTake ((guess[b]?).getD []) take (leAt d 4 2)).eraseDups
          let s := (s.setProg n { p with spec := rest, predicted := p.predicted ++ es.map fun e => (l, e) }).daCharge p.part h cyc
          (s.expertNums n l es).foldl (fun s k => s.issueEntry n l k (s.curStep n)) s

end Sys2Proof.Machine
end

