-- ==== Sys2Proof/Machine/Codeword.lean ====
section
/-!
DEFINITION. Codewords (10_yalig_links.md R467 to R469, 12_tile_streams_host.md R573): FLITs are packed into the message bits of
RS(544,514) codewords, whose symbols are dealt onto the lanes in use, with an alignment marker ahead of each group of 128.
-/

namespace Sys2Proof.Machine

/-! ## RS(544,514) over 10-bit symbols (R454) -/

/-- Multiplication in GF(2^10) with the polynomial x^10 + x^3 + 1 of IEEE 802.3 (PRESUMED, assumption log 64); `k` bounds the bits. -/
def gfMul : Nat → Nat → Nat → Nat
  | 0, _, _ => 0
  | k + 1, a, b =>
    let a2 := if a < 512 then 2 * a else (2 * a) ^^^ 0x409
    (if b % 2 = 1 then a else 0) ^^^ gfMul k a2 (b / 2)

/-- α^n. -/
def gfPow : Nat → Nat
  | 0 => 1
  | n + 1 => gfMul 10 (gfPow n) 2

/-- A polynomial, lowest coefficient first, times x − r. -/
def gfTimes (p : List Nat) (r : Nat) : List Nat :=
  List.zipWith (fun a b => a ^^^ gfMul 10 b r) (0 :: p) (p ++ [0])

/-- The generator polynomial with roots α^0 to α^29, without its leading coefficient, lowest coefficient first. -/
def rsGenerator : List Nat := ((List.range 30).foldl (fun p k => gfTimes p (gfPow k)) [1]).take 30

/-- The 30 check symbols of a message, in the order in which they are sent behind it. -/
def rsCheck (gen msg : List Nat) : List Nat :=
  (msg.foldl (fun reg m =>
    let fb := m ^^^ reg.getLastD 0
    List.zipWith (fun a g => a ^^^ gfMul 10 fb g) (0 :: reg.dropLast) gen) (List.replicate 30 0)).reverse

/-- The 544 symbols of the codeword of 5,140 message bits, lowest bits first. -/
def rsCodeword (bits_ : Nat) : List Nat :=
  let msg := (List.range 514).map fun k => bits bits_ (10 * k) 10
  msg ++ rsCheck rsGenerator msg

/-- Symbol i goes on lane i mod n of the n lanes in use (R467, R573). -/
def dealLanes (lanes : List Nat) (cw : List Nat) : List (Nat × List Nat) :=
  let n := max 1 lanes.length
  (List.range lanes.length).map fun j =>
    (lanes.getD j 0, (List.range cw.length).filterMap fun i => if i % n = j then cw[i]? else none)

/-! ## The stream of a link -/

/-- The transmit lanes in use of a link, or of port l − 96; a link that has not negotiated yet trains on all of them. -/
def State.txLanes (s : State) (l : Nat) : List Nat :=
  let all := if l < 96 then [0, 1] else [0, 1, 2, 3]
  let used := all.filter fun k =>
    if l < 96 then s.flag (if k = 0 then F.YL_LINK_STATUS_TX_L0 else F.YL_LINK_STATUS_TX_L1) l
    else (s.fld F.TSP_PORT_STATUS_TX_LANES (l - 96)).testBit k
  if used.isEmpty then all else used

/-- A stream begins with a group of phase 0, whose first message bit is the first bit of a FLIT (R468, R469, R493). -/
def State.startStream (s : State) (l : Nat) : State := s.setLink l { s.link l with fecBits := 0, fecLen := 0, fecCw := 0 }

/-- A FLIT goes into the message bits of the codewords (R469). A codeword that is full is sent, behind the marker of its group if it is
the group's first (R467, R468). -/
def State.putFlit (s : State) (l : Nat) (b : List Byte) : State :=
  let x := s.link l
  let v := x.fecBits + leNat (slice b 0 256) * 2 ^ x.fecLen
  let n := x.fecLen + 2048
  let s := s.emit (.flit l b)
  if n < 5140 then s.setLink l { x with fecBits := v, fecLen := n }
  else
    let lanes := s.txLanes l
    let s := s.setLink l { x with fecBits := v / 2 ^ 5140, fecLen := n - 5140, fecCw := (x.fecCw + 1) % 512 }
    let s := s.when (x.fecCw % 128 == 0) fun s => s.emit (.marker l lanes (x.fecCw / 128))
    s.emit (.codeword l (dealLanes lanes (rsCodeword (v % 2 ^ 5140))))

end Sys2Proof.Machine
end

