-- ==== Sys2Proof/Machine/Tables.lean ====
section
/-!
DEFINITION. Range-table commits, fault queue events and the start of migration commands (02_address_translation.md
R75 to R107). Resume, replay and the end of migration commands are in Resume.lean.
-/

namespace Sys2Proof.Machine

/-- TBL_COMMIT (R75 to R77): copy a context's table into its inactive shadow and check it. A rejected commit reports the
code and the first failing entry; an accepted one waits for its activation (R80). -/
def State.tblCommit (s : State) (c : Nat) (env : Env) : State :=
  let s := s.beginCommit .xlt c
  match s.checkTable c env with
  | (0, _, es) => s.setCtx c { s.ctx c with next := some es }
  | (code, k, _) => (s.rejectCommit .xlt c code).setFld F.XLT_TBL_STATUS_FAIL_INDEX k c

def execTblCommit (src : Source) (c : Nat) (env : Env) (s : State) : Out :=
  run (.tblCommit src c env) <| s.clocked <| s.gated src .XLT_TBL_COMMIT c fun s => s.tblCommit c env

/-- The pool pages a table maps, each with its virtual page and its host IOVA page. -/
def poolMap (t : List (BitVec 256)) (pp : Nat) : Option (Nat × Nat) :=
  (t.map rngOf).findSome? fun r =>
    if r.valid && r.mode == modeMigrate && inExt r.poolOff r.len pp then
      some (r.va + (pp - r.poolOff), r.target + (pp - r.poolOff)) else none

/-- The slots of tile mover channels and Scoop engines whose access of a context has passed its check and is in progress. -/
def State.inAccess (s : State) (c : Nat) : List Nat :=
  ((s.chans.filter fun e => e.2.ctx == c && decide (e.2.phase ≠ MovePhase.idle) && decide (e.2.phase ≠ MovePhase.faulted)).map
    fun e => slotMover e.1) ++
  ((s.scoops.filter fun e => (e.2.head?).any fun q => q.ctx == c && q.issued && decide ((s.eng (slotScoop e.1)).st = .run)).map
    fun e => slotScoop e.1)

/-- The epoch of a context ends: its accesses in progress keep their translation (R78). -/
def State.retireEpoch (s : State) (c : Nat) : State :=
  let l := (s.inAccess c).filter fun k => (s.oldEpoch k c).isNone
  { s with oldEpochs := ⟨c, (s.ctx c).table, s.rd .XLT_POOL_BASE c, l⟩ :: s.oldEpochs }

/-- The checked table becomes active (R75, R78, R81, R85): members take their snapshot values, the epoch increments, a pool
page keeps its residency only where both tables map it alike and the pool did not move; accesses in progress complete under
the old table. -/
def State.tblActivate (s : State) (c : Nat) : State :=
  let x := s.ctx c
  match x.next with
  | none => s
  | some t =>
    if (match x.migs with | m :: _ => m.started | [] => false) then s
    else
      let moved := s.snapOf .xlt c .XLT_POOL_BASE c ≠ s.rd .XLT_POOL_BASE c ||
        s.snapOf .xlt c .XLT_POOL_PAGES c ≠ s.rd .XLT_POOL_PAGES c
      let keep := fun pp => !moved && (poolMap t pp).isSome && poolMap t pp == poolMap x.table pp
      let s := ((s.retireEpoch c).dropLook c).finishCommit .xlt c
      let s := (s.wrap F.XLT_TBL_STATUS_EPOCH c).setFlag F.XLT_TBL_STATUS_OLD_DRAINED false c
      s.setCtx c { x with table := t, next := none, lost := false, resident := x.resident.filter keep }

/-- TBL_ACTIVATE (R80): once migration commands in progress have completed. -/
def execTblActivate (c : Nat) (s : State) : Out := run (.tblActivate c) (s.clocked (s.tblActivate c))

/-- OLD_EPOCH_DRAINED (R78): no access translated under an old epoch is in progress. -/
def execOldEpochDrained (c : Nat) (s : State) : Out :=
  run (.oldEpochDrained c) <| s.clocked <|
    let busy := s.inAccess c
    if s.oldEpochs.any fun e => e.ctx == c && e.slots.any busy.contains then s
    else { s with oldEpochs := s.oldEpochs.filter fun e => e.ctx ≠ c }.setFlag F.XLT_TBL_STATUS_OLD_DRAINED true c

/-- FAULT_RECORD_VISIBLE (R102): the oldest record write of a queue lands, and VEC_FAULT is raised unless it was raised
since the last write of FLTQ_HEAD. -/
def execFaultRecordVisible (c : Nat) (s : State) : Out :=
  run (.faultRecordVisible c) <| s.clocked <|
    let q := s.fltq c
    match q.writes with
    | [] => s
    | _ :: rest =>
      let s := s.setFltq c { writes := rest, raised := true }
      if q.raised || c == 128 then s else s.raiseVec c (s.fld F.FLTQ_CTRL_VEC_FAULT c)

/-- FAULT_RECORD_WRITE_FAIL (R107): the oldest record write fails: WR_ERR, EN cleared, FLTQ_TAIL back at its slot, and
the faults of it and of every later write unqueued again with their age, TAG and GEN. -/
def execFaultRecordWriteFail (c : Nat) (s : State) : Out :=
  run (.faultRecordWriteFail c) <| s.clocked <|
    let q := s.fltq c
    match q.writes with
    | [] => s
    | (_, back) :: _ =>
      let s := (s.setFlag F.FLTQ_STATUS_WR_ERR true c).setFlag F.FLTQ_CTRL_EN false c
      let s := (s.setFltTail c back).setFltq c { q with writes := [] }
      let s := q.writes.foldl (fun s k =>
        let e := s.eng k.1
        if e.st = .queued && e.flt.ctx == c && e.index == k.2 then (s.setEng k.1 { e with st := .unqueued }).countUnqueued c else s) s
      s.record { cls := ecXLT, event := 2, inst := c, part := ctxPart c, op := 2 }

/-- DEFERRED_FAULT_RECORD (R105): with a free slot and EN set, the oldest unqueued fault is recorded. -/
def execDeferredFaultRecord (c : Nat) (s : State) : Out :=
  run (.deferredFaultRecord c) <| s.clocked <|
    if s.fltEn c && !s.fltFull c then
      (match s.oldestUnqueued c with
       | some k => (s.uncountUnqueued c).queueFault k
       | none => s)
    else s

/-- A write of FLTQ_HEAD (R101, R102): it frees slots and rearms the vector; one that passes FLTQ_TAIL or moves backward
is ignored and sets HEAD_ERR. -/
def State.writeFltHead (s : State) (p v : Nat) : State :=
  let v := v % 2048
  let h := s.fltHead p
  if (v + 2048 - h) % 2048 ≤ (s.fltTail p + 2048 - h) % 2048 then
    (s.setFld F.FLTQ_HEAD_INDEX v p).setFltq p { s.fltq p with raised := false }
  else s.setFlag F.FLTQ_STATUS_HEAD_ERR true p

/-- FLTQ_HEAD_WRITE (R101). -/
def execFltqHeadWrite (src : Source) (p v : Nat) (s : State) : Out :=
  run (.fltqHeadWrite src p v) <| s.clocked <| s.gated src .FLTQ_HEAD p fun s => s.writeFltHead p v

/-! ## Migration commands (R86 to R91) -/

def mgNone : Nat := 0
def mgBADPAGE : Nat := 1
def mgHOST_READ : Nat := 2
def mgHOST_WRITE : Nat := 3
def mgFULL : Nat := 4
def mgPOOL : Nat := 5
def mgPARTITION_RESET : Nat := 6

/-- QUEUED of XLT_MIG_STATUS follows the queue. -/
def State.syncMigs (s : State) (c : Nat) : State := s.setFld F.XLT_MIG_STATUS_QUEUED (s.ctx c).migs.length c

/-- What a write of XLT_MIG_GO does (R86, R91): queue a command from XLT_MIG_VA, or drop it with FULL. -/
def State.migGo (s : State) (c : Nat) (v : Word) : State :=
  let x := s.ctx c
  if 16 ≤ x.migs.length then s.setFld F.XLT_MIG_STATUS_LAST_ERR mgFULL c
  else
    let m : MigCmd :=
      { toHost := F.XLT_MIG_GO_DIR.get v != 0, vaPage := s.fld F.XLT_MIG_VA_VA_PAGE c,
        count := F.XLT_MIG_GO_COUNT_M1.get v + 1, inv := F.XLT_MIG_GO_INV.get v != 0,
        resume := F.XLT_MIG_GO_RESUME_EN.get v != 0, tag := F.XLT_MIG_GO_TAG.get v }
    (s.setCtx c { x with migs := x.migs ++ [m] }).syncMigs c

/-- MIG_GO (R86, R91). -/
def execMigGo (src : Source) (p : Nat) (v : Word) (s : State) : Out :=
  run (.migGo src p v) <| s.clocked <| s.gated src .XLT_MIG_GO p fun s => s.migGo p v

/-- Every page a command names lies in a HOST_MIGRATE range of the active table (R86); the pool pages, each with its
host IOVA. -/
def State.migPages (s : State) (c : Nat) (m : MigCmd) : Option (List (Nat × Nat)) :=
  (List.range m.count).foldr (fun i acc =>
    match acc, (s.ctx c).rangeAt (m.vaPage + i) with
    | some l, some r =>
      if r.mode == modeMigrate then
        some ((r.poolPage (m.vaPage + i), (r.target + (m.vaPage + i - r.va)) * pageBytes) :: l) else none
    | _, _ => none) (some [])

/-- The local offset of a pool page. -/
def State.poolOffset (s : State) (c pp : Nat) : Nat :=
  s.fld F.XLT_POOL_BASE_PAGE c * pageBytes % 2 ^ 48 + pp * pageBytes

/-- A command leaves the head of the queue: DONE_CNT counts it, LAST_ERR tells its error, VEC_MIG is raised. -/
def State.migEnd (s : State) (c err : Nat) : State :=
  let x := s.ctx c
  let s := (s.setCtx c { x with migs := x.migs.drop 1 }).syncMigs c
  let s := s.setFld F.XLT_MIG_STATUS_LAST_ERR err c
  let s := s.wrap F.XLT_MIG_STATUS_DONE_CNT c
  s.raiseVec c (s.fld F.FLTQ_CTRL_VEC_MIG c)

/-- Replace the command at the head of a context's queue. -/
def State.setHeadMig (s : State) (c : Nat) (m : MigCmd) : State :=
  let x := s.ctx c
  s.setCtx c { x with migs := m :: x.migs.drop 1 }

/-- Drop the engine-cache lines of pool pages (R87). -/
def State.invalidatePages (s : State) (c : Nat) (pages : List Nat) : State :=
  pages.foldl (fun s p => s.invalidate (s.node * 2 ^ 48 + s.poolOffset c p) pageBytes) s

/-- A transfer of a command failed (R90): pages moved keep their new residency, a page toward the host that was not
written becomes resident again, and the command completes with the error and a record. -/
def State.migFail (s : State) (c err pp : Nat) : State :=
  match (s.ctx c).migs with
  | [] => s
  | m :: _ =>
    let x := s.ctx c
    let res := if m.toHost then m.busy.foldl (fun l p => ninsert p l) x.resident
      else m.moved.foldl (fun l p => ninsert p l) x.resident
    let s := if m.inv && !m.toHost then s.invalidatePages c m.moved else s
    let s := (s.setCtx c { x with resident := res }).migEnd c err
    s.record { cls := ecXLT, event := if err = mgPOOL then 5 else 1, inst := c, part := ctxPart c,
               op := if err = mgHOST_READ then 1 else 2,
               address := BitVec.ofNat 64 (s.node * 2 ^ 48 + s.poolOffset c pp) }

/-- Read the non-resident pages of a command into their pool pages, in order, until one fails. -/
def State.migRead (s : State) (c : Nat) (env : Env) : List (Nat × Nat) → State
  | [] => s
  | (pp, iova) :: rest =>
    let r := envRead env .host iova pageBytes
    if r.err then s.migFail c mgHOST_READ pp
    else
      let w := s.writeMem (s.poolOffset c pp) r.data r.poison
      if w.2 then
        match (w.1.ctx c).migs with
        | m :: _ => (w.1.setHeadMig c { m with moved := m.moved ++ [pp] }).migRead c env rest
        | [] => w.1
      else w.1.migFail c mgPOOL pp

/-- MIG_TO_HOST (R86, R88): the command at the head of the queue clears the residency bits of its resident pages and
waits for the accesses in flight to drain. While a table waits for its activation no queued command starts (R80). -/
def execMigToHost (c : Nat) (s : State) : Out :=
  run (.migToHost c) <| s.clocked <|
    match (s.ctx c).migs with
    | m :: _ =>
      if !m.toHost || m.started || (s.ctx c).next.isSome then s
      else match s.migPages c m with
        | none => s.migEnd c mgBADPAGE
        | some l =>
          let busy := (l.map (·.1)).filter fun p => (s.ctx c).resident.contains p
          let s := s.setHeadMig c { m with started := true, busy := busy }
          s.setCtx c { s.ctx c with resident := (s.ctx c).resident.filter fun p => !busy.contains p }
    | [] => s

end Sys2Proof.Machine
end

