-- ==== Sys2Proof/Machine/Resume.lean ====
section
/-!
DEFINITION. Resuming engines (02_address_translation.md R108 to R111, R882), and the ends of migration commands
(R87 to R90), which release the accesses they held.
-/

namespace Sys2Proof.Machine

/-- The access an engine holds is presented again (R108, R110). -/
def State.replay (s : State) (slot : Nat) (env : Env) : State :=
  let s := s.freeEngine slot
  match slotEngine slot with
  | (0, a) => s.replayArray a env
  | (1, g) => s.replayScoop g env
  | (2, ch) => if (s.chan ch).phase = .faulted then s.presentMove ch env else s
  | _ => s

/-- The access an engine holds completes with an error (R111, R882): a Taster's slot is abandoned, and a management core's access
returns an error to its firmware. -/
def State.abort (s : State) (slot : Nat) (env : Env) : State :=
  let s := s.freeEngine slot
  match slotEngine slot with
  | (0, a) => s.abortArray a
  | (1, g) => s.abortScoop g env
  | (2, ch) => if (s.chan ch).phase = .faulted then s.finishMove ch tsFaultAbort 0 else s
  | (3, _) => s
  | (_, k) => s.emit (.note "management core access error" [k])

/-- A resume whose TAG is not QUEUED is ignored and counted (R109). -/
def State.resumeTag (s : State) (p tag : Nat) (f : Nat → State) : State :=
  match s.taggedSlot p tag with
  | some slot => f slot
  | none => s.bump F.FLTQ_BAD_RESUME_COUNT p

/-- FLTQ_RESUME_REPLAY (R108): FLTQ_RESUME is written with ACTION 0. -/
def execFltqResumeReplay (src : Source) (p tag : Nat) (env : Env) (s : State) : Out :=
  run (.fltqResumeReplay src p tag env) <| s.clocked <| s.gated src .FLTQ_RESUME p fun s => s.resumeTag p tag fun k => s.replay k env

/-- FLTQ_RESUME_ABORT (R108, R111): FLTQ_RESUME is written with ACTION 1. -/
def execFltqResumeAbort (src : Source) (p tag : Nat) (env : Env) (s : State) : Out :=
  run (.fltqResumeAbort src p tag env) <| s.clocked <| s.gated src .FLTQ_RESUME p fun s => s.resumeTag p tag fun k => s.abort k env

/-- MGMT_FAULT_SERVICE (R882): management firmware consumes the next record of the management context's queue, writes an error
record for it, and resumes its engine with ACTION 1. -/
def execMgmtFaultService (env : Env) (s : State) : Out :=
  .next <| s.clocked <|
    if s.mgmtHead = s.mgmtTail then s
    else
      let b := sget [] s.mgmtRecs (s.mgmtHead % 1024)
      let tag := leAt b 8 2
      let s : State := { s with mgmtHead := (s.mgmtHead + 1) % 2048 }
      let s := s.record { cls := ecXLT, event := 4, inst := tag % 512, part := 0xFF, op := 1, cursor := BitVec.ofNat 64 (leAt b 16 8),
                          address := BitVec.ofNat 64 (leAt b 0 7), aux := bits (leAt b 7 1) 4 3 }
      match s.taggedSlot 128 tag with
      | some slot => s.abort slot env
      | none => s

/-- The accesses of a context that wait for a migration are checked again (R89). -/
def State.releaseWaiting (s : State) (c : Nat) (env : Env) : State :=
  ((s.engs.filter fun e => e.2.st = .waiting && e.2.flt.ctx == c).map (·.1)).foldl (fun s k => s.replay k env) s

/-- MIG_TO_DEVICE (R86, R87): the command at the head of the queue checks its pages and reads the non-resident ones from
their host IOVAs into the pool. -/
def execMigToDevice (c : Nat) (env : Env) (s : State) : Out :=
  run (.migToDevice c env) <| s.clocked <|
    match (s.ctx c).migs with
    | m :: _ =>
      if m.toHost || m.started || (s.ctx c).next.isSome then s
      else match s.migPages c m with
        | none => s.migEnd c mgBADPAGE
        | some l =>
          let todo := l.filter fun p => !(s.ctx c).resident.contains p.1
          ((s.setHeadMig c { m with started := true, busy := todo.map (·.1) }).migRead c env todo).releaseWaiting c env
    | [] => s

/-- Does an extent of a context touch one of some pool pages. -/
def State.touchesPool (s : State) (c va n : Nat) (pages : List Nat) : Bool :=
  (pieces va n).any fun p => (((s.ctx c).rangeAt (p.1 / pageBytes)).any fun r =>
    r.mode == modeMigrate && pages.contains (r.poolPage (p.1 / pageBytes)))

/-- The extents of the access in progress of a Scoop command: source rows, stamps and destination. -/
def ScoopCmd.extents (q : ScoopCmd) : List (Nat × Nat) :=
  (q.parts.flatMap fun p => (p.va, max 1 p.len) :: (p.stamp.map fun v => (v, 8)).toList) ++
    (if q.op = 0x21 then
      ((q.desc.bind fun d => updateRow d q.row).bind (·.stamp)).toList.map fun v => (v, 8)
     else [(q.dst, if q.op = 1 then q.width * tySize q.otype else (q.desc.map tdDelivered).getD 16)])

/-- Accesses that were translated to the pages before their residency bits were cleared and have not completed: moves
under way and rows of Scoop engines (R88). An array's reads and writes are made in one step. -/
def State.poolInUse (s : State) (c : Nat) (pages : List Nat) : Bool :=
  (s.chans.any fun e =>
    let x := e.2
    let end_ := fun (k va : Nat) => k == ekVA && (s.asOf (slotMover e.1) c).touchesPool c va (max 1 x.desc.extent) pages
    x.ctx == c && x.phase ≠ .idle && x.phase ≠ .faulted && (end_ x.desc.srcKind x.desc.src || end_ x.desc.dstKind x.desc.dst)) ||
  (s.scoops.any fun e => e.2.any fun q => q.ctx == c && q.issued &&
    q.extents.any fun x => (s.asOf (slotScoop e.1) c).touchesPool c x.1 x.2 pages)

/-- MIG_DRAIN_DONE (R88): the earlier accesses of the pages have completed; the pages are written to their host IOVAs. -/
def execMigDrainDone (c : Nat) (s : State) : Out :=
  run (.migDrainDone c) <| s.clocked <|
    match (s.ctx c).migs with
    | m :: _ =>
      if !m.toHost || !m.started || !m.moved.isEmpty || s.poolInUse c m.busy then s
      else
        let l := ((s.migPages c m).getD []).filter fun p => m.busy.contains p.1
        let s := l.foldl (fun s p =>
          let o := s.poolOffset c p.1
          let r := s.readMem o pageBytes
          ((s.noteRead o pageBytes).crossIn .east o pageBytes).hostData c p.2 (withImage o r.data r.poison) r.bad) s
        s.setHeadMig c { m with moved := m.busy }
    | [] => s

/-- MIG_TRANSFER_FAIL (R90): after the first `k` pages, a transfer of the running command fails with LAST_ERR `err`. -/
def execMigTransferFail (c err k : Nat) (env : Env) (s : State) : Out :=
  run (.migTransferFail c err k env) <| s.clocked <|
    match (s.ctx c).migs with
    | m :: _ =>
      if !m.started || (err == mgHOST_READ && m.toHost) || (err == mgHOST_WRITE && !m.toHost) || m.busy.length ≤ k then s
      else
        let pp := m.busy.getD k 0
        ((s.setHeadMig c { m with moved := m.busy.take k, busy := if m.toHost then m.busy.drop k else m.busy }).migFail c err pp).releaseWaiting c env
    | [] => s

/-- MIG_COMMAND_DONE (R87, R88, R108): every page of the command is moved; pages toward the device become resident after
an invalidate if INV asks, and the engine that RESUME_EN names is resumed. -/
def execMigCommandDone (c : Nat) (env : Env) (s : State) : Out :=
  run (.migCommandDone c env) <| s.clocked <|
    match (s.ctx c).migs with
    | m :: _ =>
      if !m.started || m.moved ≠ m.busy then s
      else
        let s := if m.inv && !m.toHost then s.invalidatePages c m.busy else s
        let x := s.ctx c
        let s := if m.toHost then s else s.setCtx c { x with resident := m.busy.foldl (fun l p => ninsert p l) x.resident }
        let s := s.migEnd c 0
        let s := if m.resume then s.resumeTag c m.tag fun k => s.replay k env else s
        s.releaseWaiting c env
    | [] => s

end Sys2Proof.Machine
end

