-- ==== Sys2Proof/Machine/Queues.lean ====
section
/-!
DEFINITION. Command queues (12_tile_streams_host.md R600 to R608, R616, R885), the interrupts that announce completion
records (R619 to R624), and the ordering unit (08_memory_model.md R404 to R411).
-/

namespace Sys2Proof.Machine

/-! ## Ordering entries (R404) -/

def ooRelease : Nat := 0x30
def ooAcquire : Nat := 0x31
def ooFence : Nat := 0x32
def ooInv : Nat := 0x33

/-- Statuses of R410. -/
def osOK : Nat := 0
def osFaultAbort : Nat := 1
def osTimeout : Nat := 2
def osError : Nat := 3
def osPoison : Nat := 4
def osPartitionReset : Nat := 5

def ordW64 (b : List Byte) : Bool := (leAt b 1 1).testBit 3
def ordInvEn (b : List Byte) : Bool := (leAt b 1 1).testBit 4
def ordSize (b : List Byte) : Nat := if ordW64 b then 8 else 4

/-- Reserved encodings of an ordering entry (R404, R13). -/
def orderReserved (b : List Byte) : Bool :=
  let op := leAt b 0 1
  let fl := leAt b 1 1
  let acq := op == ooAcquire
  let flagged := acq || op == ooRelease
  let inv := op == ooInv || (acq && ordInvEn b)
  decide (32 ≤ fl) || fl.testBit 1 || (fl.testBit 4 && !acq) || decide (3 < leAt b 2 1) ||
    (if acq then decide (2 < leAt b 3 1) else leAt b 3 1 != 0) ||
    (if acq then leAt b 4 4 == 0 || decide (1000000 < leAt b 4 4) else leAt b 4 4 != 0) ||
    (if flagged then leAt b 8 8 % ordSize b != 0 else leAt b 8 8 != 0) ||
    (!ordW64 b && leAt b 0x14 4 != 0) ||
    (if inv then leAt b 0x20 8 % 64 != 0 || leAt b 0x28 8 % 64 != 0 || decide (2 ^ 40 < leAt b 0x28 8) ||
        (leAt b 0x28 8 == 0) != (leAt b 0x20 8 == 0)
     else leAt b 0x20 8 != 0 || leAt b 0x28 8 != 0) ||
    !zeros b 0x30 16

/-! ## Fetching (R600 to R607) -/

/-- An entry starts only behind every earlier entry of its queue (R161, R405, R408). -/
def entryFenced (b : List Byte) : Bool := (leAt b 1 1).testBit 0 || leAt b 0 1 == ooRelease || leAt b 0 1 == ooFence

/-- Does a partition's entry carry an OP that R604 does not name, or a reserved encoding (R605). -/
def State.entryBad (s : State) (p : Nat) (b : List Byte) : Bool :=
  let op := leAt b 0 1
  if op = opCopyTile || op = opCopyRaw then descReserved b
  else if op = 0x20 || op = 0x21 then s.scoopReserved p b
  else if decide (ooRelease ≤ op) && decide (op ≤ ooInv) then orderReserved b
  else true

/-- Free records of the completion ring. -/
def State.cqFree (s : State) (p q : Nat) : Nat :=
  let k := qInst p q
  cqSize s p q - ringDist (cqSize s p q) (s.fld F.HIF_CQ_HEAD_INDEX k) (s.fld F.HIF_CQ_TAIL_INDEX k)

/-- May a queue fetch an entry now: it is enabled, not halted, has one, its partition is ACTIVE (R642), a completion
record is free (R606), and no ACQUIRE_WAIT of the queue is in progress (R407). -/
def State.canFetch (s : State) (p q : Nat) : Bool :=
  let k := qInst p q
  s.flag F.HIF_SQ_CTRL_EN k && !s.flag F.HIF_SQ_STATUS_HALTED k && s.partActive p &&
    s.fld F.HIF_SQ_HEAD_INDEX k != s.fld F.HIF_SQ_TAIL_INDEX k &&
    decide (s.fld F.HIF_SQ_STATUS_INFLIGHT k < s.cqFree p q) && !(s.queue p q).started.any (fun e => e.op == ooAcquire)

/-- The queue served next (R607): the present one while its turn lasts, else the next that can fetch. -/
def State.nextQueue (s : State) (p : Nat) : Option (Nat × PartSt) :=
  let x := s.ptn p
  if s.canFetch p x.turn && decide (x.burst < s.fld F.HIF_SQ_CTRL_BURST (qInst p x.turn)) then
    some (x.turn, { x with burst := x.burst + 1 })
  else
    ((List.range 16).map fun k => (x.turn + 1 + k) % 16).find? (s.canFetch p) |>.map fun q => (q, { x with turn := q, burst := 1 })

/-- Hand an entry to the unit that its OP names (R604). -/
def State.dispatch (s : State) (p q slot : Nat) (b : List Byte) : State :=
  let op := leAt b 0 1
  if op = opCopyTile || op = opCopyRaw then
    s.queueMove p (.queue p q slot) (descOf b)
  else { s with waitingCmds := s.waitingCmds ++ [(p, WorkSrc.queue p q slot, b)] }

/-- Fetch the entry at the head of a queue: a failed read halts it with RING_FAULT (R600), a bad entry with BAD_ENTRY
(R605), and an entry that waits for earlier ones stays where it is. -/
def State.fetch (s : State) (p q : Nat) (env : Env) : State :=
  let k := qInst p q
  let head := s.fld F.HIF_SQ_HEAD_INDEX k
  let slot := head % 65536
  let va := F.HIF_SQ_BASE_VA.get (s.rd .HIF_SQ_BASE k) * 64 + slot * 64
  if !s.ringMapped p va 64 .read then s.ringFault p q qeRingFault
  else
    let r := s.readVA p va 64 env
    let t := s.noteVA .east p va 64
    if r.err || r.bad then t.ringFault p q qeRingFault
    else if t.entryBad p r.data then t.haltQueue p q qeBadEntry
    else if entryFenced r.data && !(t.queue p q).started.isEmpty then s
    else
      let x := t.queue p q
      let e : EntrySt := { slot := slot, op := leAt r.data 0 1, cookie := leAt r.data 0x18 8, irq := (leAt r.data 1 1).testBit 2 }
      let t := (t.setFld F.HIF_SQ_HEAD_INDEX (ringAdd (sqSize t p q) head 1) k).setQueue p q { x with started := x.started ++ [e] }
      (t.syncInflight p q).dispatch p q slot r.data

/-- QUEUE_FETCH (R604): the partition's next queue fetches one entry. -/
def execQueueFetch (p : Nat) (env : Env) (s : State) : Out :=
  run (.queueFetch p env) <| s.clocked <|
    let s := s.codewords 1 env
    match s.nextQueue p with
    | none => s
    | some (q, x) => (s.setPtn p x).fetch p q env

/-! ## Registers of a queue -/

/-- Move HIF_SQ_TAIL, or set DB_ERR (R602). -/
def State.sqTail (s : State) (p q v : Nat) : State :=
  let k := qInst p q
  let n := sqSize s p q
  let head := s.fld F.HIF_SQ_HEAD_INDEX k
  let v := v % 2 ^ 17
  if v % 65536 < n && ringDist n head (s.fld F.HIF_SQ_TAIL_INDEX k) ≤ ringDist n head v && ringDist n head v ≤ n then
    s.setFld F.HIF_SQ_TAIL_INDEX v k
  else s.setFlag F.HIF_SQ_STATUS_DB_ERR true k

/-- A register write of HIF_SQ_TAIL: ignored with a memory doorbell (R603). -/
def State.writeSqTail (s : State) (p q v : Nat) : State :=
  if s.flag F.HIF_SQ_CTRL_DB_MEM (qInst p q) then s else s.sqTail p q v

/-- SQ_DOORBELL (R602). -/
def execSqDoorbell (src : Source) (p q v : Nat) (s : State) : Out :=
  run (.sqDoorbell src p q v) <| s.clocked <| s.gated src .HIF_SQ_TAIL (qInst p q) fun s => s.writeSqTail p q v

/-- A write of HIF_SQ_CTRL (R605, R608, R885). -/
def State.writeSqCtrl (s : State) (p q : Nat) (v : Word) : State × Nat :=
  let k := qInst p q
  let old := s.rd .HIF_SQ_CTRL k
  let was := F.HIF_SQ_CTRL_EN.get old != 0
  let now := F.HIF_SQ_CTRL_EN.get v != 0
  let log2 := F.HIF_SQ_CTRL_LOG2_ENTRIES.get v
  if log2 < 6 || 16 < log2 || F.HIF_SQ_CTRL_BURST.get v = 0 then (s, stRange)
  else if was && (log2 ≠ F.HIF_SQ_CTRL_LOG2_ENTRIES.get old || F.HIF_SQ_CTRL_DB_MEM.get v ≠ F.HIF_SQ_CTRL_DB_MEM.get old) then
    (s, stState)
  else
    let s := s.plainWrite .HIF_SQ_CTRL k v
    let s := if now && !was then
        let s := (s.setFld F.HIF_SQ_HEAD_INDEX 0 k).setFld F.HIF_SQ_TAIL_INDEX 0 k
        let s := (s.setFld F.HIF_CQ_HEAD_INDEX 0 k).setFld F.HIF_CQ_TAIL_INDEX 0 k
        s.setQueue p q { s.queue p q with raised := false, unreached := false }
      else s
    let s := s.syncInflight p q
    if F.HIF_SQ_CTRL_RESUME.get v = 0 || !s.flag F.HIF_SQ_STATUS_HALTED k || s.fld F.HIF_SQ_STATUS_ERR k ≠ qeBadEntry then (s, stOK)
    else
      let s := if F.HIF_SQ_CTRL_SKIP.get v = 0 then s
        else s.setFld F.HIF_SQ_HEAD_INDEX (ringAdd (sqSize s p q) (s.fld F.HIF_SQ_HEAD_INDEX k) 1) k
      ((s.setFlag F.HIF_SQ_STATUS_HALTED false k).setFld F.HIF_SQ_STATUS_ERR qeNone k, stOK)

/-- SQ_ENABLE (R608): HIF_SQ_CTRL is written with EN 1 and the other fields of `v`. -/
def execSqEnable (src : Source) (p q : Nat) (v : Word) (s : State) : Out :=
  run (.sqEnable src p q v) <| s.clocked <| s.guarded src .HIF_SQ_CTRL (qInst p q) fun s => s.writeSqCtrl p q (F.HIF_SQ_CTRL_EN.put v 1)

/-- SQ_DISABLE (R608): HIF_SQ_CTRL is written with EN 0 and the other fields of `v`. -/
def execSqDisable (src : Source) (p q : Nat) (v : Word) (s : State) : Out :=
  run (.sqDisable src p q v) <| s.clocked <| s.guarded src .HIF_SQ_CTRL (qInst p q) fun s => s.writeSqCtrl p q (F.HIF_SQ_CTRL_EN.put v 0)

/-- RESUME (R605): HIF_SQ_CTRL is written with RESUME, its other fields as they are. -/
def execResume (src : Source) (p q : Nat) (s : State) : Out :=
  run (.resume src p q) <| s.clocked <| s.guarded src .HIF_SQ_CTRL (qInst p q) fun s =>
    s.writeSqCtrl p q (F.HIF_SQ_CTRL_RESUME.put (s.rd .HIF_SQ_CTRL (qInst p q)) 1)

/-- RESUME_SKIP (R605): RESUME with SKIP. -/
def execResumeSkip (src : Source) (p q : Nat) (s : State) : Out :=
  run (.resumeSkip src p q) <| s.clocked <| s.guarded src .HIF_SQ_CTRL (qInst p q) fun s =>
    s.writeSqCtrl p q (F.HIF_SQ_CTRL_SKIP.put (F.HIF_SQ_CTRL_RESUME.put (s.rd .HIF_SQ_CTRL (qInst p q)) 1) 1)

/-- A write of HIF_CQ_HEAD (R616, R622). -/
def State.writeCqHead (s : State) (p q v : Nat) : State :=
  let k := qInst p q
  let v := v % 2 ^ 17
  if headOk (cqSize s p q) (s.fld F.HIF_CQ_HEAD_INDEX k) (s.fld F.HIF_CQ_TAIL_INDEX k) v then
    (s.setFld F.HIF_CQ_HEAD_INDEX v k).setQueue p q { s.queue p q with raised := false }
  else s

/-- CQ_HEAD_WRITE (R622). -/
def execCqHeadWrite (src : Source) (p q v : Nat) (s : State) : Out :=
  run (.cqHeadWrite src p q v) <| s.clocked <| s.gated src .HIF_CQ_HEAD (qInst p q) fun s => s.writeCqHead p q v

/-- COMPLETION_RECORD_PERFORMED (R620, R622): the oldest record write of a queue has been performed, or has failed: then
the queue halts with CQ_FAULT and loses the records behind it (R885). -/
def execCompletionRecordPerformed (p q : Nat) (ok : Bool) (s : State) : Out :=
  run (.completionRecordPerformed p q ok) <| s.clocked <|
    let x := s.queue p q
    let k := qInst p q
    match x.records with
    | [] => s
    | r :: rest =>
      if ok then
        let s := s.setFld F.HIF_CQ_TAIL_INDEX (ringAdd (cqSize s p q) (s.fld F.HIF_CQ_TAIL_INDEX k) 1) k
        let up := r.irq && !x.raised
        let s := (s.setQueue p q { x with records := rest, raised := x.raised || up }).syncInflight p q
        s.when up fun s => s.raiseVec p (s.fld F.HIF_SQ_CTRL_VEC k)
      else ((s.setQueue p q { x with records := [] }).ringFault p q qeCqFault).syncInflight p q

/-- A write to the control word of an MSI-X vector (R624): the host reaches the physical function's table, a virtual
function its own while its partition is ACTIVE (R618). -/
def State.msixAllowed (s : State) (src : Source) (fn : Nat) : Bool :=
  match src with
  | .pf => true
  | .vf p => fn == p + 1 && s.partActive p
  | _ => false

/-- Unmask a vector: a pending message is sent and its bit cleared (R624). -/
def State.unmask (s : State) (fn vec : Nat) : State :=
  let k := fn * 1024 + vec
  let s := s.setFlag F.MSIX_CTRL_MASK false k
  if s.flag F.MSIX_PEND_PEND k then (s.setFld F.MSIX_PEND_PEND 0 k).msix fn vec else s

/-- MSIX_UNMASK (R624). -/
def execMsixUnmask (src : Source) (fn vec : Nat) (s : State) : Out :=
  run (.msixUnmask src fn vec) <| s.clocked <| if s.msixAllowed src fn then s.unmask fn vec else s

/-! ## The ordering unit (R405 to R410) -/

def State.dropOrder (s : State) (o : OrdSt) : State :=
  { s with orders := s.orders.filter fun x => !(x.p == o.p && x.q == o.q && x.slot == o.slot) }

/-- The entry goes on in a phase. -/
def State.orderIn (s : State) (o : OrdSt) (phase : Nat) : State :=
  let s := s.dropOrder o
  { s with orders := s.orders ++ [{ o with phase := phase }] }

/-- The entry completes. -/
def State.endOrder (s : State) (o : OrdSt) (status count : Nat) : State :=
  (s.dropOrder o).completeEntry o.p o.q o.slot status count 0

/-- The first page of an INV range that lies in no valid range with READ (R409). -/
def State.invFault (s : State) (c va n : Nat) : Option FaultKind :=
  (pagesOf va n).findSome? fun pg => match (s.ctx c).rangeAt pg with
    | none => some .unmapped
    | some r => if r.read then none else some .protection

/-- Begin the INV of an entry's range: checked whole before any line is invalidated (R409). -/
def State.invStart (s : State) (o : OrdSt) : State :=
  if (s.ctx o.p).lost then s.endOrder o osError 0
  else match s.invFault o.p (leAt o.bytes 0x20 8) (leAt o.bytes 0x28 8) with
    | some k => s.endOrder o osFaultAbort k.code
    | none => s.orderIn o 3

/-- CMP of an ACQUIRE_WAIT: EQ, NE, GE unsigned. -/
def flagHolds (b : List Byte) (v : Nat) : Bool :=
  let w := leAt b 0x10 8
  if leAt b 3 1 = 0 then v == w else if leAt b 3 1 = 1 then v != w else decide (w ≤ v)

/-- A flag read of an ACQUIRE_WAIT has returned (R406, R410). -/
def State.flagRead (s : State) (o : OrdSt) (r : ReadRes) : State :=
  if r.refused.isSome then s.endOrder o osFaultAbort FaultKind.key.code
  else if r.err then s.endOrder o osError 0
  else if r.bad then s.endOrder o osPoison 0
  else if !flagHolds o.bytes (leAt r.data 0 (ordSize o.bytes)) then s.orderIn o 1
  else if ordInvEn o.bytes then s.invStart o
  else s.endOrder o osOK 0

/-- Read the flag of an ACQUIRE_WAIT at its home, as an acquire (R391, R406). -/
def State.flagPoll (s : State) (o : OrdSt) (env : Env) : State :=
  let va := leAt o.bytes 8 8
  let n := ordSize o.bytes
  match s.checkExtent o.p va n .read with
  | .fault _ k _ => s.endOrder o osFaultAbort k.code
  | .lost => s.endOrder o osError 0
  | .hold => s.orderIn o 1
  | .ok =>
    match s.target o.p va with
    | some (.remote nd off part key) =>
      (s.orderIn o 2).request (.flag o.p o.q o.slot)
        { op := opRD, dst := nd, src := 0, part := part, off := off, len := n, acq := true, scope := leAt o.bytes 2 1,
          key := if 0x40 ≤ nd then some key else none }
    | some (.own _) => (s.noteVA .east o.p va n).flagRead o (s.readVA o.p va n env)
    | _ => s.flagRead o (s.readVA o.p va n env)

/-- Take the failure that a flag access met at once (no way to its node) as its answer. -/
def State.flagFails (s : State) (o : OrdSt) : State :=
  let r := s.takeFails (.flag o.p o.q o.slot)
  if r.2.isEmpty then s else r.1.endOrder o osError 0

/-- Take the next waiting ordering entry of an OP. -/
def State.takeOrder (s : State) (op : Nat) : Option (State × OrdSt) :=
  match s.takeEntry op (op == ooRelease || op == ooFence) with
  | some (t, _, .queue p q slot, b) => some (t, { p := p, q := q, slot := slot, bytes := b, phase := 1 })
  | _ => none

/-- Does a fence at an entry's scope wait for writes in other nodes: RACK contains them, and DOMAIN where this controller takes part in
a coherent domain (R383). -/
def State.fencesNodes (s : State) (o : OrdSt) : Bool :=
  leAt o.bytes 2 1 == 3 || (leAt o.bytes 2 1 == 2 && s.flag F.COH_CFG_EN)

/-- A write that a fence waits for has ended with UNREACHABLE: the ordering entry completes with ERROR (R540), and later entries do not report
it again (DESIGN CHOICE, assumption log 27). -/
def State.orderUnreached (s : State) (o : OrdSt) (f : State → State) : State :=
  if s.fencesNodes o && (s.queue o.p o.q).unreached then
    (s.setQueue o.p o.q { s.queue o.p o.q with unreached := false }).endOrder o osError 0
  else f s

/-- RELEASE_WRITE (R405): earlier entries of the queue have completed, so their writes are performed (R411); the flag
is written as a release at SCOPE. -/
def execReleaseWrite (s : State) : Out :=
  .next <| s.clocked <|
    match s.takeOrder ooRelease with
    | none => s
    | some (t, o) => t.orderUnreached o fun t =>
      let va := leAt o.bytes 8 8
      let d := leBytes (ordSize o.bytes) (leAt o.bytes 0x10 8)
      match t.checkExtent o.p va d.length .write with
      | .fault _ k _ => t.endOrder o osFaultAbort k.code
      | .lost => t.endOrder o osError 0
      | .hold => s
      | .ok =>
        match t.target o.p va with
        | some (.remote nd off part key) =>
          ((t.orderIn o 0).request (.flag o.p o.q o.slot)
            { op := opWR, dst := nd, src := 0, part := part, off := off, len := d.length, data := d, rel := true,
              scope := leAt o.bytes 2 1, key := if 0x40 ≤ nd then some key else none }).flagFails o
        | _ =>
          let r := t.writeStrict o.p va d
          r.1.endOrder o (if r.2 then osOK else osError) 0

/-- ACQUIRE_WAIT (R406): the entry starts with its first read of the flag. -/
def execAcquireWait (env : Env) (s : State) : Out :=
  .next <| s.clocked <|
    match s.takeOrder ooAcquire with
    | none => s
    | some (t, o) => (t.flagPoll o env).flagFails o

/-- The ordering entry of a queue that stands in a phase. -/
def State.orderAt (s : State) (p q phase : Nat) : Option OrdSt :=
  s.orders.find? fun o => o.p == p && o.q == q && o.phase == phase

/-- ACQUIRE_POLL (R406): the flag is read again. -/
def execAcquirePoll (p q : Nat) (env : Env) (s : State) : Out :=
  run (.acquirePoll p q env) <| s.clocked <|
    match s.orderAt p q 1 with
    | none => s
    | some o => (s.flagPoll o env).flagFails o

/-- ACQUIRE_WAIT_TIMEOUT (R406, R410): TIMEOUT_US has elapsed and the comparison never held; a read still on its way is
given up. -/
def execAcquireWaitTimeout (p q : Nat) (s : State) : Out :=
  run (.acquireWaitTimeout p q) <| s.clocked <|
    match s.orders.find? fun o => o.p == p && o.q == q && leAt o.bytes 0 1 == ooAcquire && (o.phase == 1 || o.phase == 2) with
    | none => s
    | some o => (s.dropClient (.flag p q o.slot)).endOrder o osTimeout 0

/-- FENCE (R408): every earlier entry of the queue has completed, so all their accesses are performed (R411) and the
fence holds at every scope; one of them may have ended with UNREACHABLE (R540). -/
def execFenceEntry (s : State) : Out :=
  .next <| s.clocked <|
    match s.takeOrder ooFence with
    | none => s
    | some (t, o) => t.orderUnreached o fun t => t.endOrder o osOK 0

/-- INV (R409): the entry's range is checked and its invalidation begins. -/
def execInvRange (s : State) : Out :=
  .next <| s.clocked <|
    match s.takeOrder ooInv with
    | none => s
    | some (t, o) => t.invStart o

/-- INV_COMPLETE (R400, R403, R409): no line of the range remains in the engine caches, and the entry completes. A range
above 48 MiB empties both caches. -/
def execInvComplete (p q : Nat) (s : State) : Out :=
  run (.invComplete p q) <| s.clocked <|
    match s.orderAt p q 3 with
    | none => s
    | some o =>
      let va := leAt o.bytes 0x20 8
      let n := leAt o.bytes 0x28 8
      let t : State := if 48 * 1048576 < n then { s with cacheE := [], cacheW := [] } else s.invalidateVA p va n
      t.endOrder o osOK 0

/-- The answer to a flag access in another node: a write's status, or a read's data. -/
def State.flagAnswer (s : State) (p q slot : Nat) (r : ReadRes) : State :=
  match s.orders.find? fun o => o.p == p && o.q == q && o.slot == slot && (o.phase == 0 || o.phase == 2) with
  | none => s
  | some o =>
    if o.phase ≠ 0 then s.flagRead o r
    else if r.refused.isSome then s.endOrder o osFaultAbort FaultKind.key.code
    else s.endOrder o (if r.err then osError else osOK) 0

end Sys2Proof.Machine
end

