-- ==== Sys2Proof/Machine/Flit.lean ====
section
/-!
DEFINITION. FLITs (10_yalig_links.md R472 to R485, shared by the tile stream ports under R573): their CRC, the units of
their word stream, packets as words (11_yalig_transactions.md R517, R518), and acknowledgement and replay.
-/

namespace Sys2Proof.Machine

/-! ## CRC-64 (R474) -/

/-- Shift steps of the reflected CRC-64 register: the polynomial 0x42F0_E1EB_A9EA_3693 reflected. -/
def crc64Shift : Nat → Nat → Nat
  | 0, c => c
  | n + 1, c => crc64Shift n (if c % 2 = 1 then (c / 2) ^^^ 0xC96C5795D7870F42 else c / 2)

def crc64 (l : List Byte) : Nat :=
  (l.foldl (fun c b => crc64Shift 8 (c ^^^ b.toNat)) 0xFFFFFFFFFFFFFFFF) ^^^ 0xFFFFFFFFFFFFFFFF

/-- The CRC of a FLIT's bytes 0 to 247 behind its prefix: FSEQ, or 0xFFFF for an idle FLIT. -/
def flitCrc (pre : Nat) (b : List Byte) : Nat := crc64 (leBytes 2 pre ++ slice b 0 248)

/-- A FLIT of up to 31 words, filled with NOP words (R472, R475). -/
def flitOf (pre : Nat) (ws : List Nat) : List Byte :=
  let b := slice (ws.flatMap (leBytes 8)) 0 248
  b ++ leBytes 8 (flitCrc pre b)

/-- The 31 words of a FLIT. -/
def flitWords (b : List Byte) : List Nat := (List.range 31).map fun k => leAt b (8 * k) 8

/-- What a received FLIT is: the next sequenced one, an idle one, or one to discard (R482, R483). -/
inductive FlitIs where
  | sequenced | idle | bad
  deriving DecidableEq, Repr

def LinkSt.judge (x : LinkSt) (b : List Byte) (uncorrectable : Bool) : FlitIs :=
  let c := leAt b 248 8
  if uncorrectable then .bad
  else if c = flitCrc x.rxSeq b then .sequenced
  else if x.nak = 0 && c = flitCrc 0xFFFF b then .idle
  else .bad

/-! ## Link control words (R478) -/

/-- Operations of an LCW. -/
def loNONE : Nat := 0
def loLANE_DROP : Nat := 1
def loLANE_RESTORE : Nat := 2
def loRETRAIN_REQ : Nat := 3
def loCAPS_ACK : Nat := 4

/-- ACK_SEQ: the last FSEQ received in order. -/
def LinkSt.ackSeq (x : LinkSt) : Nat := (x.rxSeq + 4095) % 4096

/-- The acknowledgement part of an LCW or TCW. -/
def LinkSt.ackBits (x : LinkSt) (op arg : Nat) : Nat :=
  arg % 16 * 2 ^ 60 + op % 16 * 2 ^ 56 + x.ackSeq * 2 ^ 10 + (if x.nak = 0 then 0 else 2 ^ 9) + 2 ^ 8 + 1

/-- An LCW with up to two credit returns (pool, count). -/
def LinkSt.lcw (x : LinkSt) (op arg : Nat) (cr : List (Nat × Nat)) : Nat :=
  x.ackBits op arg +
    (match cr[0]? with | some a => a.2 % 4096 * 2 ^ 27 + a.1 % 16 * 2 ^ 23 + 2 ^ 22 | none => 0) +
    (match cr[1]? with | some b => b.2 % 4096 * 2 ^ 44 + b.1 % 16 * 2 ^ 40 + 2 ^ 39 | none => 0)

/-! ## Sending -/

/-- Is the replay buffer without room for `n` more FLITs (R481). -/
def State.replayFull (s : State) (l n : Nat) : Bool := decide (512 < (s.link l).replay.length + n)

/-- LANE_DROP is repeated in each FLIT until the stream on the lanes that are left has locked (R492, R579). -/
def State.dropWords (s : State) (l : Nat) : List Nat :=
  let x := s.link l
  match x.drop with
  | some k => if x.provisional then [] else [x.ackBits loLANE_DROP k]
  | none => []

/-- Words that a FLIT has room for. -/
def State.flitRoom (s : State) (l : Nat) : Nat := 31 - (s.dropWords l).length

/-- Send a sequenced FLIT and hold it until it is acknowledged (R473, R481). Links 96 to 111 are the tile stream ports. -/
def State.sendSeq (s : State) (l : Nat) (ws : List Nat) (pkts : List SwPkt) (tiles : List (Nat × Nat)) : State :=
  let x := s.link l
  let b := flitOf x.txSeq (s.dropWords l ++ ws)
  let r : RepFlit := { fseq := x.txSeq, body := b, pkts := pkts, tiles := tiles }
  let s := s.setLink l { x with txSeq := (x.txSeq + 1) % 4096, replay := x.replay ++ [r], unacked := 0 }
  let s := s.when (decide (l < 96)) fun s => s.wrap F.YL_TX_FLITS_COUNT l
  s.putFlit l b

/-- Cut words into FLITs of at most `n`; `fuel` bounds them. -/
def cutWords (n : Nat) : Nat → List Nat → List (List Nat)
  | 0, _ => []
  | k + 1, ws => if ws.isEmpty then [] else ws.take n :: cutWords n k (ws.drop n)

/-- Send an idle FLIT. -/
def State.sendIdle (s : State) (l : Nat) (ws : List Nat) : State :=
  (s.setLink l { s.link l with unacked := 0 }).putFlit l (flitOf 0xFFFF (s.dropWords l ++ ws))

/-- Do control words ride in idle FLITs (R465, R466, R578). -/
def State.idleControl (s : State) (l : Nat) : Bool :=
  if l < 96 then s.feature l 3 && s.lstate l != lsNEGOTIATE
  else (s.fld F.TSP_PORT_NEG_FEATURES (l - 96)).testBit 1 && s.fld F.TSP_PORT_STATUS_STATE (l - 96) != 2

/-- Send control words without credit returns: in an idle FLIT where that is allowed, else in a sequenced one if the
replay buffer has room. -/
def State.sendControl (s : State) (l : Nat) (ws : List Nat) : State :=
  if s.idleControl l then s.sendIdle l ws
  else if s.replayFull l 1 then s
  else s.sendSeq l ws [] []

/-- Send an acknowledgement, or a NAK while the link waits for a replay (R482, R483). -/
def State.sendAck (s : State) (l : Nat) : State := s.sendControl l [(s.link l).lcw loNONE 0 []]

/-! ## Acknowledgement and replay (R481 to R484) -/

/-- Does an ACK_SEQ cover a FLIT. -/
def ackCovers (ack fseq : Nat) : Bool := decide ((ack + 4096 - fseq) % 4096 < 2048)

/-- The FLITs that an ACK_SEQ covers leave the replay buffer. -/
def LinkSt.acked (x : LinkSt) (ack : Nat) : LinkSt × List RepFlit :=
  ({ x with replay := x.replay.filter fun r => !ackCovers ack r.fseq }, x.replay.filter fun r => ackCovers ack r.fseq)

/-- Every FLIT of the replay buffer is sent again, in order (R484). -/
def State.resend (s : State) (l : Nat) : State := (s.link l).replay.foldl (fun s r => s.putFlit l r.body) s

/-- A FLIT failed: the first failure is answered with a NAK, and what follows is discarded (R483). -/
def State.flitBad (s : State) (l : Nat) (count : State → State) : State :=
  let x := s.link l
  if x.nak = 0 then (count (s.setLink l { x with nak := 1 })).sendAck l else s

/-- A sequenced FLIT has been accepted; units that follow are taken by the caller. -/
def State.flitTaken (s : State) (l : Nat) : State :=
  let x := s.link l
  s.setLink l { x with rxSeq := (x.rxSeq + 1) % 4096, nak := 0, unacked := x.unacked + 1 }

/-- Acknowledge at least once every 16 sequenced FLITs (R482). -/
def State.ackDue (s : State) (l : Nat) : State := if 16 ≤ (s.link l).unacked then s.sendAck l else s

end Sys2Proof.Machine
end

