-- ==== Sys2Proof/Machine/Requests.lean ====
section
/-!
DEFINITION. What becomes of a request of this controller that fails (11_yalig_transactions.md R520), and the reset of
the streams between two nodes (R536).
-/

namespace Sys2Proof.Machine

/-- A request's client hears of its failure. Clients that collect many responses look at their failures when the last
response is in. -/
def State.requestFailed (s : State) (r : Req) (status : Nat) : State :=
  match r.client with
  | .none => s
  | .row g k => s.partError g k
  | .install h i =>
    (match s.repSlot h i with
     | some r => s.setRep { r with res := some (false, [], []) }
     | none => s)
  | .update g => (s.noteUnreached r.client status).onCmd g fun (c : ScoopCmd) => { c.note (if status = psSTAMP then scSRC_ERROR else scDST_ERROR) 0 with ended := true }
  | .flag p q slot =>
    (s.noteUnreached r.client status).flagAnswer p q slot { err := true, refused := if status = psKEY then some 0 else none }
  | .mirror k => s.mirFailed (mirProg k) status
  | c => (s.failClient c status r.va r.fin).settleWrites c

/-- Requests that meet a condition end with a status. -/
def State.failRequests (s : State) (f : Req → Bool) (status : Nat) : State :=
  let l := s.reqs.filter f
  l.foldl (fun s (r : Req) => s.requestFailed r status) { s with reqs := s.reqs.filter fun r => !f r }

/-- Every stream between this controller and a node starts again at SEQ 0; held and uncovered packets are discarded, and
requests to the node that await a response end with UNREACHABLE (R536). -/
def State.resetStreams (s : State) (n : Nat) : State :=
  let keep := fun (k : Nat) => k / 8 ≠ n
  let s : State := { s with txs := s.txs.filter fun e => keep e.1, rxs := s.rxs.filter fun e => keep e.1,
                            switch := s.switch.filter fun w => !(w.pkt.dst == n && w.pkt.src == s.node) }
  (s.syncSwitch).failRequests (fun r => r.node == n) psUNREACHABLE

/-- Send SYNC to a node (R536): the streams between the two nodes are reset, and SYNC itself belongs to none. -/
def State.sendSync (s : State) (n : Nat) : State :=
  let s := s.resetStreams n
  s.enterSwitch { pkt := { op := opMGMT, dst := n, src := s.node, vc := 5, tc := 7, len := 8, data := leBytes 8 1 },
                  ingress := 97, num := 0 }

/-- A stream toward a node has been declared unreachable (R535). -/
def State.deadTo (s : State) (n : Nat) : Bool := s.txs.any fun e => e.1 / 8 == n && e.2.dead

end Sys2Proof.Machine
end

