-- ==== Sys2Proof/Machine/Continuity.lean ====
section
/-!
DEFINITION. Partners (15_continuity.md R699 to R702, R716 to R724): pairing, the loss of the partner and takeover, the
return of taken-over programs, and handoff records on their way to the partner's mirror (R728).
-/

namespace Sys2Proof.Machine

/-- Results of CNT_CFG_STATUS. -/
def crLOCKED : Nat := 1
def crRANGE : Nat := 2
def crPARTNER : Nat := 3
def crMISMATCH : Nat := 4
def crDOMAIN : Nat := 5
def crWAITING : Nat := 6

/-- Causes of CNT_STATE.LAST_LOSS. -/
def llUNREACHABLE : Nat := 1
def llNO_PATH : Nat := 2
def llHOST : Nat := 3
def llPEER_REQUEST : Nat := 4

/-- The BAR0 offset of the CNT block, which stands at the same offset of the control window (R66). -/
def cntBlock : Nat := ctlBase + 0xC0000

def State.setCnt (s : State) (st : Nat) : State := s.setFld F.CNT_STATE_STATE st

/-! ## Commit and pairing (R700, R701) -/

/-- The checks of a commit on the snapshot. -/
def State.cntCheck (s : State) : Nat :=
  let cfg := s.snapOf .cnt 0 .CNT_CFG 0
  let mb := F.CNT_MIRROR_BASE_GIB.get (s.snapOf .cnt 0 .CNT_MIRROR_BASE 0) * gib
  let ml := F.CNT_MIRROR_SIZE_GIB.get (s.snapOf .cnt 0 .CNT_MIRROR_SIZE 0) * gib
  let hb := s.snapOf .cnt 0 .CNT_HOFF_BASE 0
  let ho := F.CNT_HOFF_BASE_PAGE.get hb * pageBytes
  let hp := F.CNT_HOFF_LEN_PAGES.get (s.snapOf .cnt 0 .CNT_HOFF_LEN 0)
  let win := F.CNT_HOFF_BASE_VALID.get hb != 0
  let partner := F.CNT_CFG_PARTNER.get cfg
  if s.cntLocked then crLOCKED
  else if (ml ≠ 0 && !within mb ml t1Base s.t1Size) || 8192 * gib < ml ||
    (win && (hp = 0 || 16384 < hp || !s.residentExtent ho (hp * pageBytes) || meets mb ml ho (hp * pageBytes))) then crRANGE
  else if F.CNT_CFG_EN.get cfg ≠ 0 && (0x40 ≤ partner || partner = s.node) then crPARTNER
  else 0

/-- The controller reads a line of the partner's CNT block through the partner's control window (R701); the bytes come with the command
that takes the answer (assumption log 26). -/
def State.readBlock (s : State) (k : Nat) : State := s.remoteRead s.leader s.partner (cntBlock + 64 * k) 64 0xFF 0

/-- The controller reads the registers of the partner's CNT block that pairing looks at. -/
def State.readPartner (s : State) : State := (s.readBlock 0).readBlock 1

/-- A write of CNT_COMMIT: the members are checked together. -/
def State.commitCnt (s : State) : State :=
  let s := s.beginCommit .cnt 0
  if s.cntCheck = 0 then s else s.rejectCommit .cnt 0 s.cntCheck

/-- CNT_COMMIT (R700): CNT_COMMIT.GO written 1. -/
def execCntCommit (src : Source) (s : State) : Out :=
  run (.cntCommit src) <| s.clocked <| s.gated src .CNT_COMMIT 0 State.commitCnt

/-- The members take effect and are locked; with EN pairing begins (R700, R702). -/
def State.applyCnt (s : State) : State :=
  let s : State := { s.finishCommit .cnt 0 with cntLocked := true }
  if s.flag F.CNT_CFG_EN && s.cntState = csOFF then (s.setCnt csPAIRING).readPartner else s

/-- Every program that may be mirrored is copied (R708). -/
def State.startMirrors (s : State) : State := s.each 64 fun s n => s.startCopies n []

/-- A field of the partner's CNT block, as the read returned it. -/
def State.partnerWord (s : State) (env : Env) (off n : Nat) : Option Nat :=
  let r := envRead env (.node s.partner) (cntBlock + off) n
  if r.err || r.bad || s.cannotRead s.partner 0 then none else some (leAt r.data 0 n)

/-- A return begins (R721): the halves are swept. -/
def State.beginReturn (s : State) (progs : List Nat) (halves : List Nat) : State :=
  let s : State := { s.readBlock 1 with ret := progs.map fun n => { prog := n }, retHalves := halves, retSwept := false }
  halves.foldl State.sweepHalf (s.setCnt csRETURNING)

/-- The bits of a mask. -/
def maskBits (m : Nat) : List Nat := (List.range 64).filter m.testBit

/-- This controller and its partner are homes of one coherent domain (R424). -/
def State.sharesDomain (s : State) : Bool :=
  s.flag F.COH_CFG_EN && s.bit .COH_HOMES 0 s.partner && s.bit .COH_HOMES 0 s.node

/-- The checks of R701 on what the read returned, with RESULT; the partner's state where they pass. -/
def State.pairing (s : State) (env : Env) : State × Option Nat :=
  match s.partnerWord env 4 4, s.partnerWord env 0x28 4 with
  | some cfg, some st =>
    let st := st / 2 ^ 28
    if cfg % 256 ≠ s.node then (s.setFld F.CNT_CFG_STATUS_RESULT crMISMATCH, none)
    else if s.sharesDomain then (s.setFld F.CNT_CFG_STATUS_RESULT crDOMAIN, none)
    else if st = csOFF || st = csRETURNING || csALONE < st then (s.setFld F.CNT_CFG_STATUS_RESULT crWAITING, none)
    else (s.setFld F.CNT_CFG_STATUS_RESULT 0, some st)
  | _, _ => (s.setFld F.CNT_CFG_STATUS_RESULT crWAITING, none)

/-- PAIRING_READ_DONE (R701, R702): the read of the partner's CNT block has returned. -/
def execPairingReadDone (env : Env) (s : State) : Out :=
  .next <| s.clocked <|
    if s.cntState ≠ csPAIRING then s
    else match s.pairing env with
      | (s, none) => s
      | (s, some st) =>
        let s : State := { s with partnerBase := ((s.partnerWord env 8 8).getD 0) / gib % 2 ^ 18,
                                  partnerSize := ((s.partnerWord env 0x10 4).getD 0) % 2 ^ 14 }
        if st = csSERVING then s.beginReturn (maskBits ((s.partnerWord env 0x40 8).getD 0)) [0, 1]
        else (s.setCnt csPAIRED).startMirrors

/-- PAIRING_RETRY (R701): the partner is read again. -/
def execPairingRetry (s : State) : Out :=
  .next <| s.clocked <| if s.cntState = csPAIRING then s.readPartner else s

/-- The partner reads this controller's CNT block: it has reached PAIRING, which ends ALONE (R702). -/
def State.partnerReads (s : State) (node : Nat) : State :=
  if s.cntState = csALONE && node = s.partner then (s.setCnt csPAIRING).readPartner else s

/-! ## Takeover (R717, R718) -/

/-- What a takeover finds in the region of the partner's program n: the slots of the commit with their entries, and
whether the shadow program can serve them. -/
def State.regionEntries (s : State) (n : Nat) : List (Nat × List Byte) × Bool :=
  let l := s.fld F.CNT_SHADOW_LOCAL_PROG n
  let c := (s.prog l).ctx
  let base := s.shadowVA n
  let h := s.readVA c base 256 []
  let b := slice h.data 0 256
  if s.pstate l = pgEMPTY || h.err || h.bad || crc32c (slice b 0 0xFC) ≠ leAt b 0xFC 4 then ([], false)
  else
    let slots := (List.range 1024).filter fun j => (leAt b (0x10 + j / 8) 1).testBit (j % 8)
    (slots.map fun j =>
      let e := s.readVA c (base + 0x1000 + leAt b 3 1 % 2 * 0x10000 + 64 * j) 64 []
      (j, if e.err || e.bad then [] else slice e.data 0 64), s.pstate l != pgHALTED)

/-- Admit a committed entry into slot j of the shadow program (R287), its KV area in the region. The slot size S of the
partner's program is known to the partner only: a free value. -/
def State.admitShadow (s : State) (n j slotBytes : Nat) (b : List Byte) : State × Bool :=
  let l := s.fld F.CNT_SHADOW_LOCAL_PROG n
  let p := s.prog l
  if b.length ≠ 64 || p.maxSeqs ≤ j || p.occupied j || !seqOk p j b then (s, false)
  else
    let e : SeqSt := { seqOf j b with kvBase := s.shadowVA n + 0x40000 + j * slotBytes }
    let p := if s.live l then { p with pend := p.pend ++ [(j, some e)] } else (p.apply (j, some e)).assignLanes
    ((s.setProg l p).syncProg l, true)

/-- The reads of a takeover (R717): the region header and the entries of the committed bank. -/
def State.noteRegion (s : State) (n : Nat) (slots : List Nat) : State :=
  let c := (s.prog (s.fld F.CNT_SHADOW_LOCAL_PROG n)).ctx
  let base := s.shadowVA n
  let bank := leAt (s.readVA c base 256 []).data 3 1 % 2
  slots.foldl (fun s j => s.noteVA .east c (base + 0x1000 + bank * 0x10000 + 64 * j) 64) (s.noteVA .east c base 256)

/-- Take over the partner's program n: the sequences admitted, and those lost (R717, R718). -/
def State.takeProgram (s : State) (n : Nat) : State × Nat × Nat × Bool :=
  let r := s.regionEntries n
  let l := s.fld F.CNT_SHADOW_LOCAL_PROG n
  if !s.flag F.CNT_SHADOW_EN n || !r.2 then (s, 0, r.1.length, false)
  else
    let f := (s.noteRegion n (r.1.map (·.1))).fresh
    let size := Config.freeNat f.1
    let t := r.1.foldl (fun (a : State × List (Nat × Nat)) e =>
      let x := a.1.admitShadow n e.1 size e.2
      if x.2 then (x.1, a.2 ++ [(e.1, leAt e.2 0x10 8)]) else (x.1, a.2)) (f.2, [])
    let s : State := { t.1 with served := (t.1.served.filter fun v => v.prog ≠ n) ++ [{ prog := n, loc := l, slots := t.2 }] }
    let s := if s.pstate l = pgPARKED then s.startProg l else s
    (s.syncTaken, t.2.length, r.1.length - t.2.length, true)

/-- A takeover of some programs (R717): one TAKEOVER record, and one DOUBLE_LOSS record for what cannot be continued
(R718). -/
def State.takeover (s : State) (progs : List Nat) : State :=
  let r := progs.foldl (fun (a : State × Nat × Nat × Nat) n =>
    let x := a.1.takeProgram n
    (x.1, a.2.1 + x.2.1, a.2.2.1 + x.2.2.1, a.2.2.2 + if x.2.2.2 then 0 else 1)) (s, 0, 0, 0)
  let s := (r.1.bump F.CNT_TAKEOVER_CNT_COUNT).record { cls := ecCNT, event := 1, count := r.2.1 }
  if r.2.2.2 = 0 && r.2.2.1 = 0 then s
  else (s.bump F.CNT_DOUBLE_LOSS_CNT_COUNT 0 r.2.2.2).record { cls := ecCNT, event := 2, count := r.2.2.1 }

/-- The programs that a takeover without a mask names: those with CNT_SHADOW.EN. -/
def State.shadowed (s : State) : List Nat := (List.range 64).filter fun n => s.flag F.CNT_SHADOW_EN n

/-- A return that the partner had begun here is abandoned: the sequences served continue. -/
def State.abandonReturn (s : State) : State :=
  let l := s.served.filter (·.back)
  let s : State := { s with served := s.served.map fun v => { v with back := false, frozen := false } }
  l.foldl (fun s v =>
    if v.frozen then (if s.pstate v.loc = pgPARKED then s.startProg v.loc else s)
    else s.setProg v.loc { s.prog v.loc with parkReq := false }) s

/-- Programs not yet returned are lost (R724): a record and a count for each. -/
def State.doubleLoss (s : State) : State :=
  let l := s.ret
  l.foldl (fun s r => (s.bump F.CNT_DOUBLE_LOSS_CNT_COUNT).record { cls := ecCNT, event := 2, inst := r.prog, count := r.noted.length })
    { s with ret := [], retHalves := [], retSwept := false }

/-- The loss of the partner has been detected (R702, R716). -/
def State.partnerLost (s : State) (cause : Nat) : State :=
  let st := s.cntState
  let note := fun (s : State) => s.setFld F.CNT_STATE_LAST_LOSS cause
  if st = csPAIRED then
    let s : State := { (note s).setCnt csSERVING with cntHalf := none }
    let s := s.stopMirrors.takeover s.shadowed
    s.setCnt (if s.served.isEmpty then csALONE else csSERVING)
  else if st = csSERVING then
    let s := (note s).abandonReturn
    s.setCnt (if s.served.isEmpty then csALONE else csSERVING)
  else if st = csRETURNING then ((note s).doubleLoss).setCnt csALONE
  else s

/-- PARTNER_LOSS_TIMER (R716): the partner's reach bit has been clear, without a detour candidate, for LOSS_US. -/
def execPartnerLossTimer (s : State) : Out :=
  .next <| s.clocked <|
    if s.reach s.partner || !(s.detours s.partner).isEmpty then s else s.partnerLost llNO_PATH

/-- What a write of CNT_CTRL does. -/
def State.writeCntCtrl (s : State) (v : Word) : State :=
  if F.CNT_CTRL_CONFIRM.get v ≠ 0xA5 then s
  else
    let s := if F.CNT_CTRL_TAKEOVER.get v ≠ 0 && (s.cntState = csPAIRED || s.cntState = csSERVING) then s.partnerLost llHOST else s
    if F.CNT_CTRL_RESTART.get v ≠ 0 && s.cntState = csALONE then (s.setCnt csPAIRING).readPartner else s

/-- TAKEOVER (R716): CNT_CTRL.TAKEOVER written 1 with a CONFIRM. -/
def execTakeover (src : Source) (confirm : Nat) (s : State) : Out :=
  run (.takeover src confirm) <| s.clocked <| s.gated src .CNT_CTRL 0 fun s => s.writeCntCtrl (BitVec.ofNat 64 (confirm * 256 + 1))

/-- RESTART (R702): CNT_CTRL.RESTART written 1 with a CONFIRM. -/
def execRestart (src : Source) (confirm : Nat) (s : State) : Out :=
  run (.restart src confirm) <| s.clocked <| s.gated src .CNT_CTRL 0 fun s => s.writeCntCtrl (BitVec.ofNat 64 (confirm * 256 + 2))

/-! ## Commands of the partner (R719, R721, R723, R740) -/

/-- A write of CNT_PEER_CMD or CNT_PEER_MASK that R740 admits. A reserved OP commands nothing. -/
def State.writePeer (s : State) (cmd : Bool) (v : Nat) : State :=
  if cmd then
    (if v % 16 = 0 || 3 < v % 16 then s else { s with peerCmds := s.peerCmds ++ [(v % 16, s.peerMask)] })
  else { s with peerMask := v % 2 ^ 64 }

/-- Take the oldest command of the partner if it is `op`. -/
def State.peerCmd (s : State) (op : Nat) (f : State → List Nat → State) : State :=
  match s.peerCmds with
  | (o, m) :: rest => if o = op then f { s with peerCmds := rest } (maskBits m) else s
  | [] => s

/-- PEER_TAKEOVER (R702, R719): the partner's TAKEOVER command takes over the named programs. -/
def execPeerTakeover (s : State) : Out :=
  .next <| s.clocked <| s.peerCmd 1 fun s l =>
    if s.cntState ≠ csPAIRED then s
    else
      let s := (s.setFld F.CNT_STATE_LAST_LOSS llPEER_REQUEST).setCnt csSERVING
      s.stopMirrors.takeover l

/-- A handback is asked for: the shadow program parks at its next step boundary; parked, it is frozen at once. -/
def State.askBack (s : State) (v : Served) : State :=
  let s : State := { s with served := s.served.map fun w => if w.prog = v.prog then { w with back := true } else w }
  let p := s.prog v.loc
  if s.live v.loc then s.setProg v.loc { p with parkReq := true }
  else if s.pstate v.loc = pgPARKED then (s.setProg v.loc { p with started := false }).freezeParked v.loc
  else s

/-- HANDBACK_REQ (R723). -/
def execHandbackReq (s : State) : Out :=
  .next <| s.clocked <| s.peerCmd 2 fun s l =>
    if s.cntState ≠ csSERVING then s
    else (s.served.filter fun v => l.contains v.prog && !v.back).foldl State.askBack s

/-- The sequences of a program served leave the shadow program (R723). -/
def State.endService (s : State) (v : Served) : State :=
  let s := v.slots.foldl (fun s x =>
    let p := s.prog v.loc
    if !p.occupied x.1 then s
    else
      let p := if s.live v.loc then { p with pend := p.pend ++ [(x.1, none)] } else (p.apply (x.1, none)).assignLanes
      (s.setProg v.loc p).syncProg v.loc) s
  { s with served := s.served.filter fun w => w.prog ≠ v.prog }.syncTaken

/-- HANDBACK_DONE (R702, R723): when the last program served has returned, the region is mirror again. -/
def execHandbackDone (s : State) : Out :=
  .next <| s.clocked <| s.peerCmd 3 fun s l =>
    if s.cntState ≠ csSERVING then s
    else
      let s := (s.served.filter fun v => l.contains v.prog).foldl State.endService s
      if s.served.isEmpty then (s.setCnt csPAIRED).startMirrors else s

/-! ## The return (R721, R722) -/

/-- Write the mask of some programs and a command to the partner's CNT block, through its control window. -/
def State.tellPartner (s : State) (progs : List Nat) (op : Nat) : State :=
  let mask := progs.foldl (fun m n => m ||| 2 ^ n) 0
  let s := s.request .peer { op := opWR, dst := s.partner, src := 0, part := 0xFF, off := cntBlock + 0x30, len := 8, data := leBytes 8 mask }
  s.request .peer { op := opWR, dst := s.partner, src := 0, part := 0xFF, off := cntBlock + 0x38, len := 4, data := leBytes 4 op }

/-- Every program has returned: mirroring resumes. -/
def State.endReturn (s : State) : State :=
  if s.ret.isEmpty then ({ s with retHalves := [], retSwept := false }.setCnt csPAIRED).startMirrors else s

/-- A sweep of one of the halves still runs, or has failed. -/
def State.retSweeping (s : State) : Bool := s.sweeps.any fun w => w.array.isNone && s.retHalves.contains w.half
def State.retFailed (s : State) : Bool := s.retHalves.any fun h => s.fld (sweepFld h) == 3

/-- RETURN_SWEEP_DONE (R721): the sweep of the return has ended; the programs named in the partner's CNT_PROG_TAKEN are
pulled. -/
def execReturnSweepDone (env : Env) (s : State) : Out :=
  .next <| s.clocked <|
    if s.cntState ≠ csRETURNING || s.retSwept || s.retSweeping then s
    else if s.retFailed then s.doubleLoss.setCnt csALONE
    else
      let ret := match s.partnerWord env 0x40 8 with
        | some m => (maskBits m).map fun n => ({ prog := n } : RetProg)
        | none => s.ret
      { s with ret := ret, retSwept := true }.endReturn

/-- The paths of the pull reads in turn (R722): the direct link, and up to CNT_CFG.STRIPE intermediates in the order of R498. -/
def State.pullPaths (s : State) : List (Option Nat) := none :: ((s.candidates s.partner).take (s.fld F.CNT_CFG_STRIPE)).map some

/-- The RD packets of a pull of `n` bytes of a region (R722): TC 6, the partition of the program. Their data come with the command
(assumption log 26). -/
def State.pullRead (s : State) (part off n : Nat) : State :=
  let l := readPackets s.partner off n part 0 6
  let paths := s.pullPaths
  (List.range l.length).foldl (fun s k => match l[k]? with
    | some p => s.request (.read (halfNum s.leader)) p 0 0 ((paths[k % paths.length]?).getD none)
    | none => s) s

/-- The region header of program n at the partner, if its CRC is correct. -/
def State.retHeader (s : State) (n : Nat) (env : Env) : Option (List Byte) :=
  let r := envRead env (.node s.partner) (s.mirOff n 0) 256
  let b := slice r.data 0 256
  if r.err || r.bad || s.cannotRead s.partner 0 || crc32c (slice b 0 0xFC) ≠ leAt b 0xFC 4 then none else some b

/-- The committed entries of program n at the partner. -/
def State.retEntries (s : State) (n : Nat) (b : List Byte) (env : Env) : List SeqSt :=
  ((List.range 1024).filter fun j => (leAt b (0x10 + j / 8) 1).testBit (j % 8)).map fun j =>
    seqOf j (slice (envRead env (.node s.partner) (s.mirOff n (0x1000 + leAt b 3 1 % 2 * 0x10000 + 64 * j)) 64).data 0 64)

/-- The reads of the region header and of the entries of some slots at the partner. -/
def State.readRegion (s : State) (n : Nat) (b : List Byte) (slots : List Nat) : State :=
  slots.foldl (fun s j => s.pullRead (s.prog n).part (s.mirOff n (0x1000 + leAt b 3 1 % 2 * 0x10000 + 64 * j)) 64)
    (s.pullRead (s.prog n).part (s.mirOff n 0) 256)

/-- Pull an extent of a sequence's KV area from its slot at the partner (R722). -/
def State.pull (s : State) (n : Nat) (e : SeqSt) (env : Env) (x : Nat × Nat) : State :=
  let p := s.prog n
  let o := s.mirOff n (0x40000 + e.slot * p.mirSlot + (x.1 - e.kvBase))
  let r := envRead env (.node s.partner) o x.2
  let s := s.pullRead p.part o x.2
  let s := (s.writeVA p.ctx x.1 (slice r.data 0 x.2) (if r.err then (List.range ((x.2 + 63) / 64)) else r.poison)).1
  s.invalidateEnd p.ctx ekVA x.1 x.2

/-- The program is loaded here and parked. -/
def State.retReady (s : State) (n : Nat) : Bool := s.pstate n == pgPARKED && (s.prog n).mir.cfg.isSome

/-- BULK_PULL_DONE (R721 steps 2 and 3): committed bank and KV slots have been copied; the handback is requested. -/
def execBulkPullDone (env : Env) (s : State) : Out :=
  .next <| s.clocked <|
    if s.cntState ≠ csRETURNING || !s.retSwept then s
    else
      let l := s.ret.filterMap fun r =>
        if r.asked || !s.retReady r.prog then none else (s.retHeader r.prog env).map fun b => (r.prog, b, s.retEntries r.prog b env)
      if l.isEmpty then s
      else
        let s := l.foldl (fun s x => x.2.2.foldl (fun s e => ((s.prog x.1).kvTiles e.kvBase e.pos).foldl (fun s t => s.pull x.1 e env t) s)
          (s.readRegion x.1 x.2.1 (x.2.2.map (·.slot)))) s
        let ret := s.ret.map fun (r : RetProg) =>
          match l.find? (fun x => x.1 == r.prog) with
          | some x => { r with asked := true, noted := x.2.2.map fun e => (e.slot, e.pos) }
          | none => r
        let s : State := { s with ret := ret }
        s.tellPartner (l.map (·.1)) 2

/-- FROZEN_POLL (R721 step 4): the region header of program n is read. -/
def execFrozenPoll (n : Nat) (env : Env) (s : State) : Out :=
  run (.frozenPoll n env) <| s.clocked <|
    if s.cntState ≠ csRETURNING then s
    else
      let h := s.retHeader n env
      let s := s.pullRead (s.prog n).part (s.mirOff n 0) 256
      match h with
      | some b =>
        if (leAt b 4 1).testBit 0 then
          { s with ret := s.ret.map fun r => if r.prog = n && r.asked then { r with frozen := true } else r }
        else s
      | none => s

/-- The extents of the KV rows of positions `from_ … to_ − 1` of a sequence (R301). -/
def ProgSt.kvRows (p : ProgSt) (base from_ to_ : Nat) : List (Nat × Nat) :=
  p.attns.flatMap fun d =>
    let tl := leAt d 9 1
    let z := kvSizes (leAt d 8 1) (leAt d 6 2) (2 ^ tl)
    (List.range (leAt d 5 1)).flatMap fun h => (List.range (to_ - from_)).flatMap fun k =>
      let pos := from_ + k
      let va := kvAddr d base h (pos / 2 ^ tl)
      kvTouched (leAt d 8 1) (leAt d 6 2) tl (pos % 2 ^ tl) va ++ kvTouched (leAt d 8 1) (leAt d 6 2) tl (pos % 2 ^ tl) (va + z.2.2)

/-- DELTA_PULL_DONE (R721 steps 5 to 7): the rows since the noted positions have been copied, the frozen entries are
admitted, the program starts, and HANDBACK_DONE is written. Its sequences count as mirrored at once (R723). -/
def execDeltaPullDone (n : Nat) (env : Env) (s : State) : Out :=
  run (.deltaPullDone n env) <| s.clocked <|
    match s.ret.find? (fun r => r.prog == n && r.frozen), s.retHeader n env with
    | some r, some b =>
      if s.cntState ≠ csRETURNING || !s.retReady n then s
      else
        let es := s.retEntries n b env
        let s := s.readRegion n b (es.map (·.slot))
        let s := es.foldl (fun s e =>
          let from_ := ((r.noted.find? fun x => x.1 == e.slot).map (·.2)).getD 0
          ((s.prog n).kvRows e.kvBase from_ e.pos).foldl (fun s t => s.pull n e env t) s) s
        let p := es.foldl (fun (p : ProgSt) e => p.apply (e.slot, some e)) (s.prog n)
        let slots := es.map (·.slot)
        let s := (s.setProg n { p.assignLanes with mir := { p.mir with copied := slots, committed := some slots } }).syncProg n
        let s : State := { s with takenOwn := s.takenOwn.filter (· ≠ n), ret := s.ret.filter fun x => x.prog ≠ n }
        let s := (s.syncTaken.startProg n).tellPartner [n] 3
        s.endReturn
    | _, _ => s

/-! ## A half in reset (R719) -/

/-- A half enters RESETTING while the controller is PAIRED: the partner is told to take over the programs that halted. -/
def State.tellHalfReset (s : State) (h : Half) (progs : List Nat) : State :=
  if s.cntState ≠ csPAIRED then s
  else { s.tellPartner progs 1 with cntHalf := some (h, progs.foldl (fun m n => m ||| 2 ^ n) 0) }

/-- That half is UP: the return begins, with a sweep of that half only. -/
def State.halfBack (s : State) (h : Half) : State :=
  match s.cntHalf with
  | some (g, m) =>
    if g ≠ h then s
    else
      let s : State := { s with cntHalf := none }
      if s.cntState = csPAIRED then s.stopMirrors.beginReturn (maskBits m) [halfNum h] else s
  | none => s

/-! ## Handoff records (R728) -/

/-- Write a performed record to the partner's handoff mirror. -/
def State.mirrorHandoff (s : State) (h : Handoff) : State :=
  s.request (.handoff h.num) { op := opWR, dst := s.partner, src := 0, part := 0xFF, tc := 6,
                               off := s.partnerBase * gib + h.off, len := 16, data := h.data }

/-- HANDOFF_MIRROR_WRITTEN (R728): the mirror write of the oldest record has been answered; ATOM_DATA is sent once it is
performed, or once the controller is no longer PAIRED. -/
def execHandoffMirrorWritten (s : State) : Out :=
  .next <| s.clocked <|
    match s.handoffs with
    | [] => s
    | h :: rest =>
      if s.awaits (.handoff h.num) && s.cntState = csPAIRED then s
      else
        let f := s.takeFails (.handoff h.num)
        if !f.2.isEmpty && f.1.cntState = csPAIRED then f.1.mirrorHandoff h
        else
          let s : State := { f.1.dropClient (.handoff h.num) with handoffs := rest }
          if h.host then s.emit (.readValue h.answer.data false) else s.sendPacket h.answer

end Sys2Proof.Machine
end

