-- ==== Sys2Proof/Machine/Tsp.lean ====
section
/-!
DEFINITION. Tile stream ports (12_tile_streams_host.md R570 to R590, R613): port states, the units of received FLITs,
streams with their credits, and tiles sent and received. The link layer of port t is kept as link 96 + t (R573).
-/

namespace Sys2Proof.Machine

/-- Port states (R590). -/
def tpDISABLED : Nat := 0
def tpTRAIN : Nat := 1
def tpNEGOTIATE : Nat := 2
def tpUP : Nat := 3
def tpDEGRADED : Nat := 4
def tpRECOVER : Nat := 5
def tpFAILED : Nat := 6

/-- Failure causes of TSP_PORT_STATUS. -/
def tcTRAIN : Nat := 1
def tcLOCK : Nat := 2
def tcVERSION : Nat := 3
def tcREFCLK : Nat := 4
def tcRECOVERY : Nat := 5

def State.port (s : State) (t : Nat) : Nat := s.fld F.TSP_PORT_STATUS_STATE t

def State.setPort (s : State) (t st : Nat) : State :=
  (s.setFld F.TSP_PORT_STATUS_STATE st t).when (st == tpRECOVER) fun s => s.lifeAdd 0x5061 (t + 1) 1

def State.setPortCause (s : State) (t c : Nat) : State := s.setFld F.TSP_PORT_STATUS_FAIL_CAUSE c t

def State.setPortLanes (s : State) (t tx rx : Nat) : State :=
  (s.setFld F.TSP_PORT_STATUS_TX_LANES tx t).setFld F.TSP_PORT_STATUS_RX_LANES rx t

/-- The instance of stream k of port t. -/
def strm (t k : Nat) : Nat := t * 16 + k

def State.outTiles (s : State) (t k : Nat) : List PortTile := sget [] s.tspOut (strm t k)
def State.setOutTiles (s : State) (t k : Nat) (l : List PortTile) : State := { s with tspOut := sput [] (strm t k) l s.tspOut }
def State.inTiles (s : State) (t k : Nat) : List PortTile := sget [] s.tspIn (strm t k)

/-- The tiles that wait whole in a stream's receive buffer; RX_HELD follows. -/
def State.setInTiles (s : State) (t k : Nat) (l : List PortTile) : State :=
  ({ s with tspIn := sput [] (strm t k) l s.tspIn } : State).setFld F.TSP_STREAM_STATUS_RX_HELD (min l.length 15) (strm t k)

/-! ## Control words and CAPS (R575, R577, R578) -/

/-- A TCW that returns the credits of one tile (stream, blocks). -/
def creditWord (x : LinkSt) (k blocks : Nat) : Nat :=
  x.ackBits 0 0 + blocks % 4096 * 2 ^ 31 + 1 * 2 ^ 43 + k % 16 * 2 ^ 47 + 2 ^ 51

/-- Send the credit returns that wait, each in a sequenced FLIT while the replay buffer has room; `fuel` bounds them. -/
def State.flushReturns : Nat → State → Nat → State
  | 0, s, _ => s
  | n + 1, s, t =>
    match (s.link (96 + t)).owed with
    | [] => s
    | c :: rest =>
      if s.replayFull (96 + t) 1 then s
      else
        let x := s.link (96 + t)
        State.flushReturns n ((s.setLink (96 + t) { x with owed := rest }).sendSeq (96 + t) [creditWord x (c / 4096) c] [] []) t

/-- Return the credits of a tile of `n` bytes of stream k (R582): while the port does not serve, its next CAPS unit
counts the space instead (R583). -/
def State.returnTile (s : State) (t k n : Nat) : State :=
  if !s.tspServes t then s
  else
    let x := s.link (96 + t)
    let s := s.setLink (96 + t) { x with owed := x.owed ++ [k * 4096 + blocksOf n] }
    State.flushReturns (x.owed.length + 1) s t

/-- Receive space of a stream that whole tiles hold: blocks and tiles (R583). -/
def State.heldSpace (s : State) (t k : Nat) : Nat × Nat :=
  let a := (s.inTiles t k).map fun x => x.data.length
  let b := ((s.link (96 + t)).tilesIn.filter fun x => x.1 == k).map fun x => x.2.2.length
  ((a ++ b).foldl (fun n x => n + blocksOf x) 0, (a ++ b).length)

/-- The CREDITS entry of a stream. -/
def State.creditEntry (s : State) (t k : Nat) : Nat :=
  let h := s.heldSpace t k
  (s.fld F.TSP_STREAM_CRED_BLOCKS (strm t k) - h.1) + (s.fld F.TSP_STREAM_CRED_TILES (strm t k) - h.2) * 4096

/-- The CAPS unit this controller sends: ROLE controller, 1.3, both features. -/
def State.portCaps (s : State) (t : Nat) : List Nat :=
  [4 * 2 ^ 24 + 3 * 2 ^ 16 + 1 * 2 ^ 8 + 4, 3] ++
    (List.range 4).map fun w => leNat ((List.range 4).flatMap fun j => leBytes 2 (s.creditEntry t (4 * w + j)))

/-- A received CAPS unit; none where it breaks the table of R577. -/
def portCapsOf (w : List Nat) : Option Caps :=
  let a := w.getD 0 0
  let b := w.getD 1 0
  if bits a 32 32 ≠ 0 || (bits a 24 8 ≠ 4 && bits a 24 8 ≠ 5) || bits b 16 48 ≠ 0 || w.length ≠ 6 || bits a 0 8 ≠ 4 then none
  else some
    { rack := 0, node := 0, role := bits a 24 8, minor := bits a 16 8, major := bits a 8 8, max2 := 0, max1 := 0,
      feats := bits b 0 16, credits := (w.drop 2).flatMap fun x => (List.range 4).map fun k => bits x (16 * k) 16 }

/-- The checks of R578. -/
def portCapsOk (c : Caps) : Bool := c.major == 1 && c.role == 5

/-- Features that 1.m defines (R578). -/
def portFeatures (m : Nat) : Nat := (if 2 ≤ m then 1 else 0) + (if 3 ≤ m then 2 else 0)

/-! ## Tiles on their way out -/

/-- The descriptor of a passed tile completes; a tile whose descriptor a partition reset has ended has none (channel
64). -/
def State.endTile (s : State) (x : PortTile) (status : Nat) : State :=
  if x.chan < 64 then s.finishMove x.chan status 0 else s

/-- Every descriptor whose tile was passed to a port completes with TSP_DOWN (R589, R590). -/
def State.dropOut (s : State) (t : Nat) : State :=
  s.each 16 fun s k =>
    let l := s.outTiles t k
    l.foldl (fun s x => s.endTile x tsTspDown) (s.setOutTiles t k [])

/-- Every descriptor that waits for a tile of a port completes with TSP_DOWN (R590). -/
def State.dropWaiting (s : State) (t : Nat) : State :=
  s.each 64 fun s ch =>
    let x := s.chan ch
    if x.phase = .waitTsp && (tspOf x.desc.src).1 == t then s.finishMove ch tsTspDown 0 else s

/-- Tiles that no ACK_SEQ has covered are to be sent again, with their TSEQ (R588). -/
def State.unsend (s : State) (t : Nat) : State :=
  s.each 16 fun s k => s.setOutTiles t k ((s.outTiles t k).map fun x => { x with sent := false })

/-- The FLIT with a tile's last word has been covered: the tile has been written (R586). -/
def State.tileCovered (s : State) (t k tseq : Nat) : State :=
  let l := s.outTiles t k
  match l.find? fun x => x.tseq == some tseq with
  | some x => (s.setOutTiles t k (l.erase x)).when (decide (x.chan < 64)) fun s => s.moveWritten x.chan
  | none => s

/-! ## Faults and failures -/

/-- A port enters FAILED. -/
def State.portFail (s : State) (t cause : Nat) : State :=
  let s := (s.setPort t tpFAILED).setPortCause t cause
  let s := if cause = tcRECOVERY then s.record { cls := ecTSP, event := 2, inst := t, op := 8 } else s
  let x := s.link (96 + t)
  (s.setLink (96 + t) { x with words := [] }).dropOut t

/-- A port leaves service: RETRAIN_REQ is sent, the replay buffer is emptied, partial inbound tiles are discarded. -/
def State.portDown (s : State) (t st : Nat) : State :=
  let s := if s.tspServes t then s.sendControl (96 + t) [(s.link (96 + t)).ackBits loRETRAIN_REQ 0] else s
  let x := s.link (96 + t)
  let s := s.setLink (96 + t) { x with replay := [], words := [], nak := 0, unacked := 0, owed := [], drop := none, provisional := false }
  ((s.unsend t).setPortLanes t 0 0).setPort t st

/-- A link fault (R486, R590). -/
def State.portFault (s : State) (t : Nat) : State :=
  if !s.tspServes t then s else (s.bump F.TSP_FAULT_CNT_COUNT t).portDown t tpRECOVER

/-! ## Negotiation (R578, R583) -/

/-- Send a FLIT of NEGOTIATE. -/
def State.sendPortCaps (s : State) (t : Nat) : State :=
  if s.replayFull (96 + t) 1 then s
  else
    let x := s.link (96 + t)
    s.sendSeq (96 + t) (s.portCaps t ++ (if x.caps.isSome then [x.ackBits loCAPS_ACK 0] else [])) [] []

/-- NEGOTIATE begins: a commit of the credits that waits applies now (R613), and the counts are taken. -/
def State.beginNegotiate (s : State) (t : Nat) : State :=
  let s := if s.committing .tsp t then s.finishCommit .tsp t else s
  let x := s.link (96 + t)
  s.setLink (96 + t) { x with txSeq := 0, rxSeq := 0, nak := 0, unacked := 0, replay := [], words := [], owed := [],
                              caps := none, capsTwice := false, capsAcked := false } |>.startStream (96 + t)

/-- Negotiation passes: version, features and credits are loaded, and the port serves on the trained lanes. TSEQ starts
at 0 unless the port returns from RECOVER (R588). -/
def State.portUp (s : State) (t : Nat) (c : Caps) (lanes : Nat) (fresh : Bool) : State :=
  let m := min 3 c.minor
  let x := s.link (96 + t)
  let s := s.setLink (96 + t) { x with txSeq := 0, rxSeq := 0, nak := 0, unacked := 0, replay := [], words := [], owed := [],
                                       caps := some c, drop := none, provisional := false,
                                       tseqs := if fresh then [] else x.tseqs }
  let s := (s.setFld F.TSP_PORT_STATUS_VER_MAJOR 1 t).setFld F.TSP_PORT_STATUS_VER_MINOR m t
  let s := (s.setFld F.TSP_PORT_NEG_FEATURES (c.feats &&& 3 &&& portFeatures m) t).setPortCause t 0
  let s := s.each 16 fun s k =>
    let e := c.credits.getD k 0
    let s := (s.setFld F.TSP_STREAM_STATUS_TX_BLOCKS (e % 4096) (strm t k)).setFld F.TSP_STREAM_STATUS_TX_TILES (e / 4096) (strm t k)
    if fresh then
      ({ s with tspSeq := sput 0 (strm t k) 0 s.tspSeq } : State).setOutTiles t k
        ((s.outTiles t k).map fun x => { x with tseq := none, sent := false })
    else s
  let s := s.setPortLanes t lanes lanes
  if lanes = 15 then s.setPort t tpUP else (s.bump F.TSP_DEGRADE_CNT_COUNT t).setPort t tpDEGRADED

/-- Leave NEGOTIATE when two identical CAPS units have come and the own one is acknowledged (R462, R578). -/
def State.tryPortUp (s : State) (t : Nat) : State :=
  let x := s.link (96 + t)
  match x.caps with
  | some c =>
    if s.port t ≠ tpNEGOTIATE || !x.capsTwice then s
    else if !portCapsOk c then s.portFail t tcVERSION
    else if x.capsAcked then s.portUp t c (s.fld F.TSP_PORT_STATUS_RX_LANES t) true
    else s
  | none => s

def State.takePortCaps (s : State) (t : Nat) (c : Caps) : State :=
  let x := s.link (96 + t)
  ((s.setLink (96 + t) { x with caps := some c, capsTwice := x.capsTwice || x.caps == some c }).sendPortCaps t).tryPortUp t

/-! ## Two-lane mode (R579) -/

/-- The lane pair that does not hold a lane. -/
def otherPair (lane : Nat) : Nat := if lane < 2 then 12 else 3

/-- The far end asks for two-lane mode, or for four lanes again: the stream goes on, replayed from the FLIT after
ACK_SEQ (R493, R495). -/
def State.portLaneDrop (s : State) (t lane : Nat) : State :=
  if !s.tspServes t || s.fld F.TSP_PORT_STATUS_TX_LANES t ≠ 15 then s
  else
    let s := s.setFld F.TSP_PORT_STATUS_TX_LANES (otherPair lane) t
    let s := if s.port t = tpUP then (s.bump F.TSP_DEGRADE_CNT_COUNT t).setPort t tpDEGRADED else s
    (s.startStream (96 + t)).resend (96 + t)

/-- Both directions run on four lanes: the port is UP. -/
def State.portWide (s : State) (t : Nat) : State :=
  if s.port t = tpDEGRADED && s.fld F.TSP_PORT_STATUS_TX_LANES t = 15 && s.fld F.TSP_PORT_STATUS_RX_LANES t = 15 then
    s.setPort t tpUP
  else s

def State.portLaneRestore (s : State) (t : Nat) : State :=
  if !s.tspServes t then s else (((s.setFld F.TSP_PORT_STATUS_TX_LANES 15 t).portWide t).startStream (96 + t)).resend (96 + t)

/-! ## Received units (R574 to R577) -/

/-- A unit is discarded and counted. -/
def State.tspUnitError (s : State) (t : Nat) : State := s.bump F.TSP_FAULT_CNT_COUNT t

/-- Is a TCW free of reserved encodings (R575). -/
def tcwOk (w : Nat) (idle : Bool) : Bool :=
  let op := bits w 56 4
  let arg := bits w 60 4
  decide (op ≤ 4) && (if op = loLANE_DROP || op = loLANE_RESTORE then decide (arg ≤ 3) else arg == 0) &&
    bits w 52 4 == 0 && bits w 22 9 == 0 && !(idle && w.testBit 51)

/-- A TCW takes effect (R582, R586, R484, R485). -/
def State.takeTcw (s : State) (t w : Nat) : State :=
  let x := s.link (96 + t)
  let s := if w.testBit 8 then
      let r := x.acked (bits w 10 12)
      let s := s.setLink (96 + t) r.1
      let s := (r.2.flatMap (·.tiles)).foldl (fun s e => s.tileCovered t e.1 e.2) s
      State.flushReturns (x.owed.length) s t
    else s
  let s := if w.testBit 8 && w.testBit 9 then s.resend (96 + t) else s
  let s := if w.testBit 51 then
      let k := strm t (bits w 47 4)
      (s.wrap F.TSP_STREAM_STATUS_TX_TILES k (bits w 43 4)).wrap F.TSP_STREAM_STATUS_TX_BLOCKS k (bits w 31 12)
    else s
  match bits w 56 4 with
  | 1 => s.portLaneDrop t (bits w 60 4)
  | 2 => s.portLaneRestore t
  | 3 => s.portFault t
  | 4 => (s.setLink (96 + t) { s.link (96 + t) with capsAcked := true }).tryPortUp t
  | _ => s

/-- Does the first word of a TILE unit meet R576. -/
def tileHeadOk (w : Nat) : Bool :=
  bits w 49 15 == 0 && bits w 12 4 == 0 && bits w 32 17 % 8 == 0 && decide (256 ≤ bits w 32 17) && decide (bits w 32 17 ≤ 73984)

/-- Take the words of an accepted FLIT unit by unit; `fuel` bounds the words. -/
def State.takeTspUnits : Nat → State → Nat → List Nat → State
  | 0, s, _, _ => s
  | _, s, _, [] => s
  | n + 1, s, t, w :: rest =>
    let x := s.link (96 + t)
    let neg := s.port t == tpNEGOTIATE
    if !neg && !s.tspServes t then s
    else if !x.words.isEmpty || w % 256 = 0x10 then
      let ws := x.words ++ [w]
      let h := ws.headD 0
      if ws.length < 1 + bits h 32 17 / 8 then
        State.takeTspUnits n (s.setLink (96 + t) { x with words := ws }) t rest
      else
        let tile := (bits h 8 4, bits h 16 16, (ws.drop 1).flatMap (leBytes 8))
        let s := if neg || !tileHeadOk h then (s.setLink (96 + t) { x with words := [] }).tspUnitError t
          else s.setLink (96 + t) { x with words := [], tilesIn := x.tilesIn ++ [tile] }
        State.takeTspUnits n s t rest
    else if w % 256 = 0 then State.takeTspUnits n (if w = 0 then s else s.tspUnitError t) t rest
    else if w % 256 = 1 then State.takeTspUnits n (if tcwOk w false then s.takeTcw t w else s.tspUnitError t) t rest
    else if w % 256 = 4 then
      (if rest.length < 5 then s.tspUnitError t
       else match portCapsOf (w :: rest.take 5) with
         | some c => State.takeTspUnits n (if neg then s.takePortCaps t c else s.tspUnitError t) t (rest.drop 5)
         | none => State.takeTspUnits n (s.tspUnitError t) t (rest.drop 5))
    else State.takeTspUnits n (s.tspUnitError t) t rest

/-- TSP_FLIT_RECEIVE (R573, R482): a FLIT arrives at a port after its decoder. -/
def execTspFlitReceive (t : Nat) (b : List Byte) (uncorrectable : Bool) (s : State) : Out :=
  run (.tspFlitReceive t b uncorrectable) <| s.clocked <|
    if !s.tspServes t && s.port t ≠ tpNEGOTIATE then s
    else match (s.link (96 + t)).judge b uncorrectable with
      | .bad => s.flitBad (96 + t) fun s => s.bump F.TSP_REPLAY_CNT_COUNT t
      | .idle =>
        (flitWords b).foldl (fun s w =>
          if w = 0 then s
          else if w % 256 = 1 && s.idleControl (96 + t) && tcwOk w true then s.takeTcw t w
          else s.tspUnitError t) s
      | .sequenced => (State.takeTspUnits 31 (s.flitTaken (96 + t)) t (flitWords b)).ackDue (96 + t)

/-- TILE (R588): the oldest tile received whole is held in the receive buffer if its TSEQ is the one expected. One that
was accepted before is discarded, its credits go back at once, and it counts; one ahead of the TSEQ expected is discarded
as a unit that breaks the stream's numbering. -/
def execTileUnit (t : Nat) (s : State) : Out :=
  run (.tileUnit t) <| s.clocked <|
    let x := s.link (96 + t)
    match x.tilesIn with
    | [] => s
    | (k, q, d) :: rest =>
      let want := ((x.tseqs.find? fun e => e.1 = k).map (·.2)).getD 0
      let s := s.setLink (96 + t) { x with tilesIn := rest }
      if q = want then
        let x := s.link (96 + t)
        let s := s.setLink (96 + t) { x with tseqs := (k, (q + 1) % 65536) :: x.tseqs.filter fun e => e.1 ≠ k }
        let s := (s.wrap F.TSP_TILES_IN_COUNT).wrap F.TSP_RX_BYTES_COUNT t d.length
        s.setInTiles t k (s.inTiles t k ++ [{ data := d, poison := containerPoison d }])
      else if 32768 ≤ (q + 65536 - want) % 65536 then (s.bump F.TSP_DUP_CNT_COUNT t).returnTile t k d.length
      else (s.tspUnitError t).returnTile t k d.length

/-! ## Sending (R581, R584, R585) -/

/-- The tile of a stream that is sent next: the oldest that has not been sent whole. -/
def State.nextOut (s : State) (t k : Nat) : Option PortTile := (s.outTiles t k).find? fun x => !x.sent

/-- Tiles that need more blocks than the far end advertised in total complete with TSP_DOWN (R584). -/
def State.dropTooBig (s : State) (t : Nat) : State :=
  s.each 16 fun s k =>
    let big := (s.outTiles t k).filter fun x => !x.sent && s.tspTooBig t k x.data.length
    big.foldl (fun s x =>
      ((s.setOutTiles t k ((s.outTiles t k).erase x)).setFlag F.TSP_STREAM_STATUS_TOO_BIG true (strm t k)).endTile x tsTspDown) s

/-- Does a stream have a tile ready and credits for it. -/
def State.canSend (s : State) (t k : Nat) : Bool :=
  match s.nextOut t k with
  | some x =>
    decide (blocksOf x.data.length ≤ s.fld F.TSP_STREAM_STATUS_TX_BLOCKS (strm t k)) &&
      decide (1 ≤ s.fld F.TSP_STREAM_STATUS_TX_TILES (strm t k)) &&
      !s.replayFull (96 + t) ((x.data.length / 8 + s.flitRoom (96 + t)) / s.flitRoom (96 + t))
  | none => false

/-- Send the next tile of a stream as one TILE unit. It counts as sent once, also if a link fault has it sent again. -/
def State.sendTile (s : State) (t k : Nat) (x : PortTile) : State :=
  let i := strm t k
  let n := x.data.length
  let q := x.tseq.getD (sget 0 s.tspSeq i)
  let s := if x.tseq.isSome then s
    else
      let s : State := { s with tspSeq := sput 0 i ((q + 1) % 65536) s.tspSeq }
      (s.wrap F.TSP_TILES_OUT_COUNT).wrap F.TSP_TX_BYTES_COUNT t n
  let s := (s.less F.TSP_STREAM_STATUS_TX_BLOCKS i (blocksOf n)).less F.TSP_STREAM_STATUS_TX_TILES i
  let s := s.setOutTiles t k ((s.outTiles t k).map fun y => if y = x then { y with tseq := some q, sent := true } else y)
  let ws := (n * 2 ^ 32 + q * 2 ^ 16 + k * 2 ^ 8 + 0x10) :: (List.range (n / 8)).map fun j => leAt x.data (8 * j) 8
  let s := s.setLink (96 + t) { s.link (96 + t) with turn := k }
  let fl := cutWords (s.flitRoom (96 + t)) (ws.length + 1) ws
  s.each fl.length fun s j => s.sendSeq (96 + t) (fl.getD j []) [] (if j + 1 = fl.length then [(k, q)] else [])

/-- TSP_TILE_SEND (R585): the port sends the next ready tile with credits, round robin by stream number. -/
def execTspTileSend (t : Nat) (s : State) : Out :=
  run (.tspTileSend t) <| s.clocked <|
    if !s.tspServes t then s
    else
      let s := s.dropTooBig t
      let first := (s.link (96 + t)).turn + 1
      match ((List.range 16).map fun j => (first + j) % 16).find? (s.canSend t) with
      | some k => (match s.nextOut t k with
        | some x => s.sendTile t k x
        | none => s)
      | none => s

/-- TSP_INBOUND_TILE_TAKEN (R157, R158, R582, R587): a channel that waits takes the oldest inbound tile of its stream. A
tile larger than EXTENT is consumed and discarded; a tile whose length is not the one its header gives is no valid
tile, and a header whose lines are poisoned is no header to judge by (R154). -/
def execTspInboundTileTaken (ch : Nat) (s : State) : Out :=
  run (.tspInboundTileTaken ch) <| s.clocked <|
    let x := s.chan ch
    let a := tspOf x.desc.src
    if x.phase ≠ .waitTsp then s
    else match s.inTiles a.1 a.2 with
      | [] => s
      | q :: rest =>
        let s := (s.setInTiles a.1 a.2 rest).returnTile a.1 a.2 q.data.length
        let s := s.cross (portHalf a.1) (chanHalf ch) q.data.length
        let bad := q.poison.any (· < 4)
        if x.desc.extent < q.data.length || (!bad && (hdrOf q.data).extent ≠ q.data.length) then s.finishMove ch tsHdrInvalid 0
        else (s.setChan ch { x with poison := q.poison }).acceptHeader ch q.data bad

/-- Held inbound tiles of a stream are discarded and their credits returned (R642). -/
def State.discardIn (s : State) (t k : Nat) : State :=
  let l := s.inTiles t k
  l.foldl (fun s x => s.returnTile t k x.data.length) (s.setInTiles t k [])

/-- A channel gives up the tile it passed to a port: one that has not begun is withdrawn, one that was sent stays with the port without
its descriptor. -/
def State.orphanOut (s : State) (ch : Nat) : State :=
  let a := tspOf (s.chan ch).desc.dst
  s.setOutTiles a.1 a.2 (((s.outTiles a.1 a.2).filter fun x => x.chan ≠ ch || x.tseq.isSome).map fun (x : PortTile) =>
    if x.chan = ch then { x with chan := 64 } else x)

/-- The deadline of a partition reset ends a descriptor whose tile was passed to a port (R645). -/
def State.abandonOut (s : State) (ch : Nat) : State := (s.orphanOut ch).finishMove ch tsPartitionReset 0

/-! ## Port states (R590) -/

/-- The reference of a port's pair is present (R571). -/
def State.refOk (s : State) (t : Nat) : Bool := (s.fld F.TSP_REF_STATUS_PAIR_OK).testBit (t / 2)

/-- A write of TSP_PORT_CTRL. -/
def State.writePortCtrl (s : State) (t : Nat) (v : Word) : State :=
  let s := s.plainWrite .TSP_PORT_CTRL t v
  let st := s.port t
  if F.TSP_PORT_CTRL_DISABLE.get v ≠ 0 then
    (if st = tpDISABLED then s else ((s.portDown t tpDISABLED).dropOut t).dropWaiting t)
  else
    let s := if st = tpDISABLED then s.setPort t tpTRAIN else s
    if F.TSP_PORT_CTRL_RETRAIN.get v = 0 then s
    else if s.tspServes t then s.portFault t
    else if st = tpFAILED then s.setPort t tpTRAIN
    else s

/-- TSP_DISABLE_CLEAR. -/
def execTspDisableClear (src : Source) (t : Nat) (s : State) : Out :=
  run (.tspDisableClear src t) <| s.clocked <| s.gated src .TSP_PORT_CTRL t fun s =>
    s.writePortCtrl t (F.TSP_PORT_CTRL_DISABLE.put (s.rd .TSP_PORT_CTRL t) 0)

/-- TSP_DISABLE. -/
def execTspDisable (src : Source) (t : Nat) (s : State) : Out :=
  run (.tspDisable src t) <| s.clocked <| s.gated src .TSP_PORT_CTRL t fun s =>
    s.writePortCtrl t (F.TSP_PORT_CTRL_DISABLE.put (s.rd .TSP_PORT_CTRL t) 1)

/-- TSP_TRAIN_DONE: the lanes of the mask have locked; one pair alone is trained only where two-lane mode is
permitted. -/
def execTspTrainDone (t lanes : Nat) (s : State) : Out :=
  run (.tspTrainDone t lanes) <| s.clocked <|
    if s.port t ≠ tpTRAIN || !s.refOk t || (lanes ≠ 15 && !s.flag F.TSP_PORT_CTRL_DEGRADE_EN t) then s
    else (((s.setPortLanes t lanes lanes).setPort t tpNEGOTIATE).beginNegotiate t).sendPortCaps t

/-- TSP_TRAIN_TIMEOUT: a limit of R461 is exceeded. A port without its reference waits for it (R572). -/
def execTspTrainTimeout (t : Nat) (lock : Bool) (s : State) : Out :=
  run (.tspTrainTimeout t lock) <| s.clocked <|
    if s.port t = tpTRAIN && s.refOk t then s.portFail t (if lock then tcLOCK else tcTRAIN) else s

/-- TSP_NEGOTIATE_TIMEOUT (R578). -/
def execTspNegotiateTimeout (t : Nat) (s : State) : Out :=
  run (.tspNegotiateTimeout t) <| s.clocked <| if s.port t = tpNEGOTIATE then s.portFail t tcVERSION else s

/-- TSP_LANE_LOSS (R579): the receive lanes of the mask are lost. -/
def execTspLaneLoss (t mask : Nat) (s : State) : Out :=
  run (.tspLaneLoss t mask) <| s.clocked <|
    let rx := s.fld F.TSP_PORT_STATUS_RX_LANES t
    let lost := (List.range 4).filter fun k => mask.testBit k && rx.testBit k
    if !s.tspServes t || lost.isEmpty then s
    else if rx ≠ 15 || !(s.fld F.TSP_PORT_NEG_FEATURES t).testBit 0 || !s.flag F.TSP_PORT_CTRL_DEGRADE_EN t ||
      (lost.any (· < 2) && lost.any (2 ≤ ·)) then s.portFault t
    else
      let k := lost.headD 0
      let s := s.setFld F.TSP_PORT_STATUS_RX_LANES (otherPair k) t
      let s := s.setLink (96 + t) { s.link (96 + t) with drop := some k, provisional := false }
      let s := if s.port t = tpUP then (s.bump F.TSP_DEGRADE_CNT_COUNT t).setPort t tpDEGRADED else s
      s.sendControl (96 + t) []

/-- TSP_RECOVER_DONE (R590): a recovery ends. It passes if fast retrain and NEGOTIATE did within 5 ms (`ok`) and the far
end's CAPS unit meets R578; else fast retrains and full training have failed. -/
def execTspRecoverDone (t : Nat) (ok : Bool) (caps : List Nat) (lanes : Nat) (s : State) : Out :=
  run (.tspRecoverDone t ok caps lanes) <| s.clocked <|
    if s.port t ≠ tpRECOVER then s
    else match portCapsOf caps with
      | some c =>
        if ok && portCapsOk c && (lanes == 15 || s.flag F.TSP_PORT_CTRL_DEGRADE_EN t) then
          ((s.beginNegotiate t).sendPortCaps t).portUp t c lanes false
        else s.portFail t tcRECOVERY
      | none => s.portFail t tcRECOVERY

/-- TSP_RETRY: RETRAIN is written 1, or (no source) 10 s in FAILED have passed with RETRY_EN; a failed negotiation is not
retried by itself. -/
def execTspRetry (src : Option Source) (t : Nat) (s : State) : Out :=
  run (.tspRetry src t) <| s.clocked <|
    match src with
    | some w => s.gated w .TSP_PORT_CTRL t fun s => s.writePortCtrl t (F.TSP_PORT_CTRL_RETRAIN.put (s.rd .TSP_PORT_CTRL t) 1)
    | none =>
      if s.port t = tpFAILED && s.flag F.TSP_PORT_CTRL_RETRY_EN t && s.fld F.TSP_PORT_STATUS_FAIL_CAUSE t ≠ tcVERSION then
        s.setPort t tpTRAIN
      else s

/-- TSP_REFCLK_LOSS (R572): both ports of the pair leave service and enter TRAIN; a port held in DISABLED stays there. -/
def execTspRefclkLoss (k : Nat) (s : State) : Out :=
  run (.tspRefclkLoss k) <| s.clocked <|
    if !(s.fld F.TSP_REF_STATUS_PAIR_OK).testBit k then s
    else
      let s := s.setBit .TSP_REF_STATUS 0 k false
      let s := s.each 2 fun s j =>
        let t := 2 * k + j
        if s.port t = tpDISABLED then s else (s.portDown t tpTRAIN).setPortCause t tcREFCLK
      s.record { cls := ecTSP, event := 1, inst := 2 * k, op := 8 }

/-- TSP_REFCLK_RETURN (R572): the ports of the pair can train again. -/
def execTspRefclkReturn (k : Nat) (s : State) : Out := run (.tspRefclkReturn k) (s.clocked (s.setBit .TSP_REF_STATUS 0 k true))

/-! ## Commit of the credits (R613) -/

/-- Checks and snapshot; the commit applies at the port's next NEGOTIATE. -/
def State.commitTsp (s : State) (t : Nat) : State :=
  let s := s.beginCommit .tsp t
  let v := (List.range 16).map fun k => s.snapOf .tsp t .TSP_STREAM_CRED (strm t k)
  if 4096 < v.foldl (fun n w => n + F.TSP_STREAM_CRED_BLOCKS.get w) 0 then s.rejectCommit .tsp t 1
  else if v.any fun w => (F.TSP_STREAM_CRED_BLOCKS.get w == 0) != (F.TSP_STREAM_CRED_TILES.get w == 0) then s.rejectCommit .tsp t 2
  else s

/-- TSP_PORT_COMMIT (R613). -/
def execTspPortCommit (src : Source) (t : Nat) (s : State) : Out :=
  run (.tspPortCommit src t) <| s.clocked <| s.gated src .TSP_PORT_COMMIT t fun s => s.commitTsp t

/-! ## Timers of the link layer (R482, R483, R486, R494, R495) -/

/-- 100 ns after a sequenced FLIT that is not acknowledged yet. -/
def State.portAckTimer (s : State) (t : Nat) : State :=
  if (s.link (96 + t)).unacked = 0 || !s.tspServes t then s else s.sendAck (96 + t)

/-- The NAK is sent again; the fourth for one FSEQ is a link fault. -/
def State.portNakRepeat (s : State) (t : Nat) : State :=
  let x := s.link (96 + t)
  if x.nak = 0 || !s.tspServes t then s
  else
    let s := ((s.setLink (96 + t) { x with nak := x.nak + 1 }).bump F.TSP_REPLAY_CNT_COUNT t).sendAck (96 + t)
    if 4 ≤ x.nak + 1 then s.portFault t else s

/-- A marker of the two-lane stream. -/
def State.portMarker (s : State) (t : Nat) (ok : Bool) : State :=
  let x := s.link (96 + t)
  if x.drop.isNone || !s.tspServes t then s
  else if !x.provisional then s.setLink (96 + t) { x with provisional := true }
  else if ok then s else s.portFault t

/-- The error ratios of the last second, and whether the dropped receive lanes have held for 1 s. -/
def State.portLaneTest (s : State) (t : Nat) (hold : Bool) (ser : Nat) : State :=
  let s := s.setFld F.TSP_LANE_STATUS_RX_SER ser t
  let x := s.link (96 + t)
  match x.drop with
  | none => s
  | some k =>
    if !hold || !s.tspServes t || !x.provisional then s
    else
      let s := s.sendControl (96 + t) [x.ackBits loLANE_RESTORE k]
      let s := s.setLink (96 + t) { s.link (96 + t) with drop := none, provisional := false }
      (s.setFld F.TSP_PORT_STATUS_RX_LANES 15 t).portWide t

end Sys2Proof.Machine
end

