-- ==== Sys2Proof/Machine/Links.lean ====
section
/-!
DEFINITION. Yalig links (10_yalig_links.md): training and negotiation, link faults, one-lane mode, the units of received
FLITs, reach maps, and the commit of the link configuration.
-/

namespace Sys2Proof.Machine

/-- Failure causes of YL_LINK_STATUS. -/
def lcTRAIN : Nat := 1
def lcLOCK : Nat := 2
def lcVERSION : Nat := 3
def lcROLE : Nat := 4
def lcRECOVERY : Nat := 5

/-! ## State and lanes -/

/-- Enter a state; YL_LINK_UP follows. -/
def State.setLstate (s : State) (l st : Nat) : State :=
  (s.setFld F.YL_LINK_STATUS_STATE st l).setBit .YL_LINK_UP (l / 32) (l % 32) (st == lsUP || st == lsDEGRADED)

def State.setTxLanes (s : State) (l : Nat) (l0 l1 : Bool) : State :=
  (s.setFlag F.YL_LINK_STATUS_TX_L0 l0 l).setFlag F.YL_LINK_STATUS_TX_L1 l1 l

def State.setRxLanes (s : State) (l : Nat) (l0 l1 : Bool) : State :=
  (s.setFlag F.YL_LINK_STATUS_RX_L0 l0 l).setFlag F.YL_LINK_STATUS_RX_L1 l1 l

/-- Lock bits of YL_LANE_STATUS. -/
def State.setLock (s : State) (l : Nat) (l0 l1 : Bool) : State :=
  (s.setFlag F.YL_LANE_STATUS_RX0_LOCK l0 l).setFlag F.YL_LANE_STATUS_RX1_LOCK l1 l

/-- Both directions run on two lanes. -/
def State.bothWide (s : State) (l : Nat) : Bool :=
  s.flag F.YL_LINK_STATUS_TX_L0 l && s.flag F.YL_LINK_STATUS_TX_L1 l && s.flag F.YL_LINK_STATUS_RX_L0 l &&
    s.flag F.YL_LINK_STATUS_RX_L1 l

/-! ## Reach maps (R496, R497) -/

/-- Send a REACH unit. -/
def State.sendReach (s : State) (l : Nat) : State :=
  if s.replayFull l 1 then s
  else
    let x := s.link l
    let n := (x.mySeq + 1) % 65536
    (s.setLink l { x with mySeq := n }).sendSeq l [n * 2 ^ 16 + s.node * 2 ^ 8 + 2, (s.rd .YL_REACH).toNat] [] []

/-- Bit n: a peer link to controller n has been up for 1 ms. -/
def State.reachNow (s : State) : Word :=
  BitVec.ofNat 64 ((List.range 64).foldl (fun a l =>
    if s.linkUp l && (s.link l).held && s.neighbour l < 64 then a ||| 2 ^ s.neighbour l else a) 0)

/-- The reach map follows the links: a change is sent to every peer; a node that enters it for the first time, or whose
streams were lost, gets a SYNC (R535, R536). -/
def State.syncReach (s : State) : State :=
  let old := s.rd .YL_REACH
  let new := s.reachNow
  if new = old then s
  else
    let s := s.wr .YL_REACH 0 new
    let s := ((List.range 64).filter s.linkUp).foldl (fun s l => s.sendReach l) s
    ((List.range 64).filter fun n => new.getLsbD n && !old.getLsbD n).foldl (fun s n =>
      let s := s.setBit .YL_DETOUR_ACTIVE 0 n false
      if !s.synced.contains n then ({ s with synced := ninsert n s.synced } : State).sendSync n
      else if s.deadTo n then s.sendSync n else s) s

/-! ## Failures and link faults (R461, R486, R487) -/

/-- A link enters FAILED. An agent whose group then has no link up has lost its edge link (R503). -/
def State.linkFail (s : State) (l cause : Nat) : State :=
  let x := s.link l
  let cause := if x.recovery then lcRECOVERY else cause
  let s := s.setLink l { x with recovery := false, words := [], target := none }
  let s := ((s.setLstate l lsFAILED).setFld F.YL_LINK_STATUS_FAIL_CAUSE cause l).record
    { cls := ecYL, event := 1, inst := l, op := 8 }
  match x.caps with
  | some c => if isEdge l && !(s.groupOf c.node).any s.linkUp then s.cohLinkDown c.node else s
  | none => s

/-- The packets of the replay buffer go back to the switch core (R487, R505, R542); a broadcast is never sent again. -/
def State.handBack (s : State) (l : Nat) : State :=
  let back := (s.link l).replay.flatMap (·.pkts) |>.filter fun w =>
    w.port.isNone && (l < 88 || w.pkt.op = opMSG || w.pkt.op = opMSG_ACK)
  let s := s.setLink l { s.link l with replay := [], words := [], target := none, nak := 0, unacked := 0 }
  back.foldl (fun s w => s.enterSwitch { w with resent := true, shared := true }) s

/-- The ingress link runs on one lane and the egress link on two (R558). -/
def State.slowIngress (s : State) (w : SwPkt) (l : Nat) : Bool :=
  decide (w.ingress < 96) && !(s.flag F.YL_LINK_STATUS_RX_L0 w.ingress && s.flag F.YL_LINK_STATUS_RX_L1 w.ingress) &&
    s.flag F.YL_LINK_STATUS_TX_L0 l && s.flag F.YL_LINK_STATUS_TX_L1 l

/-- The packet whose words link l has received in part, for another node, and the link and prefix with which a cut-through of it has
started (R557): its header is in, the egress holds credits for all of it, and no other packet waits for that link (DESIGN CHOICE,
assumption log 65). -/
def State.startedCut (s : State) (l : Nat) : Option (SwPkt × Nat × Option Nat) :=
  let x := s.link l
  let p := Packet.header (x.words.getD 0 0) (x.words.getD 1 0) (x.words.getD 2 0)
  let transit := x.target.isSome && x.target != some s.node
  let w : SwPkt := { pkt := p, ingress := l, transit := transit, via := if transit then x.target else none, num := 0 }
  if x.words.length < (if p.key.isSome then 4 else 3) || 88 ≤ l || headerBad p || p.isMsg || p.dst = s.node || p.dst = 0xFF ||
    (isEdge l && x.caps.any fun c => c.node != p.src) || (isPeer l && !transit && (s.groupOf p.dst).isEmpty) ||
    (transit && !s.flag F.YL_LINK_CFG_TRANSIT_EN l) || !s.cutThrough w then none
  else match (s.egress w).head? with
    | none => none
    | some e =>
      let n := packetLength x.words |>.getD 0
      let f := if e.2.isSome then F.YL_CREDIT_AVAIL_TRANSIT else F.YL_CREDIT_AVAIL_ORDINARY
      if s.slowIngress w e.1 || s.fld f (e.1 * 6 + p.vc) < cellsOf (n + b2n e.2.isSome) || s.replayFull e.1 20 ||
        s.switch.any (fun v => (s.egress v).any fun g => g.1 == e.1) then none
      else some (w, e.1, e.2)

/-- The ingress of a packet that is being cut through has a link fault before its trailer arrives (R559): its egress completes it with zero
words and a trailer with ABORT set, whose CRC the spec leaves open. -/
def State.abortCut (s : State) (l : Nat) : State :=
  match s.startedCut l with
  | none => s
  | some (w, e, target) =>
    let x := s.link l
    let n := (packetLength x.words).getD 0
    let ws := (match target with | some t => [t * 256 + 3] | none => []) ++
      (x.words ++ List.replicate (n - 1 - x.words.length) 0) ++ [2 ^ 63 + Config.freeNat s.free % 2 ^ 32]
    let fl := cutWords (s.flitRoom e) (ws.length + 1) ws
    let s := { s with free := s.free + 1 }.less (if target.isSome then F.YL_CREDIT_AVAIL_TRANSIT else F.YL_CREDIT_AVAIL_ORDINARY) (e * 6 + w.pkt.vc)
      (cellsOf ws.length)
    let s := s.each fl.length fun s k => s.sendSeq e (fl.getD k []) [] []
    (s.wrap F.YT_PKTS_OUT_COUNT).wrap F.SWC_CT_PKTS_COUNT

/-- A link leaves UP or DEGRADED. -/
def State.leaveUp (s : State) (l st : Nat) : State :=
  let s := s.sendControl l [(s.link l).lcw loRETRAIN_REQ 0 []]
  let s := s.handBack l
  let s := s.setLink l { s.link l with held := false, drop := none, provisional := false, fast := 0 }
  let s := ((s.setLstate l st).setTxLanes l false false).setRxLanes l false false
  s.syncReach

/-- A link fault (R486). -/
def State.linkFault (s : State) (l : Nat) : State :=
  if !s.linkUp l then s else ((s.bump F.YL_FAULT_CNT_COUNT l).abortCut l).leaveUp l lsRECOVER

/-! ## CAPS (R462 to R465, R470, R480) -/

/-- Space of a pool of a link that is charged to its reserve. -/
def State.poolUsed (s : State) (l pool : Nat) : Nat :=
  let own := fun (p : Packet) (transit : Bool) => (if transit then 8 else 0) + p.vc == pool
  ((s.link l).arrived.filter fun a => own a.2.1 a.1.isSome).foldl (fun n a => n + a.2.1.cells) 0 +
    (s.switch.filter fun w => w.ingress == l && !w.shared && own w.pkt w.transit).foldl (fun n w => n + w.pkt.cells) 0

/-- The counts of a CAPS unit (R490, R553): twelve pools, ordinary then transit. -/
def State.capsCredits (s : State) (l : Nat) : List Nat :=
  (List.range 6).map (fun v => s.fld F.SWC_RSV_ORD - s.poolUsed l v) ++
    (List.range 6).map fun v => if isPeer l then s.fld F.SWC_RSV_TRN - s.poolUsed l (8 + v) else 0

/-- Four 16-bit counts of a word. -/
def pack16 (l : List Nat) : Nat := leNat (((l ++ [0, 0, 0, 0]).take 4).flatMap (leBytes 2))

/-- The role of a link by its index (R457). -/
def linkRole (l : Nat) : Nat := if l < 64 then 0 else if l < 88 then 1 else 2

/-- Feature bits that this controller sends (R465, R552): TRANSIT on peer links only. -/
def State.myFeatures (s : State) (l : Nat) : Nat :=
  (if isPeer l then s.fld F.YL_CAPS_FEATURES else s.fld F.YL_CAPS_FEATURES &&& 0xFD) + 0xF00

/-- The CAPS unit this controller sends. -/
def State.myCaps (s : State) (l : Nat) : List Nat :=
  let cr := s.capsCredits l
  [s.fld F.YL_RACK_ID_RACK * 2 ^ 40 + s.node * 2 ^ 32 + linkRole l * 2 ^ 24 + 1 * 2 ^ 16 + 2 * 2 ^ 8 + 4,
   1 * 2 ^ 40 + 4 * 2 ^ 32 + s.myFeatures l, pack16 cr, pack16 (cr.drop 4), pack16 (cr.drop 8)]

/-- A received CAPS unit; none where it carries a reserved encoding. -/
def capsOf (w : List Nat) : Option Caps :=
  let a := w.getD 0 0
  let b := w.getD 1 0
  if bits a 56 8 ≠ 0 || 3 < bits a 24 8 || bits b 48 16 ≠ 0 || w.length ≠ 5 then none
  else some
    { rack := bits a 40 16, node := bits a 32 8, role := bits a 24 8, minor := bits a 16 8, major := bits a 8 8,
      max2 := bits b 40 8, max1 := bits b 32 8, feats := bits b 0 32,
      credits := (w.drop 2).flatMap fun x => (List.range 4).map fun k => bits x (16 * k) 16 }

/-- The version a pair runs (R464). -/
def capsVersion (c : Caps) : Option (Nat × Nat) :=
  if c.max2 ≠ 0xFF then some (2, min 1 c.max2) else if c.max1 ≠ 0xFF then some (1, min 4 c.max1) else none

/-- Features that a version defines (R465, R552). -/
def definedFeatures (v : Nat × Nat) : Nat :=
  let since := fun (a b k : Nat) => if a < v.1 || (a = v.1 && b ≤ v.2) then 2 ^ k else 0
  since 1 2 0 + since 1 3 1 + since 1 0 2 + since 2 0 3 + since 1 0 8 + since 1 1 9 + since 2 0 10 + since 2 1 11

/-- The checks of R470: the failure cause, if one fails. -/
def State.capsCheck (s : State) (l : Nat) (c : Caps) : Option Nat :=
  let ok :=
    if isPeer l then c.role == 0 && decide (c.node < 64) && c.node != s.node && c.rack == s.fld F.YL_RACK_ID_RACK &&
      (!s.flag F.YL_LINK_CFG_EXPECT_VALID l || c.node == s.fld F.YL_LINK_CFG_EXPECT_NODE l)
    else if isEdge l then c.role == 3 && decide (0x40 ≤ c.node) && decide (c.node ≤ 0xBF)
    else c.role == 2 && c.rack != s.fld F.YL_RACK_ID_RACK
  if !ok then some lcROLE else if (capsVersion c).isNone then some lcVERSION else none

/-- Load the credits of a CAPS unit. -/
def State.loadCredits (s : State) (l : Nat) (c : Caps) : State :=
  s.each 6 fun s v =>
    (s.setFld F.YL_CREDIT_AVAIL_ORDINARY (c.credits.getD v 0) (l * 6 + v)).setFld F.YL_CREDIT_AVAIL_TRANSIT
      (c.credits.getD (6 + v) 0) (l * 6 + v)

/-- NEGOTIATE passes (R461): credits are loaded, FSEQ is 0, and the link is up. -/
def State.linkNegotiated (s : State) (l : Nat) (c : Caps) : State :=
  let v := (capsVersion c).getD (0, 0)
  let x := s.link l
  let s := s.setLink l { x with txSeq := 0, rxSeq := 0, nak := 0, unacked := 0, replay := [], words := [], target := none,
                                recovery := false, fast := 0, held := false, drop := none, provisional := false,
                                owed := [], caps := some c, reachSeq := none, reachMap := 0 }
  let s := (s.setFld F.YL_LINK_STATUS_VER_MAJOR v.1 l).setFld F.YL_LINK_STATUS_VER_MINOR v.2 l
  let s := (s.setFld F.YL_LINK_STATUS_NEIGHBOUR c.node l).setFld F.YL_LINK_STATUS_FAIL_CAUSE 0 l
  let s := (s.setFld F.YL_LINK_NEG_NEIGHBOUR_RACK c.rack l).setFld F.YL_LINK_NEG_FEATURES
    (c.feats &&& s.myFeatures l &&& definedFeatures v) l
  let s := s.loadCredits l c
  let s := match x.lane1 with
    | none => (s.setTxLanes l true true).setRxLanes l true true
    | some k => (s.setTxLanes l true true).setRxLanes l (k == 0) (k == 1)
  let s := s.setLstate l (if x.lane1.isNone then lsUP else lsDEGRADED)
  let s := if x.lane1.isSome then s.bump F.YL_DEGRADE_CNT_COUNT l else s
  if isEdge l && s.deadTo c.node then s.sendSync c.node else s

/-- Leave NEGOTIATE when two identical CAPS units have come and the own one is acknowledged (R462); a check that fails
fails the link. -/
def State.tryUp (s : State) (l : Nat) : State :=
  let x := s.link l
  match x.caps with
  | some c =>
    if s.lstate l ≠ lsNEGOTIATE || !x.capsTwice then s
    else match s.capsCheck l c with
      | some cause => s.linkFail l cause
      | none => if x.capsAcked then s.linkNegotiated l c else s
  | none => s

/-- Send a FLIT of NEGOTIATE: the CAPS unit, and the acknowledgement of the neighbour's. -/
def State.sendCaps (s : State) (l : Nat) : State :=
  if s.replayFull l 1 then s
  else
    let x := s.link l
    s.sendSeq l (s.myCaps l ++ (if x.caps.isSome then [x.lcw loCAPS_ACK 0 []] else [])) [] []

/-- Enter NEGOTIATE. -/
def State.negotiate (s : State) (l : Nat) : State :=
  let x := s.link l
  let s := s.setLink l { x with txSeq := 0, rxSeq := 0, nak := 0, unacked := 0, replay := [], words := [], target := none,
                                caps := none, capsTwice := false, capsAcked := false }
  ((s.setLstate l lsNEGOTIATE).startStream l).sendCaps l

/-! ## Units of a FLIT (R475 to R478) -/

/-- A link unit is discarded (R477). -/
def State.unitError (s : State) (l : Nat) : State := s.bump F.YL_UNIT_ERR_COUNT l

/-- Is an LCW free of reserved encodings (R478, R479). -/
def lcwOk (w : Nat) (idle : Bool) : Bool :=
  let op := bits w 56 4
  let arg := bits w 60 4
  let ret := fun (v p c : Nat) => !w.testBit v || (!idle && decide (bits w p 4 % 8 ≤ 5) && bits w c 12 != 0)
  decide (op ≤ 4) && (if op = loLANE_DROP || op = loLANE_RESTORE then decide (arg ≤ 1) else arg == 0) &&
    ret 22 23 27 && ret 39 40 44

/-- Credits come back to a pool. -/
def State.addCredits (s : State) (l pool n : Nat) : State :=
  s.wrap (if pool < 8 then F.YL_CREDIT_AVAIL_ORDINARY else F.YL_CREDIT_AVAIL_TRANSIT) (l * 6 + pool % 8) n

/-- LANE_DROP (R493): the stream goes on with one lane, replayed from the FLIT after ACK_SEQ. -/
def State.laneDrop (s : State) (l lane : Nat) : State :=
  if !s.linkUp l || !(s.flag F.YL_LINK_STATUS_TX_L0 l && s.flag F.YL_LINK_STATUS_TX_L1 l) then s
  else
    let s := s.setTxLanes l (lane ≠ 0) (lane ≠ 1)
    let s := if s.lstate l = lsUP then (s.setLstate l lsDEGRADED).bump F.YL_DEGRADE_CNT_COUNT l else s
    (s.startStream l).resend l

/-- LANE_RESTORE (R495): the stream returns to two lanes. -/
def State.laneRestore (s : State) (l : Nat) : State :=
  if !s.linkUp l then s
  else
    let s := s.setTxLanes l true true
    ((if s.bothWide l then s.setLstate l lsUP else s).startStream l).resend l

/-- An LCW takes effect (R478, R484, R485). -/
def State.takeLcw (s : State) (l w : Nat) : State :=
  let x := s.link l
  let s := if w.testBit 8 then s.setLink l (x.acked (bits w 10 12)).1 else s
  let s := if w.testBit 8 && w.testBit 9 then s.resend l else s
  let s := if w.testBit 22 then s.addCredits l (bits w 23 4) (bits w 27 12) else s
  let s := if w.testBit 39 then s.addCredits l (bits w 40 4) (bits w 44 12) else s
  match bits w 56 4 with
  | 1 => s.laneDrop l (bits w 60 4)
  | 2 => s.laneRestore l
  | 3 => s.linkFault l
  | 4 => (s.setLink l { s.link l with capsAcked := true }).tryUp l
  | _ => s

/-- A CAPS unit (R462). -/
def State.takeCaps (s : State) (l : Nat) (c : Caps) : State :=
  let x := s.link l
  ((s.setLink l { x with caps := some c, capsTwice := x.capsTwice || x.caps == some c }).sendCaps l).tryUp l

/-- A REACH unit (R497): one that is not newer is ignored. -/
def State.takeReach (s : State) (l w map : Nat) : State :=
  let x := s.link l
  let q := bits w 16 16
  if x.reachSeq.any fun o => decide (32768 ≤ (q + 65536 - o) % 65536) || q == o then s
  else s.setLink l { x with reachSeq := some q, reachMap := BitVec.ofNat 64 map }

/-- Take the words of an accepted FLIT unit by unit; `fuel` bounds the words. -/
def State.takeUnits : Nat → State → Nat → List Nat → State
  | 0, s, _, _ => s
  | _, s, _, [] => s
  | k + 1, s, l, w :: rest =>
    let x := s.link l
    let neg := s.lstate l == lsNEGOTIATE
    let up := s.linkUp l
    if !neg && !up then s
    else if !x.words.isEmpty || 8 ≤ w % 256 then
      let ws := x.words ++ [w]
      let whole := (packetLength ws).any fun n => decide (n ≤ ws.length)
      let s := if !whole then s.setLink l { x with words := ws }
        else if up then
          let p := Packet.ofWords ws
          s.setLink l { x with words := [], target := none, arrived := x.arrived ++ [(x.target, p.1, p.2)] }
        else (s.setLink l { x with words := [], target := none }).unitError l
      State.takeUnits k s l rest
    else if x.target.isSome then
      -- a prefix that no packet follows
      State.takeUnits k ((s.setLink l { x with target := none }).unitError l) l (w :: rest)
    else if w % 256 = 0 then State.takeUnits k (if w = 0 then s else s.unitError l) l rest
    else if w % 256 = 1 then State.takeUnits k (if lcwOk w false then s.takeLcw l w else s.unitError l) l rest
    else if w % 256 = 2 then
      match rest with
      | m :: rest' =>
        State.takeUnits k (if up && isPeer l && bits w 32 32 = 0 && bits w 8 8 = s.neighbour l then s.takeReach l w m else s.unitError l) l rest'
      | [] => s.unitError l
    else if w % 256 = 3 then
      State.takeUnits k (if up && isPeer l && bits w 16 48 = 0 then s.setLink l { x with target := some (bits w 8 8) } else s.unitError l) l rest
    else if w % 256 = 4 then
      (if rest.length < 4 then s.unitError l
       else match capsOf (w :: rest.take 4) with
         | some c => State.takeUnits k (if neg then s.takeCaps l c else s.unitError l) l (rest.drop 4)
         | none => State.takeUnits k (s.unitError l) l (rest.drop 4))
    else State.takeUnits k (s.unitError l) l rest

/-- FLIT_RECEIVE (R482): a FLIT arrives after the decoder, which corrected `cw` codewords with `s0` and `s1` symbols of the
two lanes, or found an uncorrectable one. -/
def execFlitReceive (l : Nat) (b : List Byte) (uncorrectable : Bool) (cw s0 s1 : Nat) (s : State) : Out :=
  run (.flitReceive l b uncorrectable cw s0 s1) <| s.clocked <|
    if !s.linkUp l && s.lstate l ≠ lsNEGOTIATE then s
    else
      let s := s.wrap F.YL_FEC_CORR_CW_COUNT l cw
      let s := (s.wrap F.YL_FEC_SYM0_COUNT l s0).wrap F.YL_FEC_SYM1_COUNT l s1
      match (s.link l).judge b uncorrectable with
      | .bad =>
        s.flitBad l fun s =>
          (s.bump (if uncorrectable then F.YL_FEC_UNCORR_COUNT else F.YL_CRC_ERR_COUNT) l).bump F.YL_REPLAY_CNT_COUNT l
      | .idle =>
        (flitWords b).foldl (fun s w =>
          if w = 0 then s
          else if w % 256 = 1 && s.idleControl l && lcwOk w true then s.takeLcw l w
          else s.unitError l) s
      | .sequenced => ((State.takeUnits 31 ((s.flitTaken l).wrap F.YL_RX_FLITS_COUNT l) l (flitWords b))).ackDue l

/-- ACK_TIMER (R482, R573; links 96 to 111 are the tile stream ports here and in the timers below): 100 ns after a sequenced FLIT that is not acknowledged yet. -/
def execAckTimer (l : Nat) (s : State) : Out :=
  run (.ackTimer l) <| s.clocked <| if 96 ≤ l then s.portAckTimer (l - 96) else if (s.link l).unacked = 0 || !s.linkUp l then s else s.sendAck l

/-- NAK_REPEAT (R483, R486): the NAK is sent again; the fourth for one FSEQ is a link fault. -/
def execNakRepeat (l : Nat) (s : State) : Out :=
  run (.nakRepeat l) <| s.clocked <|
    if 96 ≤ l then s.portNakRepeat (l - 96) else
    let x := s.link l
    if x.nak = 0 || !s.linkUp l then s
    else
      let s := ((s.setLink l { x with nak := x.nak + 1 }).bump F.YL_REPLAY_CNT_COUNT l).sendAck l
      if 4 ≤ x.nak + 1 then s.linkFault l else s

/-! ## Training (R461) -/

/-- DETECT_SIGNAL: signal on both receive lanes. -/
def execDetectSignal (l : Nat) (s : State) : Out :=
  run (.detectSignal l) <| s.clocked <|
    if s.lstate l ≠ lsDETECT then s else (s.setLink l { s.link l with lane1 := none }).setLstate l lsEQUALIZE

/-- DETECT_ONE_LANE_TIMEOUT: signal on one receive lane for 10 ms. -/
def execDetectOneLaneTimeout (l lane : Nat) (s : State) : Out :=
  run (.detectOneLaneTimeout l lane) <| s.clocked <|
    if s.lstate l ≠ lsDETECT || !s.flag F.YL_LINK_CFG_DEGRADE_EN l then s
    else (s.setLink l { s.link l with lane1 := some lane }).setLstate l lsEQUALIZE

/-- EQUALIZE_CONVERGED. -/
def execEqualizeConverged (l : Nat) (s : State) : Out :=
  run (.equalizeConverged l) <| s.clocked <| if s.lstate l = lsEQUALIZE then s.setLstate l lsLOCK else s

/-- EQUALIZE_TIMEOUT. -/
def execEqualizeTimeout (l : Nat) (s : State) : Out :=
  run (.equalizeTimeout l) <| s.clocked <| if s.lstate l = lsEQUALIZE then s.linkFail l lcTRAIN else s

/-- LOCK_ACHIEVED: alignment and codeword lock on every trained lane. -/
def execLockAchieved (l : Nat) (s : State) : Out :=
  run (.lockAchieved l) <| s.clocked <|
    if s.lstate l ≠ lsLOCK then s
    else
      let one := (s.link l).lane1
      (s.setLock l (one ≠ some 1) (one ≠ some 0)).negotiate l

/-- LOCK_TIMEOUT. -/
def execLockTimeout (l : Nat) (s : State) : Out :=
  run (.lockTimeout l) <| s.clocked <| if s.lstate l = lsLOCK then s.linkFail l lcLOCK else s

/-- NEGOTIATE_TIMEOUT (R462). -/
def execNegotiateTimeout (l : Nat) (s : State) : Out :=
  run (.negotiateTimeout l) <| s.clocked <| if s.lstate l = lsNEGOTIATE then s.linkFail l lcVERSION else s

/-- FAST_RETRAIN_DONE (R461): a fast retrain ends. It passes if lock was reached (`ok`) and the neighbour's CAPS unit
meets the checks; the third that fails is followed by full training. -/
def execFastRetrainDone (l : Nat) (ok : Bool) (caps : List Nat) (lane : Nat) (s : State) : Out :=
  run (.fastRetrainDone l ok caps lane) <| s.clocked <|
    if s.lstate l ≠ lsRECOVER then s
    else
      let s := (s.bump F.YL_RETRAIN_CNT_FAST l).lifeAdd 0x5060 (l + 1) 1
      let x := s.link l
      let pass := match capsOf caps with
        | some c => if ok && (s.capsCheck l c).isNone then some c else none
        | none => none
      match pass with
      | some c => (((s.setLink l { x with txSeq := 0, lane1 := if lane < 2 then some lane else none }).startStream l).sendCaps l).linkNegotiated l c
      | none =>
        if x.fast + 1 < 3 then s.setLink l { x with fast := x.fast + 1 }
        else
          let s := (s.bump F.YL_RETRAIN_CNT_FULL l).lifeAdd 0x5060 (l + 1) 1
          (s.setLink l { x with fast := 0, recovery := true }).setLstate l lsDETECT

/-- FAILED_RETRY: 10 s in FAILED with RETRY_EN; a failed negotiation is not retried. -/
def execFailedRetry (l : Nat) (s : State) : Out :=
  run (.failedRetry l) <| s.clocked <|
    let c := s.fld F.YL_LINK_STATUS_FAIL_CAUSE l
    if s.lstate l ≠ lsFAILED || !s.flag F.YL_LINK_CTRL_RETRY_EN l || c = lcVERSION || c = lcROLE then s
    else s.setLstate l lsDETECT

/-! ## Registers of a link -/

/-- A write of YL_LINK_CTRL. -/
def State.writeLinkCtrl (s : State) (l : Nat) (v : Word) : State :=
  let s := s.plainWrite .YL_LINK_CTRL l v
  let off := F.YL_LINK_CTRL_DISABLE.get v != 0
  let st := s.lstate l
  if off then
    (if st = lsDISABLED then s
     else if s.linkUp l then s.leaveUp l lsDISABLED
     else (s.setLink l { s.link l with recovery := false, fast := 0 }).setLstate l lsDISABLED)
  else
    let s := if st = lsDISABLED && s.ylLocked && s.flag F.YL_LINK_CFG_EN l && !s.linkHeld l then s.setLstate l lsDETECT else s
    if F.YL_LINK_CTRL_RETRAIN.get v = 0 then s
    else if s.linkUp l then s.linkFault l
    else if st = lsFAILED then s.setLstate l lsDETECT
    else s

/-- RETRAIN (R461, R486). -/
def execRetrain (src : Source) (l : Nat) (s : State) : Out :=
  run (.retrain src l) <| s.clocked <| s.gated src .YL_LINK_CTRL l fun s =>
    s.writeLinkCtrl l (F.YL_LINK_CTRL_RETRAIN.put (s.rd .YL_LINK_CTRL l) 1)

/-- LINK_DISABLE. -/
def execLinkDisable (src : Source) (l : Nat) (s : State) : Out :=
  run (.linkDisable src l) <| s.clocked <| s.gated src .YL_LINK_CTRL l fun s =>
    s.writeLinkCtrl l (F.YL_LINK_CTRL_DISABLE.put (s.rd .YL_LINK_CTRL l) 1)

/-- LINK_DISABLE_CLEAR. -/
def execLinkDisableClear (src : Source) (l : Nat) (s : State) : Out :=
  run (.linkDisableClear src l) <| s.clocked <| s.gated src .YL_LINK_CTRL l fun s =>
    s.writeLinkCtrl l (F.YL_LINK_CTRL_DISABLE.put (s.rd .YL_LINK_CTRL l) 0)

/-! ## One lane lost (R492 to R495) -/

/-- RECEIVE_LANE_LOSS: the lanes of the mask lose signal or lock, or exceed the error ratio. -/
def execReceiveLaneLoss (l mask : Nat) (s : State) : Out :=
  run (.receiveLaneLoss l mask) <| s.clocked <|
    if !s.linkUp l then s
    else
      let x := s.link l
      let lost := (List.range 2).filter fun k => mask.testBit k &&
        s.flag (if k = 0 then F.YL_LINK_STATUS_RX_L0 else F.YL_LINK_STATUS_RX_L1) l
      match lost with
      | [] => s
      | [k] =>
        if !s.feature l 0 || !s.flag F.YL_LINK_CFG_DEGRADE_EN l || x.drop.isSome || x.lane1.isSome then s.linkFault l
        else
          let s := s.setLink l { x with drop := some k, provisional := false }
          let s := (s.setRxLanes l (k ≠ 0) (k ≠ 1)).setFlag (if k = 0 then F.YL_LANE_STATUS_RX0_LOCK else F.YL_LANE_STATUS_RX1_LOCK) false l
          let s := if s.lstate l = lsUP then (s.setLstate l lsDEGRADED).bump F.YL_DEGRADE_CNT_COUNT l else s
          s.sendControl l []
      | _ => s.linkFault l

/-- FLIT_ACCEPT_TIMEOUT (R486). -/
def execFlitAcceptTimeout (l : Nat) (s : State) : Out :=
  run (.flitAcceptTimeout l) (s.clocked (if 96 ≤ l then s.portFault (l - 96) else s.linkFault l))

/-- REPLAY_ACK_TIMEOUT (R486). -/
def execReplayAckTimeout (l : Nat) (s : State) : Out :=
  run (.replayAckTimeout l) <| s.clocked <| if (s.link l).replay.isEmpty then s else if 96 ≤ l then s.portFault (l - 96) else s.linkFault l

/-- ONE_LANE_MARKER (R494): the first marker gives provisional lock, the second confirms it or not. -/
def execOneLaneMarker (l : Nat) (ok : Bool) (s : State) : Out :=
  run (.oneLaneMarker l ok) <| s.clocked <|
    if 96 ≤ l then s.portMarker (l - 96) ok else
    let x := s.link l
    if x.drop.isNone || !s.linkUp l then s
    else if !x.provisional then s.setLink l { x with provisional := true }
    else if ok then s else s.linkFault l

/-- LANE_DROP_LOCK_TIMEOUT (R494). -/
def execLaneDropLockTimeout (l : Nat) (s : State) : Out :=
  run (.laneDropLockTimeout l) <| s.clocked <|
    let x := s.link l
    if x.drop.isSome && !x.provisional then (if 96 ≤ l then s.portFault (l - 96) else s.linkFault l) else s

/-- LANE_TEST (R495): the error ratios of the last second, and whether the dropped receive lane has held for 1 s. -/
def execLaneTest (l : Nat) (hold : Bool) (ser0 ser1 : Nat) (s : State) : Out :=
  run (.laneTest l hold ser0 ser1) <| s.clocked <|
    if 96 ≤ l then s.portLaneTest (l - 96) hold ser0 else
    let s := (s.setFld F.YL_LANE_STATUS_RX0_SER ser0 l).setFld F.YL_LANE_STATUS_RX1_SER ser1 l
    let x := s.link l
    match x.drop with
    | none => s
    | some k =>
      if !hold || !s.linkUp l || !x.provisional then s
      else
        let s := s.sendControl l [x.lcw loLANE_RESTORE k []]
        let s := s.setLink l { s.link l with drop := none, provisional := false }
        let s := (s.setRxLanes l true true).setLock l true true
        if s.bothWide l then s.setLstate l lsUP else s

/-! ## Reach (R496, R497) -/

/-- REACH_PERIODIC: every 1 ms a REACH unit is sent on a peer link. -/
def execReachPeriodic (l : Nat) (s : State) : Out :=
  run (.reachPeriodic l) <| s.clocked <| if isPeer l && s.linkUp l then s.sendReach l else s

/-- REACH_STALE: no REACH unit from a peer for 3 ms. -/
def execReachStale (l : Nat) (s : State) : Out :=
  run (.reachStale l) <| s.clocked <| s.setLink l { s.link l with reachMap := 0 }

/-- REACH_HOLD: a peer link has been up for 1 ms. -/
def execReachHold (l : Nat) (s : State) : Out :=
  run (.reachHold l) <| s.clocked <|
    if isPeer l && s.linkUp l then (s.setLink l { s.link l with held := true }).syncReach else s

/-! ## Commit of the link configuration (R507) -/

/-- The first link whose snapshot sets EXPECT_NODE off a peer link or outside 0x00 to 0x3F. -/
def State.expectBad (s : State) : Option Nat :=
  (List.range 96).find? fun l =>
    let v := s.snapOf .yl 0 .YL_LINK_CFG l
    F.YL_LINK_CFG_EXPECT_VALID.get v != 0 && (!isPeer l || decide (63 < F.YL_LINK_CFG_EXPECT_NODE.get v))

/-- A commit of the group. -/
def State.commitYl (s : State) : State :=
  let s := s.beginCommit .yl 0
  if s.ylLocked then s.rejectCommit .yl 0 1
  else match s.expectBad with
    | some l => (s.setFld F.YL_CFG_STATUS_FAIL_LINK l).rejectCommit .yl 0 2
    | none => s

/-- YL_CFG_COMMIT (R507). -/
def execYlCfgCommit (src : Source) (s : State) : Out :=
  run (.ylCfgCommit src) <| s.clocked <| s.gated src .YL_CFG_COMMIT 0 State.commitYl

/-- Links that configuration enables leave DISABLED where nothing holds them there (R461). -/
def State.enableLinks (s : State) : State :=
  s.each 96 fun s l =>
    if s.lstate l = lsDISABLED && s.ylLocked && s.flag F.YL_LINK_CFG_EN l && !s.flag F.YL_LINK_CTRL_DISABLE l && !s.linkHeld l then
      s.setLstate l lsDETECT
    else s

/-- What an accepted commit does at its safe point (R460, R461, R507). -/
def State.applyYl (s : State) : State := { s.finishCommit .yl 0 with ylLocked := true }.enableLinks

end Sys2Proof.Machine
end

