-- ==== Sys2Proof/Machine/Switch.lean ====
section
/-!
DEFINITION. The switch core (11_yalig_transactions.md): ingress and its discards, the resequencer, egress, transit of
detoured packets, SACK and retransmission, and the management packets.
-/

namespace Sys2Proof.Machine

/-! ## Credits of the ingress (R488 to R491, R554) -/

/-- Give credits of a pool back to the neighbour (pool: VC, or 8 + VC for transit). They go out with the next sequenced
FLIT that the replay buffer has room for. -/
def poolIndex (pool : Nat) : Nat := if pool < 8 then pool else pool - 2

def LinkSt.owe (x : LinkSt) (pool n : Nat) : LinkSt :=
  let o := (x.owed ++ List.replicate 12 0).take 12
  { x with owed := o.set (poolIndex pool) (o.getD (poolIndex pool) 0 + n) }

/-- Pairs for the LCWs of one FLIT. -/
def pairUp : List (Nat × Nat) → List (List (Nat × Nat))
  | a :: b :: r => [a, b] :: pairUp r
  | [a] => [[a]]
  | [] => []

def State.flushCredits (s : State) (l : Nat) : State :=
  let x := s.link l
  let due := (List.range 12).filterMap fun i =>
    let n := min 4095 (x.owed.getD i 0)
    if n = 0 then none else some (if i < 6 then i else i + 2, n)
  if due.isEmpty || s.replayFull l 1 || !s.linkUp l then s
  else
    let x' := { x with owed := (List.range 12).map fun i => x.owed.getD i 0 - min 4095 (x.owed.getD i 0) }
    (s.setLink l x').sendSeq l ((pairUp due).map fun c => x.lcw loNONE 0 c) [] []

/-- A packet's cells of an ingress link's reserve are free again. -/
def State.freeIngress (s : State) (l pool n : Nat) : State :=
  if 5 < pool % 8 || !s.linkUp l then s else (s.setLink l ((s.link l).owe pool n)).flushCredits l

/-! ## The shared area (R553, R554) -/

/-- Free cells outside all reserves. -/
def State.sharedFree (s : State) : Nat :=
  3145728 - (96 * 6 * s.fld F.SWC_RSV_ORD + 64 * 6 * s.fld F.SWC_RSV_TRN) -
    (s.switch.filter (·.shared)).foldl (fun n w => n + w.pkt.cells) 0

/-- Is a received packet charged to the shared area: the cells queued for its egress port and TC are fewer than α times
the free cells. -/
def State.chargesShared (s : State) (w : SwPkt) : Bool :=
  let port := fun (v : SwPkt) => ((s.egress v).map (·.1)).head?
  let queued := (s.switch.filter fun v => v.pkt.tc == w.pkt.tc && port v == port w).foldl (fun n v => n + v.pkt.cells) 0
  decide (queued * 8 < 2 ^ s.fld F.SWC_CFG_ALPHA * s.sharedFree)

/-! ## The resequencer (R531, R532) -/

/-- Send a SACK on a receiving stream: to a node, or over an uplink group (node 256 + group). -/
def State.sendSack (s : State) (n vc : Nat) : State :=
  let x := s.rx (n * 8 + vc)
  let s := s.setRx (n * 8 + vc) { x with due := 0, seen := false }
  let p : Packet := { op := opSACK, dst := n % 256, src := s.node, vc := 1, tc := 7, seq := (x.next + 65535) % 65536, off := vc }
  s.enterSwitch { pkt := p, ingress := 97, group := if 256 ≤ n then some (n - 256) else none, num := 0 }

/-- A packet is delivered to the home agents or the engines. -/
def State.deliver (s : State) (p : Packet) : State :=
  { s.mirror (homePort p false) 1 p true false with inbox := s.inbox ++ [p] }

/-- Take held packets that now follow in order; `fuel` bounds them. -/
def takeHeld : Nat → RxStream → RxStream × List Packet
  | 0, x => (x, [])
  | k + 1, x =>
    match x.held.find? fun p => p.seq == x.next with
    | none => (x, [])
    | some p =>
      let r := takeHeld k { x with next := (x.next + 1) % 65536, held := x.held.erase p }
      (r.1, p :: r.2)

/-- A sequenced packet arrives on a stream; what is delivered in order is handed to `f` (R531), and a SACK goes out at
least every 32 delivered packets (R532). -/
def State.reseq (s : State) (n : Nat) (p : Packet) (f : State → Packet → State) : State :=
  let k := n * 8 + p.vc
  let x := s.rx k
  let d := (p.seq + 65536 - x.next) % 65536
  if 32768 ≤ d then (s.bump F.YT_SEQ_DUP_COUNT).setRx k { x with seen := true }
  else if 512 ≤ d then s.bump F.YT_SEQ_WINDOW_COUNT
  else if d ≠ 0 then s.setRx k { x with seen := true, held := if x.held.any fun q => q.seq == p.seq then x.held else x.held ++ [p] }
  else
    let r := takeHeld 512 { x with next := (x.next + 1) % 65536 }
    let l := p :: r.2
    let s := s.setRx k { r.1 with due := x.due + l.length, seen := true }
    let s := l.foldl f s
    if 32 ≤ x.due + l.length then s.sendSack n p.vc else s

/-! ## Ingress (R511 to R514, R519, R522, R542 to R544, R549) -/

/-- The response to a request, without data (R519). -/
def responseTo (p : Packet) (status : Nat) : Option Packet :=
  let ans := fun (op : Nat) => some ({ op := op, dst := p.src, src := 0, part := p.part, tc := p.tc, tag := p.tag, off := p.off, status := status } : Packet)
  if p.op = opRD then ans opRD_DATA
  else if p.op = opWR || p.op = opRDEREG then ans opWR_ACK
  else if p.op = opATOM then ans opATOM_DATA
  else if p.op = opFENCE then ans opFENCE_ACK
  else if p.op = opSRD then ans opSRD_DATA
  else if p.op = opSUPD then ans opSUPD_ACK
  else if p.op = opRINV then ans opRINV_ACK
  else if p.op = opMSG then ans opMSG_ACK |>.map fun (q : Packet) => { q with off := p.srcRack * 2 ^ 32 + p.dstRack * 2 ^ 16 + p.off % 65536 }
  else none

def State.answer (s : State) (p : Packet) (status : Nat) : State :=
  match responseTo p status with
  | some q => s.sendPacket q
  | none => s

/-- SYNC belongs to no stream (R536). -/
def isSync (p : Packet) : Bool := p.op == opMGMT && leAt p.data 0 1 == 1

/-- The uplink group that a link belongs to (R504, R543). -/
def State.groupOfLink (s : State) (l : Nat) : Nat := ((List.range 16).find? fun k => (s.groupLinks k).contains l).getD 0

/-- The half of this controller that a packet for it, or of it, ends or begins in (R22, R26, R51, R878): the home of the offset that a request
names, the engine that awaits a response, the half behind a register of the control window (`l` the link); the leading cores else. -/
def State.packetHalf (s : State) (p : Packet) (l : Nat) (sending : Bool) : Half :=
  let answer := [opRD_DATA, opWR_ACK, opATOM_DATA, opFENCE_ACK, opSRD_DATA, opSUPD_ACK, opRINV_ACK].contains p.op
  let rows := p.op = opRINV || p.op = opRINV_ACK
  if p.isMsg || p.op = opMGMT || p.op = opSACK then s.leader
  else if p.op = opCOH then s.homeHalf p.off
  else if answer = sending then
    -- the home's side of the exchange
    if rows then linkHalf l
    else if s.region p.off = .control then
      let o := p.off - ctlBase
      if 0x200000 ≤ o && o < 0x230000 then linkHalf ((o - 0x200000) / 0x800)
      else if 0x230000 ≤ o && o < 0x240000 then portHalf ((o - 0x230000) / 0x1000)
      else if 0xE0000 ≤ o && o < 0xF0000 then .west
      else match bar0Halves o with
        | [h] => h
        | [] => .east
        | _ => linkHalf l
    else s.homeHalf p.off
  else if rows then s.homeHalf p.off
  else ((s.reqs.find? fun r => r.tag == p.tag && r.node == (if sending then p.dst else p.src)).map (·.client.half)).getD .east

/-- A packet crosses the bridge between the link it takes and the half it ends or begins in. -/
def State.crossPacket (s : State) (p : Packet) (l : Nat) (sending : Bool) : State :=
  let h := s.packetHalf p l sending
  let n := 8 * p.words
  if sending then s.cross h (linkHalf l) n else s.cross (linkHalf l) h n

/-- A packet for another node passes through. -/
def State.passOn (s : State) (l : Nat) (p : Packet) (transit : Bool) : State :=
  let via := if transit then some s.node else none
  let free := fun (s : State) => s.freeIngress l ((if transit then 8 else 0) + p.vc) (cellsWith p via)
  if isPeer l && (s.groupOf p.dst).isEmpty && !p.isMsg && (responseTo p psOK).isSome then
    (free s).answer p psNOT_MSG
  else if 0x40 ≤ p.dst && (s.groupOf p.dst).isEmpty && (s.viaNode p.dst).isNone then (free s).answer p psUNREACHABLE
  else
    let w : SwPkt := { pkt := p, ingress := l, transit := transit, via := via, num := 0 }
    let w := { w with shared := s.chargesShared w }
    let s := s.enterSwitch w
    if w.shared then free s else s

/-- A packet has arrived whole over link `l`, without a DETOUR prefix or with one that names this node (`transit`). -/
def State.arrive (s : State) (l : Nat) (p : Packet) (good transit : Bool) : State :=
  let free := fun (s : State) => s.freeIngress l ((if transit then 8 else 0) + p.vc) (cellsWith p (if transit then some s.node else none))
  let drop := fun (s : State) (f : Fld) => free (s.bump f)
  if !good then drop s F.YT_PKT_CRC_COUNT
  else if headerBad p then drop s F.YT_HDR_ERR_COUNT
  else if isEdge l && (s.link l).caps.any (fun c => c.node != p.src) then drop s F.YT_SRC_ERR_COUNT
  else
  let free := fun (s : State) => free (if p.dst = s.node then s.crossPacket p l false else s)
  if 88 ≤ l then
    let g := 256 + s.groupOfLink l
    if !p.isMsg && p.op ≠ opSACK then drop s F.YT_NOT_MSG_COUNT
    else if p.op = opSACK then (free s).deliver { p with src := g }
    else if p.dstRack ≠ s.fld F.YL_RACK_ID_RACK then drop s F.YT_NOT_MSG_COUNT
    else (free s).reseq g p fun s p => if p.dst = s.node then s.deliver p else s.sequence p l none
  else if p.dst = 0xFF then (free s).deliver p
  else if p.isMsg && p.dstRack ≠ s.fld F.YL_RACK_ID_RACK then
    (match s.groupFor p with
     | none => (free s).answer p psUNREACHABLE
     | some g => (free s).sequence p l (some g))
  else if p.dst ≠ s.node then s.passOn l p transit
  else if p.op = opSACK || isSync p then (free s).deliver p
  else
    -- a message of another rack is a packet of the controller that took it in (R544)
    let from_ := if p.isMsg && p.srcRack ≠ s.fld F.YL_RACK_ID_RACK && isPeer l then s.neighbour l else p.src
    (free s).reseq from_ p State.deliver

/-- PACKET_INGRESS (R554): the oldest packet that arrived over a link enters the switch core. -/
def execPacketIngress (l : Nat) (s : State) : Out :=
  run (.packetIngress l) <| s.clocked <|
    let x := s.link l
    match x.arrived with
    | (none, p, good) :: rest =>
      let s := (s.setLink l { x with arrived := rest }).wrap F.YT_PKTS_IN_COUNT
      let s := s.mirror l 0 p (s.cutThrough { pkt := p, ingress := l, num := 0 }) false
      s.arrive l p good false
    | _ => s

/-- DETOUR_PACKET (R500): the oldest packet that arrived over a link carries a DETOUR prefix. -/
def execDetourPacket (l : Nat) (s : State) : Out :=
  run (.detourPacket l) <| s.clocked <|
    let x := s.link l
    match x.arrived with
    | (some t, p, good) :: rest =>
      let s := (s.setLink l { x with arrived := rest }).wrap F.YT_PKTS_IN_COUNT
      let s := s.mirror l 0 p (s.cutThrough { pkt := p, ingress := l, num := 0 }) true
      let cells := (8 * (p.words + 1) + 63) / 64
      let free := fun (s : State) => s.freeIngress l (8 + p.vc) cells
      if t = s.node then s.arrive l p good true
      else if !good then free (s.bump F.YT_PKT_CRC_COUNT)
      else if headerBad p then free (s.bump F.YT_HDR_ERR_COUNT)
      else if !s.flag F.YL_LINK_CFG_TRANSIT_EN l then free ((s.unitError l).unitError l)
      else if (s.peersTo t).isEmpty then free (s.bump F.YL_DETOUR_DROP_COUNT)
      else
        let w : SwPkt := { pkt := p, ingress := l, transit := true, via := some t, num := 0 }
        let w := { w with shared := s.chargesShared w }
        let s := s.enterSwitch w
        if w.shared then free s else s
    | _ => s

/-! ## Egress (R488, R489, R556 to R558) -/

/-- At most 512 packets of a stream of this controller are uncovered on the way (R530). -/
def State.inStreamWindow (s : State) (w : SwPkt) : Bool :=
  if (w.ingress < 96 && w.group.isNone) || !w.pkt.sequenced || isSync w.pkt then true
  else
    match (s.tx (streamKey w.pkt.dst w.group w.pkt.vc)).store with
    | p :: _ => decide ((w.pkt.seq + 65536 - p.seq) % 65536 < 512)
    | [] => true

/-- The packets a link could send now, with their prefixes: the oldest of each ingress port, VC and TC, if the pool
holds credits for it. -/
def State.sendable (s : State) (l : Nat) : List (SwPkt × Option Nat) :=
  let c := s.switch.filterMap fun w => ((s.egress w).find? fun e => e.1 == l).map fun e => (w, e.2)
  let first := c.filter fun a => s.inStreamWindow a.1 && !(c.any fun b => b.1.num < a.1.num && b.1.ingress == a.1.ingress &&
    b.1.pkt.vc == a.1.pkt.vc && b.1.pkt.tc == a.1.pkt.tc && s.inStreamWindow b.1)
  first.filter fun a =>
    let f := if a.2.isSome then F.YL_CREDIT_AVAIL_TRANSIT else F.YL_CREDIT_AVAIL_ORDINARY
    decide (cellsWith a.1.pkt a.2 ≤ s.fld f (l * 6 + a.1.pkt.vc))

/-- The oldest of some packets. -/
def oldest (c : List (SwPkt × Option Nat)) : Option (SwPkt × Option Nat) :=
  c.foldl (fun (b : Option (SwPkt × Option Nat)) a => match b with
    | none => some a
    | some x => if a.1.num < x.1.num then some a else some x) none

/-- Of one TC, VC1 goes before VC0 and VC4. -/
def ofTc (c : List (SwPkt × Option Nat)) (tc : Nat) : Option (SwPkt × Option Nat) :=
  let l := c.filter fun a => a.1.pkt.tc == tc
  let v1 := l.filter fun a => a.1.pkt.vc == 1
  oldest (if v1.isEmpty then l else v1)

/-- Deficit round robin over the TCs: the TC served next has a deficit of at least its packet's cells; each visit adds
its weight. Answers the packet, the TC and the deficits (assumption log). -/
def State.drr (s : State) (c : List (SwPkt × Option Nat)) : Nat → Nat → List Nat → Option ((SwPkt × Option Nat) × Nat × List Nat)
  | 0, _, _ => none
  | k + 1, tc, ds =>
    match ofTc c tc with
    | none => s.drr c k ((tc + 1) % 8) (ds.set tc 0)
    | some a =>
      let n := cellsWith a.1.pkt a.2
      if n ≤ ds.getD tc 0 then some (a, tc, ds.set tc (ds.getD tc 0 - n))
      else
        let ds := ds.set tc (ds.getD tc 0 + bits (s.rd .SWC_TC_WEIGHT).toNat (8 * tc) 8)
        if n ≤ ds.getD tc 0 then some (a, tc, ds.set tc (ds.getD tc 0 - n))
        else s.drr c k ((tc + 1) % 8) ds

/-- The packet a link sends next (R556), and the link with the round robin advanced. -/
def State.chooseEgress (s : State) (l : Nat) : Option ((SwPkt × Option Nat) × LinkSt) :=
  let c := s.sendable l
  let x := s.link l
  let at_ := fun (v : Nat) => oldest (c.filter fun a => a.1.pkt.vc == v)
  match at_ 5, at_ 3, at_ 2 with
  | some a, _, _ => some (a, x)
  | none, some a, _ => some (a, x)
  | none, none, some a => some (a, x)
  | none, none, none =>
    (s.drr c 1024 x.turn ((x.deficit ++ List.replicate 8 0).take 8)).map fun r => (r.1, { x with turn := r.2.1, deficit := r.2.2 })

/-- Send a packet over a link: its credits are taken, its FLITs go into the replay buffer, and what it held of its
ingress is free. -/
def State.sendOver (s : State) (l : Nat) (w : SwPkt) (target : Option Nat) : State :=
  let ws := (match target with | some t => [t * 256 + 3] | none => []) ++ w.pkt.toWords
  let fl := cutWords (s.flitRoom l) (ws.length + 1) ws
  let cut := s.cutThrough w && !s.slowIngress w l
  let s := (s.less (if target.isSome then F.YL_CREDIT_AVAIL_TRANSIT else F.YL_CREDIT_AVAIL_ORDINARY) (l * 6 + w.pkt.vc) (cellsWith w.pkt target))
  let s := ({ s with switch := s.switch.filter fun v => v.num ≠ w.num } : State).syncSwitch
  let n := fl.length
  let s := s.each n fun s k => s.sendSeq l (fl.getD k []) (if k + 1 = n then [w] else []) []
  let s := (s.wrap F.YT_PKTS_OUT_COUNT).wrap (if cut then F.SWC_CT_PKTS_COUNT else F.SWC_SF_PKTS_COUNT)
  let s := s.mirror l 1 w.pkt cut target.isSome
  let s := if 96 ≤ w.ingress then s.crossPacket w.pkt l true else s.cross (linkHalf w.ingress) (linkHalf l) (8 * w.pkt.words)
  let s := if w.transit && isPeer l then s.wrap F.YL_DETOUR_FWD_COUNT l else s
  let s := match (if w.mid.isSome then none else target) with
    | some t => { s.setBit .YL_DETOUR_ACTIVE 0 t true with detourTurn := sput 0 t ((sget 0 s.detourTurn t + 1) % 64) s.detourTurn }
    | none => s
  if w.shared || 96 ≤ w.ingress then s
  else s.freeIngress w.ingress ((if w.transit then 8 else 0) + w.pkt.vc) (cellsWith w.pkt w.via)

/-- PACKET_EGRESS (R556): a link chooses and sends its next packet. -/
def execPacketEgress (l : Nat) (s : State) : Out :=
  run (.packetEgress l) <| s.clocked <|
    if !s.linkUp l then s
    else match s.chooseEgress l with
      | none => s
      | some (a, x) => if s.replayFull l 20 then s else (s.setLink l x).sendOver l a.1 a.2

/-- A nanosecond in which packets of a VC wait for ordinary credits of a link (YL_CREDIT_STALL). -/
def State.creditStall (s : State) : State :=
  if s.switch.isEmpty then s
  else s.each 96 fun s l =>
    if !s.linkUp l then s
    else s.each 6 fun s v =>
      if s.switch.any fun w => w.pkt.vc == v && (s.egress w).any fun e => e.1 == l && e.2.isNone &&
          decide (s.fld F.YL_CREDIT_AVAIL_ORDINARY (l * 6 + v) < w.pkt.cells)
      then s.wrap F.YL_CREDIT_STALL_COUNT (l * 6 + v) else s

/-- MIRROR_RECORD_PERFORMED (R562): the oldest capture is written to its slot of the ring. -/
def execMirrorRecordPerformed (s : State) : Out :=
  .next <| s.clocked <|
    match s.captures with
    | [] => s
    | c :: rest =>
      let tail := s.fld F.SWC_MIR_TAIL_COUNT
      let o := s.fld F.SWC_MIR_BASE_OFFSET * 4096 + tail % 2 ^ s.fld F.SWC_MIR_SIZE_LOG2_RECORDS * 128
      let s : State := { s with captures := rest }
      ((if s.region o = .tier1 then (s.writeMem o c []).1 else s).wrap F.SWC_MIR_TAIL_COUNT)

/-! ## SACK and retransmission (R532 to R535) -/

/-- SACK (R533): packets of a stream up to its SEQ are covered. -/
def execSack (k : Nat) (s : State) : Out :=
  .next <| s.clocked <| s.perform k (fun p => p.op == opSACK) fun s p =>
    let key := p.src * 8 + p.off % 8
    let x := s.tx key
    let rest := x.store.filter fun q => !decide ((p.seq + 65536 - q.seq) % 65536 < 32768)
    if rest.length = x.store.length then s else s.setTx key { x with store := rest, resends := 0 }

/-- SACK_TIMER (R532): 1 µs while packets arrive on a stream. -/
def execSackTimer (n vc : Nat) (s : State) : Out :=
  run (.sackTimer n vc) <| s.clocked <| if (s.rx (n * 8 + vc)).seen then s.sendSack n vc else s

/-- RETX_TIMEOUT (R534, R535, R716): the oldest uncovered packet of a stream has waited too long: every uncovered packet is
sent again, or the destination is unreachable. -/
def execRetxTimeout (n vc : Nat) (s : State) : Out :=
  run (.retxTimeout n vc) <| s.clocked <|
    let key := n * 8 + vc
    let x := s.tx key
    if x.store.isEmpty || x.dead then s
    else if s.fld F.YT_RETX_RETRIES ≤ x.resends then
      let tags := x.store.map (·.tag)
      let s := s.setTx key { x with dead := true }
      let s := (s.bump F.YT_UNREACH_CNT_COUNT).record { cls := ecYT, event := 1, inst := n, op := 8 }
      let s := s.failRequests (fun r => (if 256 ≤ n then tags.contains r.tag else r.node == n && vcOf r.op 0 == some vc)) psUNREACHABLE
      if n = s.partner && n < 64 then s.partnerLost llUNREACHABLE else s
    else
      let l := x.store.take 512
      let s := (s.setTx key { x with resends := x.resends + 1 }).wrap F.YT_RETX_CNT_COUNT 0 l.length
      l.foldl (fun s p => s.enterSwitch { pkt := p, ingress := 97, group := if 256 ≤ n then some (n - 256) else none, resent := true, num := 0 }) s

/-! ## Management packets (R519, R536, R547) -/

def mgmtKind (sub : Nat) (p : Packet) : Bool := p.op == opMGMT && leAt p.data 0 1 == sub

/-- MGMT_SYNC (R536). -/
def execMgmtSync (k : Nat) (s : State) : Out :=
  .next <| s.clocked <| s.perform k (mgmtKind 1) fun s p => s.resetStreams p.src

/-- MGMT_COLLAPSE (R446): a collapse notice of the own domain, without a further notice. -/
def execMgmtCollapse (k : Nat) (s : State) : Out :=
  .next <| s.clocked <| s.perform k (mgmtKind 2) fun s p =>
    if bits (leAt p.data 0 8) 8 6 = s.fld F.COH_CFG_DOMAIN && s.domState = cdUP then s.collapse 3 none else s

/-- MGMT_TELEMETRY (R519): the packet is handed to management firmware; no rule gives it a further effect. -/
def execMgmtTelemetry (k : Nat) (s : State) : Out :=
  .next <| s.clocked <| s.perform k (mgmtKind 3) fun s p => s.emit (.note "telemetry" [p.src, leNat p.data])

end Sys2Proof.Machine
end

