-- ==== Sys2Proof/Machine/Home.lean ====
section
/-!
DEFINITION. Requests of other nodes to the home agents (11_yalig_transactions.md): region keys, fences, stamped rows and
messages; and the responses to this controller's own requests.
-/

namespace Sys2Proof.Machine

/-! ## Region keys (R548, R550, R551) -/

/-- An edge agent's node ID. -/
def isAgent (n : Nat) : Bool := decide (0x40 ≤ n) && decide (n ≤ 0xBF)

/-- The lowest-numbered key entry that admits a request: its key, its permission bit, and a range that covers the
access (none is asked of a message or a fence). -/
def State.keyEntry (s : State) (key : Nat) (perm : Fld) (ext : Option (Nat × Nat)) : Option Nat :=
  (List.range 256).find? fun r =>
    s.flag F.YT_RKEY_CTRL_VALID r && (s.rd .YT_RKEY r).toNat == key && key != 0 && s.flag perm r &&
      match ext with
      | none => true
      | some (o, n) => within o n (s.fld F.YT_RKEY_BASE_PAGE r * pageBytes) (s.fld F.YT_RKEY_LEN_PAGES r * pageBytes)

/-- The partition a request is performed for; none where the key check fails (R550, R551). -/
def State.requestPart (s : State) (p : Packet) (perm : Fld) (ext : Option (Nat × Nat)) : Option Nat :=
  let foreign := p.isMsg && p.srcRack != s.fld F.YL_RACK_ID_RACK
  if isAgent p.src || foreign then
    match p.key with
    | none => none
    | some k => (s.keyEntry k perm ext).map fun r => s.fld F.YT_RKEY_CTRL_PARTITION r
  else some p.part

/-- Carry a request out under its partition, or refuse it with KEY. -/
def State.keyed (s : State) (p : Packet) (perm : Fld) (ext : Option (Nat × Nat)) (f : Nat → State) : State :=
  match s.requestPart p perm ext with
  | some c => f c
  | none => (s.bump F.YT_KEY_REFUSED_COUNT).answer p psKEY

/-- Why a home does not serve an extent of its offsets (R65, R66, R120, R879), with the counts of the refusal. -/
def State.offsetRefusal (s : State) (o n : Nat) : Option (State × Nat) :=
  let hit := fun (r : Region) => s.region o = r || s.region (o + n - 1) = r
  if hit .staging then some (s.bump F.TIER_STAGE_REFUSED_COUNT, psADDR)
  else if hit .control then some (s.bump F.XLT_CTL_REFUSED_COUNT, psADDR)
  else if hit .none || hit .reserve then some (s, psADDR)
  else none

/-- FENCE_REQUEST (R524): a FENCE is answered when every earlier request of its stream has been performed. -/
def execFenceRequest (k : Nat) (s : State) : Out :=
  .next <| s.clocked <| s.perform k (fun p => p.op == opFENCE) fun s p =>
    s.keyed p F.YT_RKEY_CTRL_READ none fun _ => s.answer p psOK

/-! ## Stamped rows (R526 to R528) -/

/-- SRD (R526): a stamped read attempt, or a waiting read; the row's length and its stamp's offset are those of the
table the requester reads by. -/
def execSrd (k stamp len : Nat) (s : State) : Out :=
  run (.srd k stamp len) <| s.clocked <| s.perform k (fun p => p.op == opSRD) fun s p =>
    s.keyed p F.YT_RKEY_CTRL_READ (some (p.off, len)) fun _ =>
      match s.offsetRefusal p.off len with
      | some r => r.1.answer p r.2
      | none =>
        if !s.stampPlaceOk [(p.off, len)] stamp then s.answer p psSTAMP
        else
          s.homeStart { id := 0, kind := if p.wait then .waiting else .attempt, row := p.off, exts := [(p.off, len)], stamp := stamp,
                        client := .packet p, reg := if p.reg then some (p.src, 2) else none }

/-- The poisoned 64 B lines of a packet's payload (R663, R664). -/
def Packet.poisonLines (p : Packet) : List Nat :=
  if !p.poison then []
  else (List.range (p.data.length / 64)).filter fun k => slice p.data (64 * k) 64 == poisonImage

/-- SUPD (R527): the parts of an update are collected; the last starts it. -/
def execSupd (k stamp : Nat) (s : State) : Out :=
  .next <| s.clocked <| s.perform k (fun p => p.op == opSUPD) fun s p =>
    let mine := fun (q : Packet) => q.src == p.src && q.tag == p.tag
    if !p.last then { s with supds := s.supds ++ [p] }
    else
      let parts := s.supds.filter mine ++ [p]
      let s : State := { s with supds := s.supds.filter fun q => !mine q }
      let d := parts.flatMap (·.data)
      let units := (parts.foldl (fun (a : List Nat × Nat) q =>
        (a.1 ++ q.poisonLines.flatMap fun l => (List.range 4).map fun u => a.2 / 16 + 4 * l + u, a.2 + q.data.length)) ([], 0)).1
      s.keyed p F.YT_RKEY_CTRL_WRITE (some (p.off, d.length)) fun _ =>
        match s.offsetRefusal p.off d.length with
        | some r => r.1.answer p r.2
        | none =>
          if s.inHandoff p.off d.length then s.answer p psADDR
          else if s.inMirror p.off d.length then (s.bump F.CNT_MIRROR_REFUSED_COUNT).answer p psADDR
          else if !s.stampPlaceOk [(p.off, d.length)] stamp then s.answer p psSTAMP
          else
            s.homeStart { id := 0, kind := .update, row := p.off, exts := [(p.off, d.length)], stamp := stamp, client := .packet p,
                          data := d, poison := units }

/-- A request of another kind, or of a partition other than 0xFF, to the control window (R66, R879). -/
def State.ctlRefuse (s : State) (p : Packet) (status : Nat) : State := (s.bump F.XLT_CTL_REFUSED_COUNT).answer p status

/-- RINV (R528, R363): the home of a row invalidates this controller's replicas of it. -/
def execRinv (k : Nat) (s : State) : Out :=
  .next <| s.clocked <| s.perform k (fun p => p.op == opRINV) fun s p =>
    if s.region p.off = .control then s.ctlRefuse p psADDR
    else
    let l := s.replicas.filter fun r => r.gpa == p.src * 2 ^ 48 + p.off && match r.st with | .draining _ _ => false | _ => true
    if l.isEmpty then s.answer p psOK
    else
      -- one acknowledgement, when every copy is given up
      let drain := l.filter fun r => decide (r.st = RepSt.valid) && s.repReading r
      let s := l.foldl (fun (s : State) r =>
        if drain.contains r then s.setRep { r with st := .draining none (some p) }
        else match r.st with
          | .valid => s.freeRep r
          | _ => s.setRep { r with st := .installing true }) s
      if drain.isEmpty then s.answer p psOK else s

/-- RDEREG (R528): the sender is no holder of the row any more; an offset that no row can have is refused (R65, R879). -/
def execRdereg (k : Nat) (s : State) : Out :=
  .next <| s.clocked <| s.perform k (fun p => p.op == opRDEREG) fun s p =>
    s.keyed p F.YT_RKEY_CTRL_READ (some (p.off, 1)) fun _ =>
      match s.offsetRefusal p.off 1 with
      | some r => r.1.answer p r.2
      | none => (s.dropHolder p.off p.src 2).answer p psOK

/-! ## Messages (R545, R625 to R628) -/

/-- The instance number of ring r of partition p. -/
def mrInst (p r : Nat) : Nat := p * 8 + r

def State.mring (s : State) (p r : Nat) : MringSt := sget {} s.mrings (mrInst p r)
def State.setMring (s : State) (p r : Nat) (x : MringSt) : State := { s with mrings := sput {} (mrInst p r) x s.mrings }

def mrSlots (s : State) (p r : Nat) : Nat := 2 ^ s.fld F.PTN_MR_CTRL_LOG2_SLOTS (mrInst p r)
def mrSlotBytes (s : State) (p r : Nat) : Nat := 2 ^ s.fld F.PTN_MR_CTRL_SLOT_LOG2 (mrInst p r)

/-- Has a ring room for a message of `n` bytes (R627). -/
def State.mrRoom (s : State) (p r n : Nat) : Bool :=
  let k := mrInst p r
  s.flag F.PTN_MR_CTRL_EN k && s.partActive p && decide (32 + n ≤ mrSlotBytes s p r) &&
    decide (ringDist (mrSlots s p r) (s.fld F.PTN_MR_HEAD_INDEX k) (s.fld F.PTN_MR_TAIL_INDEX k) + (s.mring p r).records.length < mrSlots s p r)

/-- The 32 B header of a message record (R625). -/
def mrHeader (s : State) (p : Packet) (phase : Bool) : List Byte :=
  leBytes 2 p.len ++ leBytes 1 p.src ++ leBytes 1 (b2n phase + 2 * b2n (p.srcRack != s.fld F.YL_RACK_ID_RACK)) ++
    leBytes 2 p.srcRack ++ leBytes 1 p.part ++ leBytes 1 0 ++ leBytes 8 s.time ++ List.replicate 16 0

/-- Storage lines that the poisoned payload lines of a write at an address touch, from the line of the first byte (R665). -/
def touchedLines (a : Nat) (lines : List Nat) : List Nat :=
  (lines.flatMap fun l => (linesOf (a + 64 * l) 64).map fun x => x - a / 64).eraseDups

/-- A ring write failed (R628): the ring is disabled. -/
def State.mrFault (s : State) (p r : Nat) : State :=
  let k := mrInst p r
  ((s.setFlag F.PTN_MR_CTRL_EN false k).setFlag F.PTN_MR_DROP_ERR true k).record
    { cls := ecPTN, event := 1, inst := k, part := p, op := 2 }

/-- A message is refused with RING_FULL (R627). -/
def State.mrRefuse (s : State) (p r : Nat) (m : Packet) : State :=
  ((if p < 128 then s.bump F.PTN_MR_DROP_COUNT (mrInst p (if r < 8 then r else 0)) else s)).answer m psRING_FULL

/-- MSG (R545): payload and header are written to the next slot of the ring. -/
def execMsg (k : Nat) (s : State) : Out :=
  .next <| s.clocked <| s.perform k (fun p => p.op == opMSG) fun s m =>
    s.keyed m F.YT_RKEY_CTRL_MSG none fun p =>
      let r := m.off % 65536
      if 128 ≤ p || 8 ≤ r || !s.mrRoom p r m.len then s.mrRefuse p r m
      else
        let x := s.mring p r
        let idx := ringAdd (mrSlots s p r) (s.fld F.PTN_MR_TAIL_INDEX (mrInst p r)) x.records.length
        let va := F.PTN_MR_BASE_VA.get (s.rd .PTN_MR_BASE (mrInst p r)) * 64 + idx % 65536 * mrSlotBytes s p r
        let c := s.checkExtent p va (32 + m.len) .write
        -- the page is in migration: the message waits (R89)
        if c = .hold then { s with inbox := s.inbox.insertIdx k m }
        else if c ≠ .ok then (s.mrFault p r).answer m psRING_FULL
        else
          let w := s.writeVA p (va + 32) m.data (touchedLines (va + 32) m.poisonLines)
          let v := if w.2 then w.1.writeVA p va (mrHeader s m (idx / 65536 == 0)) else w
          if v.2 then v.1.setMring p r { x with records := x.records ++ [⟨m⟩] }
          else (v.1.mrFault p r).answer m psRING_FULL

/-- MR_RECORD_PERFORMED (R626): the oldest record of a ring is performed: its slot is counted in, the vector raised, and
the message answered. -/
def execMrRecordPerformed (p r : Nat) (s : State) : Out :=
  run (.mrRecordPerformed p r) <| s.clocked <|
    let x := s.mring p r
    let k := mrInst p r
    match x.records with
    | [] => s
    | m :: rest =>
      let s := s.setFld F.PTN_MR_TAIL_INDEX (ringAdd (mrSlots s p r) (s.fld F.PTN_MR_TAIL_INDEX k) 1) k
      let s := s.setMring p r { records := rest, raised := true }
      let s := if x.raised then s else s.raiseVec p (s.fld F.PTN_MR_CTRL_VEC k)
      s.answer m.msg psOK

/-- The check of a ring as it is enabled (R628): every page lies in a DIRECT range into this controller's memory. -/
def State.mrRingOk (s : State) (p r : Nat) : Bool :=
  let va := F.PTN_MR_BASE_VA.get (s.rd .PTN_MR_BASE (mrInst p r)) * 64
  let n := mrSlots s p r * mrSlotBytes s p r
  s.checkExtent p va n .write = .ok &&
    (pieces va n).all fun x => match (s.ctx p).rangeAt (x.1 / pageBytes), s.target p x.1 with
      | some g, some (.own o) => g.mode == modeDirect && s.residentExtent o x.2
      | _, _ => false

/-- A write of PTN_MR_CTRL (R628, R654). -/
def State.writeMrCtrl (s : State) (p r : Nat) (v : Word) : State × Nat :=
  let k := mrInst p r
  let old := s.rd .PTN_MR_CTRL k
  let was := F.PTN_MR_CTRL_EN.get old != 0
  let now := F.PTN_MR_CTRL_EN.get v != 0
  let sl := F.PTN_MR_CTRL_SLOT_LOG2.get v
  let n := F.PTN_MR_CTRL_LOG2_SLOTS.get v
  if sl < 7 || 13 < sl || n < 4 || 16 < n then (s, stRange)
  else if was && F.PTN_MR_CTRL_EN.put v 0 ≠ F.PTN_MR_CTRL_EN.put old 0 then (s, stState)
  else
    let s := s.plainWrite .PTN_MR_CTRL k v
    if !now || was then (s, stOK)
    else if s.mrRingOk p r then
      (((s.setFld F.PTN_MR_TAIL_INDEX 0 k).setFld F.PTN_MR_HEAD_INDEX 0 k).setMring p r { s.mring p r with raised := false }, stOK)
    else ((s.setFlag F.PTN_MR_CTRL_EN false k).setFlag F.PTN_MR_DROP_ERR true k, stOK)

/-- MR_ENABLE (R628): PTN_MR_CTRL is written with EN 1 and the other fields of `v`. -/
def execMrEnable (src : Source) (p r : Nat) (v : Word) (s : State) : Out :=
  run (.mrEnable src p r v) <| s.clocked <| s.guarded src .PTN_MR_CTRL (mrInst p r) fun s => s.writeMrCtrl p r (F.PTN_MR_CTRL_EN.put v 1)

/-- A write of PTN_MR_HEAD (R626, R655). -/
def State.writeMrHead (s : State) (p r v : Nat) : State :=
  let k := mrInst p r
  let v := v % 2 ^ 17
  if headOk (mrSlots s p r) (s.fld F.PTN_MR_HEAD_INDEX k) (s.fld F.PTN_MR_TAIL_INDEX k) v then
    (s.setFld F.PTN_MR_HEAD_INDEX v k).setMring p r { s.mring p r with raised := false }
  else s

/-- MR_HEAD_WRITE (R626). -/
def execMrHeadWrite (src : Source) (p r v : Nat) (s : State) : Out :=
  run (.mrHeadWrite src p r v) <| s.clocked <| s.gated src .PTN_MR_HEAD (mrInst p r) fun s => s.writeMrHead p r v

/-! ## Responses (R520, R537 to R540) -/

/-- The request that a response answers, taken out of those that await one. -/
def State.takeReq (s : State) (p : Packet) (op : Nat) : Option (State × Req) :=
  match s.reqs.find? fun r => r.tag == p.tag && r.op == op with
  | some r => some ({ s with reqs := s.reqs.filter fun x => x ≠ r }, r)
  | none => none

/-- Perform a response of one part: the request ends; a status other than OK fails it. -/
def State.respond (s : State) (p : Packet) (op : Nat) (f : State → ReqClient → State) : State :=
  match s.takeReq p op with
  | none => s
  | some (t, r) => if p.status = psOK then f t r.client else t.requestFailed r p.status

/-- RD_DATA (R520): data, with its poisoned lines, of a read of this controller. -/
def execRdData (k : Nat) (s : State) : Out :=
  .next <| s.clocked <| s.perform k (fun p => p.op == opRD_DATA) fun s p =>
    s.respond p opRD fun s c => match c with
      | .flag pp q slot => s.flagAnswer pp q slot { data := p.data, poison := if p.poison then [0] else [] }
      | _ => s

/-- WR_ACK: a write, or a deregistration, has been performed. -/
def execWrAck (k : Nat) (s : State) : Out :=
  .next <| s.clocked <| s.perform k (fun p => p.op == opWR_ACK) fun s p =>
    match s.takeReq p opWR with
    | some (t, r) =>
      if p.status ≠ psOK then t.requestFailed r p.status
      else (match r.client with
        | .flag pp q slot => t.flagAnswer pp q slot {}
        | c => t.settleWrites c)
    | none => s.respond p opRDEREG fun s _ => s

/-- ATOM_DATA (R523): the old value of an atomic of this controller. -/
def execAtomData (k : Nat) (s : State) : Out :=
  .next <| s.clocked <| s.perform k (fun p => p.op == opATOM_DATA) fun s p => s.respond p opATOM fun s _ => s

/-- FENCE_ACK (R537). -/
def execFenceAck (k : Nat) (s : State) : Out :=
  .next <| s.clocked <| s.perform k (fun p => p.op == opFENCE_ACK) fun s p => s.respond p opFENCE fun s _ => s

/-- Send a row's stamped read again (R359). -/
def State.resendRow (s : State) (g k : Nat) : State :=
  match s.scoopCmd g, s.part g k with
  | some c, some p =>
    match s.rowHome c.ctx p with
    | some (nd, exts, _, part, _) =>
      s.request (.row g k) { op := opSRD, dst := nd, src := 0, part := part, off := (exts.head?.map (·.1)).getD 0,
                             len := min p.len 4096, wait := p.waited }
    | none => s.partError g k
  | _, _ => s

/-- A part of a row answer: the bytes collected so far, and the poisoned units among them. -/
def rowUnits (p : Packet) (at_ : Nat) : List Nat :=
  let d := if p.last then p.data.drop 16 else p.data
  if !p.poison then []
  else ((List.range (d.length / 64)).filter fun k => slice d (64 * k) 64 == poisonImage).flatMap fun l =>
    (List.range 4).map fun u => at_ / 16 + 4 * l + u

/-- An engine's row has come whole (R358, R359): stamps that are equal and even pass it; else another attempt, and after
four of them a waiting read, whose row is taken as it is. -/
def State.rowWhole (s : State) (g k s1 s2 : Nat) (d : List Byte) (units : List Nat) : State :=
  match s.part g k with
  | none => s
  | some p =>
    let pass := s1 % 2 == 0 && s1 == s2
    let s := if p.waited && s1 % 2 = 1 then s.bump F.SCP_STAMP_ODD_CNT_COUNT else s
    if pass || p.waited then s.partAnswer g k d units
    else
      let t := p.tries + 1
      let s := (s.wrap F.SCP_RETRIES_COUNT).onPart g k fun (p : RowPart) => { p with tries := t, waited := decide (5 ≤ t), got := [] }
      let s := s.when (decide (5 ≤ t)) fun s => s.wrap F.SCP_WAITS_COUNT
      s.resendRow g k

/-- SRD_DATA (R359, R526): a part of a stamped row; the last carries the stamps. -/
def execSrdData (k : Nat) (s : State) : Out :=
  .next <| s.clocked <| s.perform k (fun p => p.op == opSRD_DATA) fun s p =>
    match s.reqs.find? fun r => r.tag == p.tag && r.op == opSRD with
    | none => s
    | some r =>
      if p.status ≠ psOK then s.respond p opSRD fun s _ => s
      else
        let body := if p.last then p.data.drop 16 else p.data
        let ended := fun (s : State) => if p.last then { s with reqs := s.reqs.filter fun x => x ≠ r } else s
        match r.client with
        | .row g j =>
          let old := (s.part g j).getD { va := 0, len := 0 }
          let units := (rowUnits p old.got.length)
          let keep := (old.res.map (·.2)).getD [] ++ units
          let s := ended s
          if p.last then
            (s.onPart g j fun (x : RowPart) => { x with res := none }).rowWhole g j (leAt p.data 0 8) (leAt p.data 8 8) (old.got ++ body) keep
          else
            s.onPart g j fun (x : RowPart) => { x with got := x.got ++ body }
        | .install h i =>
          let s := ended s
          (match s.repSlot h i with
           | none => s
           | some x =>
             let d := x.got ++ body
             if !p.last then s.setRep { x with got := d }
             else
               let s1 := leAt p.data 0 8
               s.setRep { x with got := [], res := some (s1 % 2 == 0 && s1 == leAt p.data 8 8, d, rowUnits p x.got.length) })
        | _ => ended s

/-- SUPD_ACK (R527): the update has been performed. -/
def execSupdAck (k : Nat) (s : State) : Out :=
  .next <| s.clocked <| s.perform k (fun p => p.op == opSUPD_ACK) fun s p =>
    s.respond p opSUPD fun s c => match c with
      | .update g => s.onCmd g fun (c : ScoopCmd) => { c with rows := 1, ended := true }
      | _ => s

/-- RINV_ACK (R355): a node has given its copies of a row up. -/
def execRinvAck (k : Nat) (s : State) : Out :=
  .next <| s.clocked <| s.perform k (fun p => p.op == opRINV_ACK) fun s p =>
    s.respond p opRINV fun s c => match c with
      | .inval op node =>
        (match s.homeOp op with
         | some o => s.setHomeOp { o with acks := o.acks.filter fun x => x.1 ≠ node }
         | none => s).dropHolder p.off node 2
      | _ => s

/-- MSG_ACK (R546): a message of this controller has been taken or refused. -/
def execMsgAck (k : Nat) (s : State) : Out :=
  .next <| s.clocked <| s.perform k (fun p => p.op == opMSG_ACK) fun s p => s.respond p opMSG fun s _ => s

/-- MSG_ACK_TIMEOUT (R546): 1 ms without the MSG_ACK of the message with a TAG. -/
def execMsgAckTimeout (tag : Nat) (s : State) : Out :=
  .next <| s.clocked <| s.failRequests (fun r => r.tag == tag && r.op == opMSG) psUNREACHABLE

end Sys2Proof.Machine
end

