-- ==== Sys2Proof/Machine/Partitions.lean ====
section
/-!
DEFINITION. Partition reset and single-engine reset (13_partitions.md R639 to R650, R653), and the commit of shares,
caps and traffic classes (R629 to R637).
-/

namespace Sys2Proof.Machine

/-! ## Entering DRAINING (R641 to R644) -/

/-- PTN_STATUS.STATE, with the bit of PTN_DRAINING. -/
def State.setPart (s : State) (p st : Nat) : State :=
  (s.setFld F.PTN_STATUS_STATE st p).setBit (if p < 64 then .PTN_DRAINING_LO else .PTN_DRAINING_HI) 0 (p % 64) (st != psActive)

/-- The programs of a partition. -/
def State.progsOf (s : State) (p : Nat) : List Nat :=
  (s.progs.map (·.1)).filter fun n => (s.prog n).part == p && s.pstate n != pgEMPTY

/-- The faults of a partition are aborted (R643): each access completes its command with PARTITION_RESET. -/
def State.abortFaults (s : State) (p : Nat) (env : Env) : State :=
  let slots := (s.engs.filter fun e => e.2.st ≠ .run && e.2.flt.ctx == p).map (·.1)
  slots.foldl (fun s k =>
    let s := s.freeEngine k
    match slotEngine k with
    | (0, a) => (match (s.arr a).job with
      | .item n _ _ | .write n _ | .table n => (s.releaseArray a).haltProg n hcPARTITION_RESET
      | _ => s)
    | (1, g) => s.resetScoop g env
    | (2, ch) => if (s.chan ch).phase = .faulted then s.finishMove ch tsPartitionReset 0 else s
    | _ => s) s

/-- The tile moves of a partition end (R160): those that wait complete with PARTITION_RESET, those on a channel as that
rule gives. -/
def State.abortMoves (s : State) (p : Nat) : State :=
  let l := s.waitingMoves.filter fun m => m.1 == p
  let s : State := { s with waitingMoves := s.waitingMoves.filter fun m => m.1 != p }
  let s := l.foldl (fun s m => ((s.wrap F.TILE_MOVES_COUNT).bump F.TILE_ERR_CNT_COUNT).finishWork m.2.1 tsPartitionReset 0 0) s
  s.each 64 fun s ch => if (s.chan ch).ctx = p then s.abortMove ch else s

/-- A Scoop command that has not started completes with PARTITION_RESET; a lane group of a program ends with it. -/
def State.dropScoopCmd (s : State) (c : ScoopCmd) : State :=
  if c.op = 1 then s.haltProg c.prog hcPARTITION_RESET else s.finishWork c.src scPARTITION_RESET 0 0

/-- The Scoop commands of a partition end (R370). -/
def State.abortScoops (s : State) (p : Nat) (env : Env) : State :=
  let w := s.scoopWait.filter fun c => c.ctx == p
  let s : State := { s with scoopWait := s.scoopWait.filter fun c => c.ctx != p }
  let s := w.foldl State.dropScoopCmd s
  s.each 16 fun s g =>
    let behind := (s.scoop g).drop 1
    let s := s.setScoop g ((s.scoop g).take 1 ++ behind.filter fun c => c.ctx != p)
    let s := (behind.filter fun c => c.ctx == p).foldl State.dropScoopCmd s
    match s.scoopCmd g with
    | some c =>
      if c.ctx ≠ p then s
      else if c.op = 1 then
        (((s.scoopDetach g).haltProg c.prog hcPARTITION_RESET).setScoop g ((s.scoop g).drop 1)).scoopNext g env
      else s.resetScoop g env
    | none => s

/-- Entries of a partition that wait for a unit complete with PARTITION_RESET: an ordering entry, of which a
RELEASE_WRITE has then written nothing (R410), or a Scoop entry. -/
def State.dropWaitingCmds (s : State) (p : Nat) : State :=
  let l := s.waitingCmds.filter fun m => m.1 == p
  l.foldl (fun s m => s.finishWork m.2.1 (if leAt m.2.2 0 1 / 16 = 3 then osPartitionReset else scPARTITION_RESET) 0 0)
    { s with waitingCmds := s.waitingCmds.filter fun m => m.1 != p }

/-- Ordering entries of a partition end (R410): with `all`, every one; else those that wait for their flag. -/
def State.abortOrders (s : State) (p : Nat) (all : Bool) : State :=
  (s.orders.filter fun o => o.p == p && (all || o.phase == 1 || o.phase == 2)).foldl (fun s o =>
    (s.dropClient (.flag o.p o.q o.slot)).endOrder o osPartitionReset 0) s

/-- Migration commands (R642): those that wait are dropped; one that is moving pages moves no further page and completes
with PARTITION_RESET, resuming nothing. -/
def State.abortMigs (s : State) (p : Nat) : State :=
  match (s.ctx p).migs with
  | [] => s
  | m :: _ =>
    if !m.started then (s.setCtx p { s.ctx p with migs := [] }).syncMigs p
    else
      let back := if m.toHost then m.busy.filter fun k => !m.moved.contains k else m.moved
      let s := s.setCtx p { s.ctx p with migs := [m], resident := back.foldl (fun l k => ninsert k l) (s.ctx p).resident }
      s.migEnd p mgPARTITION_RESET

/-- Descriptors that wait for a tile on a stream of the partition end, and its held inbound tiles are discarded. -/
def State.abortStreams (s : State) (p : Nat) : State :=
  s.each 256 fun s i =>
    if s.flag F.TSP_STREAM_CFG_EN i && s.fld F.TSP_STREAM_CFG_PARTITION i == p then
      let s := s.each 64 fun s ch =>
        let x := s.chan ch
        if x.phase = .waitTsp && tspOf x.desc.src == (i / 16, i % 16) then s.finishMove ch tsPartitionReset 0 else s
      s.discardIn (i / 16) (i % 16)
    else s

/-- Programs of a partition: those without running items halt at once, the others when their last item completes. -/
def State.drainPrograms (s : State) (p : Nat) : State := (s.progsOf p).foldl State.drainHalt s

/-- ACTIVE to DRAINING (R641 to R644). -/
def State.enterDraining (s : State) (p : Nat) (env : Env) : State :=
  let s := s.setPart p psDraining
  let s := (s.bump F.PTN_RST_CNT_COUNT p).setFlag F.PTN_STATUS_TIMEOUT false p
  let s := s.setPtn p { s.ptn p with since := s.time, held := false }
  let s := (s.abortStreams p).abortFaults p env
  let s := ((s.abortMoves p).abortScoops p env).dropWaitingCmds p
  ((s.abortOrders p false).abortMigs p).drainPrograms p

/-- A reset of a partition is requested (R641). -/
def State.requestReset (s : State) (p : Nat) (env : Env) : State :=
  let st := s.fld F.PTN_STATUS_STATE p
  if st = psActive then s.enterDraining p env
  else if st = psClearing then s.setPtn p { s.ptn p with held := true }
  else s

/-- PARTITION_RESET: PTN_CTRL.RESET is written 1. -/
def execPartitionReset (src : Source) (p : Nat) (env : Env) (s : State) : Out :=
  run (.partitionReset src p env) <| s.clocked <| s.gated src .PTN_CTRL p fun s => s.requestReset p env

/-! ## CLEARING (R641, R645, R647, R649) -/

/-- Work of a partition is in flight. -/
def State.partBusy (s : State) (p : Nat) : Bool :=
  s.waitingMoves.any (fun m => m.1 == p) || s.waitingCmds.any (fun m => m.1 == p) || s.orders.any (fun o => o.p == p) ||
  s.chans.any (fun e => e.2.phase ≠ .idle && e.2.ctx == p) || s.scoopWait.any (fun c => c.ctx == p) ||
  s.scoops.any (fun e => e.2.any fun c => c.ctx == p) || !(s.ctx p).migs.isEmpty ||
  (s.progsOf p).any (fun n => s.pstate n != pgHALTED || s.arraysBusyFor n) ||
  s.queues.any (fun e => e.1 / 16 == p && !(e.2.started.isEmpty && e.2.records.isEmpty)) ||
  s.mrings.any (fun e => e.1 / 8 == p && !e.2.records.isEmpty)

/-- Enter CLEARING: pending bits and the coalescing state of R622 and R626 are cleared (R647). -/
def State.enterClearing (s : State) (p : Nat) : State :=
  let s := s.setPart p psClearing
  let s := s.each 32 fun s v => s.setFld F.MSIX_PEND_PEND 0 ((p + 1) * 1024 + v)
  let s := s.each 16 fun s q => s.setQueue p q { s.queue p q with raised := false }
  s.each 8 fun s r => s.setMring p r { s.mring p r with raised := false }

/-- PARTITION_DRAINED (R641): no work of the partition is in flight. -/
def execPartitionDrained (p : Nat) (s : State) : Out :=
  run (.partitionDrained p) <| s.clocked <|
    if s.fld F.PTN_STATUS_STATE p ≠ psDraining || s.partBusy p then s else s.enterClearing p

/-- The deadline actions of R645: what remains of the partition's work ends. -/
def State.endWork (s : State) (p : Nat) (env : Env) : State :=
  let s := (s.progsOf p).foldl (fun s n =>
    let s := (s.arrs.map (·.1)).foldl (fun s a =>
      match (s.arr a).job with
      | .item k _ _ | .write k _ | .table k => if k = n then (s.freeEngine a).releaseArray a else s
      | _ => s) s
    let s : State := { s with bridge := s.bridge.filter fun b => b.1 != n }
    s.haltProg n hcPARTITION_RESET) s
  let s := s.each 64 fun s ch =>
    let x := s.chan ch
    if x.ctx ≠ p || x.phase = .idle then s else if x.phase = .tspSend then s.abandonOut ch
    else if x.aborted then s.finishMove ch tsPartitionReset 0 else s.abortMove ch
  let s := ((s.abortScoops p env).dropWaitingCmds p).abortOrders p true
  let s := s.setCtx p { s.ctx p with migs := [] }
  let s := s.each 16 fun s q => (s.setQueue p q {}).syncInflight p q
  s.each 8 fun s r =>
    let l := (s.mring p r).records
    l.foldl (fun s m => s.mrRefuse p r m.msg) (s.setMring p r {})

/-- PARTITION_DRAIN_TIMEOUT (R645): 10 ms have passed since the request. -/
def execPartitionDrainTimeout (p : Nat) (env : Env) (s : State) : Out :=
  run (.partitionDrainTimeout p env) <| s.clocked <|
    if s.fld F.PTN_STATUS_STATE p ≠ psDraining then s
    else
      let s := s.endWork p env
      let s := (s.setFlag F.PTN_STATUS_TIMEOUT true p).bump F.RST_STATUS_TIMEOUT_CNT
      (s.record { cls := ecRST, event := 1, inst := p, part := p }).enterClearing p

/-- The registers of a partition page that CLEARING returns to their reset values (R649). PTN_ID keeps showing whether
the virtual function is enabled. -/
def pageRegs : List Reg :=
  [.FLTQ_BASE, .FLTQ_CTRL, .FLTQ_STATUS, .FLTQ_TAIL, .FLTQ_HEAD, .FLTQ_RESUME, .FLTQ_QUEUE_FULL, .FLTQ_BAD_RESUME,
   .XLT_MIG_VA, .XLT_MIG_GO, .XLT_MIG_STATUS, .HIF_SQ_BASE, .HIF_SQ_CTRL, .HIF_SQ_STATUS, .HIF_SQ_TAIL, .HIF_SQ_HEAD,
   .HIF_CQ_BASE, .HIF_CQ_SIZE, .HIF_CQ_TAIL, .HIF_CQ_HEAD, .HIF_SQ_DBADDR, .PTN_CTRL, .PTN_MR_BASE, .PTN_MR_CTRL,
   .PTN_MR_TAIL, .PTN_MR_HEAD, .PTN_MR_DROP]

/-- Reset the page of a partition: its registers, the state behind them, and its MSI-X table. -/
def State.resetPage (s : State) (p : Nat) : State :=
  let s := pageRegs.foldl (fun s r =>
    let n := r.count / 128
    s.each n fun s k => s.resetReg r (p * n + k)) s
  let s : State := { s with fltqs := sput {} p {} s.fltqs }
  let s := s.each 16 fun s q => s.setQueue p q {}
  let s := s.each 8 fun s r => s.setMring p r {}
  s.each 32 fun s v =>
    let k := (p + 1) * 1024 + v
    (((s.resetReg .MSIX_ADDR k).resetReg .MSIX_DATA k).resetReg .MSIX_CTRL k).resetReg .MSIX_PEND k

/-- The QOS registers of a partition, in the order of R636. -/
def qosRegs : List Reg := [.QOS_T0, .QOS_T1, .QOS_FAB, .QOS_DA, .QOS_SCP, .QOS_TC]

/-- PARTITION_CLEARED (R641, R649, R637): the page is reset, LAST_US is written, the vector is raised, and QOS values
that waited take effect; a held request starts the next reset. -/
def execPartitionCleared (p : Nat) (env : Env) (s : State) : Out :=
  run (.partitionCleared p env) <| s.clocked <|
    if s.fld F.PTN_STATUS_STATE p ≠ psClearing then s
    else
      let x := s.ptn p
      let s := s.resetPage p
      let s := x.qos.foldl (fun s e => s.wr (qosRegs.getD e.1 .QOS_TC) p e.2) s
      let s := (s.setPart p psActive).setFld F.PTN_STATUS_LAST_US (min ((s.time - x.since) / 1000) 65535) p
      let s := s.setPtn p { loose := x.loose }
      let s := s.when (s.flag F.PTN_RST_VEC_EN) fun s => s.raisePf (s.fld F.PTN_RST_VEC_VEC)
      if x.held then s.enterDraining p env else s

/-! ## QOS commit (R636, R637) -/

/-- A field of a QOS register in the commit's snapshot. -/
def State.qosSnap (s : State) (r : Reg) (f : Fld) (p : Nat) : Nat := f.get (s.snapOf .qos 0 r p)

/-- The partition at which the SHAREs of a resource first sum to more than 1,024. -/
def State.shareOver (s : State) (r : Reg) : Option Nat :=
  ((List.range 128).foldl (fun (acc : Nat × Option Nat) p =>
    let n := acc.1 + s.qosSnap r F.QOS_T0_SHARE p
    (n, if acc.2.isNone && 1024 < n then some p else acc.2)) (0, none)).2

/-- The checks of R636 in order: RESULT and FAIL_PART. The five share registers have one layout. -/
def State.qosCheck (s : State) : Option (Nat × Nat) :=
  let five := qosRegs.take 5
  match five.findSome? s.shareOver with
  | some p => some (1, p)
  | none =>
    match (List.range 128).find? fun p => five.any fun r => decide (s.qosSnap r F.QOS_T0_CAP p < s.qosSnap r F.QOS_T0_SHARE p) with
    | some p => some (2, p)
    | none => ((List.range 128).find? fun p => s.qosSnap .QOS_TC F.QOS_TC_TC p == 7).map fun p => (3, p)

def State.commitQos (s : State) : State :=
  let s := s.beginCommit .qos 0
  match s.qosCheck with
  | some (r, p) => (s.setFld F.QOS_STATUS_FAIL_PART p).rejectCommit .qos 0 r
  | none => s

/-- QOS_COMMIT (R636). -/
def execQosCommit (src : Source) (s : State) : Out :=
  run (.qosCommit src) <| s.clocked <| s.gated src .QOS_COMMIT 0 State.commitQos

/-- An accepted commit takes effect; the values of a partition in reset wait for its end (R637). -/
def State.applyQos (s : State) : State :=
  let t := s.finishCommit .qos 0
  ((List.range 128).filter fun p => !s.partActive p).foldl (fun t p =>
    let vals := (List.range 6).map fun k => (k, t.rd (qosRegs.getD k .QOS_TC) p)
    let t := qosRegs.foldl (fun t r => t.wr r p (s.rd r p)) t
    t.setPtn p { t.ptn p with qos := vals }) t

/-! ## Single-engine reset (R650, R653) -/

/-- An array's work is taken from it: its run is issued again, its writes wait for it, its Taster slot is abandoned. -/
def State.reissueArray (s : State) (a : Nat) : State :=
  let s := s.freeEngine a
  match (s.arr a).job with
  | .item n num arb =>
    let s := (s.setArr a { s.arr a with job := .none, cur := none, reads := [], buffer := none }).dropClient (.kv a)
    (match s.item n num with
     | none => s
     | some it =>
       let running := it.running.filter (· ≠ a)
       if arb then s.setItem n { it with running := running, arb := true, tried := it.tried.filter (· ≠ a) }
       else s.setItem n { it with running := running, tried := it.tried.filter (· ≠ a),
                                  issued := !running.isEmpty || !it.runs.isEmpty || it.closed, dup := it.dup && running.isEmpty && !it.runs.isEmpty })
  | .write n g =>
    let s := s.setArr a { s.arr a with job := .none, cur := none }
    s.setProg n { s.prog n with pendW := (s.prog n).pendW ++ [(g, a)] }
  | .test =>
    let r := ((s.arr a).test.map (·.ref)).getD a
    (if r = a then s else s.releaseArray r).setArr a { s.arr a with job := .none, cur := none, test := none }
  | .table _ => s.setArr a { s.arr a with job := .none, cur := none }
  | .none => s

/-- A reset of an engine begins: the faults it holds are discarded (R108), and its work is taken from it. -/
def State.beginEngReset (s : State) (cls inst : Nat) (env : Env) : State :=
  if s.engResets.any fun r => r.cls == cls && r.inst == inst then s
  else
    let s : State := { s with engResets := s.engResets ++ [⟨cls, inst⟩] }
    let s := s.setFlag F.RST_STATUS_ENG_BUSY true
    match cls with
    | 0 => s.reissueArray inst
    | 1 => s.scoopMove inst env
    | 2 => (if (s.chan inst).phase = .tspSend then s.orphanOut inst else s).restartMove inst env
    | 3 =>
      let s := s.freeEngine (slotTaster inst)
      ((List.range 256).filter fun a => a / 128 == inst && (s.arr a).job = .test).foldl (fun s a => s.releaseArray a) s
    | _ => (s.freeEngine (slotCore inst)).emit (.note "management core reset" [inst])

/-- ENGINE_RESET (R650, R653): RST_ENGINE names an engine. -/
def execEngineReset (src : Source) (cls inst : Nat) (env : Env) (s : State) : Out :=
  run (.engineReset src cls inst env) <| s.clocked <| s.guarded src .RST_ENGINE 0 fun s =>
    if s.flag F.RST_STATUS_ENG_BUSY then (s, stBusy)
    else if engCount cls ≤ inst then (s, stRange)
    else (s.beginEngReset cls inst env, stOK)

/-- ENGINE_FAILURE (R650): the controller resets an engine that failed. -/
def execEngineFailure (cls inst : Nat) (env : Env) (s : State) : Out :=
  run (.engineFailure cls inst env) (s.clocked (s.beginEngReset cls inst env))

/-- ENGINE_RESET_DONE (R650): the engine takes work again; an array returns to the pool. -/
def execEngineResetDone (cls inst : Nat) (env : Env) (s : State) : Out :=
  run (.engineResetDone cls inst env) <| s.clocked <|
    if !(s.engResets.any fun r => r.cls == cls && r.inst == inst) then s
    else
      let s : State := { s with engResets := s.engResets.filter fun r => !(r.cls == cls && r.inst == inst) }
      let s := s.setFlag F.RST_STATUS_ENG_BUSY (!s.engResets.isEmpty)
      match cls with
      | 0 => if (s.arr inst).job = .none && (s.astate inst == arBUSY || s.astate inst == arHELD || s.astate inst == arTEST) then
          (s.releaseArray inst).retryWrites inst
        else s
      | 1 => s.drainScoop env
      | _ => s

end Sys2Proof.Machine
end

