-- ==== Sys2Proof/Machine/HostIf.lean ====
section
/-!
DEFINITION. The host port (12_tile_streams_host.md R592 to R596): its resets, virtual functions, configuration requests,
and completion timeouts; and the error ring (14_integrity.md R693, R697).
-/

namespace Sys2Proof.Machine

/-- A reset of every partition that the host starts (R596). -/
def State.resetAllParts (s : State) (env : Env) : State :=
  (s.each 128 fun s p => s.requestReset p env).resetReg .HIF_BAR2_MAP 0

/-- The host link is down. -/
def State.hostDown (s : State) : State :=
  ((s.setFlag F.HIF_LINK_STATUS_UP false).setFld F.HIF_LINK_STATUS_GEN 0).setFld F.HIF_LINK_STATUS_WIDTH 0

/-- NumVFs virtual functions are enabled. -/
def State.setVfs (s : State) (n : Nat) : State :=
  (s.setFld F.HIF_LINK_STATUS_NUM_VFS n).each 128 fun s p => s.setFlag F.PTN_ID_VF_EN (decide (p < n)) p

/-- strap1 NO_HOST (R866): the host port is held in electrical idle and perst_n is ignored. -/
def State.noHost (s : State) : Bool := (s.fld F.PKG_STRAPS_STRAP).testBit 1

/-- PERST_ASSERT (R596, R866): the configuration of the functions returns to its reset values with perst_n. -/
def execPerstAssert (env : Env) (s : State) : Out :=
  .next <|
    let s : State := { s with perst := true }
    if s.noHost then s
    else s.clocked <| (({ s with relaxed := true } : State).hostDown.resetAllParts env).setVfs 0

/-- PERST_RELEASE (R594, R595, R866): the window for HIF_VEC_CFG and VF Enable opens, and the link trains. -/
def execPerstRelease (gen width : Nat) (s : State) : Out :=
  run (.perstRelease gen width) <|
    if !s.perst then s
    else if s.noHost then { s with perst := false }
    else
      let s : State := { s with perst := false, vecLocked := false, vfAccepted := false }
      ((s.setFlag F.HIF_LINK_STATUS_UP true).setFld F.HIF_LINK_STATUS_GEN gen).setFld F.HIF_LINK_STATUS_WIDTH width

/-- HOST_LINK_LOSS (R596). -/
def execHostLinkLoss (env : Env) (s : State) : Out := .next <| s.clocked (s.hostDown.resetAllParts env)

/-- PF_FLR (R596). -/
def execPfFlr (env : Env) (s : State) : Out := .next <| s.clocked (s.resetAllParts env)

/-- VF_FLR (R596): a Function Level Reset of VF p + 1. -/
def execVfFlr (p : Nat) (env : Env) (s : State) : Out := run (.vfFlr p env) (s.clocked (s.requestReset p env))

/-- CONFIG_REQUEST (R592, R595): answered with Request Retry Status until HIF_VEC_CFG is locked; a write of Device
Control sets Enable Relaxed Ordering. -/
def execConfigRequest (relaxed : Option Bool) (s : State) : Out :=
  .next <| s.clocked <|
    if !s.vecLocked then s.emit (.pcieStatus "Request Retry Status")
    else ({ s with relaxed := relaxed.getD s.relaxed } : State).emit (.pcieStatus "Successful Completion")

/-- VF_ENABLE (R594): a configuration write that sets VF Enable, with NumVFs; only the first after each release of
perst_n is accepted. -/
def execVfEnable (n : Nat) (s : State) : Out :=
  run (.vfEnable n) <| s.clocked <|
    if !s.vecLocked then s.emit (.pcieStatus "Request Retry Status")
    else if s.perst || s.vfAccepted then s
    else ({ s with vfAccepted := true } : State).setVfs n

/-- VEC_CFG_LOCK_TIMEOUT (R595): 900 ms after the release of perst_n. -/
def execVecCfgLockTimeout (s : State) : Out :=
  .next <| s.clocked <| if s.perst then s else { s with vecLocked := true }

/-- PCIE_CPL_TIMEOUT (R593): a host read of a tile mover channel, of a part of a Scoop row, or of another unit meets its
timeout, and the access completes with an error status. -/
def execPcieCplTimeout (ch : Option Nat) (row : Option (Nat × Nat)) (s : State) : Out :=
  run (.pcieCplTimeout ch row) <| s.clocked <|
    let s := s.bump F.HIF_CPL_TIMEOUT_COUNT
    let s := match ch with
      | some c => if (s.chan c).phase = .reading then s.finishMove c tsSrcError 0 else s
      | none => s
    match row with
    | some (g, k) => s.partError g k
    | none => s

/-! ## The error ring (R693, R697) -/

/-- ERR_RING_WRITE_DONE (R693): the oldest ring write completes. One that fails disables the ring, and the records
behind it, whose slots the tail never reaches, are dropped with it. -/
def execErrRingWriteDone (ok : Bool) (s : State) : Out :=
  .next <| s.clocked <|
    match s.errWrites with
    | [] => s
    | _ :: rest =>
      if ok then
        let t := { s with errWrites := rest, errRaised := true }.setFld F.ERR_RING_TAIL_INDEX
          (ringAdd (errRingSize s) (s.fld F.ERR_RING_TAIL_INDEX) 1)
        if s.errRaised then t else t.raisePf (s.fld F.ERR_RING_CTRL_VEC)
      else
        let n := s.errWrites.length
        let s := ({ s with errWrites := [], errEpisode := s.errEpisode + n } : State).bump F.ERR_RING_DROP_COUNT 0 n
        (s.setFlag F.ERR_RING_CTRL_EN false).setFlag F.ERR_RING_CTRL_WR_ERR true

/-- A write of ERR_RING_HEAD (R697). -/
def State.writeErrHead (s : State) (v : Nat) : State :=
  let v := v % 2 ^ 17
  if headOk (errRingSize s) (s.fld F.ERR_RING_HEAD_INDEX) (s.fld F.ERR_RING_TAIL_INDEX) v then
    { s with errRaised := false }.setFld F.ERR_RING_HEAD_INDEX v
  else s

/-- ERR_RING_HEAD_WRITE (R697). -/
def execErrRingHeadWrite (src : Source) (v : Nat) (s : State) : Out :=
  run (.errRingHeadWrite src v) <| s.clocked <| s.gated src .ERR_RING_HEAD 0 fun s => s.writeErrHead v

end Sys2Proof.Machine
end

