-- ==== Sys2Proof/Machine/Sha3.lean ====
section
/-!
DEFINITION. SHA3-512, as FIPS 202 defines it: the digest of meter records (R811, R812), measurements (R836) and the
identity (R834).
-/

namespace Sys2Proof.Machine

/-- The lane at an index of the Keccak state, 5y + x. -/
def lane (a : List Word) (k : Nat) : Word := a.getD k 0

/-- Round constants of Keccak-f[1600]. -/
def keccakRC : List Nat :=
  [0x0000000000000001, 0x0000000000008082, 0x800000000000808A, 0x8000000080008000, 0x000000000000808B,
   0x0000000080000001, 0x8000000080008081, 0x8000000000008009, 0x000000000000008A, 0x0000000000000088,
   0x0000000080008009, 0x000000008000000A] ++
  [0x000000008000808B, 0x800000000000008B, 0x8000000000008089, 0x8000000000008003, 0x8000000000008002,
   0x8000000000000080, 0x000000000000800A, 0x800000008000000A, 0x8000000080008081, 0x8000000000008080,
   0x0000000080000001, 0x8000000080008008]

/-- Rotation offsets of ρ by lane. -/
def keccakRot : List Nat :=
  [0, 1, 62, 28, 27, 36, 44, 6, 55, 20, 3, 10, 43, 25, 39, 41, 45, 15, 21, 8, 18, 2, 61, 56, 14]

/-- θ. -/
def keccakTheta (a : List Word) : List Word :=
  let c := (List.range 5).map fun x => lane a x ^^^ lane a (x + 5) ^^^ lane a (x + 10) ^^^ lane a (x + 15) ^^^ lane a (x + 20)
  let d := (List.range 5).map fun x => lane c ((x + 4) % 5) ^^^ (lane c ((x + 1) % 5)).rotateLeft 1
  (List.range 25).map fun k => lane a k ^^^ lane d (k % 5)

/-- ρ and π. -/
def keccakRhoPi (a : List Word) : List Word :=
  (List.range 25).map fun k =>
    let j := (k % 5 + 3 * (k / 5)) % 5 + 5 * (k % 5)
    (lane a j).rotateLeft (keccakRot.getD j 0)

/-- χ and ι. -/
def keccakChi (rc : Nat) (b : List Word) : List Word :=
  (List.range 25).map fun k =>
    let y := k / 5 * 5
    let v := lane b k ^^^ (~~~(lane b (y + (k + 1) % 5)) &&& lane b (y + (k + 2) % 5))
    if k = 0 then v ^^^ BitVec.ofNat 64 rc else v

def keccakF (a : List Word) : List Word :=
  keccakRC.foldl (fun a rc => keccakChi rc (keccakRhoPi (keccakTheta a))) a

/-- Absorb blocks of 72 bytes; `fuel` bounds their number. -/
def keccakAbsorb : Nat → List Word → List Byte → List Word
  | 0, a, _ => a
  | _, a, [] => a
  | k + 1, a, d =>
    let a := (List.range 25).map fun i => if i < 9 then lane a i ^^^ BitVec.ofNat 64 (leAt d (8 * i) 8) else lane a i
    keccakAbsorb k (keccakF a) (d.drop 72)

/-- The message with SHA-3's suffix and padding, a multiple of 72 bytes. -/
def keccakPad (m : List Byte) : List Byte :=
  let z := 71 - m.length % 72
  if z = 0 then m ++ [0x86#8] else m ++ [0x06#8] ++ List.replicate (z - 1) 0#8 ++ [0x80#8]

/-- SHA3-512. -/
def sha3 (m : List Byte) : List Byte :=
  let d := keccakPad m
  let a := keccakAbsorb (d.length / 72) (List.replicate 25 0) d
  (List.range 8).flatMap fun i => leBytes 8 (lane a i).toNat

end Sys2Proof.Machine
end

