-- ==== Sys2Proof/Machine/Scale.lean ====
section
/-!
DEFINITION. Scale, the metering unit (17_scale_metrology.md R798 to R818).
-/

namespace Sys2Proof.Machine

/-! ## States and reasons (R806, R812) -/

def scOFF : Nat := 0
def scLOADING : Nat := 1
def scMETERING : Nat := 2
def scFAILED : Nat := 3

def rrPERIODIC : Nat := 1
def rrCHANGE : Nat := 2
def rrPOWER_UP : Nat := 3
def rrSHUTDOWN : Nat := 4
def rrEVENT : Nat := 5

/-- RESULT of SCL_OFFER_STATUS and of BOOT_OFFER. -/
def ofRECEIVING : Nat := 1
def ofVERIFYING : Nat := 2
def ofACCEPTED : Nat := 3
def ofSIGNATURE : Nat := 4
def ofROLLBACK : Nat := 5
def ofSEQUENCE : Nat := 6
def ofFLASH : Nat := 7
def ofSIZE : Nat := 8

def State.sclState (s : State) : Nat := s.fld F.SCL_STATUS_STATE

def State.metering (s : State) : Bool := s.sclState == scMETERING

/-- The identity digest: SHA3-512 of the DeviceID public key (R834). -/
def idDigest : List Byte := sha3 ((List.range 2592).map Config.devicePk)

/-! ## What is metered (R798) -/

/-- GiB of the enabled tier 2 windows of a partition, each rounded down. -/
def State.t2Gib (s : State) (p : Nat) : Nat :=
  (List.range 8).foldl (fun a d =>
    if s.flag F.TIER_T2WIN_BASE_EN (8 * p + d) then a + s.fld F.TIER_T2WIN_COUNT_LBA_COUNT (8 * p + d) * 4096 / gib else a) 0

/-- MiB of the staging quotas of a partition's programs that are not EMPTY. -/
def State.stageMib (s : State) (p : Nat) : Nat :=
  (List.range 64).foldl (fun a n =>
    if s.pstate n ≠ pgEMPTY && (s.prog n).part = p then
      a + s.fld F.PRF_STAGE_QUOTA_EAST_MIB n + s.fld F.PRF_STAGE_QUOTA_WEST_MIB n else a) 0

/-- The value that a class of a partition holds. -/
def State.metered (s : State) (p c : Nat) : Nat :=
  match c with
  | 0 => s.fld F.QOS_T0_SHARE p
  | 1 => s.fld F.QOS_T1_SHARE p
  | 2 => s.fld F.QOS_FAB_SHARE p
  | 3 => s.fld F.QOS_DA_SHARE p
  | 4 => s.fld F.QOS_SCP_SHARE p
  | 5 => s.stageMib p
  | 6 => s.fld F.PTN_ID_VF_EN p
  | 7 => s.t2Gib p
  | _ => sget 0 s.scale.tokens p

def ScaleSt.enabled (x : ScaleSt) (c : Nat) : Bool := x.classEn.testBit c

/-- Partition and class, in order. -/
def sclKeys (classes : Nat) : List (Nat × Nat) := (List.range 128).flatMap fun p => (List.range classes).map fun c => (p, c)

/-- The metered changes that have not been counted yet (R799). -/
def State.sclChanges (s : State) : List (Nat × Nat) :=
  (sclKeys 8).filter fun k => s.scale.enabled k.2 && s.metered k.1 k.2 ≠ sget 0 s.scale.vals (16 * k.1 + k.2)

/-- Scale holds every value from now on. -/
def State.sclHold (s : State) : State :=
  let vals := (sclKeys 8).foldl (fun v k => sput 0 (16 * k.1 + k.2) (s.metered k.1 k.2) v) s.scale.vals
  { s with scale := { s.scale with vals := vals, change := none } }

/-! ## Records (R809 to R812) -/

def ScaleSt.lastEnd (x : ScaleSt) : Nat := x.prev.elim 0 fun r => leAt r 0x18 8
def ScaleSt.nextSeq (x : ScaleSt) : Nat := x.prev.elim 0 fun r => leAt r 8 8 + 1

/-- Block p of a record: its number and the totals of the classes. -/
def ScaleSt.block (x : ScaleSt) (p : Nat) : List Byte :=
  leBytes 8 p ++ (List.range 9).flatMap fun c => leBytes 8 (sget 0 x.totals (16 * p + c))

/-- FLAGS of a record. -/
def State.sclFlags (s : State) : Nat :=
  let b := fun (x : Bool) (n : Nat) => if x then n else 0
  b s.scale.undisc 1 + b s.scale.unclean 2 + b s.scale.gap 4 + b (s.flag F.SCL_STATUS_SATURATED) 8

/-- The body of a record (R812). -/
def State.sclBody (s : State) (reason endTick : Nat) (chg : Option (Nat × Nat)) : List Byte :=
  let x := s.scale
  let prev := x.prev.elim (List.replicate 64 0#8) sha3
  leBytes 2 0x5C1E ++ leBytes 1 1 ++ leBytes 1 reason ++ leBytes 2 s.sclFlags ++ leBytes 2 128 ++ leBytes 8 x.nextSeq ++
  leBytes 8 (x.lastEnd + 1) ++ leBytes 8 endTick ++ leBytes 8 s.time ++ leBytes 8 (s.utcNs / 1000000) ++
  leBytes 4 (s.fld F.SCL_EVENT_CNT_COUNT) ++ leBytes 4 x.merged ++
  leBytes 1 (chg.elim 0xFF (·.1)) ++ leBytes 1 (chg.elim 0xFF (·.2)) ++ leBytes 6 0 ++
  prev ++ slice idDigest 0 16 ++ slice s.sclFwDigest 0 16 ++ slice s.sclParamDigest 0 16 ++ slice x.meterId 0 16 ++
  leBytes 64 0 ++ (List.range 128).flatMap x.block

/-- Cut a record and sign it; the signature's bytes are free values. -/
def State.cutRecord (s : State) (reason endTick : Nat) (chg : Option (Nat × Nat) := none) : State :=
  let stamp := s.free
  let r := s.sclBody reason endTick chg ++ (List.range 4627).map (Config.freeByte stamp)
  { s with free := s.free + 1,
           scale := { s.scale with prev := some r, queue := s.scale.queue ++ [r], merged := 0, undisc := false,
                                   unclean := false, gap := false } }

/-! ## Ticks -/

/-- Add a class value to a total (R798, R800). -/
def State.sclAdd (s : State) (p c v : Nat) : State :=
  let k := 16 * p + c
  let t := sget 0 s.scale.totals k + v
  if 2 ^ 64 ≤ t then
    ({ s with scale := { s.scale with totals := sput 0 k (2 ^ 64 - 1) s.scale.totals } } : State).setFlag F.SCL_STATUS_SATURATED true
  else { s with scale := { s.scale with totals := sput 0 k t s.scale.totals } }

/-- A change first counts in the tick that ends (R809): a CHANGE record, or merged into the next one. -/
def State.sclChange (s : State) (t : Nat) : State :=
  match s.sclChanges with
  | [] => s
  | k :: r =>
    if t % 60000 = 0 then s
    else if t - 1 - s.scale.lastEnd ≤ 5 && s.scale.prev.isSome then
      { s with scale := { s.scale with merged := s.scale.merged + 1 } }
    else s.cutRecord rrCHANGE (t - 1) (match s.scale.change with
      | some c => if (k :: r).contains c then some c else some k
      | none => some k)

/-- TICK (R798 to R800, R804, R809): 1 ms ends. -/
def execTick (s : State) : Out :=
  .next <| s.clocked <|
    if !s.metering then { s with scale := { s.scale with gap := true } }
    else
      let t := s.fld F.SCL_TICK_VALUE + 1
      let s := (s.sclChange t).sclHold
      let s := (sclKeys 9).foldl (fun s k => s.when (s.scale.enabled k.2) fun s => s.sclAdd k.1 k.2 (s.metered k.1 k.2)) s
      let s : State := { s with scale := { s.scale with tokens := [], undisc := s.scale.undisc || !s.flag F.SCL_STATUS_DISCIPLINED } }
      let s := s.setFld F.SCL_TICK_VALUE t
      if t % 60000 = 0 then s.cutRecord rrPERIODIC t else s

/-- COMP (R801, R802): the message of a change reaches Scale, which notes the first change of the tick; a class that has no
COMP message is undefined and counted. -/
def execCompMsg (p c : Nat) (s : State) : Out :=
  run (.compMsg p c) <| s.clocked <|
    if 8 ≤ c then s.bump F.SCL_IN_DROP_COUNT
    else if s.scale.change.isSome || s.metered p c = sget 0 s.scale.vals (16 * p + c) || !s.scale.enabled c then s
    else { s with scale := { s.scale with change := some (p, c) } }

/-- TOKENS (R801, R798): the count of a partition's token records reaches Scale. -/
def execTokensMsg (p : Nat) (s : State) : Out :=
  run (.tokensMsg p) <| s.clocked <|
    let n := sget 0 s.tokPend p
    let s : State := { s with tokPend := sput 0 p 0 s.tokPend }
    s.when s.metering fun s => { s with scale := { s.scale with tokens := sput 0 p (sget 0 s.scale.tokens p + n) s.scale.tokens } }

/-- TIME (R807, R808): the device time and its discipline reach Scale. `resid` is the rate residual over the last 16 s in 1/100
ppm and `want` the correction the comparison asks for; the correction moves by at most 1 ppm and stays within 200 ppm. -/
def execTimeMsg (resid : Nat) (want : Int) (s : State) : Out :=
  .next <| s.clocked <|
    let old := sgn 16 (s.fld F.SCL_DISC_CORR)
    let lim : Int → Int → Int → Int := fun lo hi v => if v < lo then lo else if hi < v then hi else v
    let corr := lim (-20000) 20000 (lim (old - 100) (old + 100) want)
    let ok := s.flag F.BOOT_TIME_STATUS_DISCIPLINED
    let s := (s.setFld F.SCL_DISC_CORR (twos 16 corr)).setFld F.SCL_DISC_RESID (min resid 65535)
    ({ s with scale := { s.scale with timeOk := ok } } : State).setFlag F.SCL_STATUS_DISCIPLINED (ok && decide (resid ≤ 1000))

/-- SCALE_TIME_TIMEOUT (R808): Scale is FREE. -/
def execScaleTimeTimeout (s : State) : Out := .next <| s.clocked <| s.setFlag F.SCL_STATUS_DISCIPLINED false

/-! ## Loading and persistence (R803, R805, R806, R811) -/

/-- Scale's counting state is that of the last persisted record: ticks, totals and SATURATED. -/
def State.sclRestore (s : State) : State :=
  let x := s.scale
  let r := x.saved.getD []
  let totals := (sclKeys 9).foldl (fun (m : Sparse Nat) k => sput 0 (16 * k.1 + k.2) (leAt r (0x100 + 80 * k.1 + 8 + 8 * k.2) 8) m) []
  let x : ScaleSt := { x with totals := totals, tokens := [], prev := x.saved, queue := [], merged := 0, undisc := false, change := none }
  (({ s with scale := x } : State).setFld F.SCL_TICK_VALUE (leAt r 0x18 8)).setFlag F.SCL_STATUS_SATURATED ((leAt r 4 2).testBit 3)

/-- Is the last persisted record a SHUTDOWN record. -/
def ScaleSt.closed (x : ScaleSt) : Bool := x.saved.any fun r => leAt r 3 1 == rrSHUTDOWN

/-- SCALE_LOAD_DONE (R805, R806): the firmware of Scale is verified. -/
def execScaleLoadDone (ok : Bool) (s : State) : Out :=
  .next <| s.clocked <|
    if s.sclState ≠ scLOADING then s
    else if ok then
      let s := s.sclRestore.sclHold.setFld F.SCL_STATUS_STATE scMETERING
      let s : State := { s with scale := { s.scale with unclean := s.scale.unclean || !s.scale.closed } }
      s.cutRecord rrPOWER_UP (s.fld F.SCL_TICK_VALUE)
    else
      let s := s.setFld F.SCL_STATUS_STATE scFAILED
      let ev := Config.freeNat s.free % 256
      ({ s with free := s.free + 1 } : State).record { cls := ecSCL, event := ev, half := some .west }

/-- SCALE_SRAM_UNCORR (R803): Scale restarts from its last persisted record, and the next record carries UNCLEAN. -/
def execScaleSramUncorr (s : State) : Out :=
  .next <| s.clocked <|
    if s.metering then
      let s := s.sclRestore.setFld F.SCL_STATUS_STATE scLOADING
      { s with scale := { s.scale with unclean := true, image := none } }
    else s

/-- A SHUTDOWN record is persisted (R806, R852): Scale is OFF and power may be removed. -/
def State.sclClosed (s : State) : State :=
  ({ s with snaps := { s.snaps with stage := 0, clean := true } } : State).setFlag F.LIFE_STATUS_SHUTDOWN_READY true

/-- RECORD_PERSISTED (R811): the oldest record cut is in Scale's flash and copied to the mirror. -/
def execRecordPersisted (s : State) : Out :=
  .next <| s.clocked <|
    match s.scale.queue with
    | [] => s
    | r :: q =>
      let n := leAt r 8 8
      let x : ScaleSt := { s.scale with queue := q, saved := some r, mirror := sput [] (n % 64) r s.scale.mirror }
      let s := ({ s with scale := x } : State).setFld F.SCL_LAST_SEQ_VALUE n
      if leAt r 3 1 = rrSHUTDOWN && s.metering then (s.setFld F.SCL_STATUS_STATE scOFF).sclClosed else s

/-- Scale cuts its SHUTDOWN record (R852 step 3); a Scale that does not meter has none to cut. -/
def State.sclShutdown (s : State) : State :=
  if s.metering then s.cutRecord rrSHUTDOWN (s.fld F.SCL_TICK_VALUE) else s.sclClosed

/-! ## Offers (R814 to R817) -/

/-- The longest offer: a header of 64 B, a body of 1 MiB and a signature. -/
def sclOfferMax : Nat := 64 + 1048576 + 4627

/-- What the admission of a write to an entry without a register says (R751, R763 to R767): common entries belong to the network,
others to the host; the entries of Scale and of the error log are read-only. -/
def State.entryStatus (s : State) (src : Source) (idx : Nat) : Nat :=
  if (decide (0x6000 ≤ idx) && decide (idx ≤ 0x60FF)) || (decide (0x7000 ≤ idx) && decide (idx ≤ 0x7FFF)) then stAccess
  else if s.flag F.MGT_CFG_STATUS_DEFAULTED then stOK
  else match sideOf src with
    | .self => stOK
    | .host => if inComm idx then stOwner else stOK
    | .net => if inComm idx then stOK else stOwner

/-- A write to an entry without a register: refused and reported, or performed. -/
def State.entryWrite (s : State) (src : Source) (idx sub : Nat) (f : State → State × Nat) : State × Nat :=
  let a := s.entryStatus src idx
  if a ≠ stOK then (s.refuseEntry src idx sub a, a)
  else
    let r := f s
    if r.2 = stOK then r else (s.refuseEntry src idx sub r.2, r.2)

/-- What a chunk does to a partial offer (R815): the bytes held before it are `held` of `total`. Answers RESULT and whether the chunk is
taken. -/
def chunkResult (held total off tot len max : Nat) : Nat × Bool :=
  if off = 0 then (if tot = 0 || max < tot || tot < len then (ofSIZE, false) else (if len = tot then ofVERIFYING else ofRECEIVING, true))
  else if off ≠ held || tot ≠ total then (ofSEQUENCE, false)
  else if total < held + len then (ofSIZE, false)
  else (if held + len = total then ofVERIFYING else ofRECEIVING, true)

/-- A write of SCL_OFFER (R815). -/
def State.sclChunk (s : State) (off tot : Nat) (data : List Byte) : State × Nat :=
  if 16368 < data.length then (s, stTooBig)
  else if !s.metering then (s, stState)
  else if s.fld F.SCL_OFFER_STATUS_RESULT = ofVERIFYING || s.scale.image.isSome then (s, stBusy)
  else
    let r := chunkResult s.scale.offer.length s.scale.offerTotal off tot data.length sclOfferMax
    let x : ScaleSt :=
      if r.2 then { s.scale with offer := (if off = 0 then [] else s.scale.offer) ++ data, offerTotal := tot }
      else if off = 0 then { s.scale with offer := [], offerTotal := 0 } else s.scale
    ((({ s with scale := x } : State).setFld F.SCL_OFFER_STATUS_RESULT r.1).setFld F.SCL_OFFER_STATUS_HELD x.offer.length, stOK)

/-- SCL_OFFER (R815). -/
def execSclOffer (src : Source) (off tot : Nat) (data : List Byte) (s : State) : Out :=
  run (.sclOffer src off tot data) <| s.clocked <| (s.entryWrite src 0x2F40 1 fun s => s.sclChunk off tot data).1

/-- OFFER_VERIFY_DONE (R815, R816): `sigOk` says that the signature verifies; `kind` and `version` are read from the offer's header,
`meter` and `classes` from the body of a parameter offer. An offer of another KIND is rejected (R13); which RESULT says so is free. -/
def execOfferVerifyDone (sigOk : Bool) (kind version : Nat) (meter : List Byte) (classes : Nat) (s : State) : Out :=
  run (.offerVerifyDone sigOk kind version meter classes) <| s.clocked <|
    if !s.metering || s.fld F.SCL_OFFER_STATUS_RESULT ≠ ofVERIFYING || s.scale.image.isSome then s
    else if !sigOk then s.setFld F.SCL_OFFER_STATUS_RESULT ofSIGNATURE
    else if kind ≠ 1 && kind ≠ 2 then
      ({ s with free := s.free + 1 } : State).setFld F.SCL_OFFER_STATUS_RESULT (ofSIGNATURE + Config.freeNat s.free % 5)
    else if version ≤ s.fld (if kind = 1 then F.SCL_FW_VERSION_FW_VERSION else F.SCL_FW_VERSION_PARAM_VERSION) then
      s.setFld F.SCL_OFFER_STATUS_RESULT ofROLLBACK
    else
      let s := s.cutRecord rrEVENT (s.fld F.SCL_TICK_VALUE)
      { s with scale := { s.scale with image := some (kind, version, meter, classes) } }

/-- OFFER_FLASH_DONE (R816, R817): the image is in Scale's flash and reads back, the event counter is incremented and the
image installed; or the write fails and the previous image stays. -/
def execOfferFlashDone (ok : Bool) (s : State) : Out :=
  .next <| s.clocked <|
    match s.scale.image with
    | none => s
    | some (kind, version, meter, classes) =>
      let x : ScaleSt := { s.scale with image := none }
      if !ok then ({ s with scale := x } : State).setFld F.SCL_OFFER_STATUS_RESULT ofFLASH
      else
        let x : ScaleSt :=
          if kind = 1 then { x with fwDigest := some (sha3 x.offer) }
          else { x with paramDigest := some (sha3 ((x.offer.drop 64).take (x.offer.length - 64 - 4627))), meterId := meter, classEn := classes }
        let s := ({ s with scale := x } : State).wrap F.SCL_EVENT_CNT_COUNT
        let s := s.setFld (if kind = 1 then F.SCL_FW_VERSION_FW_VERSION else F.SCL_FW_VERSION_PARAM_VERSION) version
        (s.setFld F.SCL_OFFER_STATUS_RESULT ofACCEPTED).record { cls := ecSCL, event := 1, half := some .west }

end Sys2Proof.Machine
end

