-- ==== Sys2Proof/Machine/Boot.lean ====
section
/-!
DEFINITION. The Starters' stages up to VERIFY and SERDES, identity and measurements, firmware offers, and calendar time
(18_boot_identity_life.md R822 to R846), and the lease (15_continuity.md R732 to R736).
-/

namespace Sys2Proof.Machine

/-! ## Stages (R824) -/

def sgROM : Nat := 1
def sgIMAGE : Nat := 2
def sgVERIFY : Nat := 3
def sgMEMORY : Nat := 4
def sgSERDES : Nat := 5
def sgCONFIG : Nat := 6
def sgRUNNING : Nat := 7
def sgFAILED : Nat := 0xF

def State.setStage (s : State) (h : Half) (n : Nat) : State := s.setFld (stageFld h) n

/-- A half enters FAILED with its stage (R824). -/
def State.halfFail (s : State) (h : Half) : State :=
  ((s.setStage h sgFAILED).setHalf h hsFailed).record { cls := ecPKG, event := 4, inst := halfNum h, half := some h }

/-! ## The lease (R732 to R736) -/

/-- The half that holds the lease. -/
def State.holder (s : State) : Option Half :=
  match s.fld F.CNT_LEASE_STATUS_HOLDER with
  | 1 => some .east
  | 2 => some .west
  | _ => none

/-- A half keeps a standing request from the end of its ROM stage on (R733), unless it is in reset or has failed. -/
def State.asksLease (s : State) (h : Half) : Bool :=
  decide (sgIMAGE ≤ s.bootStage h) && s.bootStage h != sgFAILED && !s.halfDown h

/-- The arbiter grants the lease (R732); a fenced half resumes (R736). -/
def State.grantLease (s : State) (h : Half) : State :=
  let s := (s.setFld F.CNT_LEASE_STATUS_HOLDER (halfNum h + 1)).wrap F.CNT_LEASE_STATUS_EPOCH
  let s : State := { s with boot := { s.boot with tried := [] } }.setFld F.CNT_LEASE_STATUS_AGE_NS 0
  if s.half h = hsFenced then s.setHalf h hsUp else s

/-- A half whose renewal or configuration write is refused is fenced (R735, R736). -/
def State.fence (s : State) (h : Half) : State :=
  if s.half h = hsUp then (s.setHalf h hsFenced).record { cls := ecCNT, event := 3, inst := halfNum h, half := some h } else s

/-- LEASE_RENEW (R734, R736). -/
def execLeaseRenew (h : Half) (epoch : Nat) (s : State) : Out :=
  run (.leaseRenew h epoch) <| s.clocked <|
    if s.holder = some h && s.fld F.CNT_LEASE_STATUS_EPOCH = epoch then s.setFld F.CNT_LEASE_STATUS_AGE_NS 0
    else (s.bump F.CNT_LEASE_REFUSED_COUNT).fence h

/-! ## Measurements (R836, R837) -/

def measIdx (h : Half) (k : Nat) : Nat := 4 * halfNum h + k

def State.meas (s : State) (h : Half) (k : Nat) : List Byte := s.boot.meas.getD (measIdx h k) []

def State.setMeas (s : State) (h : Half) (k : Nat) (d : List Byte) : State :=
  { s with boot := { s.boot with meas := s.boot.meas.set (measIdx h k) d } }

/-- M ← SHA3-512(M ‖ D). -/
def State.extend (s : State) (h : Half) (k : Nat) (d : List Byte) : State := s.setMeas h k (sha3 (s.meas h k ++ d))

/-- The half's Starter begins: its registers are zeros, and MEAS0 takes the digest of the ROM. -/
def State.beginMeas (s : State) (h : Half) : State :=
  let s := s.each 4 fun s k => s.setMeas h k (List.replicate 64 0#8)
  s.extend h 0 ((List.range 64).map Config.romDigest)

/-! ## ROM, IMAGE and VERIFY (R824 to R827) -/

/-- ROM_STAGE_DONE (R824, R832): `uds` says that the East Starter has reconstructed the UDS. -/
def execRomStageDone (h : Half) (uds : Bool) (s : State) : Out :=
  .next <| s.clocked <|
    if s.bootStage h ≠ sgROM then s
    else
      let s := if h = .west then s
        else if uds then s.setFlag F.BOOT_STATUS_ID_VALID true
        else (s.setFlag F.BOOT_STATUS_ID_VALID false).record { cls := ecBOOT, event := 1, aux := 3, half := some .east }
      let s := s.setStage h sgIMAGE
      if s.holder = none then s.grantLease h else s

/-- The slot chosen among those not yet failed (R825): 0 A, 1 B. -/
def BootSt.choose (b : BootSt) : Option Nat :=
  let ok := (List.range 2).filter fun k => !b.tried.contains k && ((b.slots[k]?).getD none).isSome
  let ver := fun (k : Nat) => (((b.slots[k]?).getD none).map (·.version)).getD 0
  match ok with
  | [a, b'] => if ver a < ver b' then some b' else some a
  | [a] => some a
  | _ => none

/-- The image of the published slot. -/
def State.published (s : State) : Option Img := (s.boot.slots[s.fld F.BOOT_STATUS_SLOT]?).getD none

/-- A half fails for its image. -/
def State.verifyFail (s : State) (h : Half) (event aux : Nat) : State :=
  s.record { cls := ecBOOT, event := event, aux := aux, half := some h, inst := halfNum h }

/-- IMAGE_READ_DONE (R824, R825): the lease holder has read the slots, `a` and `b` being their images where the header fields
and SVN hold, and publishes its choice; the other half has read the published slot. -/
def execImageReadDone (h : Half) (a b : Option Img) (s : State) : Out :=
  .next <| s.clocked <|
    if s.bootStage h ≠ sgIMAGE then s
    else
      let other := s.bootStage (otherHalf h)
      if s.half h ≠ hsResetting && s.holder = some h && !(decide (sgVERIFY ≤ other) && other != sgFAILED) then
        let s : State := { s with boot := { s.boot with slots := [a, b] } }
        match s.boot.choose with
        | some k => (s.setFld F.BOOT_STATUS_SLOT k).setStage h sgVERIFY
        | none => (s.verifyFail h 1 0).halfFail h
      else if s.half h = hsResetting || (decide (sgVERIFY ≤ other) && other != sgFAILED) then
        (match s.published with
         | some _ => s.setStage h sgVERIFY
         | none => (s.verifyFail h 1 0).halfFail h)
      else s

/-- The half leaves VERIFY with a valid image (R833, R836, R837). -/
def State.verified (s : State) (h : Half) (i : Img) : State :=
  let s := (s.setFld F.BOOT_FW_VERSION i.version).setFld F.BOOT_SVN_IMAGE_SVN i.svn
  let s := (s.setFld F.BOOT_SVN_COUNTER s.boot.rpmc).extend h 1 i.digest
  let s := if s.half h = hsResetting && (s.half (otherHalf h) = hsUp || s.half (otherHalf h) = hsFenced) then
      (s.setMeas h 2 (s.meas (otherHalf h) 2)).setMeas h 3 (s.meas (otherHalf h) 3)
    else s
  s.setStage h sgMEMORY

/-- VERIFY_DONE (R823, R825 to R827): the image is checked; `rpmc` says that the counter of the flash answers with a valid
HMAC. The lease holder chooses the other slot where the chosen one fails. -/
def execVerifyDone (h : Half) (rpmc : Bool) (s : State) : Out :=
  .next <| s.clocked <|
    if s.bootStage h ≠ sgVERIFY then s
    else match s.published with
    | none => s
    | some i =>
      let keyless := !s.boot.rpmcKey && !s.flag F.BOOT_STATUS_ID_VALID
      let s : State := if keyless then s else { s with boot := { s.boot with rpmcKey := true } }
      let bad : Option (Nat × Nat) :=
        if !i.keyOk then some (1, 2) else if !i.sigOk then some (1, 1)
        else if !rpmc || keyless then some (1, 4)
        else if i.svn < s.boot.rpmc then some (2, 0) else none
      match bad with
      | none => s.verified h i
      | some (event, aux) =>
        let s := s.verifyFail h event aux
        let chooses := s.half h ≠ hsResetting && s.holder = some h && s.bootStage (otherHalf h) ≤ sgVERIFY
        if !chooses then s.halfFail h
        else
          let s : State := { s with boot := { s.boot with tried := s.fld F.BOOT_STATUS_SLOT :: s.boot.tried } }
          match s.boot.choose with
          | none => s.halfFail h
          | some k =>
            let s := (s.setFld F.BOOT_STATUS_SLOT k).setStage h sgIMAGE
            if s.bootStage (otherHalf h) = sgVERIFY then s.setStage (otherHalf h) sgIMAGE else s

/-! ## SERDES (R824) -/

/-- A half reaches RUNNING: its links leave DISABLED (R461). -/
def State.enterRunning (s : State) (h : Half) : State := (s.setStage h sgRUNNING).enableLinks

/-- SERDES_DONE (R824): the quads of the mask (12 of the half's first I/O die, then 12 of the second) failed calibration. No
configuration load follows a half reset (R829). -/
def execSerdesDone (h : Half) (failed : Nat) (s : State) : Out :=
  run (.serdesDone h failed) <| s.clocked <|
    if s.bootStage h ≠ sgSERDES then s
    else
      let qs := (List.range 24).filter failed.testBit |>.map fun q => 24 * halfNum h + q
      let keep := s.boot.badQuads.filter fun q => q / 24 ≠ halfNum h
      let s : State := { s with boot := { s.boot with badQuads := keep ++ qs } }
      let s := qs.foldl (fun s q => s.record { cls := ecBOOT, event := 3, inst := q, half := some h }) s
      if s.boot.done then s.enterRunning h else s.setStage h sgCONFIG

/-! ## Updates and anti-rollback (R840, R841) -/

/-- The offset and size of a firmware slot in the board flash (R820). -/
def slotBase (k : Nat) : Nat := if k = 0 then 0x100000 else 0x800000
def slotSize : Nat := 0x700000

/-- A write of BOOT_SVN_COMMIT (R841). -/
def State.svnCommit (s : State) (v : Word) : State :=
  let svn := s.fld F.BOOT_SVN_IMAGE_SVN
  if F.BOOT_SVN_COMMIT_CONFIRM.get v = 0xA5 && F.BOOT_SVN_COMMIT_GO.get v ≠ 0 && decide (s.boot.rpmc < svn) then
    ({ s with boot := { s.boot with rpmc := svn } } : State).setFld F.BOOT_SVN_COUNTER svn
  else s

/-- BOOT_SVN_COMMIT (R841). -/
def execBootSvnCommit (src : Source) (v : Word) (s : State) : Out :=
  run (.bootSvnCommit src v) <| s.clocked <| s.gated src .BOOT_SVN_COMMIT 0 fun s => s.svnCommit v

/-- A chunk of a firmware offer (R840): written into the slot that BOOT_STATUS.SLOT does not name. -/
def State.fwChunk (s : State) (off tot : Nat) (data : List Byte) : State × Nat :=
  if 16368 < data.length then (s, stTooBig)
  else if s.fld F.BOOT_OFFER_RESULT = ofVERIFYING then (s, stBusy)
  else
    let held := s.fld F.BOOT_OFFER_HELD
    let r := chunkResult held s.boot.offerTotal off tot data.length slotSize
    let s := s.setFld F.BOOT_OFFER_RESULT r.1
    if r.2 then
      let s := ({ s with boot := { s.boot with offerTotal := tot } } : State).setFld F.BOOT_OFFER_HELD (off + data.length)
      (s.emit (.flashWrite (slotBase (1 - s.fld F.BOOT_STATUS_SLOT) + off) data), stOK)
    else if off = 0 then (({ s with boot := { s.boot with offerTotal := 0 } } : State).setFld F.BOOT_OFFER_HELD 0, stOK)
    else (s, stOK)

/-- FW_OFFER (R840). -/
def execFwOffer (src : Source) (off tot : Nat) (data : List Byte) (s : State) : Out :=
  run (.fwOffer src off tot data) <| s.clocked <| (s.entryWrite src 0x1011 1 fun s => s.fwChunk off tot data).1

/-- FW_OFFER_VERIFY_DONE (R840): the slot has been checked under R823, or could not be written. -/
def execFwOfferVerifyDone (written : Bool) (img : Option Img) (s : State) : Out :=
  .next <| s.clocked <|
    if s.fld F.BOOT_OFFER_RESULT ≠ ofVERIFYING then s
    else s.setFld F.BOOT_OFFER_RESULT <|
      if !written then ofFLASH
      else match img with
        | none => ofSIGNATURE
        | some i => if !i.keyOk || !i.sigOk then ofSIGNATURE else if i.svn < s.boot.rpmc then ofROLLBACK else ofACCEPTED

/-! ## Identity and attestation (R832 to R839) -/

/-- The identity credential (R834), entry 0x1010.01, as the leading half signs it. -/
def State.credential (s : State) : List Byte :=
  let h := s.leader
  let m := s.meas h 1
  let body := leBytes 2 0x4944 ++ leBytes 1 1 ++ leBytes 1 (halfNum h) ++ leBytes 4 (s.fld F.BOOT_SVN_IMAGE_SVN) ++
    leBytes 4 (s.fld F.BOOT_FW_VERSION) ++ leBytes 52 0 ++ m ++ (List.range 2592).map Config.devicePk ++
    (List.range 2592).map (Config.aliasPk m)
  body ++ (List.range 4627).map (Config.credSig body)

/-- The endorsement (R834), entry 0x1010.02. -/
def State.endorsement (s : State) : List Byte :=
  slice idDigest 0 32 ++ leBytes 4 (s.rd .PKG_DEVICE_ID).toNat ++ leBytes 28 0 ++ (List.range 4627).map Config.endorsement

/-- The attestation report (R838) without its signature. -/
def State.reportBody (s : State) (nonce : List Byte) : List Byte :=
  let w := (List.range 4).flatMap fun k => s.meas .west k
  leBytes 2 0x4154 ++ leBytes 1 1 ++ leBytes 5 0 ++ leBytes 8 s.time ++ slice nonce 0 64 ++
  ((List.range 4).flatMap fun k => s.meas .east k) ++ (if s.half .west = hsUp then w else leBytes 256 0) ++
  leBytes 4 (s.fld F.BOOT_FW_VERSION) ++ leBytes 4 (s.fld F.BOOT_SVN_IMAGE_SVN) ++ leBytes 4 (s.fld F.BOOT_SVN_COUNTER) ++
  leBytes 4 (s.rd .PKG_HALF_STATUS).toNat ++ idDigest ++ s.sclFwDigest ++ leBytes 4 (s.fld F.SCL_EVENT_CNT_COUNT) ++ leBytes 28 0

/-- A nonce is written (R838, R839): to 0x1010.03, or to 0x2F63.01 (`host`). -/
def State.attest (s : State) (host : Bool) (nonce : List Byte) : State × Nat :=
  if nonce.length ≠ 64 then (s, stType)
  else if host then ({ s with attestHost := some { nonce := nonce } }, stOK)
  else if !s.flag F.BOOT_STATUS_ID_VALID then (s, stState)
  else ({ s with attestNet := some { nonce := nonce } }, stOK)

/-- ATTEST_NONCE (R838). -/
def execAttestNonce (src : Source) (host : Bool) (nonce : List Byte) (s : State) : Out :=
  run (.attestNonce src host nonce) <| s.clocked <|
    (s.entryWrite src (if host then 0x2F63 else 0x1010) (if host then 1 else 3) fun s => s.attest host nonce).1

/-- ATTEST_REPORT_READY (R838): the report is signed; the signature's bytes are free values. -/
def execAttestReportReady (host : Bool) (s : State) : Out :=
  .next <| s.clocked <|
    let stamp := s.free
    let make : Attest → Attest := fun a =>
      { a with report := some (s.reportBody a.nonce ++ (List.range 4627).map (Config.freeByte stamp)) }
    if !s.flag F.BOOT_STATUS_ID_VALID then s
    else if host then { s with attestHost := s.attestHost.map make, free := s.free + 1 }
    else { s with attestNet := s.attestNet.map make, free := s.free + 1 }

/-! ## Time (R842 to R848) -/

/-- Distance of two 64-bit times. -/
def apart (a b : Nat) : Nat := min ((a + 2 ^ 64 - b) % 2 ^ 64) ((b + 2 ^ 64 - a) % 2 ^ 64)

/-- Calendar time is restored (R843, R847, R848): the offset is set, FIRST_POWER at the first time of all, and the gap since the
latest snapshot is recorded. -/
def State.restoreCalendar (s : State) (u t2 : Nat) : State :=
  let s := (s.setFld F.BOOT_UTC_OFFSET_VALUE ((u + 2 ^ 64 - t2) % 2 ^ 64)).setFlag F.BOOT_TIME_STATUS_RESTORED true
  let now := s.utcNs / 1000000
  let s := if s.lifeGet 0x5080 2 = 0 then s.lifeSet 0x5080 2 (now / 1000) else s
  let last := s.lifeGet 0x5000 6
  if last = 0 then s
  else ((s.lifeSet 0x5000 7 (now - last - s.time / 1000000)).lifeAdd 0x5000 8 1).beginSnap

/-- A sample is accepted (R843, R846): the frequency correction moves by at most 1 ppm per second and stays within 200 ppm, and
the frequency estimate lies within 2 ppm or not; both are free values. -/
def State.acceptSample (s : State) (net : Bool) : State :=
  let step := 100 * ((s.time - s.cal.last.getD 0 + 999999999) / 1000000000)
  let move := (Config.freeNat s.free % (2 * step + 1) : Nat) - (step : Int)
  let corr := sgn 16 (s.fld F.BOOT_TIME_STATUS_FREQ_CORR) + move
  let corr := if corr < -20000 then -20000 else if 20000 < corr then 20000 else corr
  let ok := Config.freeNat (s.free + 1) % 2 = 1
  let s : State := { s with free := s.free + 2, cal := { s.cal with last := some s.time, lastNet := if net then some s.time else s.cal.lastNet } }
  let s := (s.setFld F.BOOT_TIME_STATUS_FREQ_CORR (twos 16 corr)).setFlag F.BOOT_TIME_STATUS_DISCIPLINED ok
  s.setFld F.BOOT_TIME_STATUS_SOURCE (if net then 1 else 2)

/-- A sample (u, t2) of a source that is in use (R844, R845). -/
def State.sample (s : State) (u t2 : Nat) (net : Bool) : State :=
  let recent := s.cal.lastNet.any fun t => decide (s.time < t + 4000000000)
  if !s.flag (if net then F.BOOT_TIME_CTRL_EN_NET else F.BOOT_TIME_CTRL_EN_HOST) || (!net && s.flag F.BOOT_TIME_CTRL_EN_NET && recent) then s
  else if !s.flag F.BOOT_TIME_STATUS_RESTORED then (s.restoreCalendar u t2).acceptSample net
  else if apart u ((t2 + s.fld F.BOOT_UTC_OFFSET_VALUE) % 2 ^ 64) ≤ 1000000000 then s.acceptSample net
  else if s.cal.last.any fun t => decide (t + 600000000000 ≤ s.time) then (s.restoreCalendar u t2).acceptSample net
  else s.bump F.BOOT_TIME_STATUS_REJECTS

/-- BOOT_TIME_SYNC (R844): latches the device time of its frame. -/
def execBootTimeSync (src : Source) (n : Nat) (s : State) : Out :=
  run (.bootTimeSync src n) <| s.clocked <|
    (s.entryWrite src 0x1104 2 fun s => ({ s with cal := { s.cal with sync := some (n, s.time) } }, stOK)).1

/-- BOOT_TIME_FOLLOW (R844, R845). -/
def State.follow (s : State) (n t1 : Nat) : State :=
  match s.cal.sync with
  | some (k, t2) => if k = n then s.sample ((t1 + s.fld F.BOOT_TIME_CTRL_DELAY_NS) % 2 ^ 64) t2 true else s
  | none => s

/-- BOOT_TIME_FOLLOW (R844). -/
def execBootTimeFollow (src : Source) (n t1 : Nat) (s : State) : Out :=
  run (.bootTimeFollow src n t1) <| s.clocked <| (s.entryWrite src 0x1104 3 fun s => (s.follow n t1, stOK)).1

/-- BOOT_TIME_HOST (R844). -/
def execBootTimeHost (src : Source) (u : Word) (s : State) : Out :=
  run (.bootTimeHost src u) <| s.clocked <| s.gated src .BOOT_TIME_HOST 0 fun s => s.sample u.toNat s.time false

/-- DEVICE_TIME_UNDISCIPLINED (R846): no sample has been accepted for 4 s. -/
def execDeviceTimeUndisciplined (s : State) : Out := .next <| s.clocked <| s.setFlag F.BOOT_TIME_STATUS_DISCIPLINED false

/-! ## Orderly shutdown (R852) -/

/-- The next step of an orderly shutdown, where the one before it is done: 1 programs park, 2 a snapshot is written, 3 Scale
closes. -/
def State.advanceShutdown (s : State) : State :=
  if s.snaps.stage = 1 && !(List.range 64).any s.live then
    ({ s with snaps := { s.snaps with stage := 2 } } : State).beginSnap
  else s

/-- A write of LIFE_CTRL. -/
def State.lifeCtrl (s : State) (v : Word) : State :=
  let s := if F.LIFE_CTRL_PERSIST_NOW.get v ≠ 0 then s.beginSnap else s
  if F.LIFE_CTRL_SHUTDOWN.get v = 0 || F.LIFE_CTRL_CONFIRM.get v ≠ 0xA5 || s.snaps.stage ≠ 0 then s
  else
    let s := s.each 64 fun s n => if s.live n then s.setProg n { s.prog n with parkReq := true } else s
    ({ s with snaps := { s.snaps with stage := 1 } } : State).advanceShutdown

/-- SHUTDOWN (R852). -/
def execShutdown (src : Source) (confirm : Nat) (s : State) : Out :=
  run (.shutdown src confirm) <| s.clocked <| s.gated src .LIFE_CTRL 0 fun s =>
    s.lifeCtrl (F.LIFE_CTRL_CONFIRM.put (F.LIFE_CTRL_SHUTDOWN.put 0 1) confirm)

/-- SNAPSHOT_WRITE_DONE (R851, R852): Scale closes after the snapshot of a shutdown; a failed one is tried again. -/
def execSnapshotWriteDone (ok : Bool) (s : State) : Out :=
  .next <| s.clocked <|
    if s.snaps.busy.isNone then s
    else
      let closing := s.snaps.stage = 2 && !s.snaps.again
      let s := s.endSnap ok
      if !closing then s
      else if ok then ({ s with snaps := { s.snaps with stage := 3 } } : State).sclShutdown
      else s.beginSnap

end Sys2Proof.Machine
end

