-- ==== Sys2Proof/Machine/Mgmt.lean ====
section
/-!
DEFINITION. Management sessions, the commit groups of the MGT block, and the expiry of the lease (16_object_dictionary.md R756
to R772, R784; 15_continuity.md R732, R733).
-/

namespace Sys2Proof.Machine

/-! ## Sessions and handshakes (R784) -/

def State.session (s : State) (k : Nat) : Option Session := sget none s.mg.sessions k

def State.shake (s : State) (k : Nat) : Option Session := sget none s.mg.shakes k

def State.openSessions (s : State) : Nat := ((List.range 4).filter fun k => (s.session k).isSome).length

def State.openShakes (s : State) : Nat := ((List.range 2).filter fun k => (s.shake k).isSome).length

/-- MGT_NET_STATUS follows the sessions. -/
def State.syncMg (s : State) : State :=
  let s := s.setFld F.MGT_NET_STATUS_SESSIONS s.openSessions
  let s := s.setFld F.MGT_NET_STATUS_HANDSHAKES s.openShakes
  s.setFlag F.MGT_NET_STATUS_MBX_SESSION s.mg.mbx.isSome

def State.setSession (s : State) (k : Nat) (x : Option Session) : State :=
  ({ s with mg := { s.mg with sessions := sput none k x s.mg.sessions } } : State).syncMg

def State.setShake (s : State) (k : Nat) (x : Option Session) : State :=
  ({ s with mg := { s.mg with shakes := sput none k x s.mg.shakes } } : State).syncMg

/-- Fragments of a sender that will not be completed, and responses owed to it, are dropped. -/
def State.forget (s : State) (who : Nat) (slot : Option Nat) : State :=
  { s with mg := { s.mg with partials := s.mg.partials.filter fun p => p.who ≠ who, owedRsp := s.mg.owedRsp.filter fun o => o.slot ≠ slot } }

/-- A network session closes. -/
def State.closeSession (s : State) (k : Nat) : State := (s.setSession k none).forget k (some k)

/-- A handshake is discarded. -/
def State.dropShake (s : State) (k : Nat) : State :=
  let s := s.setShake k none
  { s with mg := { s.mg with partials := s.mg.partials.filter fun p => p.who ≠ 4 + k } }

/-- Every network session closes. -/
def State.closeNet (s : State) : State := s.each 4 State.closeSession

/-- Management firmware serves messages: the lease is held by a half whose management cores have started (R824, R784). -/
def State.mgmtServes (s : State) : Bool :=
  s.holder.any fun h => decide (4 ≤ s.bootStage h) && s.bootStage h != sgFAILED

/-! ## Anchor slots -/

/-- The slots 0 to 7 (subindex 0x01 to 0x08), active and staged. -/
def State.anchor (s : State) (k : Nat) : Anchor := sget {} s.mg.anchors k

def State.anchorStaged (s : State) (k : Nat) : Anchor := sget {} s.mg.anchorsStaged k

/-- The 68 bytes of a slot. -/
def Anchor.bytes (a : Anchor) : List Byte :=
  slice a.digest 0 64 ++ leBytes 1 a.roleMax ++ leBytes 1 (if a.valid then 1 else 0) ++ leBytes 2 0

/-- The slot that 68 bytes spell, where they are in range: a valid slot has a ROLE_MAX of 0x1 to 0x4. -/
def anchorOf (b : List Byte) : Option Anchor :=
  let role := leAt b 64 1
  let valid := leAt b 65 1
  if 1 < valid || 4 < role || (valid = 1 && role = 0) || leAt b 66 2 ≠ 0 then none
  else some { digest := slice b 0 64, roleMax := role, valid := valid == 1 }

/-! ## Commits (R762) -/

/-- Accepted checks of the network group: ID and TO_TIMER. -/
def State.commitNet (s : State) : State :=
  let s := s.beginCommit .net 0
  let p := s.snapOf .net 0 .MGT_NET_PLCA 0
  let id := F.MGT_NET_PLCA_ID.get p
  if (F.MGT_NET_PLCA_EN.get p ≠ 0 && (id = 0 || id = 255)) || F.MGT_NET_PLCA_TO_TIMER.get p = 0 then s.rejectCommit .net 0 1 else s

/-- The network settings take effect and every network session closes (R762); PLCA runs where it is enabled (R771). -/
def State.applyNet (s : State) : State :=
  let s := (s.finishCommit .net 0).closeNet
  s.setFlag F.MGT_NET_STATUS_PLCA_ACTIVE (s.flag F.MGT_NET_PLCA_EN)

/-- A commit of the anchor group takes a snapshot of the slots; one of them must be able to administer. -/
def State.commitAnchor (s : State) : State :=
  let s := s.beginCommit .anchor 0
  let s : State := { s with mg := { s.mg with anchorSnap := some s.mg.anchorsStaged } }
  if (List.range 8).any fun k => (s.anchorStaged k).valid && decide (3 ≤ (s.anchorStaged k).roleMax) then s
  else ({ s with mg := { s.mg with anchorSnap := none } } : State).rejectCommit .anchor 0 1

/-- MEAS3 of both halves is extended with the digest of the staged values of an accepted commit (R836). -/
def State.extendMgmt (s : State) (b : List Byte) : State := (s.extend .east 3 (sha3 b)).extend .west 3 (sha3 b)

/-- The anchor slots take effect, and the sessions whose slot changed close (R762). -/
def State.applyAnchor (s : State) : State :=
  let snap := s.mg.anchorSnap.getD s.mg.anchorsStaged
  let changed := (List.range 8).filter fun k => sget {} snap k ≠ s.anchor k
  let s : State := { s.finishCommit .anchor 0 with mg := { s.mg with anchors := snap, anchorSnap := none } }
  let s := s.extendMgmt ((List.range 8).flatMap fun k => (s.anchor k).bytes)
  (List.range 4).foldl (fun s k =>
    s.when ((s.session k).any fun x => x.anchor.any changed.contains) fun s => s.closeSession k) s

/-- The delegation ranges of words. -/
def covers (l : List Word) (idx : Nat) : Bool :=
  l.any fun w => F.MGT_DELEG_VALID.get w != 0 && decide (F.MGT_DELEG_FIRST.get w ≤ idx) && decide (idx ≤ F.MGT_DELEG_LAST.get w)

/-- The indices of a group's members and of its commit entry. -/
def Group.indices (g : Group) (n : Nat) : List Nat :=
  (g.entry.object n).1 :: (g.members n).map fun m => (m.1.object m.2).1

/-- The groups that the network owns by default and that may be delegated. -/
def delegable : List (Group × Nat) :=
  [(Group.stage, 0), (.repl, 0), (.coh, 0), (.yl, 0), (.qos, 0), (.cnt, 0)] ++ (List.range 16).map fun t => (Group.tsp, t)

/-- The checks of the delegation group: RANGE, PROTECTED, SPLIT (R766). -/
def delegCheck (l : List Word) : Nat :=
  let v := l.filter fun w => F.MGT_DELEG_VALID.get w ≠ 0
  if v.any fun w => decide (F.MGT_DELEG_LAST.get w < F.MGT_DELEG_FIRST.get w) then 1
  else if v.any fun w => decide (F.MGT_DELEG_FIRST.get w ≤ 0x1FFF) && decide (0x1000 ≤ F.MGT_DELEG_LAST.get w) then 2
  else if delegable.any fun g => (g.1.indices g.2).any (covers l) && !(g.1.indices g.2).all (covers l) then 3
  else 0

def State.commitDeleg (s : State) : State :=
  let s := s.beginCommit .deleg 0
  let r := delegCheck ((List.range 16).map fun k => s.snapOf .deleg 0 .MGT_DELEG k)
  if r = 0 then s else s.rejectCommit .deleg 0 r

/-- The delegation ranges take effect (R764). -/
def State.applyDeleg (s : State) : State :=
  let s := s.finishCommit .deleg 0
  s.extendMgmt ((List.range 16).flatMap fun k => leBytes 8 (s.rd .MGT_DELEG k).toNat)

/-- MGT_NET_COMMIT (R762). -/
def execMgtNetCommit (src : Source) (s : State) : Out :=
  run (.mgtNetCommit src) <| s.clocked <| s.gated src .MGT_NET_COMMIT 0 State.commitNet

/-- MGT_ANCHOR_COMMIT (R762). -/
def execMgtAnchorCommit (src : Source) (s : State) : Out :=
  run (.mgtAnchorCommit src) <| s.clocked <| s.gated src .MGT_ANCHOR_COMMIT 0 State.commitAnchor

/-- MGT_DELEG_COMMIT (R762, R764, R766). -/
def execMgtDelegCommit (src : Source) (s : State) : Out :=
  run (.mgtDelegCommit src) <| s.clocked <| s.gated src .MGT_DELEG_COMMIT 0 State.commitDeleg

/-! ## The lease expires (R732, R733, R784) -/

/-- The half that the arbiter grants an expired lease to: the standing request of the other half, else that of the former
holder; with none before, East first. -/
def State.nextHolder (s : State) : Option Half :=
  let first := s.holder.elim Half.east otherHalf
  if s.asksLease first then some first
  else if s.asksLease (otherHalf first) then some (otherHalf first) else none

/-- LEASE_EXPIRY: sessions and handshakes end where the lease changes holder. -/
def execLeaseExpiry (s : State) : Out :=
  .next <| s.clocked <|
    let old := s.holder
    let new := s.nextHolder
    let s := match new with
      | some h => s.grantLease h
      | none => s.setFld F.CNT_LEASE_STATUS_HOLDER 0
    if new = old then s else (s.closeNet.dropShake 0).dropShake 1

/-! ## The segment (R771, R772) -/

/-- BEACON_LOSS (R771): no BEACON for 2 ms; the MAC falls back to CSMA/CD. -/
def execBeaconLoss (s : State) : Out :=
  .next <| s.clocked <|
    let s := ({ s with mg := { s.mg with beacons := 0 } } : State).setFlag F.MGT_NET_STATUS_BEACON false
    if s.flag F.MGT_NET_STATUS_PLCA_ACTIVE then
      (s.setFlag F.MGT_NET_STATUS_PLCA_ACTIVE false).bump F.MGT_NET_BEACON_LOSS_COUNT
    else s

/-- BEACON_SEEN (R771): two in a row return the MAC to PLCA. -/
def execBeaconSeen (s : State) : Out :=
  .next <| s.clocked <|
    let s := ({ s with mg := { s.mg with beacons := min 2 (s.mg.beacons + 1) } } : State).setFlag F.MGT_NET_STATUS_BEACON true
    if s.flag F.MGT_NET_PLCA_EN && decide (2 ≤ s.mg.beacons) then s.setFlag F.MGT_NET_STATUS_PLCA_ACTIVE true else s

/-- The MAC address (R772). -/
def State.mac (s : State) : List Byte :=
  let a := s.fld F.MGT_NET_MAC_ADDR
  if a = 0 then 0x02#8 :: slice idDigest 0 5 else (leBytes 6 a).reverse

/-- The IPv6 link-local address, a modified EUI-64 (R772). -/
def State.ipv6 (s : State) : List Byte :=
  let m := s.mac
  [0xFE#8, 0x80#8] ++ leBytes 6 0 ++ [(m.headD 0) ^^^ 0x02#8] ++ slice m 1 2 ++ [0xFF#8, 0xFE#8] ++ slice m 3 3

/-- A frame arrives with a good frame check. -/
def State.rxFrame (s : State) : State := s.wrap F.MGT_NET_RX_FRAMES_COUNT

/-- A frame is sent. -/
def State.txFrame (s : State) : State := s.wrap F.MGT_NET_TX_FRAMES_COUNT

/-- With a duplicate address the controller answers only frames with its own MAC address (R772). -/
def State.silent (s : State) (toMac : Bool) : Bool := s.flag F.MGT_NET_STATUS_DUP && !toMac

/-- NEIGHBOR_SOLICITATION (R772): for `target`; a solicitation of another address is discarded and counted. -/
def execNeighborSolicitation (target : List Byte) (toMac : Bool) (s : State) : Out :=
  .next <| s.clocked <|
    let s := s.rxFrame
    if target ≠ s.ipv6 then s.bump F.MGT_NET_OTHER_COUNT
    else if s.silent toMac then s
    else (s.emit (.icmp "neighbor advertisement" (s.ipv6 ++ s.mac))).txFrame

/-- ECHO_REQUEST (R772). -/
def execEchoRequest (target data : List Byte) (toMac : Bool) (s : State) : Out :=
  .next <| s.clocked <|
    let s := s.rxFrame
    if target ≠ s.ipv6 then s.bump F.MGT_NET_OTHER_COUNT
    else if s.silent toMac then s
    else (s.emit (.icmp "echo reply" data)).txFrame

/-- DAD_COMPLETE (R772). -/
def execDadComplete (duplicate : Bool) (s : State) : Out := .next <| s.clocked <| s.setFlag F.MGT_NET_STATUS_DUP duplicate

/-- DROPPED_FRAME (R771, R785): `why` is 0 a frame check error, 1 another frame or datagram, 2 an unauthenticated datagram, 3 one
beyond a rate limit, 4 a collision of the controller's own frame. -/
def execDroppedFrame (why : Nat) (s : State) : Out :=
  run (.droppedFrame why) <| s.clocked <|
    let s := if why = 0 || why = 4 then s else s.rxFrame
    s.bump ([F.MGT_NET_FCS_ERR_COUNT, F.MGT_NET_OTHER_COUNT, F.MGT_NET_UNAUTH_COUNT, F.MGT_NET_LIMITED_COUNT].getD why F.MGT_NET_COLLISIONS_COUNT)

end Sys2Proof.Machine
end

