-- ==== Sys2Proof/Machine/Resets.lean ====
section
/-!
DEFINITION. Package cold reset, chip warm reset and half reset, the East–West bridge, and the end of memory training
(01_architecture.md R31 to R34, R45 to R53; 13_partitions.md R639, R640; 18_boot_identity_life.md R824, R828 to R831).
-/

namespace Sys2Proof.Machine

/-! ## Package cold reset and chip warm reset (R639) -/

/-- LAST_CAUSE of RST_STATUS. -/
def rcCOLD : Nat := 1
def rcREF : Nat := 2
def rcRST_CTRL : Nat := 3
def rcBRIDGE : Nat := 4
def rcJXVM : Nat := 5

/-- Registers of Scale that its flash or its own domain keeps. -/
def sclPersisted : List Reg := [.SCL_EVENT_CNT, .SCL_LAST_SEQ, .SCL_TICK, .SCL_FW_VERSION]
def sclVolatile : List Reg := [.SCL_STATUS, .SCL_DISC, .SCL_IN_DROP, .SCL_OFFER_STATUS]

/-- Copy registers from one state to another. -/
def State.copyRegs (s t : State) (rs : List Reg) : State := rs.foldl (fun s r => s.wr r 0 (t.rd r 0)) s

/-- What every reset of the package leaves as it is: commands, outputs and free values; flash contents; signals from outside. -/
def State.outside (s : State) : State :=
  { pending := s.pending, out := s.out, free := s.free, coldHeld := s.coldHeld, sysrefLost := s.sysrefLost, perst := s.perst,
    boot := { rpmc := s.boot.rpmc, rpmcKey := s.boot.rpmcKey },
    snaps := { saved := s.snaps.saved, slot := s.snaps.slot, clean := s.snaps.clean } }

/-- Tier 0 and tier 1 content becomes undefined. -/
def State.losetiers (s t : State) : State := (s.undefine 0 t0Size).undefine t1Base t.t1Size

/-- Package cold reset (R639): everything but tier 2 content and flash. -/
def State.coldReset (s : State) (cause : Nat) : State :=
  let x := s.scale
  let t : State := { s.outside with scale := { saved := x.saved, meterId := x.meterId, classEn := x.classEn,
                                               fwDigest := x.fwDigest, paramDigest := x.paramDigest } }
  let t := (t.copyRegs s (.PKG_STRAPS :: sclPersisted)).losetiers s
  let t := if s.thermtrip then t.emit (.pin "thermtrip_n" true) else t
  (t.setFld F.RST_STATUS_LAST_CAUSE cause).emit (.pin "boot_done" false)

/-- Both Starters begin at the ROM stage (R824, R829). DESIGN CHOICE, assumption log 15: the spec does not say when in the boot the I/O
dies read attached, the clocks locked and the bridge groups in service; here they do as the Starters begin ROM. -/
def State.startStarters (s : State) : State :=
  let s := (s.setHalf .east hsBooting).setHalf .west hsBooting
  let s := ((s.setStage .east sgROM).setStage .west sgROM).wr .PKG_IODIE_STATUS 0 0xF
  let s := (s.setFld F.PKG_BRIDGE_STATUS_EW_GROUPS 0xFFFF).setFld F.PKG_BRIDGE_STATUS_WE_GROUPS 0xFFFF
  let s := (s.wr .PKG_CLK_STATUS 0 0x7F).restoreLife
  (s.beginMeas .east).beginMeas .west

/-- Power-up from package cold reset (R824, R806, R847, R852). -/
def State.coldStart (s : State) : State :=
  let s := s.startStarters.lifeAdd 0x5000 3 1
  let s := if s.snaps.clean then s else s.lifeAdd 0x5000 4 1
  let s : State := { s with snaps := { s.snaps with clean := false } }
  s.setFld F.SCL_STATUS_STATE scLOADING

/-- COLD_RESET_RELEASE (R821, R824, R866): the SPI outputs are driven again, the straps are sampled, and the Starters begin unless the reference is lost. -/
def execColdResetRelease (straps : Nat) (s : State) : Out :=
  run (.coldResetRelease straps) <|
    if !s.coldHeld then s
    else
      let s := (({ s with coldHeld := false } : State).emit (.pin "SPI outputs" true)).setFld F.PKG_STRAPS_STRAP straps
      if s.sysrefLost then s else s.coldStart

/-- COLD_RESET_ASSERT (R639, R821, R828): cold_rst_n goes low, and the SPI outputs are at high impedance until it goes high. -/
def execColdResetAssert (s : State) : Out :=
  .next <| if s.coldHeld then s else { (s.coldReset rcCOLD).emit (.pin "SPI outputs" false) with coldHeld := true }

/-- SYSREF_LOSS (R45). -/
def execSysrefLoss (s : State) : Out :=
  .next <|
    if s.sysrefLost then s
    else if s.coldHeld then { s with sysrefLost := true }
    else { s.coldReset rcREF with sysrefLost := true }

/-- SYSREF_RETURN (R45). -/
def execSysrefReturn (s : State) : Out :=
  .next <|
    if !s.sysrefLost then s
    else
      let s : State := { s with sysrefLost := false }
      if s.coldHeld then s else s.coldStart

/-- Chip warm reset (R639, R829): both halves, the I/O dies, links and ports; Scale goes on. -/
def State.warmReset (s : State) (cause : Nat) : State :=
  if s.coldHeld || s.sysrefLost then s
  else
    let t : State := { s.outside with scale := s.scale, tokPend := s.tokPend, thermtrip := s.thermtrip,
                                      tempE := s.tempE, tempW := s.tempW, voltE := s.voltE, voltW := s.voltW, sensors := s.sensors,
                                      railV := s.railV, railI := s.railI, railMiss := s.railMiss, power := s.power, cycleHot := s.cycleHot }
    let t := t.copyRegs s ([.PKG_STRAPS] ++ sclPersisted ++ sclVolatile ++ (if s.thermtrip then [.PKG_THROTTLE_STATUS] else []))
    let t := (t.losetiers s).setFld F.RST_STATUS_LAST_CAUSE cause
    let t := t.startStarters.setFlag F.BOOT_STATUS_WARM true
    t.emit (.pin "boot_done" false)

/-! ## Half reset (R34, R46 to R53, R180, R639, R640) -/

/-- Programs with tiles staged in a half, or running on its arrays (R53, R180). -/
def State.halfProgs (s : State) (h : Half) : List Nat :=
  let staged := (s.stage.filter fun t => t.half == halfNum h && decide (t.st = .present)).flatMap fun t => t.refs.map (·.1)
  let on := s.arrs.filterMap fun a => if a.1 / 128 = halfNum h then (match a.2.job with
    | .item n _ _ | .write n _ | .table n => some n
    | _ => none) else none
  (List.range 64).filter fun n => (staged.contains n || on.contains n) && s.pstate n ≠ pgEMPTY && s.pstate n ≠ pgHALTED

/-- The arrays of a half go OFFLINE, whatever they were doing. -/
def State.halfArrays (s : State) (h : Half) : State :=
  s.each 128 fun s k =>
    let a := 128 * halfNum h + k
    let s := s.freeEngine a
    if s.astate a = arRETIRED then s
    else (s.setArr a { s.arr a with job := .none, cur := none, reads := [], buffer := none, test := none, retest := none,
                                    held := [], books := [], slow := false }).setAstate a arOFFLINE

/-- The half of an engine (R99). -/
def engHalf (cls inst : Nat) : Nat := inst / ([128, 8, 32, 1, 4].getD cls 1)

/-- The work of the movers and Scoop engines of a half goes to engines of the other half, and its caches are empty. -/
def State.halfEngines (s : State) (h : Half) (env : Env) : State :=
  let n := halfNum h
  let s : State := { s with engResets := s.engResets.filter fun r => engHalf r.cls r.inst ≠ n }
  let s := s.setFlag F.RST_STATUS_ENG_BUSY (!s.engResets.isEmpty)
  let s := (List.range 8).foldl (fun s k => s.scoopMove (8 * n + k) env) s
  let s := (List.range 32).foldl (fun s k => s.restartMove (32 * n + k) env) s
  let s := (s.freeEngine (slotTaster n)).evictReps fun r => r.half == n
  let s : State := { s with sweeps := s.sweeps.filter fun x => x.half ≠ n, hot := s.hot.filter fun x => x.1 ≠ n }
  match h with
  | .east => { s with cacheE := [] }
  | .west => { s with cacheW := [] }

/-- A link goes down at the link layer and stays DISABLED. -/
def State.linkOff (s : State) (l : Nat) : State :=
  if s.lstate l = lsDISABLED then s
  else if s.linkUp l then s.leaveUp l lsDISABLED
  else (s.setLink l { s.link l with recovery := false, fast := 0 }).setLstate l lsDISABLED

/-- A half enters RESETTING. `keep` says that its tier content is kept. -/
def State.halfReset (s : State) (h : Half) (keep : Bool) (env : Env) : State :=
  if !s.halfUp h then s
  else
    let progs := s.halfProgs h
    let s := ((s.setHalf h hsResetting).setStage h sgIMAGE).beginMeas h
    let s := s.each 96 fun s l => if ioHalf (linkDie l).1 = h then s.linkOff l else s
    let s := progs.foldl (fun s n => s.haltProg n hcHALF_RESET) s
    let s := ((s.halfArrays h).halfEngines h env).agentDead 4 none
    let s := s.tellHalfReset h progs
    if keep then s
    else match h with
      | .east => (s.undefine 0 t0Half).undefine t1Base (s.t1Size / 2)
      | .west => (s.undefine t0Half t0Half).undefine (t1Base + s.t1Size / 2) (s.t1Size / 2)

/-- A write of RST_CTRL: CHIP takes precedence. -/
def State.writeRst (s : State) (src : Source) (v : Word) (env : Env) : State :=
  if F.RST_CTRL_CONFIRM.get v ≠ 0xA5 then s
  else if F.RST_CTRL_CHIP.get v ≠ 0 then
    s.warmReset (match src with
      | .net _ | .mbx => rcJXVM
      | _ => rcRST_CTRL)
  else
    let s := if F.RST_CTRL_HALF_E.get v ≠ 0 then s.halfReset .east true env else s
    if F.RST_CTRL_HALF_W.get v ≠ 0 then s.halfReset .west true env else s

/-- CHIP_WARM_RESET (R639): RST_CTRL.CHIP written with CONFIRM. -/
def execChipWarmReset (src : Source) (confirm : Nat) (s : State) : Out :=
  run (.chipWarmReset src confirm) <| s.clocked <| s.gated src .RST_CTRL 0 fun s =>
    s.writeRst src (F.RST_CTRL_CONFIRM.put (F.RST_CTRL_CHIP.put 0 1) confirm) []

/-- HALF_RESET (R46, R639): RST_CTRL.HALF_E or HALF_W written with CONFIRM. -/
def execHalfReset (src : Source) (h : Half) (confirm : Nat) (env : Env) (s : State) : Out :=
  run (.halfReset src h confirm env) <| s.clocked <| s.gated src .RST_CTRL 0 fun s =>
    s.writeRst src (F.RST_CTRL_CONFIRM.put ((match h with
      | .east => F.RST_CTRL_HALF_E
      | .west => F.RST_CTRL_HALF_W).put 0 1) confirm) env

/-- HALF_RESET_TIMEOUT (R46): the half is not out of RESETTING within 2 s. -/
def execHalfResetTimeout (h : Half) (s : State) : Out :=
  .next <| s.clocked <| if s.half h = hsResetting then s.halfFail h else s

/-! ## The bridge (R31 to R34) -/

/-- The groups in service of a direction: 0 East to West, 1 West to East. -/
def groupsFld (dir : Nat) : Fld := if dir = 0 then F.PKG_BRIDGE_STATUS_EW_GROUPS else F.PKG_BRIDGE_STATUS_WE_GROUPS

def State.groupsUp (s : State) (dir : Nat) : Nat := ((List.range 16).filter (s.fld (groupsFld dir)).testBit).length

/-- The chip warm reset of R33 with its record. -/
def State.bridgeReset (s : State) : State :=
  if s.coldHeld || s.sysrefLost then s else (s.warmReset rcBRIDGE).record { cls := ecPKG, event := 3 }

/-- BRIDGE_LANE_FAIL (R31): the group switches to its spare lane. -/
def execBridgeLaneFail (dir g : Nat) (s : State) : Out :=
  run (.bridgeLaneFail dir g) <| s.clocked <|
    if s.spares.contains (16 * dir + g) || !(s.fld (groupsFld dir)).testBit g then s
    else ({ s with spares := ninsert (16 * dir + g) s.spares } : State).wrap F.PKG_BRIDGE_REPAIR_CNT_SPARES_USED |>.record
      { cls := ecPKG, event := 1, inst := g, aux := dir }

/-- BRIDGE_SECOND_LANE_FAIL (R32, R33): the group leaves service. -/
def execBridgeSecondLaneFail (dir g : Nat) (s : State) : Out :=
  run (.bridgeSecondLaneFail dir g) <| s.clocked <|
    if !s.spares.contains (16 * dir + g) || !(s.fld (groupsFld dir)).testBit g then s
    else
      let f := groupsFld dir
      let s := (s.setFld ⟨f.reg, f.lo + g, 1⟩ 0).wrap F.PKG_BRIDGE_REPAIR_CNT_GROUPS_LOST
      let s := s.record { cls := ecPKG, event := 2, inst := g, aux := dir }
      if s.groupsUp dir < 8 then s.bridgeReset else s

/-- BRIDGE_ENDPOINT_LOST (R34): one endpoint lost resets its half, both reset the chip. An endpoint that is lost frames no group, so
none is in service in either direction until the bridge has trained again (MEMORY_TRAINED). -/
def execBridgeEndpointLost (east west : Bool) (env : Env) (s : State) : Out :=
  run (.bridgeEndpointLost east west env) <| s.clocked <|
    let lost := fun (h : Half) (s : State) =>
      if !s.halfUp h then s
      else ((s.halfReset h false env).wr .PKG_BRIDGE_STATUS 0 0).record { cls := ecPKG, event := 3, inst := halfNum h, half := some (otherHalf h) }
    match east, west with
    | true, true => s.bridgeReset
    | true, false => lost .east s
    | false, true => lost .west s
    | false, false => s

/-! ## Memory training (R824, R125, R132, R830) -/

/-- The arrays of a half join the pool. -/
def State.poolArrays (s : State) (h : Half) : State :=
  s.each 128 fun s k =>
    let a := 128 * halfNum h + k
    if s.astate a = arOFFLINE && !s.flag F.DA_ARR_CTRL_OFFLINE a then s.setAstate a arPOOL else s

/-- The channels of a half have been trained (R125): `bad` is the mask of those that failed, and the DIMMs agree or do not. -/
def State.trainT1 (s : State) (h : Half) (bad rate dimm : Nat) (same : Bool) : State :=
  let n := halfNum h
  let s := s.each 8 fun s k => s.setFld ⟨.TIER_T1_STATUS, 2 * (8 * n + k), 2⟩ (if bad.testBit k then 2 else 1)
  let s := (List.range 8).filter bad.testBit |>.foldl (fun s k =>
    s.record { cls := ecBOOT, event := 3, inst := 0x10 + 8 * n + k, half := some h }) s
  let s : State := { s with boot := { s.boot with dimms := sput (0, 0) n (if bad = 0 && same then (rate, dimm) else (0, 0)) s.boot.dimms } }
  let mine := sget (0, 0) s.boot.dimms n
  let other := sget (0, 0) s.boot.dimms (1 - n)
  let both := (List.range 8).all fun k => s.fld ⟨.TIER_T1_STATUS, 2 * (8 * (1 - n) + k), 2⟩ ≠ 0
  if mine ≠ (0, 0) && mine = other then
    ((s.setFld F.TIER_T1_INFO_RATE rate).setFld F.TIER_T1_INFO_DIMM_GIB dimm).setFlag F.TIER_T1_INFO_POPULATED true
  else
    let s := s.setFlag F.TIER_T1_INFO_POPULATED false
    if mine = (0, 0) && !(both && other = (0, 0)) || both && other ≠ (0, 0) then s.record { cls := ecTIER, event := 1, half := some h } else s

/-- The stacks of a half have been trained (R132, R133): `bad` is the mask of those that failed. -/
def State.trainT0 (s : State) (h : Half) (bad : Nat) : State :=
  let n := halfNum h
  let s := s.each 4 fun s k => s.setFld ⟨.TIER_T0_STATUS, 2 * (4 * n + k), 2⟩ (if bad.testBit k then 2 else 1)
  let s := (List.range 4).filter bad.testBit |>.foldl (fun s k =>
    (s.record { cls := ecTIER, event := 3, inst := 4 * n + k, half := some h }).record
      { cls := ecBOOT, event := 3, inst := 4 * n + k, half := some h }) s
  let f := match h with
    | .east => F.TIER_T0_STATUS_STAGE_E_AVAIL
    | .west => F.TIER_T0_STATUS_STAGE_W_AVAIL
  (if bad = 0 then s.setFlag f true else if s.flag f then s.withdrawStage h else s).syncFree

/-- The registers of a half's engines show again what the engines do: while the half was down they held what they were (R51). -/
def State.resyncHalf (s : State) (h : Half) : State :=
  let n := halfNum h
  (s.each 8 fun s k => s.syncScoop (8 * n + k)).each 32 fun s k => s.syncChan (32 * n + k)

/-- MEMORY_TRAINED (R824): the half is UP. A half reset joins it to the bridge again (R34) and to the partner's programs (R719).
DESIGN CHOICE, assumption log 15: the spec does not say whether training the bridge again frees spare lanes that are in use; here they
stay in use (`spares` is kept), so the next lane failure of such a group takes it out of service. -/
def execMemoryTrained (h : Half) (badCh badSt rate dimm : Nat) (same : Bool) (ew we : Nat) (s : State) : Out :=
  run (.memoryTrained h badCh badSt rate dimm same ew we) <| s.clocked <|
    if s.bootStage h ≠ sgMEMORY then s
    else
      let again := s.half h = hsResetting
      let s := (s.trainT1 h badCh rate dimm same).trainT0 h badSt
      let s := ((s.setHalf h hsUp).setStage h sgSERDES).poolArrays h
      let s := if again then (s.resyncHalf h).halfBack h else s
      if !(again || s.halfUp (otherHalf h)) then s
      else
        let s := (s.setFld F.PKG_BRIDGE_STATUS_EW_GROUPS ew).setFld F.PKG_BRIDGE_STATUS_WE_GROUPS we
        if s.groupsUp 0 < 8 || s.groupsUp 1 < 8 then s.bridgeReset else s

/-- MEMORY_TIMEOUT (R830): the half has not finished MEMORY within 5 s. -/
def execMemoryTimeout (h : Half) (s : State) : Out :=
  .next <| s.clocked <|
    if s.bootStage h ≠ sgMEMORY then s
    else (s.record { cls := ecBOOT, event := 3, inst := halfNum h, half := some h }).halfFail h

end Sys2Proof.Machine
end

