-- ==== Sys2Proof/Machine/Thermal.lean ====
section
/-!
DEFINITION. Regulators, sensors and throttling (19_package_electrical.md R862 to R864, R872 to R876; R849), and the loss of
a SerDes quad reference (R44).
-/

namespace Sys2Proof.Machine

/-! ## Throttle states (R874) -/

def thNORMAL : Nat := 0
def thTHROTTLE : Nat := 1
def thTRIPPED : Nat := 2

def thState (h : Nat) : Fld := if h = 0 then F.PKG_THROTTLE_STATUS_STATE_E else F.PKG_THROTTLE_STATUS_STATE_W
def thDuty (h : Nat) : Fld := if h = 0 then F.PKG_THROTTLE_STATUS_DUTY_E else F.PKG_THROTTLE_STATUS_DUTY_W
def thCause (h : Nat) : Fld := if h = 0 then F.PKG_THROTTLE_STATUS_THERM_E else F.PKG_THROTTLE_STATUS_THERM_W

/-- The power average (R873) times the number of samples it is the mean of, in units of 10 µW, and that number. -/
def State.powerSum (s : State) : Nat × Nat := (s.power.foldl (· + ·) 0, s.power.length)

/-- The causes follow the readings. -/
def State.syncCauses (s : State) : State :=
  let th := 16 * (s.fld F.PKG_THERM_CFG_TH_C : Int)
  let s := (s.setFlag (thCause 0) (decide (th ≤ s.tempE))).setFlag (thCause 1) (decide (th ≤ s.tempW))
  let p := s.powerSum
  s.setFlag F.PKG_THROTTLE_STATUS_POWER (s.flag F.PKG_PWR_LIMIT_EN && decide (s.fld F.PKG_PWR_LIMIT_LIMIT_W * 100000 * p.2 < p.1))

/-- A cause is present for a half. -/
def State.hasCause (s : State) (h : Nat) : Bool :=
  s.flag (thCause h) || s.flag F.PKG_THROTTLE_STATUS_POWER || s.flag F.PKG_THROTTLE_STATUS_PROCHOT

/-- throttle_n is high while both halves are NORMAL. -/
def State.throttleHigh (s : State) : Bool := s.fld (thState 0) == thNORMAL && s.fld (thState 1) == thNORMAL

/-- Carry out a change of the throttle, and drive throttle_n if its level changes. -/
def State.throttled (s : State) (f : State → State) : State :=
  let t := f s
  if t.throttleHigh = s.throttleHigh then t else t.emit (.pin "throttle_n" t.throttleHigh)

/-- A half that is NORMAL begins to throttle where a cause is present; with `hard`, a throttled half goes to duty 1/8 at
once. -/
def State.beginThrottle (s : State) (hard : Bool) : State :=
  s.syncCauses.throttled fun s => s.each 2 fun s h =>
    let s := if s.fld (thState h) = thNORMAL && s.hasCause h then (s.setFld (thState h) thTHROTTLE).setFld (thDuty h) 7 else s
    if hard && s.fld (thState h) = thTHROTTLE then s.setFld (thDuty h) 1 else s

/-! ## Sensors (R849, R872, R874) -/

def maxInt (l : List Int) : Int := l.foldl (fun a b => if a < b then b else a) (l.headD 0)

/-- THERMTRIP: a sensor at or above 110 °C; the pin goes low and no array item is granted any more. -/
def State.trip (s : State) : State :=
  if s.thermtrip || maxInt s.sensors < 1760 then s
  else
    let s := s.throttled fun s => (s.setFld (thState 0) thTRIPPED).setFld (thState 1) thTRIPPED
    { s with thermtrip := true }.emit (.pin "thermtrip_n" false)

/-- MAX_TJ of the life log, the highest junction temperature seen (R847). -/
def State.noteTj (s : State) : State :=
  let k := 0x5000 * 256 + 9
  if (sgn 16 (sget 0 s.life k)) < maxInt s.sensors then { s with life := sput 0 k (twos 16 (maxInt s.sensors)) s.life } else s

/-- Thermal cycles (R849). -/
def State.noteCycle (s : State) : State :=
  let t := maxInt s.sensors
  if 85 * 16 < t then { s with cycleHot := true }
  else if s.cycleHot && decide (t < 45 * 16) then { s with cycleHot := false }.lifeAdd 0x5000 2 1
  else s

/-- SENSOR_READ (R872): the hottest readings of the two logic dies and the four I/O dies, in 1/16 °C. -/
def execSensorRead (dies : List Int) (s : State) : Out :=
  run (.sensorRead dies) <| s.clocked <|
    let d := fun k => dies.getD k 0
    let s : State := { s with sensors := dies, tempE := maxInt [d 0, d 2, d 3], tempW := maxInt [d 1, d 4, d 5] }
    (s.noteTj.noteCycle.beginThrottle false).trip

/-! ## Regulators (R862 to R864, R873) -/

/-- Nominal voltage in mV and peak current in 10 mA of each rail (R861); a core rail's nominal voltage is its setpoint. -/
def State.railPeak (s : State) (i : Nat) : Nat × Nat :=
  let set := fun f => if s.fld f = 0 then 800 else s.fld f
  ([(1800, 600), (750, 300), (set F.PKG_AVS_CTRL_SET_E_MV, 50000), (set F.PKG_AVS_CTRL_SET_W_MV, 50000), (750, 10000), (750, 10000),
    (900, 9000), (900, 9000), (1200, 1500), (1200, 1500), (1800, 400), (1800, 400), (1100, 7500), (1100, 7500), (400, 19000),
    (400, 19000), (1100, 2500), (1100, 2500)] : List (Nat × Nat)).getD i (0, 0)

/-- What a rail counts in a power sample: its readings, or nominal voltage times peak current while its regulator does not
answer (R863). -/
def State.railPower (s : State) (i : Nat) : Nat :=
  if 3 ≤ sget 0 s.railMiss i then (s.railPeak i).1 * (s.railPeak i).2 else sget 0 s.railV i * sget 0 s.railI i

/-- Take the answer of one regulator. -/
def State.pollRail (s : State) (i : Nat) (r : Option (Nat × Nat)) : State :=
  match r with
  | some (v, a) => { s with railV := sput 0 i v s.railV, railI := sput 0 i a s.railI, railMiss := sput 0 i 0 s.railMiss }
  | none => { s with railMiss := sput 0 i (sget 0 s.railMiss i + 1) s.railMiss }

/-- PMBUS_POLL (R863): READ_VOUT and READ_IOUT of every regulator, or no answer. -/
def execPmbusPoll (rails : List (Option (Nat × Nat))) (s : State) : Out :=
  run (.pmbusPoll rails) <| s.clocked <|
    let s := s.each 18 fun s i => s.pollRail i (rails.getD i none)
    let w := (List.range 18).foldl (fun a i => a + s.railPower i) 0
    let s : State := { s with power := (w :: s.power).take 5, voltE := sget 0 s.railV 2, voltW := sget 0 s.railV 3 }
    s.beginThrottle (decide (165000000 < w))

/-- One step of a setpoint toward a target within 650 to 850 mV, by at most 10 mV; the first setpoint is the target. -/
def avsStep (now target : Nat) : Nat :=
  let t := min 850 (max 650 target)
  if now = 0 then t else if now + 10 < t then now + 10 else if t + 10 < now then now - 10 else t

/-- AVS_ADJUST (R864): the core setpoints move toward what each half's process monitors ask for. -/
def execAvsAdjust (east west : Nat) (s : State) : Out :=
  .next <| s.clocked <|
    let en := s.flag F.PKG_AVS_CTRL_EN
    let e := if en then avsStep (s.fld F.PKG_AVS_CTRL_SET_E_MV) east else 800
    let w := if en then avsStep (s.fld F.PKG_AVS_CTRL_SET_W_MV) west else 800
    let cmd := fun (s : State) (f : Fld) (rail v : Nat) =>
      if s.fld f = v then s else (s.setFld f v).emit (.note "VOUT_COMMAND" [rail, v])
    cmd (cmd s F.PKG_AVS_CTRL_SET_E_MV 2 e) F.PKG_AVS_CTRL_SET_W_MV 3 w

/-! ## Throttling (R873, R874) -/

/-- THROTTLE_STEP (R874): 100 µs have elapsed: the duty of each throttled half goes down with a cause, and up without one
once Tj is 3 °C below TH_C. -/
def execThrottleStep (s : State) : Out :=
  .next <| s.clocked <| s.throttled fun s => s.each 2 fun s h =>
    let n := s.fld (thDuty h)
    let cool := decide ((if h = 0 then s.tempE else s.tempW) ≤ 16 * ((s.fld F.PKG_THERM_CFG_TH_C : Int) - 3))
    if s.fld (thState h) ≠ thTHROTTLE then s
    else if s.hasCause h then s.setFld (thDuty h) (max 1 (n - 1))
    else if cool then
      (if 7 ≤ n then (s.setFld (thDuty h) 8).setFld (thState h) thNORMAL else s.setFld (thDuty h) (n + 1))
    else s

/-- PROCHOT (R874): the level of prochot_n has changed; low is a cause for both halves and sets duty 1/8. -/
def execProchot (low : Bool) (s : State) : Out :=
  .next <| s.clocked <| (s.setFlag F.PKG_THROTTLE_STATUS_PROCHOT low).beginThrottle low

/-! ## Quad references (R44) -/

/-- The link at a position of an I/O die's link list (R26). -/
def dieLink (io pos : Nat) : Nat :=
  if pos < 16 then 16 * io + pos else if pos < 22 then 64 + 6 * io + (pos - 16) else 88 + 2 * io + (pos - 22)

/-- The link's lanes lose their reference: a link that is up has a link fault (R486), one in training fails with LOCK. -/
def State.loseReference (s : State) (l : Nat) : State :=
  let st := s.lstate l
  if s.linkUp l then s.linkFault l
  else if lsDETECT ≤ st && st ≤ lsNEGOTIATE then s.linkFail l lcLOCK
  else s

/-- QUAD_REFCLK_LOSS (R44): quad q of an I/O die loses its 156.25 MHz reference. -/
def execQuadRefclkLoss (io q : Nat) (s : State) : Out :=
  run (.quadRefclkLoss io q) <| s.clocked <| (s.loseReference (dieLink io (2 * q))).loseReference (dieLink io (2 * q + 1))

end Sys2Proof.Machine
end

