-- ==== Sys2Proof/Machine/RegHooks.lean ====
section
/-!
DEFINITION. What a write of any register does once it is admitted: the ranges and states its chapter gives, and the action it
starts (R7, R745, R747, R752, R753). REGISTER_WRITE, JXV-M WRITE, configuration load and the control window all write
through `regWrite`.
-/

namespace Sys2Proof.Machine

/-! ## Commits -/

/-- A commit entry is written with GO 1 (R756). -/
def State.commitGo (s : State) (g : Group) (n : Nat) (env : Env) : State :=
  match g with
  | .xlt => s.tblCommit n env
  | .stage => s.commitStage
  | .repl => s.commitRepl
  | .coh => s.commitCoh
  | .yl => s.commitYl
  | .tsp => s.commitTsp n
  | .qos => s.commitQos
  | .cnt => s.commitCnt
  | .net => s.commitNet
  | .anchor => s.commitAnchor
  | .deleg => s.commitDeleg

/-- An accepted commit takes effect at its safe point (R758). The tables of a context wait for TBL_ACTIVATE (R80) and the credits
of a port for its next NEGOTIATE (R762). -/
def State.commitApply (s : State) (g : Group) (_n : Nat) : State :=
  match g with
  | .xlt => s
  | .stage => s.applyStage
  | .repl => s.finishCommit .repl 0
  | .coh => s.applyCoh
  | .yl => s.applyYl
  | .tsp => s
  | .qos => s.applyQos
  | .cnt => s.applyCnt
  | .net => s.applyNet
  | .anchor => s.applyAnchor
  | .deleg => s.applyDeleg

/-! ## Values out of range (RANGE) and states that forbid a write (STATE) -/

def beyond (lo hi v : Nat) : Bool := decide (v < lo) || decide (hi < v)

/-- The header mirror's ring lies in populated tier 1, and its size is in range (R564, R568). -/
def State.mirRingOk (s : State) (base size : Word) : Bool :=
  let n := F.SWC_MIR_SIZE_LOG2_RECORDS.get size
  !beyond 10 24 n && within (F.SWC_MIR_BASE_OFFSET.get base * 4096) (128 * 2 ^ n) t1Base s.t1Size

/-- The value is outside the ranges that the register's chapter gives. -/
def State.rangeBad (s : State) (r : Reg) (v : Word) : Bool :=
  match r with
  | .TIER_SCRUB_CTRL => beyond 1 168 (F.TIER_SCRUB_CTRL_T1_HOURS.get v) || beyond 1 168 (F.TIER_SCRUB_CTRL_T0_HOURS.get v)
  | .PRF_CH_MASK => v.toNat % 2 ^ 32 == 0 || v.toNat / 2 ^ 32 == 0
  | .PRF_PROG_CFG => F.PRF_PROG_CFG_LEAD.get v == 0 || decide (8 < F.PRF_PROG_CFG_SPEC_EXTRA.get v)
  | .PRF_STAGE_QUOTA | .PRF_SPEC_QUOTA => decide (65536 < v.toNat % 2 ^ 32) || decide (65536 < v.toNat / 2 ^ 32)
  | .SCP_HOT_CTRL => F.SCP_HOT_CTRL_DECAY_US.get v == 0 || F.SCP_HOT_CTRL_THRESH.get v == 0
  | .YL_DETOUR_CFG => beyond 1 8 (F.YL_DETOUR_CFG_WAYS.get v)
  | .YT_RETX => beyond 1 8 (F.YT_RETX_RETRIES.get v) || beyond 2 16 (F.YT_RETX_TIMEOUT_US.get v)
  | .SWC_CFG => F.SWC_CFG_ALPHA.get v == 7
  | .SWC_TC_WEIGHT => (leBytes 8 v.toNat).any fun b => b == 0
  | .SWC_RSV => beyond 72 1024 (F.SWC_RSV_TRN.get v) || beyond 72 1024 (F.SWC_RSV_ORD.get v)
  | .SWC_MIR_BASE => !s.mirRingOk v (s.rd .SWC_MIR_SIZE)
  | .SWC_MIR_SIZE => !s.mirRingOk (s.rd .SWC_MIR_BASE) v
  | .SWC_MIR_CTRL => F.SWC_MIR_CTRL_DIR.get v == 0
  | .HIF_CQ_SIZE => beyond 6 16 (F.HIF_CQ_SIZE_LOG2_RECORDS.get v)
  | .HIF_VEC_CFG =>
    let pf := F.HIF_VEC_CFG_PF_VECS.get v
    let vf := F.HIF_VEC_CFG_VF_VECS.get v
    beyond 32 1024 pf || pf % 32 != 0 || beyond 1 32 vf || decide (4096 < pf + 128 * vf)
  | .QOS_T0 | .QOS_T1 | .QOS_FAB | .QOS_DA | .QOS_SCP =>
    decide (1024 < F.QOS_T0_CAP.get v) || decide (1024 < F.QOS_T0_SHARE.get v)
  | .ERR_RING_CTRL => beyond 6 16 (F.ERR_RING_CTRL_LOG2_RECORDS.get v)
  | .TST_CTRL => decide (32 < F.TST_CTRL_PER_BOUNDARY.get v) || decide (10 < F.TST_CTRL_BUDGET.get v)
  | .CNT_CFG => decide (F.CNT_CFG_LOSS_US.get v < 10) || decide (16 < F.CNT_CFG_STRIPE.get v)
  | .CNT_PROG_MIR =>
    F.CNT_PROG_MIR_EN.get v != 0 && (F.CNT_PROG_MIR_SLOT_MIB.get v == 0 || F.CNT_PROG_MIR_REGION_GIB.get v == 0)
  | .MGT_MBX_DOORBELL => beyond 32 16416 (F.MGT_MBX_DOORBELL_LEN.get v)
  | .RST_ENGINE => decide (engCount (F.RST_ENGINE_CLASS.get v) ≤ F.RST_ENGINE_ENGINE_ID.get v)
  | .PKG_THERM_CFG => beyond 85 100 (F.PKG_THERM_CFG_TH_C.get v)
  | .PKG_PWR_LIMIT => beyond 600 1400 (F.PKG_PWR_LIMIT_LIMIT_W.get v)
  | _ => false

/-- A state of the register's block forbids the write (R117, R221, R223, R224, R567, R568, R608, R654, R696, R741). -/
def State.stateBad (s : State) (r : Reg) (k : Nat) (v : Word) : Bool :=
  match r with
  | .FLTQ_BASE => s.flag F.FLTQ_CTRL_EN k
  | .PRF_CH_MASK => (List.range 64).any fun n => s.pstate n != pgEMPTY
  | .PRF_PROG_CFG => F.PRF_PROG_CFG_LEAD.get v != s.fld F.PRF_PROG_CFG_LEAD k && s.pstate k != pgEMPTY
  | .PRF_STAGE_QUOTA | .PRF_SPEC_QUOTA => s.pstate k != pgEMPTY
  | .YT_RKEY | .YT_RKEY_BASE | .YT_RKEY_LEN => s.flag F.YT_RKEY_CTRL_VALID k
  | .SWC_MIR_BASE | .SWC_MIR_SIZE => s.flag F.SWC_MIR_CTRL_EN
  | .HIF_SQ_BASE | .HIF_CQ_BASE | .HIF_CQ_SIZE | .HIF_SQ_DBADDR => s.flag F.HIF_SQ_CTRL_EN k
  | .PTN_MR_BASE => s.flag F.PTN_MR_CTRL_EN k
  | .ERR_RING_BASE => s.flag F.ERR_RING_CTRL_EN
  | .ERR_RING_CTRL =>
    s.flag F.ERR_RING_CTRL_EN && (F.ERR_RING_CTRL_VEC.get v != s.fld F.ERR_RING_CTRL_VEC ||
      F.ERR_RING_CTRL_LOG2_RECORDS.get v != s.fld F.ERR_RING_CTRL_LOG2_RECORDS)
  | .CNT_PROG_MIR => s.pstate k != pgEMPTY
  | .CNT_SHADOW => s.cntState == csSERVING
  | .MGT_MBX_DOORBELL => !s.flag F.MGT_MBX_CTRL_EN
  | _ => false

/-- A command of the block is in progress. -/
def State.busyBad (s : State) (r : Reg) : Bool :=
  match r with
  | .RST_ENGINE => s.flag F.RST_STATUS_ENG_BUSY
  | .MGT_MBX_DOORBELL => s.flag F.MGT_MBX_STATUS_BUSY
  | _ => false

/-! ## Effects -/

/-- A write of DA_ARR_CTRL (R319). -/
def State.writeArrCtrl (s : State) (a : Nat) (v : Word) : State :=
  let off := F.DA_ARR_CTRL_OFFLINE.get v != 0
  let s := s.setFlag F.DA_ARR_CTRL_OFFLINE off a
  let s :=
    if off then (if s.astate a = arPOOL || s.astate a = arSLOW then s.setAstate a arOFFLINE else s)
    else if s.astate a = arOFFLINE && s.halfUp (ofHalfNum (a / 128)) then s.setAstate a arPOOL else s
  if F.DA_ARR_CTRL_RESTORE.get v ≠ 0 && s.astate a = arSLOW then s.beginSweep (a / 128) (some a) [a] else s

/-- A write of SWC_MIR_CTRL: the ring starts again where mirroring is enabled. -/
def State.writeMirCtrl (s : State) (v : Word) : State :=
  let was := s.flag F.SWC_MIR_CTRL_EN
  let s := s.plainWrite .SWC_MIR_CTRL 0 v
  if was || !s.flag F.SWC_MIR_CTRL_EN then s
  else ({ s with mirSeen := [] } : State).setFld F.SWC_MIR_TAIL_COUNT 0 |>.setFld F.SWC_MIR_HEAD_COUNT 0

/-- A write of SWC_MIR_HEAD, ignored where it passes the tail or moves backward (R569). -/
def State.writeMirHead (s : State) (v : Nat) : State :=
  let h := s.fld F.SWC_MIR_HEAD_COUNT
  let t := s.fld F.SWC_MIR_TAIL_COUNT
  if (v + 2 ^ 32 - h) % 2 ^ 32 ≤ (t + 2 ^ 32 - h) % 2 ^ 32 then s.setFld F.SWC_MIR_HEAD_COUNT v else s

/-- A write of ERR_RING_CTRL: enabling starts the ring again. -/
def State.writeErrRing (s : State) (v : Word) : State :=
  let was := s.flag F.ERR_RING_CTRL_EN
  let s := s.plainWrite .ERR_RING_CTRL 0 v
  if was || !s.flag F.ERR_RING_CTRL_EN then s
  else ({ s with errRaised := false } : State).setFld F.ERR_RING_TAIL_INDEX 0 |>.setFld F.ERR_RING_HEAD_INDEX 0

/-- A write of MGT_MBX_DOORBELL hands the request to the management cores (R787). -/
def State.ringMailbox (s : State) (v : Word) : State :=
  ({ s with mg := { s.mg with mbxLen := some (F.MGT_MBX_DOORBELL_LEN.get v) } } : State).setFlag F.MGT_MBX_STATUS_BUSY true

/-- The fault that a TAG names is replayed or aborted (R108, R109). -/
def State.resumeFault (s : State) (p : Nat) (v : Word) (env : Env) : State :=
  s.resumeTag p (F.FLTQ_RESUME_TAG.get v) fun k =>
    if F.FLTQ_RESUME_ACTION.get v = 0 then s.replay k env else s.abort k env

/-- What an admitted write in range does: the action that its chapter gives, or the plain write. -/
def State.regEffect (s : State) (src : Source) (r : Reg) (k : Nat) (v : Word) (env : Env) : State × Nat :=
  let done : State → State × Nat := fun t => (t, stOK)
  match r.commits with
  | some g => done (if v.toNat % 2 = 1 then s.commitGo g k env else s)
  | none =>
    match r with
    | .FLTQ_HEAD => done (s.writeFltHead k v.toNat)
    | .FLTQ_RESUME => done (s.resumeFault k v env)
    | .XLT_MIG_GO => done (s.migGo k v)
    | .TIER_N_CTRL => done (s.writeDriveCtrl k v)
    | .CUR_MATCH | .CUR_MATCH_CTRL => done ((s.plainWrite r k v).fireMatch k)
    | .DA_CMD => s.daCmd (F.DA_CMD_OP.get v) (F.DA_CMD_PROG.get v) (F.DA_CMD_PARTITION.get v) (F.DA_CMD_SLOT.get v) env
    | .DA_PROG_RING_HEAD => done (s.writeRingHead k v.toNat)
    | .DA_ARR_CTRL => done (s.writeArrCtrl k v)
    | .SCP_CMD => s.scpCmd (F.SCP_CMD_OP.get v) (F.SCP_CMD_TABLE.get v) (F.SCP_CMD_PARTITION.get v) (F.SCP_CMD_INV.get v != 0) env
    | .SCP_ENG_CTRL => done ((s.plainWrite r k v).syncScoop k)
    | .COH_DOM_CTRL => done (s.domCtrl (F.COH_DOM_CTRL_COLLAPSE.get v != 0) (F.COH_DOM_CTRL_REINIT.get v != 0))
    | .YL_LINK_CTRL => done (s.writeLinkCtrl k v)
    | .TSP_PORT_CTRL => done (s.writePortCtrl k v)
    | .YT_AGENT_HOME => done (s.wr r k (v &&& 0xBFBFBFBFBFBFBFBF#64))
    | .SWC_MIR_CTRL => done (s.writeMirCtrl v)
    | .SWC_MIR_PORTS_HI => done (s.wr r k (v &&& 0x3FFFFFFFF#64))
    | .SWC_MIR_HEAD => done (s.writeMirHead v.toNat)
    | .HIF_SQ_TAIL => done (s.writeSqTail (k / 16) (k % 16) v.toNat)
    | .HIF_SQ_CTRL => s.writeSqCtrl (k / 16) (k % 16) v
    | .HIF_CQ_HEAD => done (s.writeCqHead (k / 16) (k % 16) v.toNat)
    | .RST_CTRL => done (s.writeRst src v env)
    | .RST_ENGINE => done (s.beginEngReset (F.RST_ENGINE_CLASS.get v) (F.RST_ENGINE_ENGINE_ID.get v) env)
    | .PTN_CTRL => done (if F.PTN_CTRL_RESET.get v ≠ 0 then s.requestReset k env else s)
    | .PTN_MR_CTRL => s.writeMrCtrl (k / 8) (k % 8) v
    | .PTN_MR_HEAD => done (s.writeMrHead (k / 8) (k % 8) v.toNat)
    | .ERR_RING_CTRL => done (s.writeErrRing v)
    | .ERR_RING_HEAD => done (s.writeErrHead v.toNat)
    | .TST_SWEEP_CTRL => s.writeSweep v
    | .CNT_CTRL => done (s.writeCntCtrl v)
    | .CNT_PEER_MASK | .CNT_PEER_CMD => done s
    | .MGT_MBX_DOORBELL => done (s.ringMailbox v)
    | .BOOT_SVN_COMMIT => done (s.svnCommit v)
    | .BOOT_TIME_HOST => done (s.sample v.toNat s.time false)
    | .LIFE_CTRL => done (s.lifeCtrl v)
    | .LIFE_SERVICE_ADD => done (s.addService v)
    | _ => done (s.plainWrite r k v)

/-- A write of a register from any source: admission, then BUSY, STATE and RANGE, then its effect; a refusal changes nothing but
the report of R754. Answers the status of R752. -/
def State.regWrite (s : State) (src : Source) (r : Reg) (k : Nat) (v : Word) (env : Env) : State × Nat :=
  s.admitted src r k fun s =>
    let q : State × Nat :=
      if s.busyBad r then (s, stBusy)
      else if s.rangeBad r v then (s, stRange)
      else if s.stateBad r k v then (s, stState)
      else s.regEffect src r k v env
    if q.2 = stOK then q else (s.refuse src r k q.2, q.2)

end Sys2Proof.Machine
end

