-- ==== Sys2Proof/Machine/Bar0.lean ====
section
/-!
DEFINITION. Accesses to the registers through BAR0: reads with their latches (R222), and writes of
registers of 64 bits in two halves (R746) (12_tile_streams_host.md R597, R598, R617, R618; 01_architecture.md R50, R51).
-/

namespace Sys2Proof.Machine

/-- Where a source's BAR stands in the BAR0 layout (R617). -/
def barOffset (src : Source) (off : Nat) : Option Nat :=
  match src with
  | .vf p => if off < 0x40000 then some (0x1000000 + p * 0x40000 + off) else none
  | _ => if off < 0x4000000 then some off else none

/-- The number of a function. -/
def srcFn : Source → Nat
  | .vf p => p + 1
  | _ => 0

/-- Registers whose low half latches the high half (R222). -/
def latches (r : Reg) : Bool := r = .CUR_VALUE || r = .BOOT_TIME_NS || r = .BOOT_UTC_OFFSET

/-- A 4 B read, with the latch of R222: answers the word and the state. -/
def State.latchRead (s : State) (src : Source) (o : Nat) : Nat × State :=
  let fn := srcFn src
  let mine := fun (x : Reg × Nat) (e : Nat × Nat × Nat) => e.1 == fn && e.2.1 == regKey x.1 x.2
  match regAt o, regHigh o with
  | some x, _ =>
    if !latches x.1 then (s.bar0Word o, s)
    else
      let keep := s.highReads.filter fun e => !mine x e
      (s.bar0Word o, { s with highReads := (fn, regKey x.1 x.2, s.regValue x.1 x.2 / 2 ^ 32) :: keep })
  | none, some x =>
    match s.highReads.find? (mine x) with
    | some e => (e.2.2, { s with highReads := s.highReads.filter fun e => !mine x e })
    | none => (s.bar0Word o, s)
  | none, none => (s.bar0Word o, s)

/-- REGISTER_READ (R50, R222, R598, R618): a host read of BAR0 or of a virtual function's page. -/
def execRegisterRead (src : Source) (off size : Nat) (s : State) : Out :=
  run (.registerRead src off size) <| s.clocked <|
    if !((size = 4 || size = 8) && off % size = 0) then
      (s.bump F.HIF_BAR0_BAD_COUNT).emit (.pcieStatus "Unsupported Request")
    else
      let answer := fun (s : State) (v : Nat) => s.emit (.readValue (leBytes size v) false)
      match barOffset src off with
      | none => answer s 0
      | some o =>
        let closed : Nat → Bool := fun o => match src with
          | .vf p => !s.partActive p && !((regAt o).any fun x => x.1 = .PTN_STATUS)
          | _ => false
        let word := fun (o : Nat) => if closed o then 2 ^ 32 - 1 else s.bar0Word o
        if size = 8 then answer s (word o + word (o + 4) * 2 ^ 32)
        else if closed o then answer s (2 ^ 32 - 1)
        else
          let r := s.latchRead src o
          answer r.2 r.1

/-! ## Writes -/

/-- A write of 4 B to a word of the MSI-X tables (R624). -/
def State.msixWrite (s : State) (k j v : Nat) : State :=
  let a := (s.rd .MSIX_ADDR k).toNat
  if j < 4 then s.wr .MSIX_ADDR k (BitVec.ofNat 64 (a / 2 ^ 32 * 2 ^ 32 + v))
  else if j < 8 then s.wr .MSIX_ADDR k (BitVec.ofNat 64 (v * 2 ^ 32 + a % 2 ^ 32))
  else if j < 12 then s.wr .MSIX_DATA k (BitVec.ofNat 64 v)
  else if v % 2 = 1 then s.setFlag F.MSIX_CTRL_MASK true k
  else s.unmask (k / 1024) (k % 1024)

/-- May a source write the MSI-X table of a function. -/
def State.msixOpen (s : State) (src : Source) (fn : Nat) : Bool :=
  match src with
  | .vf p => s.msixAllowed (.vf p) fn
  | _ => true

/-- A register's whole value is written. -/
def State.regStore (s : State) (src : Source) (x : Reg × Nat) (v : Nat) (env : Env) : State :=
  (s.regWrite src x.1 x.2 (BitVec.ofNat 64 v) env).1

/-- A write of 4 B at a 4 B aligned BAR0 offset. The low half of a register of 64 bits waits for its high half; a high half that
none preceded keeps the low half of the current value (R746). -/
def State.wordWrite (s : State) (src : Source) (o v : Nat) (env : Env) : State :=
  let fn := srcFn src
  match msixAt o with
  | some (k, j) => if s.msixOpen src (k / 1024) then s.msixWrite k j v else s
  | none =>
    if 0xD1000 ≤ o && o < 0xD6000 then { s with mg := { s.mg with mbxReq := sput 0 ((o - 0xD1000) / 4) v s.mg.mbxReq } }
    else match regAt o, regHigh o with
      | some x, _ =>
        if x.1.place.width = 64 then
          let keep := s.lowWrites.filter fun e => !(e.1 == fn && e.2.1 == regKey x.1 x.2)
          { s with lowWrites := (fn, regKey x.1 x.2, v) :: keep }
        else s.regStore src x v env
      | none, some x =>
        let mine := fun (e : Nat × Nat × Nat) => e.1 == fn && e.2.1 == regKey x.1 x.2
        let low := ((s.lowWrites.find? mine).map (·.2.2)).getD (s.regValue x.1 x.2 % 2 ^ 32)
        ({ s with lowWrites := s.lowWrites.filter fun e => !mine e } : State).regStore src x (v * 2 ^ 32 + low) env
      | none, none => s

/-- A write of 4 B or 8 B at a naturally aligned offset of the BAR0 layout; 8 B outside a register of 64 bits are two words. A write to a
block or bank that only halves out of service implement is discarded, each access once; `counted` says that it is a host's write, or one
that R878 treats as such, which PKG_DISCARD_CNT counts (R50). -/
def State.bar0Store (s : State) (src : Source) (o size v : Nat) (counted : Bool) (env : Env) : State :=
  if s.bar0Down o then (if counted then s.bump F.PKG_DISCARD_CNT_COUNT else s)
  else if size = 4 then s.wordWrite src o v env
  else match (regAt o).filter fun x => x.1.place.width == 64 with
    | some x => s.regStore src x v env
    | none => (s.wordWrite src o (v % 2 ^ 32) env).wordWrite src (o + 4) (v / 2 ^ 32) env

/-- A host or firmware write of BAR0 or of a virtual function's page (R50, R598, R618, R735, R736). `lease` is the half and the epoch
that a global configuration write of management firmware carries. -/
def State.bar0Write (s : State) (src : Source) (off size : Nat) (v : Word) (lease : Option (Half × Nat)) (env : Env) : State :=
  if !((size = 4 || size = 8) && off % size = 0) then s.bump F.HIF_BAR0_BAD_COUNT
  else match barOffset src off with
    | none => s
    | some o =>
      let stale : Bool := if src = .fw then
          (match lease with
           | some (h, e) => s.holder ≠ some h || s.fld F.CNT_LEASE_STATUS_EPOCH ≠ e
           | none => false)
        else false
      if stale then
        let s := match (regAt o).orElse fun _ => regHigh o with
          | some x => s.refuse src x.1 x.2 stLease
          | none => s.bump F.CNT_LEASE_REFUSED_COUNT
        s.fence ((lease.map (·.1)).getD .east)
      else s.bar0Store src o size (v.toNat % 2 ^ (8 * size)) (sideOf src = .host) env

end Sys2Proof.Machine
end

