-- ==== Sys2Proof/Machine/Entries.lean ====
section
/-!
DEFINITION. The object dictionary as JXV-M and configuration load see it: every entry with its type, access and value, and writes of
entries (16_object_dictionary.md R742 to R770).
-/

namespace Sys2Proof.Machine

/-! ## Types (R743) -/

def tyU8 : Nat := 0x02
def tyU16 : Nat := 0x03
def tyU32 : Nat := 0x04
def tyU64 : Nat := 0x05
def tyS16 : Nat := 0x07
def tySTRING : Nat := 0x0B
def tyDOMAIN : Nat := 0x0C

/-- What an entry's descriptor says beside its register's fields: TYPE, LENGTH, readable, writable, and whether a write has exactly
LENGTH bytes. -/
structure EntryKind where
  type  : Nat
  len   : Nat
  read  : Bool := true
  write : Bool := false
  exact : Bool := true
  deriving DecidableEq, Repr

/-- A register as an entry (R745). -/
def Reg.kind (r : Reg) : EntryKind :=
  { type := if r.place.width = 64 then tyU64 else tyU32, len := r.place.width / 8,
    read := !(r.fields.all fun f => f.acc = .wo), write := !r.readOnly }

/-- The entries without a register. -/
def otherKind (idx sub : Nat) : Option EntryKind :=
  let ro := fun (t n : Nat) => some ({ type := t, len := n } : EntryKind)
  let wo := fun (t n : Nat) (exact : Bool) => some ({ type := t, len := n, read := false, write := true, exact } : EntryKind)
  match idx, sub with
  | 0x1010, 1 => ro tyDOMAIN 9939
  | 0x1010, 2 => ro tyDOMAIN 4691
  | 0x1010, 3 => wo tyDOMAIN 64 true
  | 0x1010, 4 => ro tyDOMAIN 5395
  | 0x1011, 1 => wo tyDOMAIN 16384 false
  | 0x1104, 2 => wo tyU32 4 true
  | 0x1104, 3 => wo tyDOMAIN 16 true
  | 0x2F40, 1 => wo tyDOMAIN 16384 false
  | 0x2F63, 1 => wo tyDOMAIN 64 true
  | 0x2F63, 2 => ro tyDOMAIN 5395
  | 0x6002, 1 => ro tySTRING 16
  | _, _ =>
    if idx = 0x1012 && 1 ≤ sub && sub ≤ 8 then ro tyDOMAIN 64
    else if idx = 0x1102 && 1 ≤ sub && sub ≤ 8 then some { type := tyDOMAIN, len := 68, write := true }
    else if idx = 0x4001 then
      (if 1 ≤ sub && sub ≤ 7 then ro tyS16 2
       else if sub = 8 || (0x10 ≤ sub && sub < 0x22) then ro tyU16 2
       else if 0x30 ≤ sub && sub < 0x42 then ro tyU32 4 else none)
    else if 1 ≤ sub && sub ≤ lifeSubs idx then ro tyU64 8
    else if idx = 0x6001 && 1 ≤ sub && sub ≤ 3 then ro tyDOMAIN 64
    else if 0x6040 ≤ idx && idx ≤ 0x607F && sub = 1 then ro tyDOMAIN 15123
    else if 0x7000 ≤ idx && idx ≤ 0x7FFF && sub = 1 then ro tyDOMAIN 64
    else none

/-- The kind of an entry with a subindex other than 0. -/
def entryKind (idx sub : Nat) : Option EntryKind :=
  match regOfObject idx sub with
  | some x => some x.1.kind
  | none => otherKind idx sub

/-- The highest populated subindex of an index; 0 where it has none (R742). -/
def highestSub (idx : Nat) : Nat :=
  (List.range 256).foldl (fun m k => if k ≠ 0 && (entryKind idx k).isSome then k else m) 0

/-- The kind of any entry: subindex 0 holds the highest populated subindex (R742). -/
def kindOf (idx sub : Nat) : Option EntryKind :=
  if sub = 0 then (if highestSub idx = 0 then none else some { type := tyU8, len := 1 }) else entryKind idx sub

/-! ## Reads -/

/-- The hottest sensor of all (R872). -/
def State.tjMax (s : State) : Int := s.sensors.foldl (fun a b => if a < b then b else a) (s.sensors.headD 0)

/-- The power average in W (R873). -/
def State.powerW (s : State) : Nat := s.powerSum.1 / (max 1 s.powerSum.2) / 100000

/-- What an entry without a register holds; a status where its chapter refuses the read (R838, R839). -/
def State.otherValue (s : State) (idx sub : Nat) : Nat × List Byte :=
  let report := fun (a : Option Attest) =>
    if !s.flag F.BOOT_STATUS_ID_VALID then (stState, [])
    else match a with
      | none => (stOK, [])
      | some x => (match x.report with
        | some b => (stOK, b)
        | none => (stBusy, []))
  let idOnly := fun (b : List Byte) => if s.flag F.BOOT_STATUS_ID_VALID then (stOK, b) else (stState, [])
  match idx, sub with
  | 0x1010, 1 => idOnly s.credential
  | 0x1010, 2 => idOnly s.endorsement
  | 0x1010, 4 => report s.attestNet
  | 0x2F63, 2 => report s.attestHost
  | 0x6002, 1 => (stOK, (List.range 16).map (Config.sclFactory 3))
  | 0x6001, 1 => (stOK, s.sclFwDigest)
  | 0x6001, 2 => (stOK, s.sclParamDigest)
  | 0x6001, 3 => (stOK, sclKeyDigest)
  | _, _ =>
    if idx = 0x1012 then (stOK, slice (s.boot.meas.getD (sub - 1) []) 0 64)
    else if idx = 0x1102 then (stOK, (s.anchorStaged (sub - 1)).bytes)
    else if idx = 0x4001 then
      (stOK, if sub = 1 then leBytes 2 (twos 16 s.tjMax)
        else if sub ≤ 7 then leBytes 2 (twos 16 (s.sensors.getD (sub - 2) 0))
        else if sub = 8 then leBytes 2 s.powerW
        else if sub < 0x30 then leBytes 2 (sget 0 s.railV (sub - 0x10))
        else leBytes 4 (sget 0 s.railI (sub - 0x30)))
    else if 0x6040 ≤ idx && idx ≤ 0x607F then (stOK, sget [] s.scale.mirror (idx - 0x6040))
    else if 0x7000 ≤ idx then
      (match s.errLog.find? fun r => r.seq % 4096 == idx - 0x7000 with
       | some r => (stOK, r.bytes)
       | none => (stOK, []))
    else (stOK, leBytes 8 (s.lifeEntry idx sub))

/-- Read an entry (R742, R752): its status, and its value where the status is OK. -/
def State.entryRead (s : State) (idx sub type : Nat) : Nat × List Byte :=
  match kindOf idx sub with
  | none => (stNoEntry, [])
  | some k =>
    if type ≠ k.type then (stType, [])
    else if !k.read then (stAccess, [])
    else if sub = 0 then (stOK, leBytes 1 (highestSub idx))
    else match regOfObject idx sub with
      | some x =>
        let v := if x.1 = .BOOT_TIME_NS then s.time % 2 ^ 64 else (s.readReg x.1 x.2).toNat
        (stOK, leBytes k.len v)
      | none => s.otherValue idx sub

/-! ## Writes -/

/-- The effect of a write to an entry without a register. -/
def State.otherWrite (s : State) (idx sub : Nat) (b : List Byte) : State × Nat :=
  match idx, sub with
  | 0x1010, 3 => s.attest false b
  | 0x2F63, 1 => s.attest true b
  | 0x1011, 1 => if leAt b 8 8 ≠ 0 then (s, stMalformed) else s.fwChunk (leAt b 0 4) (leAt b 4 4) (b.drop 16)
  | 0x2F40, 1 => if leAt b 8 8 ≠ 0 then (s, stMalformed) else s.sclChunk (leAt b 0 4) (leAt b 4 4) (b.drop 16)
  | 0x1104, 2 => ({ s with cal := { s.cal with sync := some (leAt b 0 4, s.time) } }, stOK)
  | 0x1104, 3 => if leAt b 4 4 ≠ 0 then (s, stMalformed) else (s.follow (leAt b 0 4) (leAt b 8 8), stOK)
  | _, _ =>
    match anchorOf b with
    | none => (s, stRange)
    | some a => ({ s with mg := { s.mg with anchorsStaged := sput {} (sub - 1) a s.mg.anchorsStaged } }, stOK)

/-- Does the length of a value agree with the descriptor; a chunk of an offer has at least its head (R815). -/
def EntryKind.fits (k : EntryKind) (type n : Nat) : Bool :=
  type == k.type && (if k.exact then n == k.len else decide (16 ≤ n) && decide (n ≤ k.len))

/-- Write an entry from a message or from configuration load (R751 to R754): its status, with every refusal reported. -/
def State.entrySet (s : State) (src : Source) (idx sub type : Nat) (b : List Byte) (env : Env) : State × Nat :=
  let no := fun (c : Nat) => (s.refuseEntry src idx sub c, c)
  match kindOf idx sub with
  | none => no stNoEntry
  | some k =>
    if !k.write then no stAccess
    else if !k.fits type b.length then no stType
    else match regOfObject idx sub with
      | some x => s.regWrite src x.1 x.2 (BitVec.ofNat 64 (leNat b)) env
      | none => s.entryWrite src idx sub fun s => s.otherWrite idx sub b

/-! ## Descriptors (R744) -/

/-- Entries that a state of their block refuses whole (R747). -/
def Reg.static (r : Reg) : Bool :=
  match r with
  | .FLTQ_BASE | .PRF_CH_MASK | .PRF_STAGE_QUOTA | .PRF_SPEC_QUOTA | .YT_RKEY | .YT_RKEY_BASE | .YT_RKEY_LEN | .SWC_MIR_BASE
  | .SWC_MIR_SIZE | .HIF_SQ_BASE | .HIF_CQ_BASE | .HIF_CQ_SIZE | .HIF_SQ_DBADDR | .PTN_MR_BASE | .ERR_RING_BASE | .TST_SWEEP_CTRL
  | .CNT_PROG_MIR | .CNT_SHADOW | .MGT_MBX_DOORBELL => true
  | _ => false

def flagBits (l : List Bool) : Nat := (List.range l.length).foldl (fun a k => a + if l.getD k false then 2 ^ k else 0) 0

/-- The commit entry of a register's group: bits 23:8 index, bits 7:0 subindex. -/
def Reg.groupAddr (r : Reg) (k : Nat) : Nat :=
  match r.group with
  | some g => let e := g.entry.object (g.instOf r k); e.1 * 256 + e.2
  | none => 0

/-- The 24 bytes of a descriptor. -/
def State.descriptor (s : State) (idx sub : Nat) (k : EntryKind) : List Byte :=
  let head := leBytes 2 idx ++ leBytes 1 sub ++ leBytes 1 k.type
  match (if sub = 0 then none else regOfObject idx sub) with
  | some (r, i) =>
    let any := fun (a : Access) => r.fields.any fun f => f.acc = a
    let acc := flagBits [k.read, k.write, any .rws, any .rol, any .w1c, any .wo || any .w1s]
    let net := r.netDefault i
    let flags := flagBits [r.persist, r.loadOnly, k.write && !r.static, s.hostOwns r i, net && !inComm idx, r.place.off.isSome]
    head ++ leBytes 1 acc ++ leBytes 1 flags ++ leBytes 2 k.len ++ leBytes 4 (r.groupAddr i) ++ leBytes 4 0 ++ leBytes 8 (r.resetVal i).toNat
  | none =>
    let anchors := idx == 0x1102 && sub != 0
    let acc := flagBits [k.read, k.write, anchors, false, false, !k.read]
    let flags := flagBits [anchors, false, k.write, !inComm idx, false, false]
    let g := Group.anchor.entry.object 0
    head ++ leBytes 1 acc ++ leBytes 1 flags ++ leBytes 2 k.len ++ leBytes 4 (if anchors then g.1 * 256 + g.2 else 0) ++ leBytes 12 0

/-! ## Roles (R768, R769) -/

def roREAD : Nat := 1
def roOPERATE : Nat := 2
def roADMIN : Nat := 3
def roFACTORY : Nat := 4
def roPROVISION : Nat := 5

/-- May a role write, commit or discard an entry; PROVISION is as ADMIN only while DEFAULTED is 1. -/
def State.roleOk (s : State) (role idx sub : Nat) : Bool :=
  let admin := role == roADMIN || role == roFACTORY || (role == roPROVISION && s.flag F.MGT_CFG_STATUS_DEFAULTED)
  let high := inComm idx || (idx, sub) == Reg.object .RST_CTRL 0
  if 0xF000 ≤ idx then role == roFACTORY
  else if high then admin
  else admin || role == roOPERATE

/-- The commit entry at an object address, with its group and instance. -/
def commitAt (idx sub : Nat) : Option (Group × Reg × Nat) :=
  match regOfObject idx sub with
  | some (r, k) => r.commits.map fun g => (g, r, k)
  | none => none

end Sys2Proof.Machine
end

