-- ==== Sys2Proof/Machine/Jxvm.lean ====
section
/-!
DEFINITION. JXV-M: datagrams, sessions, messages, the PCIe mailbox and the saving of the configuration image
(16_object_dictionary.md R772 to R796).
-/

namespace Sys2Proof.Machine

/-! ## Headers, fragments and responses (R773 to R779) -/

def mtERROR : Nat := 0x7F

/-- The 32 B header of a datagram. -/
def jxvHead (type flags frag len session seq reqId total : Nat) : List Byte :=
  leBytes 2 0x4A58 ++ leBytes 1 0x30 ++ leBytes 1 type ++ leBytes 1 flags ++ leBytes 1 frag ++ leBytes 2 len ++
  leBytes 8 session ++ leBytes 8 seq ++ leBytes 4 reqId ++ leBytes 2 total ++ leBytes 2 0

/-- The datagrams that a body takes. -/
def fragCount (n : Nat) : Nat := max 1 ((n + 1199) / 1200)

/-- Send a message; `seq` is the SEQ of its first datagram. -/
def State.sendMsg (s : State) (isSealed : Bool) (type session seq reqId : Nat) (body : List Byte) : State :=
  let n := fragCount body.length
  (List.range n).foldl (fun s k =>
    let part := (body.drop (1200 * k)).take 1200
    (s.emit (.datagram isSealed (jxvHead type (if isSealed then 1 else 0) (16 * k + (n - 1)) part.length session
      (if isSealed then seq + k else 0) reqId body.length ++ part))).txFrame) s

/-- Send a message in a session, with the next SEQ. -/
def State.sendIn (s : State) (k : Nat) (type reqId : Nat) (body : List Byte) : State :=
  match s.session k with
  | none => s
  | some x =>
    (s.setSession k (some { x with tx := x.tx + fragCount body.length })).sendMsg true type x.id (x.tx + 1) reqId body

/-- Keep a response for its REQ_ID (R778). -/
def Session.keep (x : Session) (reqId type : Nat) (body : List Byte) : Session :=
  { x with kept := ((reqId, type, body) :: x.kept).take 16 }

/-- Answer a request of a session. -/
def State.answerIn (s : State) (k : Nat) (type reqId : Nat) (body : List Byte) : State :=
  match s.session k with
  | none => s
  | some x => (s.setSession k (some (x.keep reqId type body))).sendIn k type reqId body

/-- The body of an ERROR. -/
def errBody (status reqType : Nat) : List Byte := leBytes 1 status ++ leBytes 1 reqType ++ leBytes 6 0

/-- What a datagram brings: its message has errors, is not complete, or is complete. -/
inductive Got where
  | bad (status : Nat)
  | waits
  | message (body : List Byte)
  deriving DecidableEq, Repr

/-- The checks of R773 and R774 on a datagram. -/
def dgramFault (d : Dgram) : Option Nat :=
  if 16384 < d.total then some stTooBig
  else if d.magic ≠ 0x4A58 || d.version ≠ 0x30 || 2 ≤ d.flags || d.frag % 16 < d.frag / 16 || d.rsv ≠ 0 || !d.lenOk ||
    1200 < d.body.length then some stMalformed
  else none

/-- Put a datagram to the fragments of its message (R774). `who` numbers the sender. -/
def State.assemble (s : State) (who type : Nat) (d : Dgram) : State × Got :=
  match dgramFault d with
  | some e => (s, .bad e)
  | none =>
    let n := d.frag % 16 + 1
    if n = 1 then (s, if d.body.length = d.total then .message d.body else .bad stMalformed)
    else
      let mine := fun (p : Partial) => p.who == who && p.reqId == d.reqId
      let old := (s.mg.partials.find? mine).getD { who, type, reqId := d.reqId, count := n }
      let s : State := { s with mg := { s.mg with partials := s.mg.partials.filter fun p => !mine p } }
      if old.type ≠ type || old.count ≠ n then (s, .bad stMalformed)
      else
        let p : Partial := { old with frags := sput [] (d.frag / 16) d.body old.frags }
        if p.frags.length < n then ({ s with mg := { s.mg with partials := s.mg.partials ++ [p] } }, .waits)
        else
          let b := p.frags.flatMap (·.2)
          (s, if b.length = d.total then .message b else .bad stMalformed)

/-- FRAGMENT_TIMEOUT (R774): the message of the k-th incomplete set of fragments is discarded. -/
def execFragmentTimeout (k : Nat) (s : State) : Out :=
  .next <| s.clocked <| { s with mg := { s.mg with partials := s.mg.partials.eraseIdx k } }

/-! ## ListItem lists (R776) -/

structure ListItem where
  idx  : Nat
  sub  : Nat
  type : Nat
  val  : List Byte := []

/-- The items after the count; `vals` says that they carry values. -/
def parseItems (vals : Bool) : Nat → List Byte → Option (List ListItem)
  | 0, b => if b.isEmpty then some [] else none
  | n + 1, b =>
    let len := leAt b 4 2
    let room := if vals then roundUp len 8 else 0
    let type := leAt b 0 1
    if b.length < 8 + room || leAt b 6 2 ≠ 0 || type = 0 || 12 < type || leNat (slice b (8 + len) (room - len)) ≠ 0 then none
    else (parseItems vals n (b.drop (8 + room))).map fun l =>
      { idx := leAt b 2 2, sub := leAt b 1 1, type, val := if vals then slice b 8 len else [] } :: l

/-- An item list: 1 to 64 items. -/
def itemList (vals : Bool) (b : List Byte) : Option (List ListItem) :=
  let n := leAt b 0 4
  if b.length < 4 || n = 0 || 64 < n then none else parseItems vals n (b.drop 4)

/-- An item of a response. -/
def ListItem.answer (i : ListItem) (status : Nat) (val : List Byte) : List Byte :=
  leBytes 4 (i.idx * 65536 + i.sub * 256 + i.type) ++ leBytes 2 val.length ++ leBytes 1 status ++ leBytes 1 0 ++
    slice val 0 (roundUp val.length 8)

/-- READ_RSP: a value that does not fit the longest message is left out with TOO_BIG. -/
def State.readItems (s : State) (l : List ListItem) : List Byte :=
  let n := 4 + 8 * l.length
  (l.foldl (fun (a : List Byte × Nat) i =>
    let r := s.entryRead i.idx i.sub i.type
    let room := roundUp r.2.length 8
    if r.1 ≠ stOK then (a.1 ++ i.answer r.1 [], a.2)
    else if 16384 < a.2 + room then (a.1 ++ i.answer stTooBig [], a.2)
    else (a.1 ++ i.answer stOK r.2, a.2 + room)) (leBytes 4 l.length, n)).1

/-- WRITE: the items in list order, each on its own (R777). -/
def State.writeItems (s : State) (src : Source) (role : Nat) (l : List ListItem) (env : Env) : State × List Byte :=
  l.foldl (fun (a : State × List Byte) i =>
    let r := if a.1.roleOk role i.idx i.sub then a.1.entrySet src i.idx i.sub i.type i.val env
      else (a.1.refuseEntry src i.idx i.sub stRole, stRole)
    (r.1, a.2 ++ i.answer r.2 [])) (s, leBytes 4 l.length)

/-! ## The configuration image (R789 to R791, R795) -/

/-- The offset of a copy in board flash: 0 A, 1 B. -/
def cfgBase (copy : Nat) : Nat := if copy = 0 then 0xF80000 else 0xFC0000
def cfgBytes : Nat := 0x40000

def cfgRecord (idx sub type : Nat) (v : List Byte) : List Byte :=
  leBytes 2 idx ++ leBytes 1 sub ++ leBytes 1 type ++ leBytes 2 v.length ++ leBytes 2 0 ++ slice v 0 (roundUp v.length 4)

/-- One record for each PERSIST and LOAD entry, with its active value. -/
def State.cfgRecords (s : State) : List (List Byte) :=
  ((Reg.all.filter fun r => r.persist || r.loadOnly).flatMap fun r =>
    (List.range r.count).map fun k => cfgRecord (r.object k).1 (r.object k).2 r.kind.type (leBytes r.kind.len (s.rd r k).toNat)) ++
  (List.range 8).map fun k => cfgRecord 0x1102 (k + 1) tyDOMAIN (s.anchor k).bytes

def State.cfgImage (s : State) (gen : Nat) (device : List Byte) : List Byte :=
  let l := s.cfgRecords
  let body := l.flatMap id
  let b := leBytes 4 0x4643584A ++ leBytes 2 3 ++ leBytes 2 0 ++ leBytes 4 gen ++ leBytes 4 l.length ++ leBytes 4 body.length ++
    leBytes 4 0 ++ leBytes 8 (s.utcNs / 1000000000) ++ slice device 0 16 ++ leBytes 16 0 ++ body
  b ++ leBytes 4 (crc32c b)

/-- The state of a copy, A_STATE or B_STATE. -/
def copyState (copy : Nat) : Fld := if copy = 0 then F.MGT_CFG_STATUS_A_STATE else F.MGT_CFG_STATUS_B_STATE

def csVALID : Nat := 0
def csNOT_TRIED : Nat := 7

/-- The copy that SAVE writes: the one not used at load; A where that one is invalid or the defaults were used. -/
def State.saveCopy (s : State) : Nat :=
  let other := 1 - s.fld F.MGT_CFG_STATUS_SOURCE
  let st := s.fld (copyState other)
  if s.flag F.MGT_CFG_STATUS_DEFAULTED || 2 ≤ s.fld F.MGT_CFG_STATUS_SOURCE || !(st = csVALID || st = csNOT_TRIED) then 0 else other

/-- SAVE begins. -/
def State.beginSave (s : State) : State :=
  let copy := s.saveCopy
  let gen := s.mg.cfgUsed.elim 1 fun u => (u.2.1 + 1) % 2 ^ 32
  let device := s.mg.cfgUsed.elim (leBytes 16 0) fun u => u.2.2
  let s : State := { s with mg := { s.mg with cfgSaving := some (copy, gen, device) } }
  (s.setFlag F.MGT_CFG_STATUS_SAVE_BUSY true).emit (.flashWrite (cfgBase copy) (s.cfgImage gen device))

/-! ## Messages of a session (R775) -/

/-- What a message gives: a response, or nothing yet. -/
abbrev Answer := Option (Nat × List Byte)

def badBody (type : Nat) : Answer := some (mtERROR, errBody stMalformed type)

def srcOf (slot : Option Nat) : Source := slot.elim .mbx .net

/-- A response waits until a commit or a save ends. -/
def State.owe (s : State) (slot : Option Nat) (id type reqId : Nat) (commit : Option Nat) : State :=
  { s with mg := { s.mg with owedRsp := s.mg.owedRsp ++ [⟨slot, id, type, reqId, commit⟩] } }

/-- COMMIT_RSP and DISCARD_RSP. -/
def State.groupRsp (s : State) (g : Group) (k status : Nat) : List Byte :=
  leBytes 1 status ++ leBytes 3 0 ++ leBytes 4 (s.rd g.status k).toNat

/-- The status of a commit that has ended. -/
def State.commitStatus (s : State) (g : Group) (k : Nat) : Nat := if s.fld g.resultFld k = 0 then stOK else stRejected

/-- COMMIT (R756, R757): answered at once where it is refused or rejected, else when BUSY has cleared. -/
def State.msgCommit (s : State) (slot : Option Nat) (id role reqId : Nat) (b : List Byte) (env : Env) : State × Answer :=
  let idx := leAt b 2 2
  let sub := leAt b 1 1
  let none_ := fun (s : State) (c : Nat) => (s.refuseEntry (srcOf slot) idx sub c, some (0x15, leBytes 1 c ++ leBytes 7 0))
  if b.length ≠ 8 || leAt b 4 4 ≠ 0 then (s, badBody 0x14)
  else match commitAt idx sub with
    | none => none_ s stNoEntry
    | some (g, r, k) =>
      if !s.roleOk role idx sub then none_ s stRole
      else
        let q := s.regWrite (srcOf slot) r k 1 env
        if q.2 ≠ stOK then (q.1, some (0x15, q.1.groupRsp g k q.2))
        else if q.1.flag g.busyFld k then (q.1.owe slot id 0x14 reqId (some (idx * 256 + sub)), none)
        else (q.1, some (0x15, q.1.groupRsp g k (q.1.commitStatus g k)))

/-- DISCARD (R760). -/
def State.msgDiscard (s : State) (slot : Option Nat) (role : Nat) (b : List Byte) : State × Answer :=
  let idx := leAt b 2 2
  let sub := leAt b 1 1
  let no := fun (c : Nat) (rest : List Byte) => (s.refuseEntry (srcOf slot) idx sub c, some (0x17, leBytes 1 c ++ leBytes 3 0 ++ rest))
  if b.length ≠ 8 || leAt b 4 4 ≠ 0 then (s, badBody 0x16)
  else match commitAt idx sub with
    | none => no stNoEntry (leBytes 4 0)
    | some (g, r, k) =>
      let st := leBytes 4 (s.rd g.status k).toNat
      if !s.roleOk role idx sub then no stRole st
      else if !s.ownerOk (srcOf slot) r k then no stOwner st
      else if s.flag g.busyFld k then no stBusy st
      else
        let s := s.discardStaged g k
        let s : State := if g = .anchor then { s with mg := { s.mg with anchorsStaged := s.mg.anchors } } else s
        (s, some (0x17, s.groupRsp g k stOK))

/-- DESCRIBE: up to 64 addresses. -/
def State.msgDescribe (s : State) (b : List Byte) : Answer :=
  let n := b.length / 4
  if b.length % 4 ≠ 0 || n = 0 || 64 < n then badBody 0x18
  else some (0x19, (List.range n).flatMap fun j =>
    let idx := leAt b (4 * j + 2) 2
    let sub := leAt b (4 * j + 1) 1
    match kindOf idx sub with
    | none => leBytes 1 stNoEntry ++ leBytes 24 0
    | some k => leBytes 1 stOK ++ s.descriptor idx sub k)

/-- SAVE_RSP. -/
def saveRsp (status gen : Nat) : List Byte := leBytes 1 status ++ leBytes 3 0 ++ leBytes 4 gen

/-- SAVE (R767, R768, R795). -/
def State.msgSave (s : State) (slot : Option Nat) (id role reqId : Nat) : State × Answer :=
  let no := fun (c : Nat) => (s, some (0x1B, saveRsp c (s.fld F.MGT_CFG_STATUS_GENERATION)))
  if !s.roleOk role 0x1000 0 then no stRole
  else if slot.isNone && !s.flag F.MGT_CFG_STATUS_DEFAULTED then no stOwner
  else if s.flag F.MGT_CFG_STATUS_SAVE_BUSY then no stBusy
  else (s.beginSave.owe slot id 0x1A reqId none, none)

/-- Perform a message of a session. -/
def State.serve (s : State) (slot : Option Nat) (id role type reqId : Nat) (b : List Byte) (env : Env) : State × Answer :=
  match type with
  | 0x10 => (s, match itemList false b with
    | none => badBody type
    | some l => some (0x11, s.readItems l))
  | 0x12 => (match itemList true b with
    | none => (s, badBody type)
    | some l => let r := s.writeItems (srcOf slot) role l env; (r.1, some (0x13, r.2)))
  | 0x14 => s.msgCommit slot id role reqId b env
  | 0x16 => s.msgDiscard slot role b
  | 0x18 => (s, s.msgDescribe b)
  | 0x1A => if b.isEmpty then s.msgSave slot id role reqId else (s, badBody type)
  | 0x1C => (s, if b.isEmpty then some (0x1D, []) else badBody type)
  | 0x1E => (s, if b.isEmpty then some (0x1F, []) else badBody type)
  | _ => (s, badBody type)

/-! ## The mailbox (R787, R788) -/

/-- Write the response, set RSP_LEN and DONE, clear BUSY, raise the vector. -/
def State.mbxAnswer (s : State) (type session reqId : Nat) (body : List Byte) : State :=
  let b := jxvHead type 0 0 body.length session 0 reqId body.length ++ body
  let s : State := { s with mg := { s.mg with mbxRsp := b } }
  let s := (s.setFld F.MGT_MBX_STATUS_RSP_LEN b.length).setFlag F.MGT_MBX_STATUS_DONE true
  (s.setFlag F.MGT_MBX_STATUS_BUSY false).raisePf (s.fld F.MGT_MBX_CTRL_VEC)

/-- Answer a request of the mailbox session. -/
def State.mbxReply (s : State) (type session reqId : Nat) (body : List Byte) : State :=
  let s : State := { s with mg := { s.mg with mbx := s.mg.mbx.map fun x => x.keep reqId type body } }
  s.mbxAnswer type session reqId body

/-- The mailbox session opens, and the one before it closes (R788). -/
def State.mbxOpen (s : State) (reqId : Nat) : State :=
  let id := Config.freeNat s.free % (2 ^ 64 - 1) + 1
  let s : State := { s with free := s.free + 1, mg := { s.mg with mbx := some { id := id, role := roADMIN } } }
  s.syncMg.mbxReply 0x21 id reqId (leBytes 1 roADMIN ++ leBytes 7 0)

/-- DISCOVER_REPLY (R775); how its one STEP byte holds the stepping is not given. -/
def State.discoverRsp (s : State) : State × List Byte :=
  let node := if s.flag F.PKG_NODE_ID_VALID then s.fld F.PKG_NODE_ID_NODE else 0xFF
  let accepts := s.flag F.BOOT_STATUS_ID_VALID && decide (s.openSessions < 4) && decide (s.openShakes < 2)
  ({ s with free := s.free + 1 },
    leBytes 1 node ++ leBytes 2 (s.fld F.PKG_DEVICE_ID_PART) ++ [Config.freeByte s.free 0] ++ leBytes 1 3 ++ leBytes 1 0x30 ++
    leBytes 1 (flagBits [s.flag F.MGT_CFG_STATUS_DEFAULTED, accepts]) ++ slice idDigest 0 16)

/-- The request buffer's bytes. -/
def State.mbxRequest (s : State) (n : Nat) : List Byte :=
  ((List.range ((n + 3) / 4)).flatMap fun k => leBytes 4 (sget 0 s.mg.mbxReq k)).take n

/-- Perform the request that the doorbell handed over (R787). -/
def State.serveMailbox (s : State) (env : Env) : State :=
  match s.mg.mbxLen with
  | none => s
  | some n =>
    if !s.mgmtServes then s
    else
      let s : State := { s with mg := { s.mg with mbxLen := none } }
      let b := s.mbxRequest n
      let type := leAt b 3 1
      let reqId := leAt b 0x18 4
      let session := leAt b 8 8
      let body := b.drop 32
      let err := fun (s : State) (c : Nat) => s.mbxAnswer mtERROR session reqId (errBody c type)
      if 16384 < leAt b 0x1C 2 then err s stTooBig
      else if leAt b 0 2 ≠ 0x4A58 || leAt b 2 1 ≠ 0x30 || leAt b 4 2 ≠ 0 || leAt b 0x1C 2 ≠ body.length || leAt b 0x1E 2 ≠ 0 then err s stMalformed
      else if type = 0x20 then (if body.isEmpty then s.mbxOpen reqId else err s stMalformed)
      else match s.mg.mbx with
        | none => err s stSession
        | some x =>
          if type = 0x01 then
            (if body.isEmpty then let r := s.discoverRsp; r.1.mbxAnswer 0x02 session reqId r.2 else err s stMalformed)
          else if x.id ≠ session then err s stSession
          else match x.kept.find? fun k => k.1 == reqId with
            | some (_, t, a) => s.mbxAnswer t session reqId a
            | none =>
              match s.serve none x.id x.role type reqId body env with
              | (s, none) => s
              | (s, some (t, a)) =>
                if s.mg.mbx.isNone then s
                else
                  let s := s.mbxReply t session reqId a
                  if t = 0x1F then ({ s with mg := { s.mg with mbx := none } } : State).syncMg else s

/-- MBX_DOORBELL (R787). -/
def execMbxDoorbell (src : Source) (v : Word) (env : Env) (s : State) : Out :=
  run (.mbxDoorbell src v env) <| s.clocked <| (s.regWrite src .MGT_MBX_DOORBELL 0 v env).1.serveMailbox env

/-- OPEN (R788): the host writes an OPEN message to the request buffer and rings the doorbell. -/
def execOpenSession (reqId : Nat) (s : State) : Out :=
  run (.openSession reqId) <| s.clocked <|
    let b := jxvHead 0x20 0 0 0 0 0 reqId 0
    let req := (List.range 8).foldl (fun m k => sput 0 k (leAt b (4 * k) 4) m) s.mg.mbxReq
    let s : State := { s with mg := { s.mg with mbxReq := req } }
    (s.regWrite .pf .MGT_MBX_DOORBELL 0 32 []).1.serveMailbox []

/-! ## Responses owed -/

/-- Send a response that was owed. -/
def State.payRsp (s : State) (o : Owed) (type : Nat) (body : List Byte) : State :=
  match o.slot with
  | some k => if (s.session k).any fun x => x.id == o.id then s.answerIn k type o.reqId body else s
  | none => if s.mg.mbx.any fun x => x.id == o.id then s.mbxReply type o.id o.reqId body else s

/-- Responses to commits whose BUSY has cleared are sent (R775). -/
def State.flushOwed (s : State) : State :=
  let ready := fun (o : Owed) => match o.commit with
    | some a => (match commitAt (a / 256) (a % 256) with
      | some (g, _, k) => !s.flag g.busyFld k
      | none => true)
    | none => false
  let l := s.mg.owedRsp.filter ready
  let s : State := { s with mg := { s.mg with owedRsp := s.mg.owedRsp.filter fun o => !ready o } }
  l.foldl (fun s o => match o.commit.bind fun a => commitAt (a / 256) (a % 256) with
    | some (g, _, k) => s.payRsp o 0x15 (s.groupRsp g k (s.commitStatus g k))
    | none => s) s

/-- COMMIT_SAFE_POINT (R758): an accepted commit takes effect at its block's safe point. -/
def execCommitSafePoint (idx sub : Nat) (s : State) : Out :=
  .next <| s.clocked <|
    match commitAt idx sub with
    | some (g, _, k) => if s.committing g k then (s.commitApply g k).flushOwed else s
    | none => s

/-- SAVE_FLASH_DONE (R795): the copy has been erased, programmed and read back. -/
def execSaveFlashDone (ok : Bool) (s : State) : Out :=
  .next <| s.clocked <|
    match s.mg.cfgSaving with
    | none => s
    | some (copy, gen, device) =>
      let l := s.mg.owedRsp.filter fun o => o.commit.isNone
      let m : MgmtSt := { s.mg with cfgSaving := none, owedRsp := s.mg.owedRsp.filter fun o => o.commit.isSome }
      let s := ({ s with mg := m } : State).setFlag F.MGT_CFG_STATUS_SAVE_BUSY false
      let s :=
        if ok then
          (({ s with mg := { s.mg with cfgUsed := some (copy, gen, device) } } : State).setFld F.MGT_CFG_STATUS_GENERATION gen).setFld
            (copyState copy) csVALID
        else s
      l.foldl (fun s o => s.payRsp o 0x1B (saveRsp (if ok then stOK else stFlash) (s.fld F.MGT_CFG_STATUS_GENERATION))) s

/-! ## Messages of the segment in a session -/

/-- A datagram that R785 drops as unauthenticated. -/
def State.unauth (s : State) : State := s.bump F.MGT_NET_UNAUTH_COUNT

/-- A datagram of a message that belongs to a session (R783, R785). -/
def State.onSession (s : State) (type : Nat) (d : Dgram) (env : Env) : State :=
  let s := s.rxFrame
  if !s.mgmtServes then s
  else match (List.range 4).find? (fun k => (s.session k).any fun x => x.id == d.session) with
    | none => s.unauth
    | some k =>
      match s.session k with
      | none => s.unauth
      | some x =>
        if d.flags % 2 = 0 || !d.tagOk || d.seq ≤ x.rx then s.unauth
        else
          let s := s.setSession k (some { x with rx := d.seq })
          if s.silent d.toMac then s
          else match s.assemble k type d with
            | (s, .waits) => s
            | (s, .bad c) => s.answerIn k mtERROR d.reqId (errBody c type)
            | (s, .message b) =>
              match x.kept.find? (fun r => r.1 == d.reqId) with
              | some (_, t, a) => s.sendIn k t d.reqId a
              | none =>
                match s.serve (some k) x.id x.role type d.reqId b env with
                | (s, none) => s
                | (s, some (t, a)) =>
                  let s := s.answerIn k t d.reqId a
                  if t = 0x1F then s.closeSession k else s

/-- READ (R776). -/
def execReadEntries (d : Dgram) (env : Env) (s : State) : Out := .next <| s.clocked <| s.onSession 0x10 d env

/-- WRITE (R777); a write may ring the mailbox. -/
def execWriteEntries (d : Dgram) (env : Env) (s : State) : Out := .next <| s.clocked <| (s.onSession 0x12 d env).serveMailbox env

/-- COMMIT (R756). -/
def execCommitGroup (d : Dgram) (env : Env) (s : State) : Out := .next <| s.clocked <| s.onSession 0x14 d env

/-- DISCARD (R760). -/
def execDiscardGroup (d : Dgram) (env : Env) (s : State) : Out := .next <| s.clocked <| s.onSession 0x16 d env

/-- DESCRIBE (R744). -/
def execDescribeEntries (d : Dgram) (env : Env) (s : State) : Out := .next <| s.clocked <| s.onSession 0x18 d env

/-- SAVE (R795). -/
def execSaveConfig (d : Dgram) (env : Env) (s : State) : Out := .next <| s.clocked <| s.onSession 0x1A d env

/-- KEEPALIVE (R784). -/
def execKeepalive (d : Dgram) (env : Env) (s : State) : Out := .next <| s.clocked <| s.onSession 0x1C d env

/-- CLOSE (R784). -/
def execCloseSession (d : Dgram) (env : Env) (s : State) : Out := .next <| s.clocked <| s.onSession 0x1E d env

/-- SESSION_IDLE_TIMEOUT (R784). -/
def execSessionIdleTimeout (k : Nat) (s : State) : Out := run (.sessionIdleTimeout k) (s.clocked (s.closeSession k))

/-- HANDSHAKE_TIMEOUT (R780). -/
def execHandshakeTimeout (k : Nat) (s : State) : Out := run (.handshakeTimeout k) (s.clocked (s.dropShake k))

/-! ## DISCOVER, HELLO and AUTH (R775, R780 to R786) -/

/-- An unsealed datagram with a message outside a session: sealed ones have no session to belong to. -/
def State.onOpen (s : State) (type : Nat) (d : Dgram) (f : State → List Byte → State) : State :=
  let s := s.rxFrame
  if !s.mgmtServes then s
  else if d.flags % 2 = 1 then s.unauth
  else if s.silent d.toMac then s
  else match s.assemble (8 + d.from_) type d with
    | (s, .waits) => s
    | (s, .bad c) => s.sendMsg false mtERROR d.session 0 d.reqId (errBody c type)
    | (s, .message b) => f s b

/-- DISCOVER (R775, R785). -/
def execDiscover (d : Dgram) (s : State) : Out :=
  .next <| s.clocked <| s.onOpen 0x01 d fun s b =>
    let recent := s.mg.discovers.filter fun e => decide (s.time < e.1 + 1000000000)
    if 16 ≤ recent.length || recent.any (fun e => e.2 == d.from_) then s.bump F.MGT_NET_LIMITED_COUNT
    else if !b.isEmpty then s.sendMsg false mtERROR d.session 0 d.reqId (errBody stMalformed 0x01)
    else
      let r := s.discoverRsp
      let s : State := { r.1 with mg := { r.1.mg with discovers := (s.time, d.from_) :: recent } }
      s.sendMsg false 0x02 d.session 0 d.reqId r.2

/-- HELLO (R780, R784, R785, R839): the nonce, the ciphertext, the signature and SESSION are free values. -/
def execHelloMsg (d : Dgram) (s : State) : Out :=
  .next <| s.clocked <| s.onOpen 0x03 d fun s b =>
    let soon := decide (s.time < sget 0 s.mg.hellos d.from_)
    let s : State := { s with mg := { s.mg with hellos := sput 0 d.from_ (s.time + 100000000) s.mg.hellos } }
    let err := fun (c : Nat) => s.sendMsg false mtERROR d.session 0 d.reqId (errBody c 0x03)
    if soon then s.bump F.MGT_NET_LIMITED_COUNT
    else if b.length ≠ 1600 then err stMalformed
    else if !s.flag F.BOOT_STATUS_ID_VALID then s
    else match (List.range 2).find? (fun k => (s.shake k).isNone) with
      | none => err stLimit
      | some k =>
        if 4 ≤ s.openSessions then err stLimit
        else
          let n := s.free
          let id := Config.freeNat n % (2 ^ 64 - 1) + 1
          let free := fun (j m : Nat) => (List.range m).map (Config.freeByte (n + j))
          let body := free 1 32 ++ free 2 1568 ++ leBytes 2 s.credential.length ++ s.credential ++ free 3 4627
          let s := ({ s with free := n + 4 } : State).setShake k (some { id := id, role := 0 })
          s.sendMsg false 0x04 id 0 d.reqId body

/-- A failed authentication: at most one record in 10 s, COUNT holds the failures merged into it (R786). -/
def State.authFail (s : State) : State :=
  if s.mg.authLast.any fun t => decide (s.time < t + 10000000000) then
    { s with mg := { s.mg with authMerged := s.mg.authMerged + 1 } }
  else
    let n := s.mg.authMerged + 1
    ({ s with mg := { s.mg with authLast := some s.time, authMerged := 0 } } : State).record { cls := ecMGT, event := 2, count := n }

/-- The role that a credential with a signing anchor gives, and the anchor's slot (R769, R780 step 4, R781). `prov` says that the
anchor is one of the firmware image's provisioning anchors. -/
def State.grantRole (s : State) (b : List Byte) (prov : Bool) : Option (Nat × Option Nat) :=
  let role := leAt b 2 1
  let after := leAt b 8 8
  let digest := sha3 (slice b 7235 2592)
  if leAt b 0 2 ≠ 0x4A43 || role = 0 || 5 < role || leAt b 3 5 ≠ 0 then none
  else if after ≠ 0 && s.flag F.BOOT_TIME_STATUS_RESTORED && after < s.utcNs / 1000000000 then none
  else match (List.range 8).find? (fun k => (s.anchor k).valid && (s.anchor k).digest == digest) with
    | some k => some (min role (s.anchor k).roleMax, some k)
    | none => if prov && role = roPROVISION then some (roPROVISION, none) else none

/-- AUTH (R780, R783, R784): `sigOk` says that both signatures verify. -/
def execAuthMsg (d : Dgram) (sigOk prov : Bool) (s : State) : Out :=
  .next <| s.clocked <|
    let s := s.rxFrame
    if !s.mgmtServes then s
    else match (List.range 2).find? (fun k => (s.shake k).any fun x => x.id == d.session) with
      | none => s.unauth
      | some k =>
        match s.shake k with
        | none => s.unauth
        | some x =>
          if d.flags % 2 = 0 || !d.tagOk || d.seq ≤ x.rx then s.unauth
          else
            let s := s.setShake k (some { x with rx := d.seq })
            let err := fun (s : State) (c : Nat) => s.sendMsg true mtERROR x.id (x.tx + 1) d.reqId (errBody c 0x05)
            let sent := fun (s : State) => s.setShake k (some { x with rx := d.seq, tx := x.tx + 1 })
            if s.silent d.toMac then s
            else match s.assemble (4 + k) 0x05 d with
              | (s, .waits) => s
              | (s, .bad c) => sent (err s c)
              | (s, .message b) =>
                if b.length ≠ 14454 then sent (err s stMalformed)
                else match (if sigOk then s.grantRole b prov else none) with
                  | none => (err s stAuth).authFail.dropShake k
                  | some (role, slot) =>
                    match (List.range 4).find? (fun j => (s.session j).isNone) with
                    | none => (err s stLimit).dropShake k
                    | some j =>
                      let s := (s.dropShake k).setSession j (some { id := x.id, role := role, anchor := slot, rx := d.seq, tx := x.tx })
                      s.answerIn j 0x06 d.reqId (leBytes 1 role ++ leBytes 7 0)

end Sys2Proof.Machine
end

