-- ==== Sys2Proof/Machine/ConfigLoad.lean ====
section
/-!
DEFINITION. Configuration load (16_object_dictionary.md R789 to R794; 18_boot_identity_life.md R824, R828, R836).
-/

namespace Sys2Proof.Machine

/-- A_STATE and B_STATE of a copy that fails R792. -/
def csERASED : Nat := 1
def csFORMAT : Nat := 2
def csCHECK : Nat := 3
def csDEVICE : Nat := 4
def csRECORD : Nat := 5
def csREJECTED : Nat := 6

/-- A copy whose header, check word and DEVICE hold. -/
structure CfgCopy where
  which  : Nat
  gen    : Nat
  device : List Byte
  image  : List Byte
  count  : Nat
  deriving DecidableEq, Repr

/-- Read a copy from board flash and check it up to DEVICE. -/
def State.readCopy (s : State) (env : Env) (copy : Nat) : Nat × Option CfgCopy :=
  let h := envRead env .flash (cfgBase copy) 64
  let b := slice h.data 0 64
  let len := leAt b 0x10 4
  if h.err || leAt b 0 4 = 0xFFFFFFFF then (csERASED, none)
  else if leAt b 0 4 ≠ 0x4643584A || leAt b 4 2 ≠ 3 || len % 4 ≠ 0 || 262076 < len || leAt b 6 2 ≠ 0 || leAt b 0x14 4 ≠ 0 ||
      leNat (slice b 0x30 16) ≠ 0 then (csFORMAT, none)
  else
    let r := envRead env .flash (cfgBase copy) (64 + len + 4)
    let all := slice r.data 0 (64 + len + 4)
    let device := slice b 0x20 16
    if r.err || crc32c (slice all 0 (64 + len)) ≠ leAt all (64 + len) 4 then (csCHECK, none)
    else if leNat device ≠ 0 && !(s.flag F.BOOT_STATUS_ID_VALID && device == slice idDigest 0 16) then (csDEVICE, none)
    else (csNOT_TRIED, some ⟨copy, leAt b 8 4, device, all, leAt b 0xC 4⟩)

/-- A record of the image (R791). -/
structure CfgRec where
  idx  : Nat
  sub  : Nat
  type : Nat
  val  : List Byte

/-- The records, as far as they can be read: the count that the header gives must fill them exactly, and reserved bytes and padding are 0
(R13). -/
def cfgRecs : Nat → List Byte → List (Option CfgRec)
  | 0, b => if b.isEmpty then [] else [none]
  | n + 1, b =>
    let len := leAt b 4 2
    let room := roundUp len 4
    if b.length < 8 + room || leAt b 6 2 ≠ 0 || leNat (slice b (8 + len) (room - len)) ≠ 0 then [none]
    else some ⟨leAt b 0 2, leAt b 2 1, leAt b 3 1, slice b 8 len⟩ :: cfgRecs n (b.drop (8 + room))

/-- A record names an entry with PERSIST or LOAD set, with its type and length (R792). -/
def CfgRec.valid (r : CfgRec) : Bool :=
  match kindOf r.idx r.sub with
  | none => false
  | some k =>
    r.type == k.type && r.val.length == k.len &&
      match regOfObject r.idx r.sub with
      | some x => x.1.persist || x.1.loadOnly
      | none => r.idx == 0x1102 && r.sub != 0

/-- The group and instance that a record's entry is a member of. -/
def CfgRec.group (r : CfgRec) : Option (Group × Nat) :=
  match regOfObject r.idx r.sub with
  | some x => x.1.group.map fun g => (g, g.instOf x.1 x.2)
  | none => if r.idx = 0x1102 then some (.anchor, 0) else none

/-- Apply the records in order (R793): the first that fails. -/
def State.applyRecs (s : State) : Nat → List (Option CfgRec) → State × Option Nat
  | _, [] => (s, none)
  | n, none :: _ => (s, some n)
  | n, some r :: l =>
    if !r.valid then (s, some n)
    else
      let q := s.entrySet .load r.idx r.sub r.type r.val []
      if q.2 ≠ stOK then (q.1, some n) else q.1.applyRecs (n + 1) l

/-- Commit groups in order; each takes effect at once, the credits of a port at its next NEGOTIATE. Answers whether all were
accepted. -/
def State.commitAll (s : State) : List (Group × Nat) → State × Bool
  | [] => (s, true)
  | (g, k) :: l =>
    let s := s.commitGo g k []
    if s.flag g.busyFld k then (s.commitApply g k).commitAll l
    else if s.fld g.resultFld k = 0 then s.commitAll l else (s, false)

/-- The groups that records name, in ascending order of commit entry address (R793). -/
def groupsOf (l : List CfgRec) : List (Group × Nat) :=
  let keyed := l.foldl (fun (m : Sparse (Option (Group × Nat))) r =>
    match r.group with
    | some (g, k) => let e := g.entry.object k; sput none (e.1 * 256 + e.2) (some (g, k)) m
    | none => m) []
  keyed.filterMap (·.2)

/-- Every entry of the image at its reset value (R793, R794). -/
def State.resetConfig (s : State) : State :=
  let s := (Reg.all.filter fun r => r.persist || r.loadOnly).foldl (fun s r =>
    s.each r.count fun s k => if s.rd r k = r.resetVal k && s.rdStaged r k = r.resetVal k then s else s.resetReg r k) s
  { s with mg := { s.mg with anchors := [], anchorsStaged := [], anchorSnap := none } }

/-- Try a copy: the loaded state, or the state code and first failing record with the refusals reported. -/
def State.tryCopy (s : State) (c : CfgCopy) : State × Option (Nat × Nat) :=
  let recs := cfgRecs c.count (slice c.image 64 (c.image.length - 68))
  match s.applyRecs 0 recs with
  | (t, some n) => (t, some (csRECORD, n))
  | (t, none) =>
    match t.commitAll (groupsOf (recs.filterMap id)) with
    | (u, true) => (u, none)
    | (u, false) => (u, some (csREJECTED, recs.length))

/-- Which of two copies is tried first: the higher GENERATION by serial arithmetic, A where they are equal (R792). -/
def cfgOrder (a b : Option CfgCopy) : List CfgCopy :=
  match a, b with
  | some a, some b =>
    let d := (b.gen + 2 ^ 32 - a.gen) % 2 ^ 32
    if 1 ≤ d && d < 2 ^ 31 then [b, a] else [a, b]
  | some a, none => [a]
  | none, some b => [b]
  | none, none => []

/-- Try copies in order: the state, and the copy used. -/
def State.tryCopies (s : State) : List CfgCopy → State × Option CfgCopy
  | [] => (s, none)
  | c :: l =>
    match s.tryCopy c with
    | (t, none) => (t.setFld (copyState c.which) csVALID, some c)
    | (t, some (code, n)) =>
      let s := (s.copyRegs t [.MGT_REFUSE_CNT, .MGT_REFUSE_LAST]).resetConfig
      let s := (s.setFld (copyState c.which) code).setFld F.MGT_CFG_STATUS_FAIL_RECORD (min n (2 ^ 20 - 1))
      s.tryCopies l

/-- The configuration is in force: both halves' MEAS2, the vector split, boot_done, and the stages (R595, R824, R828, R836). -/
def State.configDone (s : State) (digest : List Byte) : State :=
  let s := (s.extend .east 2 digest).extend .west 2 digest
  let s : State := { s with vecLocked := true, boot := { s.boot with done := true } }
  let s := (s.setFld F.BOOT_STATUS_BOOT_MS (min 65535 (s.time / 1000000))).emit (.pin "boot_done" true)
  let s := if s.bootStage .east = sgCONFIG then s.enterRunning .east else s
  if s.bootStage .west = sgCONFIG then s.enterRunning .west else s

/-- May configuration load run: both halves have finished SERDES, or one is FAILED, and the lease holder is one that finished. -/
def State.configReady (s : State) : Bool :=
  let ok := fun (h : Half) => s.bootStage h == sgCONFIG || s.bootStage h == sgFAILED
  ok .east && ok .west && !s.boot.done && s.holder.any fun h => s.bootStage h == sgCONFIG

/-- CONFIG_LOAD (R792 to R794). -/
def execConfigLoad (env : Env) (s : State) : Out :=
  .next <| s.clocked <|
    if !s.configReady then s
    else
      let a := s.readCopy env 0
      let b := s.readCopy env 1
      let s := (s.setFld F.MGT_CFG_STATUS_A_STATE a.1).setFld F.MGT_CFG_STATUS_B_STATE b.1
      let s := s.setFlag F.MGT_CFG_STATUS_DEFAULTED false
      match s.tryCopies (cfgOrder a.2 b.2) with
      | (s, some c) =>
        let s : State := { s with mg := { s.mg with cfgUsed := some (c.which, c.gen, c.device) } }
        let s := (s.setFld F.MGT_CFG_STATUS_GENERATION c.gen).setFld F.MGT_CFG_STATUS_SOURCE c.which
        s.configDone (sha3 c.image)
      | (s, none) =>
        let s : State := { s.resetConfig with mg := { s.resetConfig.mg with cfgUsed := none } }
        let s := (s.setFld F.MGT_CFG_STATUS_SOURCE 2).setFlag F.MGT_CFG_STATUS_DEFAULTED true
        (s.record { cls := ecMGT, event := 1 }).configDone (leBytes 64 0)

end Sys2Proof.Machine
end

