-- ==== Sys2Proof/Machine/Fabric.lean ====
section
/-!
DEFINITION. Memory and the control window as a home: RD, WR and ATOM of other nodes (11_yalig_transactions.md R521, R523), and the
host's BAR2 (12_tile_streams_host.md R599); the handoff window and the mirror region (15_continuity.md R712, R725 to R730).
-/

namespace Sys2Proof.Machine

/-! ## Handoff records (R726, R727, R729) -/

/-- A field of a record of 16 B. -/
def recField (b : List Byte) (lo n : Nat) : Nat := leAt b 0 16 / 2 ^ lo % 2 ^ n

/-- A record holds no reserved encoding (R726). -/
def recLegal (b : List Byte) : Bool := recField b 24 8 == 0 && recField b 12 4 == 0 && decide (recField b 8 4 ≤ 4)

/-- R727: the home may change record `old` to `new`. -/
def recChange (old new : List Byte) : Bool :=
  recField new 0 8 == recField old 0 8 && recLegal new &&
    ((recField new 16 8 == recField old 16 8 && recField new 32 32 == recField old 32 32 &&
        decide (recField old 8 4 ≤ recField new 8 4)) ||
     (recField new 16 8 != recField old 16 8 && recField new 32 32 == recField old 32 32 + 1))

/-- R729: value x supersedes value y. -/
def supersedes (x y : List Byte) : Bool :=
  let ep := fun (b : List Byte) => recField b 32 32
  let ow := fun (b : List Byte) => recField b 16 8
  let ph := fun (b : List Byte) => recField b 8 4
  decide (ep y < ep x) || (ep x == ep y && (decide (ow x < ow y) || (ow x == ow y && decide (ph y < ph x))))

/-! ## Writes at the home -/

/-- Write populated memory (R48, R127, R128, R132). -/
def State.memWrite (s : State) (o : Nat) (d : List Byte) (poison : List Nat) : State × Nat :=
  if (linesOf o d.length).any fun l => s.halfDown (s.homeHalf (64 * l)) then (s, psHALF_DOWN)
  else
    let w := s.writeMem o d poison
    (w.1, if w.2 then psOK else psMEM_ERROR)

/-- The offset lies in the region of a partner's program that this controller has taken over: the highest region start at or
below it is that of such a program. -/
def State.takenRegion (s : State) (o : Nat) : Bool :=
  let starts := s.shadowed.filterMap fun n => match s.target (s.prog (s.fld F.CNT_SHADOW_LOCAL_PROG n)).ctx (s.shadowVA n) with
    | some (.own b) => if b ≤ o then some (b, n) else none
    | _ => none
  let top := starts.foldl (fun (a : Option (Nat × Nat)) x => match a with
    | some y => if y.1 < x.1 then some x else some y
    | none => some x) none
  top.any fun x => s.served.any fun v => v.prog == x.2

/-- A write to the mirror region (R712, R729); `src` is the node that sends it, none for the host. -/
def State.mirrorWrite (s : State) (src : Option Nat) (o : Nat) (d : List Byte) (poison : List Nat) : State × Nat :=
  let base := s.mirrorExtent.1
  let partner : Bool := src == some s.partner
  if base ≤ o && decide (o + d.length ≤ base + gib) && partner && s.cntState != csOFF && d.length == 16 && o % 16 == 0 then
    let r := s.readMem o 16
    if r.bad || supersedes d r.data then s.memWrite o d poison else (s.bump F.CNT_HOFF_TIE_CNT_COUNT, psOK)
  else if base + gib ≤ o && partner && s.cntState == csPAIRED && !s.takenRegion o then s.memWrite o d poison
  else (s.bump F.CNT_MIRROR_REFUSED_COUNT, psADDR)

/-- A write that reaches the home of its offset. -/
def State.storeAt (s : State) (src : Option Nat) (o : Nat) (d : List Byte) (poison : List Nat) : State × Nat :=
  if s.inHandoff o d.length then (s, psADDR)
  else if s.inMirror o d.length then s.mirrorWrite src o d poison
  else s.memWrite o d poison

/-! ## Atomics at the home (R523) -/

/-- The bytes an ATOP changes and returns; they are its alignment too. -/
def atomWidth (atop : Nat) : Nat := if atop = 7 then 16 else if atop = 8 then 4 else 8

/-- A 64-bit value as a signed number. -/
def signed64 (v : Nat) : Int := if v < 2 ^ 63 then (v : Int) else (v : Int) - 2 ^ 64

/-- The new value of an atomic; none where a comparison fails. -/
def atomNew (atop : Nat) (old d : List Byte) : Option (List Byte) :=
  let o := leAt old 0 8
  let a := leAt d 0 8
  let w := atomWidth atop
  match atop with
  | 0 => some (leBytes 8 ((o + a) % 2 ^ 64))
  | 1 => some (leBytes 8 (min o a))
  | 2 => some (leBytes 8 (max o a))
  | 3 => some (leBytes 8 (if signed64 a < signed64 o then a else o))
  | 4 => some (leBytes 8 (if signed64 o < signed64 a then a else o))
  | 5 => some (leBytes 8 a)
  | 8 => some (leBytes 4 (fAdd (BitVec.ofNat 32 (leAt old 0 4)) (BitVec.ofNat 32 (leAt d 0 4))).toNat)
  | _ => if leAt old 0 w = leAt d 0 w then some (slice d w w) else none

/-- What an atomic answers: STATUS, the old value, POISON, and the new value of a record that goes to the partner (R728). -/
structure AtomRes where
  status : Nat := 0
  old    : List Byte := []
  poison : Bool := false
  pushed : Option (List Byte) := none
  deriving DecidableEq, Repr

/-- Read, compute and write in one step (R380). An atomic on a poisoned line is not performed and returns the image (R667);
`allow` says of the old and the new value whether the change is refused (none), left out (false) or made. -/
def State.memAtom (s : State) (o atop : Nat) (d : List Byte) (allow : List Byte → List Byte → Option Bool) : State × AtomRes :=
  let w := atomWidth atop
  if s.halfDown (s.homeHalf o) then (s, { status := psHALF_DOWN })
  else if s.memFailed o then (s, { status := psMEM_ERROR })
  else
    let s := (s.snoopWrite o w).noteRead o w
    if s.mem.poisoned (o / 64) then (s, { old := slice poisonImage 0 w, poison := true })
    else
      let old := s.mem.bytes o w
      match allow old (slice d w w) with
      | none => (s, { status := psADDR })
      | some go =>
        match atomNew atop old d with
        | some v =>
          if go then ((s.writeMem o v).1, { old := old, pushed := some v }) else (s, { old := old })
        | none => (s, { old := old })

/-- An atomic that reaches the home of its offset (R523, R712, R725 to R730). -/
def State.homeAtom (s : State) (o atop : Nat) (d : List Byte) : State × AtomRes :=
  let w := atomWidth atop
  let base := s.mirrorExtent.1
  let done := fun (r : State × AtomRes) => (r.1, { r.2 with pushed := none })
  if o % w ≠ 0 then (s, { status := psADDR })
  else if s.inHandoff o w then
    if atop ≠ 7 then (s, { status := psADDR })
    else
      let r := s.memAtom o atop d fun old new => if recChange old new then some true else none
      if s.cntState = csPAIRED then r else done r
  else if s.inMirror o w then
    if atop = 7 ∧ o + 16 ≤ base + gib ∧ s.cntState = csSERVING then
      done (s.memAtom o atop d fun old new => if recChange old new then some (supersedes new old) else none)
    else (s.bump F.CNT_MIRROR_REFUSED_COUNT, { status := psADDR })
  else done (s.memAtom o atop d fun _ _ => some true)

/-- A performed record goes to the partner before its answer is sent (R728). -/
def State.pushHandoff (s : State) (o : Nat) (answer : Packet) (host : Bool) (new : List Byte) : State :=
  let h : Handoff := { num := s.handNum, answer := answer, off := o - s.fld F.CNT_HOFF_BASE_PAGE * pageBytes, data := new, host := host }
  ({ s with handNum := s.handNum + 1, handoffs := s.handoffs ++ [h] } : State).mirrorHandoff h

/-! ## Memory doorbells (R603) -/

/-- A write that begins at a memory doorbell has been performed. -/
def State.memDoorbell (s : State) (o : Nat) : State :=
  s.each 128 fun s p => s.each 16 fun s q =>
    let k := qInst p q
    if s.flag F.HIF_SQ_CTRL_DB_MEM k && s.fld F.HIF_SQ_DBADDR_OFFSET k * 8 == o then
      s.sqTail p q (leAt (s.mem.bytes o 4) 0 4 % 2 ^ 17)
    else s

/-! ## The control window (R66, R878, R879) -/

/-- The alignment and length of a RD, and of a WR (R521). -/
def rdShape (o n : Nat) : Bool := o % 64 == 0 && n % 64 == 0 && decide (64 ≤ n) && decide (o % 4096 + n ≤ 4096)
def wrShape (o n : Nat) : Bool := decide (0 < n) && decide (o % 4096 + n ≤ 4096)

/-- A RD of the control window: naturally aligned words of 8 B, no latch; the partner's read of the CNT block tells that it pairs
(R702). -/
def State.ctlRead (s : State) (p : Packet) : State :=
  let o := p.off - ctlBase
  let d := (List.range (p.len / 4)).flatMap fun j => leBytes 4 (s.bar0Word (o + 4 * j))
  let s := match responseTo p psOK with
    | some (q : Packet) => s.sendPacket { q with data := d, len := p.len }
    | none => s
  if 0xC0000 ≤ o && o < 0xD0000 then s.partnerReads p.src else s

/-- A WR of the control window: the partner's commands (R740), or a register write. -/
def State.ctlWrite (s : State) (p : Packet) (env : Env) : State :=
  let o := p.off - ctlBase
  let v := leAt p.data 0 p.len
  let s :=
    if o = 0xC0030 || o = 0xC0034 then
      if p.src ≠ s.partner then s
      else if p.len = 8 then s.writePeer false v
      else if o = 0xC0030 then { s with lowWrites := (0, regKey .CNT_PEER_MASK 0, v) :: s.lowWrites.filter fun e => e.2.1 != regKey .CNT_PEER_MASK 0 }
      else
        let low := ((s.lowWrites.find? fun e => e.2.1 == regKey .CNT_PEER_MASK 0).map (·.2.2)).getD (s.peerMask % 2 ^ 32)
        ({ s with lowWrites := s.lowWrites.filter fun e => e.2.1 != regKey .CNT_PEER_MASK 0 } : State).writePeer false (v * 2 ^ 32 + low)
    else if o = 0xC0038 then if p.src ≠ s.partner then s else s.writePeer true v
    else (s.bar0Store .fw o p.len v true env).serveMailbox env
  s.answer p psOK

/-! ## RD, WR and ATOM -/

/-- RD (R521): a read of the home, or of the control window. -/
def execRd (q : InboxRead) (s : State) : Out :=
  .next <| s.clocked <| (s.homeWords q.env).perform q.k (fun p => p.op == opRD) fun s p =>
    s.keyed p F.YT_RKEY_CTRL_READ (some (p.off, p.len)) fun c =>
      if s.region p.off = .control then
        if c ≠ 0xFF then s.ctlRefuse p psCTL
        else if rdShape p.off p.len then s.ctlRead p else s.answer p psADDR
      else if !rdShape p.off p.len then s.answer p psADDR
      else match s.offsetRefusal p.off p.len with
        | some r => r.1.answer p r.2
        | none =>
          let r := s.readMem p.off p.len
          let s := s.noteRead p.off p.len
          match responseTo p psOK with
          | some (q : Packet) =>
            s.sendPacket { q with data := withImage p.off r.data r.poison, len := p.len, poison := !r.poison.isEmpty }
          | none => s

/-- WR (R521, R665): a write at the home or to the control window, with memory doorbells and the mirror. -/
def execWr (k : Nat) (env : Env) (s : State) : Out :=
  .next <| s.clocked <| s.perform k (fun p => p.op == opWR) fun s p =>
    s.keyed p F.YT_RKEY_CTRL_WRITE (some (p.off, p.len)) fun c =>
      if s.region p.off = .control then
        if c ≠ 0xFF then s.ctlRefuse p psCTL
        else if (p.len = 4 || p.len = 8) && p.off % p.len = 0 then s.ctlWrite p env
        else s.ctlRefuse p psADDR
      else if !wrShape p.off p.len then s.answer p psADDR
      else match s.offsetRefusal p.off p.len with
        | some r => r.1.answer p r.2
        | none =>
          let w := s.storeAt (some p.src) p.off p.data (touchedLines p.off p.poisonLines)
          let s := if w.2 = psOK && (p.len = 4 || p.len = 8) then w.1.memDoorbell p.off else w.1
          s.answer p w.2

/-- ATOM (R523): an atomic at the home. An ATOP that is reserved is discarded whole (R13). -/
def execAtom (k : Nat) (s : State) : Out :=
  .next <| s.clocked <| s.perform k (fun p => p.op == opATOM) fun s p =>
    if 8 < p.atop then s.bump F.YT_HDR_ERR_COUNT
    else s.keyed p F.YT_RKEY_CTRL_ATOMIC (some (p.off, atomWidth p.atop)) fun c =>
      if s.region p.off = .control then s.ctlRefuse p (if c ≠ 0xFF then psCTL else psADDR)
      else match s.offsetRefusal p.off (atomWidth p.atop) with
        | some r => r.1.answer p r.2
        | none =>
          let r := s.homeAtom p.off p.atop p.data
          let s := if r.2.status = psOK && !r.2.poison && (p.atop = 0 || p.atop = 5) then r.1.memDoorbell p.off else r.1
          match responseTo p r.2.status with
          | none => s
          | some (q : Packet) =>
            let q := { q with data := r.2.old, poison := r.2.poison }
            match r.2.pushed with
            | some v => s.pushHandoff p.off q false v
            | none => s.sendPacket q

/-! ## BAR2 (R412, R413, R591, R599) -/

/-- The local offset of a BAR2 offset. -/
def State.bar2Offset (s : State) (x : Nat) : Nat := s.fld F.HIF_BAR2_MAP_BASE * 2 ^ 36 + x

/-- A BAR2 access is refused (R599). -/
def State.bar2Refused (s : State) (o n : Nat) : Bool :=
  let ok := fun (r : Region) => r = .tier0 || r = .tier1
  !(ok (s.region o) && ok (s.region (o + n - 1)))

/-- BAR2_WRITE (R412, R414, R599, R880): a host write; with EP, every line it touches is poisoned. -/
def execBar2Write (x : Nat) (d : List Byte) (poisoned : Bool) (s : State) : Out :=
  run (.bar2Write x d poisoned) <| s.clocked <|
    let o := s.bar2Offset x
    if s.bar2Refused o d.length then s.bump F.HIF_BAR2_REFUSED_COUNT
    else ((s.crossOut .east o d.length).storeAt none o d (if poisoned then (linesOf o d.length).map (· - o / 64) else [])).1

/-- BAR2_READ (R413, R599): a host read; poison completes as a poisoned TLP. -/
def execBar2Read (x n : Nat) (s : State) : Out :=
  run (.bar2Read x n) <| s.clocked <|
    let o := s.bar2Offset x
    if s.bar2Refused o n then (s.bump F.HIF_BAR2_REFUSED_COUNT).emit (.readValue (List.replicate n 0xFF#8) false)
    else
      let r := s.readMem o n
      ((s.noteRead o n).crossIn .east o n).emit (.readValue (withImage o r.data r.poison) (!r.poison.isEmpty))

/-- BAR2_ATOMIC (R591, R599): FetchAdd 64, Swap 64, CAS 64 or CAS 128. -/
def execBar2Atomic (x atop : Nat) (d : List Byte) (s : State) : Out :=
  run (.bar2Atomic x atop d) <| s.clocked <|
    let o := s.bar2Offset x
    let w := atomWidth atop
    if !((atop = 0 || atop = 5 || atop = 6 || atop = 7) && d.length = atomOperand atop && x % w = 0) then
      s.emit (.pcieStatus "Unsupported Request")
    else if s.bar2Refused o w then s.bump F.HIF_BAR2_REFUSED_COUNT
    else
      let r := ((s.crossOut .east o d.length).crossIn .east o w).homeAtom o atop d
      if r.2.status ≠ psOK then r.1.emit (.pcieStatus "Completer Abort")
      else match r.2.pushed with
        | some v => r.1.pushHandoff o { op := opATOM_DATA, dst := 0xFF, src := 0, data := r.2.old } true v
        | none => r.1.emit (.readValue r.2.old r.2.poison)

/-! ## Register writes from the host and from management firmware -/

/-- REGISTER_WRITE (R7, R50, R598, R735, R736). -/
def execRegisterWrite (src : Source) (off size : Nat) (v : Word) (lease : Option (Half × Nat)) (env : Env) (s : State) : Out :=
  run (.registerWrite src off size v lease env) <| s.clocked <| (s.bar0Write src off size v lease env).serveMailbox env

end Sys2Proof.Machine
end

