-- ==== Sys2Proof/Machine/Dispatch.lean ====
section
/-!
DEFINITION. The dispatch: one arm for each command.
-/

namespace Sys2Proof.Machine

def exec (i : Instr) (s : State) : Host.Outcome State Fault Refusal :=
  match i with
  | .coldResetRelease straps => Sys2Proof.Machine.execColdResetRelease straps s
  | .bridgeLaneFail dir g => Sys2Proof.Machine.execBridgeLaneFail dir g s
  | .bridgeSecondLaneFail dir g => Sys2Proof.Machine.execBridgeSecondLaneFail dir g s
  | .bridgeEndpointLost east west env => Sys2Proof.Machine.execBridgeEndpointLost east west env s
  | .chipWarmReset src confirm => Sys2Proof.Machine.execChipWarmReset src confirm s
  | .halfReset src h confirm env => Sys2Proof.Machine.execHalfReset src h confirm env s
  | .registerWrite src off size v lease env => Sys2Proof.Machine.execRegisterWrite src off size v lease env s
  | .tblCommit src c env => Sys2Proof.Machine.execTblCommit src c env s
  | .tblActivate c => Sys2Proof.Machine.execTblActivate c s
  | .oldEpochDrained c => Sys2Proof.Machine.execOldEpochDrained c s
  | .faultRecordVisible c => Sys2Proof.Machine.execFaultRecordVisible c s
  | .faultRecordWriteFail c => Sys2Proof.Machine.execFaultRecordWriteFail c s
  | .deferredFaultRecord c => Sys2Proof.Machine.execDeferredFaultRecord c s
  | .fltqHeadWrite src p v => Sys2Proof.Machine.execFltqHeadWrite src p v s
  | .fltqResumeReplay src p tag env => Sys2Proof.Machine.execFltqResumeReplay src p tag env s
  | .fltqResumeAbort src p tag env => Sys2Proof.Machine.execFltqResumeAbort src p tag env s
  | .migGo src p v => Sys2Proof.Machine.execMigGo src p v s
  | .migToDevice c env => Sys2Proof.Machine.execMigToDevice c env s
  | .migToHost c => Sys2Proof.Machine.execMigToHost c s
  | .migDrainDone c => Sys2Proof.Machine.execMigDrainDone c s
  | .migTransferFail c err k env => Sys2Proof.Machine.execMigTransferFail c err k env s
  | .migCommandDone c env => Sys2Proof.Machine.execMigCommandDone c env s
  | .stageCommit src => Sys2Proof.Machine.execStageCommit src s
  | .memRuntimeFail dev => Sys2Proof.Machine.execMemRuntimeFail dev s
  | .driveLinkUp d width gen => Sys2Proof.Machine.execDriveLinkUp d width gen s
  | .driveInitDone d pairs id => Sys2Proof.Machine.execDriveInitDone d pairs id s
  | .driveInitTimeout d => Sys2Proof.Machine.execDriveInitTimeout d s
  | .nvmeCommandTimeout d => Sys2Proof.Machine.execNvmeCommandTimeout d s
  | .driveRecoverDone d id => Sys2Proof.Machine.execDriveRecoverDone d id s
  | .driveOffline src d => Sys2Proof.Machine.execDriveOffline src d s
  | .driveOnline src d => Sys2Proof.Machine.execDriveOnline src d s
  | .driveReset src d => Sys2Proof.Machine.execDriveReset src d s
  | .driveSurpriseDown d => Sys2Proof.Machine.execDriveSurpriseDown d s
  | .smartPoll d warn used temp => Sys2Proof.Machine.execSmartPoll d warn used temp s
  | .nvmeCompletion ch ok env => Sys2Proof.Machine.execNvmeCompletion ch ok env s
  | .tileSourceReadDone ch env => Sys2Proof.Machine.execTileSourceReadDone ch env s
  | .tileWritesAcked ch ok => Sys2Proof.Machine.execTileWritesAcked ch ok s
  | .t2BodyWriteDone ch => Sys2Proof.Machine.execT2BodyWriteDone ch s
  | .tileHeaderWritten ch ok => Sys2Proof.Machine.execTileHeaderWritten ch ok s
  | .tspInboundTileTaken ch => Sys2Proof.Machine.execTspInboundTileTaken ch s
  | .completionRecordPerformed p q ok => Sys2Proof.Machine.execCompletionRecordPerformed p q ok s
  | .phaseComplete n env => Sys2Proof.Machine.execPhaseComplete n env s
  | .specRoutingDone n guess => Sys2Proof.Machine.execSpecRoutingDone n guess s
  | .curMatchArm src n vec => Sys2Proof.Machine.execCurMatchArm src n vec s
  | .loadProgram src n part env => Sys2Proof.Machine.execLoadProgram src n part env s
  | .startProgram src n part => Sys2Proof.Machine.execStartProgram src n part s
  | .parkProgram src n part => Sys2Proof.Machine.execParkProgram src n part s
  | .unloadProgram src n part => Sys2Proof.Machine.execUnloadProgram src n part s
  | .admitSeq src n part slot env => Sys2Proof.Machine.execAdmitSeq src n part slot env s
  | .remove src n part slot => Sys2Proof.Machine.execRemove src n part slot s
  | .daCmdReservedOp src op => Sys2Proof.Machine.execDaCmdReservedOp src op s
  | .arrayGrant a env => Sys2Proof.Machine.execArrayGrant a env s
  | .itemComplete a hw => Sys2Proof.Machine.execItemComplete a hw s
  | .itemOvertime a env => Sys2Proof.Machine.execItemOvertime a env s
  | .restore src a => Sys2Proof.Machine.execRestore src a s
  | .arrayOffline src a => Sys2Proof.Machine.execArrayOffline src a s
  | .arrayOnline src a => Sys2Proof.Machine.execArrayOnline src a s
  | .ringHeadWrite src n v => Sys2Proof.Machine.execRingHeadWrite src n v s
  | .scoopRowReturn g env => Sys2Proof.Machine.execScoopRowReturn g env s
  | .scoopCommandComplete g env => Sys2Proof.Machine.execScoopCommandComplete g env s
  | .define src t part env => Sys2Proof.Machine.execDefine src t part env s
  | .flip src t part inv => Sys2Proof.Machine.execFlip src t part inv s
  | .retire src t part => Sys2Proof.Machine.execRetire src t part s
  | .scpCmdReservedOp src op => Sys2Proof.Machine.execScpCmdReservedOp src op s
  | .tableOldDrained t => Sys2Proof.Machine.execTableOldDrained t s
  | .replicaInstallDone h j => Sys2Proof.Machine.execReplicaInstallDone h j s
  | .scoopEngineFail g env => Sys2Proof.Machine.execScoopEngineFail g env s
  | .scpReplCommit src => Sys2Proof.Machine.execScpReplCommit src s
  | .acquirePoll p q env => Sys2Proof.Machine.execAcquirePoll p q env s
  | .acquireWaitTimeout p q => Sys2Proof.Machine.execAcquireWaitTimeout p q s
  | .invComplete p q => Sys2Proof.Machine.execInvComplete p q s
  | .bar2Write x d poisoned => Sys2Proof.Machine.execBar2Write x d poisoned s
  | .bar2Read x n => Sys2Proof.Machine.execBar2Read x n s
  | .bar2Atomic x atop d => Sys2Proof.Machine.execBar2Atomic x atop d s
  | .snoopTimeout k slot => Sys2Proof.Machine.execSnoopTimeout k slot s
  | .collapse src => Sys2Proof.Machine.execCollapse src s
  | .reinit src => Sys2Proof.Machine.execReinit src s
  | .cohCommit src => Sys2Proof.Machine.execCohCommit src s
  | .ylCfgCommit src => Sys2Proof.Machine.execYlCfgCommit src s
  | .detectSignal l => Sys2Proof.Machine.execDetectSignal l s
  | .detectOneLaneTimeout l lane => Sys2Proof.Machine.execDetectOneLaneTimeout l lane s
  | .equalizeConverged l => Sys2Proof.Machine.execEqualizeConverged l s
  | .equalizeTimeout l => Sys2Proof.Machine.execEqualizeTimeout l s
  | .lockAchieved l => Sys2Proof.Machine.execLockAchieved l s
  | .lockTimeout l => Sys2Proof.Machine.execLockTimeout l s
  | .negotiateTimeout l => Sys2Proof.Machine.execNegotiateTimeout l s
  | .flitReceive l b uncorrectable cw s0 s1 => Sys2Proof.Machine.execFlitReceive l b uncorrectable cw s0 s1 s
  | .ackTimer l => Sys2Proof.Machine.execAckTimer l s
  | .nakRepeat l => Sys2Proof.Machine.execNakRepeat l s
  | .receiveLaneLoss l mask => Sys2Proof.Machine.execReceiveLaneLoss l mask s
  | .flitAcceptTimeout l => Sys2Proof.Machine.execFlitAcceptTimeout l s
  | .replayAckTimeout l => Sys2Proof.Machine.execReplayAckTimeout l s
  | .retrain src l => Sys2Proof.Machine.execRetrain src l s
  | .fastRetrainDone l ok caps lane => Sys2Proof.Machine.execFastRetrainDone l ok caps lane s
  | .failedRetry l => Sys2Proof.Machine.execFailedRetry l s
  | .linkDisable src l => Sys2Proof.Machine.execLinkDisable src l s
  | .linkDisableClear src l => Sys2Proof.Machine.execLinkDisableClear src l s
  | .oneLaneMarker l ok => Sys2Proof.Machine.execOneLaneMarker l ok s
  | .laneDropLockTimeout l => Sys2Proof.Machine.execLaneDropLockTimeout l s
  | .laneTest l hold ser0 ser1 => Sys2Proof.Machine.execLaneTest l hold ser0 ser1 s
  | .reachPeriodic l => Sys2Proof.Machine.execReachPeriodic l s
  | .reachStale l => Sys2Proof.Machine.execReachStale l s
  | .reachHold l => Sys2Proof.Machine.execReachHold l s
  | .detourPacket l => Sys2Proof.Machine.execDetourPacket l s
  | .packetIngress l => Sys2Proof.Machine.execPacketIngress l s
  | .packetEgress l => Sys2Proof.Machine.execPacketEgress l s
  | .srd k stamp len => Sys2Proof.Machine.execSrd k stamp len s
  | .retxTimeout n vc => Sys2Proof.Machine.execRetxTimeout n vc s
  | .sackTimer n vc => Sys2Proof.Machine.execSackTimer n vc s
  | .tspDisableClear src t => Sys2Proof.Machine.execTspDisableClear src t s
  | .tspDisable src t => Sys2Proof.Machine.execTspDisable src t s
  | .tspTrainDone t lanes => Sys2Proof.Machine.execTspTrainDone t lanes s
  | .tspTrainTimeout t lock => Sys2Proof.Machine.execTspTrainTimeout t lock s
  | .tspNegotiateTimeout t => Sys2Proof.Machine.execTspNegotiateTimeout t s
  | .tspFlitReceive t b uncorrectable => Sys2Proof.Machine.execTspFlitReceive t b uncorrectable s
  | .tileUnit t => Sys2Proof.Machine.execTileUnit t s
  | .tspTileSend t => Sys2Proof.Machine.execTspTileSend t s
  | .tspLaneLoss t mask => Sys2Proof.Machine.execTspLaneLoss t mask s
  | .tspRecoverDone t ok caps lanes => Sys2Proof.Machine.execTspRecoverDone t ok caps lanes s
  | .tspRetry src t => Sys2Proof.Machine.execTspRetry src t s
  | .tspRefclkLoss k => Sys2Proof.Machine.execTspRefclkLoss k s
  | .tspRefclkReturn k => Sys2Proof.Machine.execTspRefclkReturn k s
  | .tspPortCommit src t => Sys2Proof.Machine.execTspPortCommit src t s
  | .perstRelease gen width => Sys2Proof.Machine.execPerstRelease gen width s
  | .vfFlr p env => Sys2Proof.Machine.execVfFlr p env s
  | .vfEnable n => Sys2Proof.Machine.execVfEnable n s
  | .pcieCplTimeout ch row => Sys2Proof.Machine.execPcieCplTimeout ch row s
  | .sqDoorbell src p q v => Sys2Proof.Machine.execSqDoorbell src p q v s
  | .queueFetch p env => Sys2Proof.Machine.execQueueFetch p env s
  | .sqEnable src p q v => Sys2Proof.Machine.execSqEnable src p q v s
  | .sqDisable src p q v => Sys2Proof.Machine.execSqDisable src p q v s
  | .resume src p q => Sys2Proof.Machine.execResume src p q s
  | .resumeSkip src p q => Sys2Proof.Machine.execResumeSkip src p q s
  | .cqHeadWrite src p q v => Sys2Proof.Machine.execCqHeadWrite src p q v s
  | .msixUnmask src fn vec => Sys2Proof.Machine.execMsixUnmask src fn vec s
  | .partitionReset src p env => Sys2Proof.Machine.execPartitionReset src p env s
  | .partitionDrained p => Sys2Proof.Machine.execPartitionDrained p s
  | .partitionDrainTimeout p env => Sys2Proof.Machine.execPartitionDrainTimeout p env s
  | .partitionCleared p env => Sys2Proof.Machine.execPartitionCleared p env s
  | .qosCommit src => Sys2Proof.Machine.execQosCommit src s
  | .mrEnable src p r v => Sys2Proof.Machine.execMrEnable src p r v s
  | .mrHeadWrite src p r v => Sys2Proof.Machine.execMrHeadWrite src p r v s
  | .mrRecordPerformed p r => Sys2Proof.Machine.execMrRecordPerformed p r s
  | .engineReset src cls inst env => Sys2Proof.Machine.execEngineReset src cls inst env s
  | .engineFailure cls inst env => Sys2Proof.Machine.execEngineFailure cls inst env s
  | .engineResetDone cls inst env => Sys2Proof.Machine.execEngineResetDone cls inst env s
  | .arbitrationRunDone a hw => Sys2Proof.Machine.execArbitrationRunDone a hw s
  | .uncomparedTimeout a => Sys2Proof.Machine.execUncomparedTimeout a s
  | .tasterSlotDone a res => Sys2Proof.Machine.execTasterSlotDone a res s
  | .retestSlotDone a res => Sys2Proof.Machine.execRetestSlotDone a res s
  | .retestTimeout a => Sys2Proof.Machine.execRetestTimeout a s
  | .sweep src v => Sys2Proof.Machine.execSweep src v s
  | .sweepStageEnd k charged => Sys2Proof.Machine.execSweepStageEnd k charged s
  | .errRingHeadWrite src v => Sys2Proof.Machine.execErrRingHeadWrite src v s
  | .cntCommit src => Sys2Proof.Machine.execCntCommit src s
  | .mirrorPushDone n => Sys2Proof.Machine.execMirrorPushDone n s
  | .mirrorBankWritten n => Sys2Proof.Machine.execMirrorBankWritten n s
  | .mirrorCommitted n => Sys2Proof.Machine.execMirrorCommitted n s
  | .sequenceCopyDone n slot => Sys2Proof.Machine.execSequenceCopyDone n slot s
  | .takeover src confirm => Sys2Proof.Machine.execTakeover src confirm s
  | .restart src confirm => Sys2Proof.Machine.execRestart src confirm s
  | .frozenPoll n env => Sys2Proof.Machine.execFrozenPoll n env s
  | .deltaPullDone n env => Sys2Proof.Machine.execDeltaPullDone n env s
  | .leaseRenew h epoch => Sys2Proof.Machine.execLeaseRenew h epoch s
  | .openSession reqId => Sys2Proof.Machine.execOpenSession reqId s
  | .handshakeTimeout k => Sys2Proof.Machine.execHandshakeTimeout k s
  | .sessionIdleTimeout k => Sys2Proof.Machine.execSessionIdleTimeout k s
  | .mbxDoorbell src v env => Sys2Proof.Machine.execMbxDoorbell src v env s
  | .mgtNetCommit src => Sys2Proof.Machine.execMgtNetCommit src s
  | .mgtAnchorCommit src => Sys2Proof.Machine.execMgtAnchorCommit src s
  | .mgtDelegCommit src => Sys2Proof.Machine.execMgtDelegCommit src s
  | .compMsg p c => Sys2Proof.Machine.execCompMsg p c s
  | .tokensMsg p => Sys2Proof.Machine.execTokensMsg p s
  | .sclOffer src off tot data => Sys2Proof.Machine.execSclOffer src off tot data s
  | .offerVerifyDone sigOk kind version meter classes => Sys2Proof.Machine.execOfferVerifyDone sigOk kind version meter classes s
  | .memoryTrained h badCh badSt rate dimm same ew we => Sys2Proof.Machine.execMemoryTrained h badCh badSt rate dimm same ew we s
  | .serdesDone h failed => Sys2Proof.Machine.execSerdesDone h failed s
  | .bootSvnCommit src v => Sys2Proof.Machine.execBootSvnCommit src v s
  | .fwOffer src off tot data => Sys2Proof.Machine.execFwOffer src off tot data s
  | .bootTimeSync src n => Sys2Proof.Machine.execBootTimeSync src n s
  | .bootTimeFollow src n t1 => Sys2Proof.Machine.execBootTimeFollow src n t1 s
  | .bootTimeHost src u => Sys2Proof.Machine.execBootTimeHost src u s
  | .attestNonce src host nonce => Sys2Proof.Machine.execAttestNonce src host nonce s
  | .persistNow src => Sys2Proof.Machine.execPersistNow src s
  | .shutdown src confirm => Sys2Proof.Machine.execShutdown src confirm s
  | .lifeServiceAdd src v => Sys2Proof.Machine.execLifeServiceAdd src v s
  | .pmbusPoll rails => Sys2Proof.Machine.execPmbusPoll rails s
  | .sensorRead dies => Sys2Proof.Machine.execSensorRead dies s
  | .quadRefclkLoss io q => Sys2Proof.Machine.execQuadRefclkLoss io q s
  | .registerRead src off size => Sys2Proof.Machine.execRegisterRead src off size s
  | .droppedFrame why => Sys2Proof.Machine.execDroppedFrame why s
  | .coldResetAssert => Sys2Proof.Machine.execColdResetAssert s
  | .sysrefLoss => Sys2Proof.Machine.execSysrefLoss s
  | .sysrefReturn => Sys2Proof.Machine.execSysrefReturn s
  | .halfResetTimeout h => Sys2Proof.Machine.execHalfResetTimeout h s
  | .cursorDelivery h => Sys2Proof.Machine.execCursorDelivery h s
  | .mgmtFaultService env => Sys2Proof.Machine.execMgmtFaultService env s
  | .scrubRead off err => Sys2Proof.Machine.execScrubRead off err s
  | .copyTile fw env => Sys2Proof.Machine.execCopyTile fw env s
  | .copyRaw fw env => Sys2Proof.Machine.execCopyRaw fw env s
  | .prooferMoveComplete => Sys2Proof.Machine.execProoferMoveComplete s
  | .stagingSpaceRelease => Sys2Proof.Machine.execStagingSpaceRelease s
  | .partialsArrive h => Sys2Proof.Machine.execPartialsArrive h s
  | .gather fw env => Sys2Proof.Machine.execGather fw env s
  | .rowUpdate fw env => Sys2Proof.Machine.execRowUpdate fw env s
  | .attemptReadReturn id => Sys2Proof.Machine.execAttemptReadReturn id s
  | .waitingReadRelease id => Sys2Proof.Machine.execWaitingReadRelease id s
  | .updateStampAcked id ok => Sys2Proof.Machine.execUpdateStampAcked id ok s
  | .updateInvalidatesAcked id => Sys2Proof.Machine.execUpdateInvalidatesAcked id s
  | .updateRowAcked id ok => Sys2Proof.Machine.execUpdateRowAcked id ok s
  | .updateFinalStampAcked id ok => Sys2Proof.Machine.execUpdateFinalStampAcked id ok s
  | .hotCountDecay h => Sys2Proof.Machine.execHotCountDecay h s
  | .releaseWrite => Sys2Proof.Machine.execReleaseWrite s
  | .acquireWait env => Sys2Proof.Machine.execAcquireWait env s
  | .fenceEntry => Sys2Proof.Machine.execFenceEntry s
  | .invRange => Sys2Proof.Machine.execInvRange s
  | .rdshared q => Sys2Proof.Machine.execRdshared q s
  | .rdown k => Sys2Proof.Machine.execRdown k s
  | .upgrade k => Sys2Proof.Machine.execUpgrade k s
  | .wbdata k => Sys2Proof.Machine.execWbdata k s
  | .evictclean k => Sys2Proof.Machine.execEvictclean k s
  | .snoopAck k => Sys2Proof.Machine.execSnoopAck k s
  | .snprespwbpending k => Sys2Proof.Machine.execSnprespwbpending k s
  | .fwddata k => Sys2Proof.Machine.execFwddata k s
  | .reinitDone => Sys2Proof.Machine.execReinitDone s
  | .mirrorRecordPerformed => Sys2Proof.Machine.execMirrorRecordPerformed s
  | .rd q => Sys2Proof.Machine.execRd q s
  | .wr k env => Sys2Proof.Machine.execWr k env s
  | .atom k => Sys2Proof.Machine.execAtom k s
  | .fenceRequest k => Sys2Proof.Machine.execFenceRequest k s
  | .supd k stamp => Sys2Proof.Machine.execSupd k stamp s
  | .rinv k => Sys2Proof.Machine.execRinv k s
  | .rdereg k => Sys2Proof.Machine.execRdereg k s
  | .msg k => Sys2Proof.Machine.execMsg k s
  | .mgmtSync k => Sys2Proof.Machine.execMgmtSync k s
  | .mgmtCollapse k => Sys2Proof.Machine.execMgmtCollapse k s
  | .mgmtTelemetry k => Sys2Proof.Machine.execMgmtTelemetry k s
  | .sack k => Sys2Proof.Machine.execSack k s
  | .rdData k => Sys2Proof.Machine.execRdData k s
  | .wrAck k => Sys2Proof.Machine.execWrAck k s
  | .atomData k => Sys2Proof.Machine.execAtomData k s
  | .fenceAck k => Sys2Proof.Machine.execFenceAck k s
  | .srdData k => Sys2Proof.Machine.execSrdData k s
  | .supdAck k => Sys2Proof.Machine.execSupdAck k s
  | .rinvAck k => Sys2Proof.Machine.execRinvAck k s
  | .msgAck k => Sys2Proof.Machine.execMsgAck k s
  | .msgAckTimeout tag => Sys2Proof.Machine.execMsgAckTimeout tag s
  | .perstAssert env => Sys2Proof.Machine.execPerstAssert env s
  | .hostLinkLoss env => Sys2Proof.Machine.execHostLinkLoss env s
  | .pfFlr env => Sys2Proof.Machine.execPfFlr env s
  | .configRequest relaxed => Sys2Proof.Machine.execConfigRequest relaxed s
  | .vecCfgLockTimeout => Sys2Proof.Machine.execVecCfgLockTimeout s
  | .csumRecomputeDone => Sys2Proof.Machine.execCsumRecomputeDone s
  | .tasterIdleSlot => Sys2Proof.Machine.execTasterIdleSlot s
  | .errRingWriteDone ok => Sys2Proof.Machine.execErrRingWriteDone ok s
  | .corrHourRollover => Sys2Proof.Machine.execCorrHourRollover s
  | .pairingReadDone env => Sys2Proof.Machine.execPairingReadDone env s
  | .pairingRetry => Sys2Proof.Machine.execPairingRetry s
  | .partnerLossTimer => Sys2Proof.Machine.execPartnerLossTimer s
  | .peerTakeover => Sys2Proof.Machine.execPeerTakeover s
  | .handbackReq => Sys2Proof.Machine.execHandbackReq s
  | .handbackDone => Sys2Proof.Machine.execHandbackDone s
  | .returnSweepDone env => Sys2Proof.Machine.execReturnSweepDone env s
  | .bulkPullDone env => Sys2Proof.Machine.execBulkPullDone env s
  | .handoffMirrorWritten => Sys2Proof.Machine.execHandoffMirrorWritten s
  | .leaseExpiry => Sys2Proof.Machine.execLeaseExpiry s
  | .discover d => Sys2Proof.Machine.execDiscover d s
  | .helloMsg d => Sys2Proof.Machine.execHelloMsg d s
  | .authMsg d sigOk prov => Sys2Proof.Machine.execAuthMsg d sigOk prov s
  | .readEntries d env => Sys2Proof.Machine.execReadEntries d env s
  | .writeEntries d env => Sys2Proof.Machine.execWriteEntries d env s
  | .commitGroup d env => Sys2Proof.Machine.execCommitGroup d env s
  | .discardGroup d env => Sys2Proof.Machine.execDiscardGroup d env s
  | .describeEntries d env => Sys2Proof.Machine.execDescribeEntries d env s
  | .saveConfig d env => Sys2Proof.Machine.execSaveConfig d env s
  | .saveFlashDone ok => Sys2Proof.Machine.execSaveFlashDone ok s
  | .keepalive d env => Sys2Proof.Machine.execKeepalive d env s
  | .closeSession d env => Sys2Proof.Machine.execCloseSession d env s
  | .fragmentTimeout k => Sys2Proof.Machine.execFragmentTimeout k s
  | .neighborSolicitation target toMac => Sys2Proof.Machine.execNeighborSolicitation target toMac s
  | .echoRequest target data toMac => Sys2Proof.Machine.execEchoRequest target data toMac s
  | .dadComplete duplicate => Sys2Proof.Machine.execDadComplete duplicate s
  | .beaconLoss => Sys2Proof.Machine.execBeaconLoss s
  | .beaconSeen => Sys2Proof.Machine.execBeaconSeen s
  | .commitSafePoint idx sub => Sys2Proof.Machine.execCommitSafePoint idx sub s
  | .tick => Sys2Proof.Machine.execTick s
  | .recordPersisted => Sys2Proof.Machine.execRecordPersisted s
  | .timeMsg resid want => Sys2Proof.Machine.execTimeMsg resid want s
  | .scaleTimeTimeout => Sys2Proof.Machine.execScaleTimeTimeout s
  | .offerFlashDone ok => Sys2Proof.Machine.execOfferFlashDone ok s
  | .scaleLoadDone ok => Sys2Proof.Machine.execScaleLoadDone ok s
  | .scaleSramUncorr => Sys2Proof.Machine.execScaleSramUncorr s
  | .romStageDone h uds => Sys2Proof.Machine.execRomStageDone h uds s
  | .imageReadDone h a b => Sys2Proof.Machine.execImageReadDone h a b s
  | .verifyDone h rpmc => Sys2Proof.Machine.execVerifyDone h rpmc s
  | .memoryTimeout h => Sys2Proof.Machine.execMemoryTimeout h s
  | .configLoad env => Sys2Proof.Machine.execConfigLoad env s
  | .fwOfferVerifyDone written img => Sys2Proof.Machine.execFwOfferVerifyDone written img s
  | .attestReportReady host => Sys2Proof.Machine.execAttestReportReady host s
  | .lifeSnapshotTimer => Sys2Proof.Machine.execLifeSnapshotTimer s
  | .snapshotWriteDone ok => Sys2Proof.Machine.execSnapshotWriteDone ok s
  | .throttleStep => Sys2Proof.Machine.execThrottleStep s
  | .prochot low => Sys2Proof.Machine.execProchot low s
  | .avsAdjust east west => Sys2Proof.Machine.execAvsAdjust east west s
  | .deviceTimeUndisciplined => Sys2Proof.Machine.execDeviceTimeUndisciplined s

end Sys2Proof.Machine
end

