-- ==== Sys2Proof/Machine/Tick.lean ====
section
/-!
DEFINITION. One arithmetic cycle, 1 ns, in which no command waits (assumption log 7): what counts time, and what starts by itself
as soon as it may.
-/

namespace Sys2Proof.Machine

/-- Array-cycles spent BUSY (06_decode_arrays.md R324, DA_BUSY_CYCLES). -/
def State.busyTick (s : State) : State :=
  if s.arrs.isEmpty then s
  else s.wrap F.DA_BUSY_CYCLES_COUNT 0 ((List.range 256).filter fun a => s.astate a == arBUSY).length

/-- Array-cycles withheld at duty n/8: (8 − n)/8 of the 128 arrays of each half (19_package_electrical.md R873). -/
def State.throttleTick (s : State) : State :=
  let held := fun (h : Nat) => 16 * (8 - s.fld (if h = 0 then F.PKG_THROTTLE_STATUS_DUTY_E else F.PKG_THROTTLE_STATUS_DUTY_W))
  if held 0 + held 1 = 0 then s else s.wrap F.PKG_THROTTLE_CYCLES_COUNT 0 (held 0 + held 1)

/-- The age of the lease (15_continuity.md R732), which saturates. -/
def State.leaseTick (s : State) : State :=
  if s.holder.isNone then s else s.bump F.CNT_LEASE_STATUS_AGE_NS

/-- A second of device time: POWER_ON_S and AGE_S (18_boot_identity_life.md R847). -/
def State.secondTick (s : State) : State :=
  if s.time % 1000000000 ≠ 0 then s else ((s.lifeAdd 0x5000 1 1).syncLife).bump F.LIFE_STATUS_AGE_S

/-- Sequences that waited for a free channel are copied to the partner (R708). -/
def State.copyTick (s : State) : State := if s.cntState = csPAIRED then s.startMirrors else s

/-- The oldest write of an own engine to the control window reaches its register, as a write of management firmware (R878); a command of
the partner's (R740) is none of an own engine's (DESIGN CHOICE, assumption log 67: the write takes effect in the next idle cycle). -/
def State.ctlTick (s : State) : State :=
  match s.ctlWrites with
  | [] => s
  | (o, d) :: rest =>
    let s : State := { s with ctlWrites := rest }
    if 0xC0030 ≤ o && o < 0xC003C then s else s.bar0Store .fw o d.length (leNat d) true []

/-- One arithmetic cycle. In cold reset, and without the system reference, no clock runs (R45). -/
def State.tick (s : State) : State :=
  if s.coldHeld || s.sysrefLost then s
  else
    let s : State := { s with time := s.time + 1 }
    let s := ((s.beginPhases []).beginEmbeds []).each 64 State.stallTick
    let s := s.busyTick.throttleTick.leaseTick.secondTick.creditStall
    (s.copyTick.ctlTick.advanceShutdown.flushOwed).serveMailbox []

end Sys2Proof.Machine
end

