-- ==== Sys2Proof/Safety.lean ====
section
/-!
DEFINITION. What counts as a well-kept state of the block: memory and the register files in their one canonical form, and
the commands that wait well formed. The statements of the package are made in these terms.
-/

namespace Sys2Proof.Machine

/-- A strictly rising list of numbers. -/
def rising : List Nat → Bool
  | x :: y :: r => decide (x < y) && rising (y :: r)
  | _ => true

/-- Memory is in its canonical form: addresses strictly rising, no listed byte equal to what its address reads as unlisted,
and the poisoned and the rewritten lines strictly rising. -/
def Memory.wf (m : Memory) : Bool :=
  srising none m.cells && m.cells.all (fun e => decide (e.2 ≠ m.default e.1)) && rising m.poison && rising m.clean

/-- The state is in its canonical form: memory is, and no register is listed twice. -/
def State.canonical (s : State) : Bool := s.mem.wf && srising none s.regs && srising none s.staged

/-- Every command that waits names existing instances. -/
def State.queueWf (s : State) : Bool := s.pending.all Instr.wf

/-- A register of one instance of the spec's layout: its key belongs to no other register. -/
def instOk (k : Nat) : Bool := decide (k < 0x100000)

/-- Session slot k carries a message of a type whole: the datagram belongs to the session, opens under its keys, is the next in
sequence, and its message is complete and new; serving it answers with a type and a body (R774, R783). -/
def State.takesMessage (s w : State) (type : Nat) (d : Dgram) (env : Env) (k t : Nat) (a : List Byte) : Prop :=
  ∃ (x : Session) (b : List Byte) (v : State), s.rxFrame.mgmtServes = true ∧
    ((List.range 4).find? fun j => (s.rxFrame.session j).any fun y => y.id == d.session) = some k ∧
    s.rxFrame.session k = some x ∧ d.flags % 2 = 1 ∧ d.tagOk = true ∧ x.rx < d.seq ∧
    (s.rxFrame.setSession k (some { x with rx := d.seq })).silent d.toMac = false ∧
    (s.rxFrame.setSession k (some { x with rx := d.seq })).assemble k type d = (v, .message b) ∧
    (x.kept.find? fun r => r.1 == d.reqId) = none ∧ v.serve (some k) x.id x.role type d.reqId b env = (w, some (t, a))

/-- The effect of an access code on one field: `old` and `v` are the field before the write and in the value written. -/
def accessEffect (acc : Access) (w old v new : Nat) : Prop :=
  match acc with
  | .ro | .rws => new = old
  | .rw | .rol => new = v
  | .wo => new = 0
  | .w1c => ∀ k, new.testBit k = (decide (k < w) && old.testBit k && !v.testBit k)
  | .w1s => ∀ k, new.testBit k = (decide (k < w) && (old.testBit k || v.testBit k))

/-- What an ATOP leaves of an old value `o` of `w` bytes, with the operand bytes `d` (the table of R523). -/
def atomResult (atop o : Nat) (d : List Byte) : Nat :=
  let a := leAt d 0 8
  match atop with
  | 0 => (o + a) % 2 ^ 64
  | 1 => min o a
  | 2 => max o a
  | 3 => if (BitVec.ofNat 64 a).toInt < (BitVec.ofNat 64 o).toInt then a else o
  | 4 => if (BitVec.ofNat 64 o).toInt < (BitVec.ofNat 64 a).toInt then a else o
  | 5 => a
  | 6 => if o = a then leAt d 8 8 else o
  | 7 => if o = leAt d 0 16 then leAt d 16 16 else o
  | _ => (fAdd (BitVec.ofNat 32 o) (BitVec.ofNat 32 (leAt d 0 4))).toNat

end Sys2Proof.Machine
end

