-- ==== Sys2Proof/Certificates/Slice0/Obligations.lean ====
section
/-!
DEFINITION. The statements for the provers. The first part says of the whole machine, its registers, its memory and its rules what they
do; the second says of every command of the table where it completes and with which next state.
-/

open Sys2Proof Sys2Proof.Machine

/-! ## The queue and reset -/

/-- A step carries out the command at the front of the queue on the state with the queue's rest. -/
def Obligations.StepRunsTheFrontCommand : Prop :=
  ∀ (c : Instr) (rest : List Instr) (s : State), step { s with pending := c :: rest } = exec c { s with pending := rest }

/-- On an empty queue one cycle passes: without clocks nothing changes, else the step completes and the queue stays empty. The
model's choice (assumption log 7). -/
def Obligations.EmptyQueuePassesACycle : Prop :=
  ∀ s : State, s.pending = [] →
    (s.coldHeld = true ∨ s.sysrefLost = true → step s = .next s) ∧
    (s.coldHeld = false → s.sysrefLost = false → ∃ t, step s = .next t ∧ t.pending = [])

/-- Reset lists no memory, no register and no command, so the state is in its canonical form; every register reads the reset value
of the tables, staged and active alike. Memory that nothing has written reads 0 (the model's choice, assumption log 1). -/
def Obligations.ResetIsCanonical : Prop :=
  State.reset.canonical = true ∧ State.reset.queueWf = true ∧ State.reset.pending = [] ∧
  (∀ (r : Reg) (k : Nat), State.reset.rd r k = r.resetVal k ∧ State.reset.rdStaged r k = State.reset.rd r k) ∧
  (∀ a, State.reset.mem.byte a = 0) ∧
  State.reset.fld F.TIER_T0_STAGE_EAST_GIB = 16 ∧ State.reset.fld F.TIER_T0_STAGE_WEST_GIB = 16 ∧
  (∀ k, State.reset.fld F.HIF_SQ_TAIL_INDEX k = 0 ∧ State.reset.fld F.HIF_SQ_CTRL_LOG2_ENTRIES k = 6) ∧
  (∀ p, p < 128 → State.reset.fld F.PTN_ID_PARTITION p = p) ∧ State.reset.fld F.CNT_LEASE_STATUS_EPOCH = 0 ∧
  State.reset.fld F.PKG_THERM_CFG_TH_C = 100 ∧ State.reset.fld F.PKG_THROTTLE_STATUS_DUTY_E = 8 ∧
  State.reset.fld F.MGT_CFG_STATUS_A_STATE = 7 ∧ State.reset.fld F.PKG_NODE_ID_NODE = 0xFF

/-! ## All commands, every step -/

/-- A command stops only where its operands name an instance that the controller does not have; every well-formed command
of the table completes, in every state. That an ill-formed one faults is the model's choice (assumption log 8). -/
def Obligations.OnlyIllFormedCommandsStop : Prop :=
  ∀ (c : Instr) (s : State), (c.wf = true → ∃ t, exec c s = .next t) ∧ (c.wf = false → exec c s = .fault .illFormed)

/-- A queue of well-formed commands never stops: each step completes and takes exactly the front command off the queue. -/
def Obligations.EveryStepShortensTheQueue : Prop :=
  ∀ s : State, s.queueWf = true → ∃ t, step s = .next t ∧ t.pending = s.pending.tail ∧ t.queueWf = true

/-- Every step keeps memory and the register files in their canonical form. -/
def Obligations.EveryStepKeepsTheCanonicalForm : Prop :=
  ∀ s t : State, s.canonical = true → step s = .next t → t.canonical = true

/-! ## Registers (00_scope.md, 16_object_dictionary.md) -/

/-- A write of a register outside the commit groups gives every field the effect of its access code and changes no other
register (R7, R11). -/
def Obligations.WritesFollowTheAccessCodes : Prop :=
  ∀ (s : State) (r : Reg) (k : Nat) (v : Word), s.canonical = true → instOk k = true → r.group = none → r.loadOnly = false →
    ∃ rf, s.plainWrite r k v = { s with regs := rf } ∧
      (∀ f ∈ r.fields, let fl : Fld := ⟨r, f.lo, f.w⟩
        accessEffect f.acc f.w (s.fld fl k) (fl.get v) ((s.plainWrite r k v).fld fl k)) ∧
      (∀ r' k', instOk k' = true → (r', k') ≠ (r, k) → (s.plainWrite r k v).rd r' k' = s.rd r' k')

/-- A write to a member of a commit group changes its staged value only, in every field that is not read-only, and reads of the
member return it (R755). -/
def Obligations.MemberWritesAreStaged : Prop :=
  ∀ (s : State) (r : Reg) (g : Group) (k : Nat) (v : Word), s.canonical = true → instOk k = true → r.group = some g →
    ∃ sf, s.plainWrite r k v = { s with staged := sf } ∧
      (∀ f ∈ r.fields, let fl : Fld := ⟨r, f.lo, f.w⟩
        f.acc ≠ .ro → fl.get ((s.plainWrite r k v).readReg r k) = fl.get v ∧ (s.plainWrite r k v).fld fl k = s.fld fl k) ∧
      (∀ r' k', instOk k' = true → (r', k') ≠ (r, k) → (s.plainWrite r k v).rdStaged r' k' = s.rdStaged r' k')

/-- A write that reaches an ROL field after its lock changes neither its active nor its staged value, from whatever source; a source
that may write the register is refused, and the refusal is reported with its entry, its cause and its source (R10). -/
def Obligations.LockedFieldsKeepTheirValues : Prop :=
  ∀ (s : State) (src : Source) (r : Reg) (k : Nat) (f : State → State × Nat), s.canonical = true → k < r.count →
    s.locked r = true →
    let t := (s.admitted src r k f).1
    t.rd r k = s.rd r k ∧ t.rdStaged r k = s.rdStaged r k ∧
    ((∀ p, src ≠ .vf p) → s.ownerOk src r k = true →
      (s.admitted src r k f).2 = stLocked ∧
      t.fld F.MGT_REFUSE_CNT_COUNT = min (s.fld F.MGT_REFUSE_CNT_COUNT + 1) (2 ^ 32 - 1) ∧
      t.fld F.MGT_REFUSE_LAST_INDEX = (r.object k).1 % 2 ^ 16 ∧ t.fld F.MGT_REFUSE_LAST_SUBINDEX = (r.object k).2 % 2 ^ 8 ∧
      t.fld F.MGT_REFUSE_LAST_CAUSE = stLocked ∧ t.fld F.MGT_REFUSE_LAST_SOURCE = (srcCode src).1)

/-! ## Memory (01_architecture.md, 03_tiers_and_tiles.md) -/

/-- A write that covers no line of a half that is down, of failed memory or of the directory, and no poisoned line in part,
stores its bytes, and every other byte reads as before. -/
def Obligations.MemoryReadsWhatWasWritten : Prop :=
  ∀ (s : State) (a : Nat) (d : List Byte), s.canonical = true →
    (∀ l ∈ linesOf a d.length, s.halfDown (s.homeHalf (64 * l)) = false ∧ s.memFailed (64 * l) = false ∧
      s.mem.poisoned l = false) →
    (∀ e ∈ s.dir, e.line ∉ linesOf a d.length) →
    ∃ t, s.writeMem a d = (t, true) ∧ t.mem.bytes a d.length = d ∧
      ∀ b, b < a ∨ a + d.length ≤ b → t.mem.byte b = s.mem.byte b

/-- While a half is RESETTING or FAILED, a read homed in it completes with poison, and a write or an atomic homed in it completes
with an error status and leaves memory unchanged (R47, R48). A part write to a line that holds poison is refused too, and the line
stays as it is (R128). -/
def Obligations.RefusedWritesLeaveMemory : Prop :=
  (∀ (s : State) (o : Nat) (d : List Byte) (poison : List Nat) (l : Nat), l ∈ linesOf o d.length →
    s.half (s.homeHalf (64 * l)) = hsResetting ∨ s.half (s.homeHalf (64 * l)) = hsFailed →
    l - o / 64 ∈ (s.readMem o d.length).poison ∧ ∃ st, s.memWrite o d poison = (s, st) ∧ st ≠ psOK) ∧
  (∀ (s : State) (o atop : Nat) (d : List Byte) (allow : List Byte → List Byte → Option Bool),
    s.half (s.homeHalf o) = hsResetting ∨ s.half (s.homeHalf o) = hsFailed →
    ∃ r, s.memAtom o atop d allow = (s, r) ∧ r.status ≠ psOK) ∧
  (∀ (s : State) (a : Nat) (d : List Byte), d ≠ [] → a % 64 + d.length ≤ 64 → d.length < 64 →
    s.halfDown (s.homeHalf (64 * (a / 64))) = false → s.memFailed (64 * (a / 64)) = false → s.dir = [] →
    s.mem.poisoned (a / 64) = true → ∃ t, s.memWrite a d [] = (t, psMEM_ERROR) ∧ t.mem = s.mem)

/-! ## BAR2 and the queues (12_tile_streams_host.md) -/

/-- A BAR2 access that reaches a staging region, the translation reserve, the control window, or a reserved or unpopulated
offset is refused: a read returns all ones, a write or an atomic is discarded, and each counts in HIF_BAR2_REFUSED (R599). -/
def Obligations.Bar2AccessesAreRefused : Prop :=
  ∀ (s : State) (x : Nat), s.held = false → let o := s.fld F.HIF_BAR2_MAP_BASE * 2 ^ 36 + x
    s.region o = .staging ∨ s.region o = .reserve ∨ s.region o = .control ∨ s.region o = .none →
    (∀ n, 0 < n → n ≤ 4096 → x + n ≤ 2 ^ 36 → exec (.bar2Read x n) s = .next
      ((s.bump F.HIF_BAR2_REFUSED_COUNT).emit (.readValue (List.replicate n 0xFF#8) false))) ∧
    (∀ d p, 0 < d.length → d.length ≤ 512 → x + d.length ≤ 2 ^ 36 →
      exec (.bar2Write x d p) s = .next (s.bump F.HIF_BAR2_REFUSED_COUNT)) ∧
    (∀ atop d, atop = 0 ∨ atop = 5 ∨ atop = 6 ∨ atop = 7 → d.length = atomOperand atop → x % atomWidth atop = 0 → x + 4 ≤ 2 ^ 36 →
      exec (.bar2Atomic x atop d) s = .next (s.bump F.HIF_BAR2_REFUSED_COUNT))

/-- A doorbell write sets HIF_SQ_TAIL unless its slot is not in the ring, it moves the tail backward, or it moves it more than
the ring's size ahead of HIF_SQ_HEAD; then it is ignored and sets DB_ERR (R602). With DB_MEM it is ignored (R603). -/
def Obligations.DoorbellMovesTheTail : Prop :=
  ∀ (s : State) (src : Source) (p q v : Nat), s.held = false → src.wf = true → p < 128 → q < 16 →
    s.admission src .HIF_SQ_TAIL (qInst p q) = .accept →
    let k := qInst p q
    let n := 2 ^ s.fld F.HIF_SQ_CTRL_LOG2_ENTRIES k
    let head := s.fld F.HIF_SQ_HEAD_INDEX k
    let tail := s.fld F.HIF_SQ_TAIL_INDEX k
    let bad := n ≤ v % 65536 ∨ ringDist n head (v % 2 ^ 17) < ringDist n head tail ∨ n < ringDist n head (v % 2 ^ 17)
    (s.flag F.HIF_SQ_CTRL_DB_MEM k = true → exec (.sqDoorbell src p q v) s = .next s) ∧
    (s.flag F.HIF_SQ_CTRL_DB_MEM k = false → ¬ bad →
      exec (.sqDoorbell src p q v) s = .next (s.setFld F.HIF_SQ_TAIL_INDEX (v % 2 ^ 17) k)) ∧
    (s.flag F.HIF_SQ_CTRL_DB_MEM k = false → bad →
      exec (.sqDoorbell src p q v) s = .next (s.setFlag F.HIF_SQ_STATUS_DB_ERR true k))

/-! ## Arithmetic, atomics and handoff records -/

/-- FP32 addition and multiplication take a subnormal input as a zero of the same sign and never give a subnormal result; a NaN
gives the canonical NaN (R271, R523). -/
def Obligations.SubnormalsAreFlushed : Prop :=
  ∀ a b : F32, let sub : F32 → Bool := fun x => x.toNat / 2 ^ 23 % 256 == 0 && x.toNat % 2 ^ 23 != 0
    let flush : F32 → F32 := fun x => if sub x then x &&& 0x80000000 else x
    let nan : F32 → Bool := fun x => x.toNat / 2 ^ 23 % 256 == 255 && x.toNat % 2 ^ 23 != 0
    fAdd a b = fAdd (flush a) (flush b) ∧ fMul a b = fMul (flush a) (flush b) ∧
    sub (fAdd a b) = false ∧ sub (fMul a b) = false ∧
    (nan a = true ∨ nan b = true → fAdd a b = 0x7FC00000 ∧ fMul a b = 0x7FC00000)

/-- An aligned atomic at the home answers the old bytes and leaves the result of its ATOP there and nothing else changed; a failed
comparison leaves memory as it was (R523). -/
def Obligations.AtomicsChangeTheirOperand : Prop :=
  ∀ (s : State) (o atop : Nat) (d : List Byte), atop ≤ 8 → s.canonical = true → s.dir = [] → o % atomWidth atop = 0 →
    s.halfDown (s.homeHalf o) = false → s.halfDown (s.homeHalf (64 * (o / 64))) = false →
    s.memFailed o = false → s.memFailed (64 * (o / 64)) = false → s.mem.poisoned (o / 64) = false →
    s.inHandoff o (atomWidth atop) = false → s.inMirror o (atomWidth atop) = false →
    let r := s.homeAtom o atop d
    let old := s.mem.bytes o (atomWidth atop)
    r.2.status = psOK ∧ r.2.poison = false ∧ r.2.old = old ∧
    leNat (r.1.mem.bytes o (atomWidth atop)) = atomResult atop (leNat old) d ∧
    ∀ b, b < o ∨ o + atomWidth atop ≤ b → r.1.mem.byte b = s.mem.byte b

/-- The home changes a handoff record only by R727: MAGIC stays, no reserved encoding, and OWNER and EPOCH stay with PHASE not
lowered, or OWNER changes and EPOCH rises by exactly 1; any other CAS128 answers ADDR and leaves the record. -/
def Obligations.HandoffRecordsChangeByRule : Prop :=
  ∀ (s : State) (o : Nat) (d : List Byte), s.canonical = true → o % 16 = 0 → s.inHandoff o 16 = true → s.dir = [] →
    s.halfDown (s.homeHalf o) = false → s.halfDown (s.homeHalf (64 * (o / 64))) = false →
    s.memFailed o = false → s.memFailed (64 * (o / 64)) = false → s.mem.poisoned (o / 64) = false →
    let r := s.homeAtom o 7 d
    let old := s.mem.bytes o 16
    let new := slice d 16 16
    let keeps := recField new 0 8 = recField old 0 8 ∧ recField new 12 4 = 0 ∧ recField new 24 8 = 0 ∧ recField new 8 4 ≤ 4
    let same := recField new 16 8 = recField old 16 8 ∧ recField new 32 32 = recField old 32 32 ∧ recField old 8 4 ≤ recField new 8 4
    let moved := recField new 16 8 ≠ recField old 16 8 ∧ recField new 32 32 = recField old 32 32 + 1
    (¬ (keeps ∧ (same ∨ moved)) → r.2.status = psADDR ∧ (∀ b, r.1.mem.byte b = s.mem.byte b) ∧ r.1.mem.poison = s.mem.poison) ∧
    (keeps → same ∨ moved → r.2.status = psOK ∧ r.2.old = old ∧
      r.1.mem.bytes o 16 = if leNat old = leAt d 0 16 then new else old)

/-! ## The lease and the throttle -/

/-- A renewal by a half that does not hold the lease, or with another EPOCH, is refused: it is counted, and the half, if UP, enters
MGMT_FENCED with a LEASE_FENCE record (R734 to R736). -/
def Obligations.RefusedRenewalFencesTheHalf : Prop :=
  ∀ (s : State) (h : Half) (e : Nat), s.held = false → e < 2 ^ 32 → s.holder ≠ some h ∨ s.fld F.CNT_LEASE_STATUS_EPOCH ≠ e →
    let u := s.bump F.CNT_LEASE_REFUSED_COUNT
    exec (.leaseRenew h e) s = .next
      (if u.half h = hsUp then (u.setHalf h hsFenced).record { cls := ecCNT, event := 3, inst := halfNum h, half := some h } else u)

/-- Any sensor at or above 110 °C drives thermtrip_n low and takes both halves to TRIPPED (R874). -/
def Obligations.HotSensorTrips : Prop :=
  ∀ (s : State) (dies : List Int), s.held = false → dies.length = 6 → s.thermtrip = false → (∃ d ∈ dies, 1760 ≤ d) → s.canonical = true →
    ∃ t, exec (.sensorRead dies) s = .next t ∧ t.thermtrip = true ∧ t.fld (thState 0) = thTRIPPED ∧ t.fld (thState 1) = thTRIPPED ∧
      t.out.head? = some (.pin "thermtrip_n" false)

/-! # Where every command completes -/

/-! ## Package resets, the bridge and memory training (01_architecture.md; 13_partitions.md R639; 18_boot_identity_life.md) -/

/-- cold_rst_n, the system reference and RST_CTRL (coldResetRelease, coldResetAssert, sysrefLoss, sysrefReturn, chipWarmReset, halfReset,
halfResetTimeout): each command has its effect in the states that have it, and while the package is held in cold reset every command but
those of cold_rst_n, the reference and perst_n leaves the state as it is (R45, R46, R639). -/
def Obligations.ResetCommandsComplete : Prop :=
  (∀ (s : State) (straps : Nat), straps < 256 → s.coldHeld = true →
    let u := (({ s with coldHeld := false } : State).emit (.pin "SPI outputs" true)).setFld F.PKG_STRAPS_STRAP straps
    (s.sysrefLost = false → exec (.coldResetRelease straps) s = .next u.coldStart) ∧
    (s.sysrefLost = true → exec (.coldResetRelease straps) s = .next u)) ∧
  (∀ s : State, s.coldHeld = false →
    exec .coldResetAssert s = .next { (s.coldReset rcCOLD).emit (.pin "SPI outputs" false) with coldHeld := true }) ∧
  (∀ s : State, s.held = false → exec .sysrefLoss s = .next { s.coldReset rcREF with sysrefLost := true }) ∧
  (∀ s : State, s.coldHeld = false → s.sysrefLost = true →
    exec .sysrefReturn s = .next ({ s with sysrefLost := false } : State).coldStart) ∧
  (∀ (s : State) (c : Instr), s.held = true → c.wf = true → (∀ x, c ≠ .coldResetRelease x) → c ≠ .coldResetAssert → c ≠ .sysrefLoss →
    c ≠ .sysrefReturn → (∀ e, c ≠ .perstAssert e) → (∀ g w, c ≠ .perstRelease g w) → exec c s = .next s) ∧
  (∀ (s : State) (src : Source), s.held = false → src.wf = true → s.admission src .RST_CTRL 0 = .accept →
    exec (.chipWarmReset src 0xA5) s = .next (s.warmReset (match src with
      | .net _ | .mbx => rcJXVM
      | _ => rcRST_CTRL))) ∧
  (∀ (s : State) (src : Source) (h : Half) (env : Env), s.held = false → src.wf = true → s.admission src .RST_CTRL 0 = .accept →
    exec (.halfReset src h 0xA5 env) s = .next (s.halfReset h true env)) ∧
  (∀ (s : State) (h : Half), s.held = false → s.half h = hsResetting → exec (.halfResetTimeout h) s = .next (s.halfFail h))

/-- The bridge and the end of memory training (bridgeLaneFail, bridgeSecondLaneFail, bridgeEndpointLost, memoryTrained, memoryTimeout;
R31 to R34, R824, R830): a first lane failure of a group takes its spare, a second takes the group out of service and resets the chip
below eight groups, a lost endpoint resets its half, and both reset the chip. -/
def Obligations.BridgeAndMemoryCommandsComplete : Prop :=
  (∀ (s : State) (dir g : Nat), s.held = false → dir < 2 → g < 16 → s.spares.contains (16 * dir + g) = false →
    (s.fld (groupsFld dir)).testBit g = true →
    exec (.bridgeLaneFail dir g) s = .next ((({ s with spares := ninsert (16 * dir + g) s.spares } : State).wrap
      F.PKG_BRIDGE_REPAIR_CNT_SPARES_USED).record { cls := ecPKG, event := 1, inst := g, aux := dir })) ∧
  (∀ (s : State) (dir g : Nat), s.held = false → dir < 2 → g < 16 → s.spares.contains (16 * dir + g) = true →
    (s.fld (groupsFld dir)).testBit g = true →
    exec (.bridgeSecondLaneFail dir g) s = .next
      (let u := ((s.setFld ⟨(groupsFld dir).reg, (groupsFld dir).lo + g, 1⟩ 0).wrap F.PKG_BRIDGE_REPAIR_CNT_GROUPS_LOST).record
                { cls := ecPKG, event := 2, inst := g, aux := dir }
           if u.groupsUp dir < 8 then u.bridgeReset else u)) ∧
  (∀ (s : State) (env : Env), s.held = false → exec (.bridgeEndpointLost true true env) s = .next s.bridgeReset) ∧
  (∀ (s : State) (env : Env), s.held = false → s.halfUp .east = true →
    exec (.bridgeEndpointLost true false env) s = .next (((s.halfReset .east false env).wr .PKG_BRIDGE_STATUS 0 0).record
      { cls := ecPKG, event := 3, inst := 0, half := some .west })) ∧
  (∀ (s : State) (env : Env), s.held = false → s.halfUp .west = true →
    exec (.bridgeEndpointLost false true env) s = .next (((s.halfReset .west false env).wr .PKG_BRIDGE_STATUS 0 0).record
      { cls := ecPKG, event := 3, inst := 1, half := some .east })) ∧
  (∀ (s : State) (h : Half) (badCh badSt rate dimm : Nat) (same : Bool) (ew we : Nat), s.held = false →
    badCh < 256 → badSt < 16 → 1 ≤ rate → rate ≤ 3 → [64, 128, 256, 512].contains dimm = true → ew < 65536 → we < 65536 →
    s.bootStage h = sgMEMORY → s.half h ≠ hsResetting →
    let u := ((((s.trainT1 h badCh rate dimm same).trainT0 h badSt).setHalf h hsUp).setStage h sgSERDES).poolArrays h
    (u.halfUp (otherHalf h) = false → exec (.memoryTrained h badCh badSt rate dimm same ew we) s = .next u) ∧
    (let v := (u.setFld F.PKG_BRIDGE_STATUS_EW_GROUPS ew).setFld F.PKG_BRIDGE_STATUS_WE_GROUPS we
     u.halfUp (otherHalf h) = true → 8 ≤ v.groupsUp 0 → 8 ≤ v.groupsUp 1 →
     exec (.memoryTrained h badCh badSt rate dimm same ew we) s = .next v)) ∧
  (∀ (s : State) (h : Half), s.held = false → s.bootStage h = sgMEMORY →
    exec (.memoryTimeout h) s = .next ((s.record { cls := ecBOOT, event := 3, inst := halfNum h, half := some h }).halfFail h))

/-! ## Translation: tables, faults, migration (02_address_translation.md) -/

/-- Range tables (tblCommit, tblActivate, oldEpochDrained; R75 to R81) and fault queues (faultRecordVisible, faultRecordWriteFail,
deferredFaultRecord, fltqHeadWrite, fltqResumeReplay, fltqResumeAbort, mgmtFaultService; R100 to R111, R882): each command's effect in
the states that have it. -/
def Obligations.TableAndFaultCommandsComplete : Prop :=
  (∀ (s : State) (src : Source) (c : Nat) (env : Env) (es : List (BitVec 256)) (k : Nat), s.held = false → src.wf = true → c < 129 →
    s.admission src .XLT_TBL_COMMIT c = .accept → (s.beginCommit .xlt c).checkTable c env = (0, k, es) →
    exec (.tblCommit src c env) s = .next ((s.beginCommit .xlt c).setCtx c { (s.beginCommit .xlt c).ctx c with next := some es })) ∧
  (∀ (s : State) (c : Nat) (t : List (BitVec 256)), s.held = false → c < 129 → (s.ctx c).next = some t →
    (∀ m ∈ (s.ctx c).migs.head?, m.started = false) →
    let moved := s.snapOf .xlt c .XLT_POOL_BASE c ≠ s.rd .XLT_POOL_BASE c ||
      s.snapOf .xlt c .XLT_POOL_PAGES c ≠ s.rd .XLT_POOL_PAGES c
    let keep := fun pp => !moved && (poolMap t pp).isSome && poolMap t pp == poolMap (s.ctx c).table pp
    exec (.tblActivate c) s = .next
      ((((((s.retireEpoch c).dropLook c).finishCommit .xlt c).wrap F.XLT_TBL_STATUS_EPOCH c).setFlag F.XLT_TBL_STATUS_OLD_DRAINED
        false c).setCtx c { s.ctx c with table := t, next := none, lost := false, resident := (s.ctx c).resident.filter keep })) ∧
  (∀ (s : State) (c : Nat), s.held = false → c < 129 →
    (∀ e ∈ s.oldEpochs, e.ctx = c → ∀ k ∈ e.slots, (s.inAccess c).contains k = false) →
    exec (.oldEpochDrained c) s = .next
      ({ s with oldEpochs := s.oldEpochs.filter fun e => e.ctx ≠ c }.setFlag F.XLT_TBL_STATUS_OLD_DRAINED true c)) ∧
  (∀ (s : State) (c : Nat) (k : Nat × Nat) (rest : List (Nat × Nat)), s.held = false → c < 128 → (s.fltq c).writes = k :: rest → (s.fltq c).raised = false →
    exec (.faultRecordVisible c) s = .next ((s.setFltq c { writes := rest, raised := true }).raiseVec c
      ((s.setFltq c { writes := rest, raised := true }).fld F.FLTQ_CTRL_VEC_FAULT c))) ∧
  (∀ (s : State) (c slot back : Nat) (rest : List (Nat × Nat)), s.held = false → c < 128 →
    (s.fltq c).writes = (slot, back) :: rest →
    let u := (((s.setFlag F.FLTQ_STATUS_WR_ERR true c).setFlag F.FLTQ_CTRL_EN false c).setFltTail c back).setFltq c
      { s.fltq c with writes := [] }
    exec (.faultRecordWriteFail c) s = .next ((((slot, back) :: rest).foldl (fun u k =>
        if (u.eng k.1).st = .queued ∧ (u.eng k.1).flt.ctx = c ∧ (u.eng k.1).index = k.2 then
          (u.setEng k.1 { u.eng k.1 with st := .unqueued }).countUnqueued c else u) u).record
      { cls := ecXLT, event := 2, inst := c, part := ctxPart c, op := 2 })) ∧
  (∀ (s : State) (c k : Nat), s.held = false → c < 129 → s.fltEn c = true → s.fltFull c = false → s.oldestUnqueued c = some k →
    exec (.deferredFaultRecord c) s = .next ((s.uncountUnqueued c).queueFault k)) ∧
  (∀ (s : State) (src : Source) (p v : Nat), s.held = false → src.wf = true → p < 128 → s.admission src .FLTQ_HEAD p = .accept →
    (v % 2048 + 2048 - s.fltHead p) % 2048 ≤ (s.fltTail p + 2048 - s.fltHead p) % 2048 →
    exec (.fltqHeadWrite src p v) s = .next ((s.setFld F.FLTQ_HEAD_INDEX (v % 2048) p).setFltq p { s.fltq p with raised := false })) ∧
  (∀ (s : State) (src : Source) (p tag k : Nat) (env : Env), s.held = false → src.wf = true → p < 128 → tag < 4294967296 →
    s.admission src .FLTQ_RESUME p = .accept → s.taggedSlot p tag = some k →
    exec (.fltqResumeReplay src p tag env) s = .next (s.replay k env) ∧
    exec (.fltqResumeAbort src p tag env) s = .next (s.abort k env)) ∧
  (∀ (s : State) (k : Nat) (env : Env), s.held = false → s.mgmtHead ≠ s.mgmtTail →
    let b := sget [] s.mgmtRecs (s.mgmtHead % 1024)
    let u := ({ s with mgmtHead := (s.mgmtHead + 1) % 2048 } : State).record
      { cls := ecXLT, event := 4, inst := leAt b 8 2 % 512, part := 0xFF, op := 1, cursor := BitVec.ofNat 64 (leAt b 16 8),
        address := BitVec.ofNat 64 (leAt b 0 7), aux := bits (leAt b 7 1) 4 3 }
    u.taggedSlot 128 (leAt b 8 2) = some k → exec (.mgmtFaultService env) s = .next (u.abort k env))

/-- Migration commands (migGo, migToDevice, migToHost, migDrainDone, migTransferFail, migCommandDone; R86 to R91): each moves the command
at the head of the context's queue on. -/
def Obligations.MigrationCommandsComplete : Prop :=
  (∀ (s : State) (src : Source) (p : Nat) (v : Word), s.held = false → src.wf = true → p < 128 → s.admission src .XLT_MIG_GO p = .accept →
    (s.ctx p).migs.length < 16 →
    exec (.migGo src p v) s = .next ((s.setCtx p { s.ctx p with migs := (s.ctx p).migs ++
      [{ toHost := F.XLT_MIG_GO_DIR.get v != 0, vaPage := s.fld F.XLT_MIG_VA_VA_PAGE p,
         count := F.XLT_MIG_GO_COUNT_M1.get v + 1, inv := F.XLT_MIG_GO_INV.get v != 0,
         resume := F.XLT_MIG_GO_RESUME_EN.get v != 0, tag := F.XLT_MIG_GO_TAG.get v }] }).syncMigs p)) ∧
  (∀ (s : State) (c : Nat) (env : Env) (m : MigCmd) (r : List MigCmd) (l : List (Nat × Nat)), s.held = false → c < 128 →
    (s.ctx c).migs = m :: r → m.toHost = false → m.started = false → (s.ctx c).next = none → s.migPages c m = some l →
    let todo := l.filter fun p => !(s.ctx c).resident.contains p.1
    exec (.migToDevice c env) s = .next
      (((s.setHeadMig c { m with started := true, busy := todo.map (·.1) }).migRead c env todo).releaseWaiting c env)) ∧
  (∀ (s : State) (c : Nat) (m : MigCmd) (r : List MigCmd) (l : List (Nat × Nat)), s.held = false → c < 128 →
    (s.ctx c).migs = m :: r → m.toHost = true → m.started = false → (s.ctx c).next = none → s.migPages c m = some l →
    let busy := (l.map (·.1)).filter fun p => (s.ctx c).resident.contains p
    let u := s.setHeadMig c { m with started := true, busy := busy }
    exec (.migToHost c) s = .next (u.setCtx c { u.ctx c with resident := (u.ctx c).resident.filter fun p => !busy.contains p })) ∧
  (∀ (s : State) (c : Nat) (m : MigCmd) (r : List MigCmd) (l : List (Nat × Nat)), s.held = false → c < 128 →
    (s.ctx c).migs = m :: r → m.toHost = true → m.started = true → m.moved = [] → s.poolInUse c m.busy = false →
    s.migPages c m = some l →
    exec (.migDrainDone c) s = .next (((l.filter fun p => m.busy.contains p.1).foldl (fun u p =>
      let r := u.readMem (u.poolOffset c p.1) pageBytes
      ((u.noteRead (u.poolOffset c p.1) pageBytes).crossIn .east (u.poolOffset c p.1) pageBytes).hostData c p.2
        (withImage (u.poolOffset c p.1) r.data r.poison) r.bad) s).setHeadMig c { m with moved := m.busy })) ∧
  (∀ (s : State) (c k : Nat) (env : Env) (m : MigCmd) (r : List MigCmd), s.held = false → c < 128 → (s.ctx c).migs = m :: r → m.started = true →
    m.toHost = false → k < m.busy.length → k < 65536 →
    exec (.migTransferFail c mgHOST_READ k env) s = .next
      (((s.setHeadMig c { m with moved := m.busy.take k, busy := m.busy }).migFail c mgHOST_READ (m.busy.getD k 0)).releaseWaiting c env)) ∧
  (∀ (s : State) (c k : Nat) (env : Env) (m : MigCmd) (r : List MigCmd), s.held = false → c < 128 → (s.ctx c).migs = m :: r →
    m.started = true → m.toHost = true → k < m.busy.length →
    exec (.migTransferFail c mgHOST_WRITE k env) s = .next
      (((s.setHeadMig c { m with moved := m.busy.take k, busy := m.busy.drop k }).migFail c mgHOST_WRITE
        (m.busy.getD k 0)).releaseWaiting c env)) ∧
  (∀ (s : State) (c : Nat) (env : Env) (m : MigCmd) (r : List MigCmd), s.held = false → c < 128 → (s.ctx c).migs = m :: r → m.started = true →
    m.moved = m.busy → m.resume = false →
    (m.toHost = true → exec (.migCommandDone c env) s = .next ((s.migEnd c 0).releaseWaiting c env)) ∧
    (m.toHost = false →
      let u := if m.inv then s.invalidatePages c m.busy else s
      exec (.migCommandDone c env) s = .next (((u.setCtx c { u.ctx c with
        resident := m.busy.foldl (fun l p => ninsert p l) (u.ctx c).resident }).migEnd c 0).releaseWaiting c env)))

/-! ## Tiers, drives and tile moves (03_tiers_and_tiles.md) -/

/-- The drives of tier 2 (driveLinkUp, driveInitDone, driveInitTimeout, nvmeCommandTimeout, driveRecoverDone, driveOffline, driveOnline,
driveReset, driveSurpriseDown, smartPoll; R134 to R142): each event in the drive state that has it. -/
def Obligations.DriveCommandsComplete : Prop :=
  (∀ (s : State) (d width gen : Nat), s.held = false → d < 8 → s.drive d = dvABSENT →
    exec (.driveLinkUp d width gen) s = .next ((((s.setDrive d dvINIT).setFld F.TIER_N_STATE_LINK_WIDTH width d).setFld
      F.TIER_N_STATE_LINK_GEN gen d).initDrive d)) ∧
  (∀ (s : State) (d n : Nat) (i : DriveId), s.held = false → d < 8 → s.drive d = dvINIT →
    (0x20000 ≤ i.version ∧ i.nvm = true ∧ i.lbaBytes = 4096 ∧ i.metadata = 0 ∧ 16 ≤ n ∧ 256 ≤ i.depth ∧
      (s.fld F.TIER_N_STATE_LINK_WIDTH d = 4 ∨ s.fld F.TIER_N_STATE_LINK_WIDTH d = 8) ∧ 4 ≤ s.fld F.TIER_N_STATE_LINK_GEN d ∧
      s.fld F.TIER_N_STATE_LINK_GEN d ≤ 6 →
      exec (.driveInitDone d n (some i)) s = .next (((s.createQueues d).setDrive d dvREADY).setFld F.TIER_N_CAPACITY_LBAS i.lbas d)) ∧
    (s.driveOk d n i = false → exec (.driveInitDone d n (some i)) s = .next (s.failDrive d)) ∧
    exec (.driveInitDone d n none) s = .next (s.failDrive d) ∧
    exec (.driveInitTimeout d) s = .next (s.failDrive d)) ∧
  (∀ (s : State) (d : Nat), s.held = false → d < 8 → s.drive d = dvREADY →
    exec (.nvmeCommandTimeout d) s = .next (((((s.bump F.TIER_T2_TIMEOUT_CNT_COUNT).emit
      (.driveCmd d "clear CC.EN" [])).setDrive d dvRECOVER).failOutstanding d).initDrive d)) ∧
  (∀ (s : State) (d n : Nat) (i : DriveId), s.held = false → d < 8 → s.drive d = dvRECOVER →
    let recent := (s.drv d).recoveries.filter fun t => decide (s.time < t + hourNs)
    let u : State := { s with drvs := sput {} d { s.drv d with recoveries := recent ++ [s.time] } s.drvs }
    exec (.driveRecoverDone d (some (n, i))) s = .next (if u.driveOk d n i = true ∧ recent.length < 2 then u.driveReady d i else u.failDrive d) ∧
    exec (.driveRecoverDone d none) s = .next (u.failDrive d)) ∧
  (∀ (s : State) (src : Source) (d : Nat), s.held = false → src.wf = true → d < 8 → s.admission src .TIER_N_CTRL d = .accept →
    (s.drive d = dvREADY → exec (.driveOffline src d) s = .next
      (let u := (s.setFlag F.TIER_N_CTRL_OFFLINE true d).setDrive d dvOFFLINE
       ({ u with drvs := sput {} d { u.drv d with closing := true } u.drvs } : State).closeDrive d)) ∧
    (s.drive d = dvOFFLINE → exec (.driveOnline src d) s = .next
      (let u := s.setFlag F.TIER_N_CTRL_OFFLINE false d
       (({ u with drvs := sput {} d { u.drv d with closing := false } u.drvs } : State).setDrive d dvINIT).initDrive d)) ∧
    (s.drive d = dvFAILED → exec (.driveReset src d) s = .next
      (((s.setDrive d dvINIT).emit (.driveCmd d "controller reset" [])).initDrive d))) ∧
  (∀ (s : State) (d : Nat), s.held = false → d < 8 → exec (.driveSurpriseDown d) s = .next
    (let u := (s.failOutstanding d).setDrive d dvABSENT
     ((({ u with drvs := sput {} d { u.drv d with closing := false } u.drvs } : State).setFld F.TIER_N_STATE_LINK_WIDTH 0 d).setFld
       F.TIER_N_STATE_LINK_GEN 0 d).record { cls := ecTIER, event := 5, inst := d, half := some (driveHalf d) })) ∧
  (∀ (s : State) (d warn used temp : Nat), s.held = false → d < 8 → s.drive d = dvREADY →
    exec (.smartPoll d warn used temp) s = .next
      (((((s.emit (.driveCmd d "Get Log Page: SMART / Health Information" [2])).setFld
        F.TIER_N_HEALTH_CRIT_WARN warn d).setFld F.TIER_N_HEALTH_PCT_USED (min used 255) d).setFld
        F.TIER_N_HEALTH_TEMP_K temp d).lifeSet 0x5062 (d + 1)
        (min used 255 * 2 ^ 56 + warn % 256 * 2 ^ 48 + s.time / 1000000000 % 2 ^ 48)))

/-- Staging layout, memory failures and the scrubber (stageCommit, memRuntimeFail, scrubRead, corrHourRollover; R121, R122, R129 to R133,
R657 to R660). The scrubber moves its pointer past the line; a codeword with up to the code's limit of wrong symbols is corrected and
counted, one beyond it is rewritten as the poison word with a record, and what lies beyond the limit is free (assumption log 69). -/
def Obligations.MemoryUpkeepCommandsComplete : Prop :=
  (∀ (s : State) (src : Source), s.held = false → src.wf = true → s.admission src .TIER_T0_COMMIT 0 = .accept →
    ((s.beginCommit .stage 0).stageCheck = 0 → exec (.stageCommit src) s = .next (s.beginCommit .stage 0)) ∧
    ((s.beginCommit .stage 0).stageCheck ≠ 0 → exec (.stageCommit src) s = .next
      ((s.beginCommit .stage 0).rejectCommit .stage 0 (s.beginCommit .stage 0).stageCheck))) ∧
  (∀ (s : State) (k : Nat), s.held = false → 16 ≤ k → k < 32 → s.fld ⟨.TIER_T1_STATUS, 2 * (k - 16), 2⟩ ≠ 2 →
    exec (.memRuntimeFail k) s = .next ((s.setFld ⟨.TIER_T1_STATUS, 2 * (k - 16), 2⟩ 2).record
      { cls := ecTIER, event := 3, inst := k, op := 0, half := some (ofHalfNum ((k - 16) / 8)) })) ∧
  (∀ (s : State) (k : Nat), s.held = false → k < 8 → s.fld ⟨.TIER_T0_STATUS, 2 * k, 2⟩ ≠ 2 →
    let u := (s.setFld ⟨.TIER_T0_STATUS, 2 * k, 2⟩ 2).record
      { cls := ecTIER, event := 3, inst := k, op := 0, half := some (ofHalfNum (k / 4)) }
    exec (.memRuntimeFail k) s = .next (if u.stageGone (ofHalfNum (k / 4)) then u else u.withdrawStage (ofHalfNum (k / 4)))) ∧
  (∀ (s : State) (off : Nat), s.held = false → off < t0Size →
    exec (.scrubRead off []) s = .next { s with scrub0 := (64 * (off / 64) + 64) % t0Size }) ∧
  (∀ (s : State) (off : Nat) (err : List Byte), s.held = false → off < t0Size → s.halfDown (s.homeHalf (64 * (off / 64))) = false →
    s.memFailed (64 * (off / 64)) = false → s.mem.poisoned (off / 64) = false → codeT0.wrong err ≠ [] → (codeT0.wrong err).length ≤ 4 →
    exec (.scrubRead off err) s = .next
      ({ s with scrub0 := (64 * (off / 64) + 64) % t0Size }.corrected (64 * (off / 64)) (codeT0.wrong err))) ∧
  (∀ (s : State) (off : Nat) (err : List Byte), s.held = false → within (64 * (off / 64)) 64 t1Base s.t1Size = true →
    s.halfDown (s.homeHalf (64 * (off / 64))) = false → s.memFailed (64 * (off / 64)) = false → codeT1.wrong err ≠ [] →
    (s.mem.poisoned (off / 64) = true ∨ 8 < (codeT1.wrong err).length) →
    let v : State := { s with scrub1 := 64 * (off / 64) + 64 }
    let u := ((v.poisonLine (off / 64)).bump F.TIER_UNCORR_COUNT).lifeAdd 0x5001 6 1
    exec (.scrubRead off err) s = .next
      (match Config.beyondLimit 80 (s.mem.bytes (64 * (off / 64)) 64) (s.mem.poisoned (off / 64)) err with
       | some (x, at_) => (v.storeLine (off / 64) (slice x 0 64)).corrected (64 * (off / 64)) (at_.filter (· < 80))
       | none => u.record
          { cls := ecTIER, event := 2, op := 7, half := some (u.homeHalf (64 * (off / 64))),
            inst := 0x10 + (u.t1Place (64 * (off / 64))).1,
            address := BitVec.ofNat 64 (u.node * 2 ^ 48 + 64 * (off / 64)), syndrome := Config.syndrome 80 err })) ∧
  (∀ s : State, s.held = false → exec .corrHourRollover s = .next { s with corrHour := [] })

/-- Tile moves (copyTile, copyRaw, nvmeCompletion, tileSourceReadDone, tileWritesAcked, t2BodyWriteDone, tileHeaderWritten,
tspInboundTileTaken, completionRecordPerformed; R150 to R166): a waiting descriptor starts, and each event moves its channel on. -/
def Obligations.TileMoveCommandsComplete : Prop :=
  (∀ (s : State) (k ch c : Nat) (w : WorkSrc) (d : Desc) (env : Env), s.held = false → s.waitingMoves[k]? = some (c, w, d) →
    (s.pickMove opCopyTile = some (k, ch) → exec (.copyTile [] env) s = .next
      ((({ s with waitingMoves := s.waitingMoves.eraseIdx k } : State).setChan ch
        { phase := .reading, desc := d, ctx := c, src := w }).presentMove ch env)) ∧
    (s.pickMove opCopyRaw = some (k, ch) → exec (.copyRaw [] env) s = .next
      ((({ s with waitingMoves := s.waitingMoves.eraseIdx k } : State).setChan ch
        { phase := .reading, desc := d, ctx := c, src := w }).presentMove ch env))) ∧
  (∀ (s : State) (ch : Nat) (env : Env), s.held = false → ch < 64 → (s.chan ch).phase = .t2Read → (s.chan ch).desc.op = opCopyRaw →
    let d := (s.chan ch).desc
    let n := lbasOf d.extent * 4096
    let r := envRead env (.drive (t2Of d.src).1) ((t2Of d.src).2 * 4096) n
    r.err = false → exec (.nvmeCompletion ch true env) s = .next
      (((s.wrap F.TIER_T2_BYTES_RD_COUNT 0 n).cross (driveHalf (t2Of d.src).1) (chanHalf ch) n).setChan ch
        { s.chan ch with phase := .reading, buf := r.data.take d.extent })) ∧
  (∀ (s : State) (ch : Nat) (env : Env), s.held = false → ch < 64 →
    let u := s.codewords 4 env
    let x := u.chan ch
    x.phase = .reading → x.poison = [] → (x.desc.srcKind = ekT2 ∨ x.desc.srcKind = ekTSP) →
    let whole := if x.desc.op = opCopyRaw then x.desc.extent else (hdrOf x.buf).extent
    let b := slice x.buf x.desc.bodyFrom (whole - x.desc.bodyFrom)
    (x.desc.op = opCopyTile → crc32c b = (hdrOf x.buf).crc) →
    exec (.tileSourceReadDone ch env) s = .next
      ((u.setChan ch { x with buf := slice x.buf 0 x.desc.bodyFrom ++ b, poison := [],
                              flag := x.desc.op = opCopyTile && (hdrOf x.buf).flag 0 }).writeDest ch)) ∧
  (∀ (s : State) (ch : Nat) (env : Env), s.held = false → ch < 64 →
    let u := s.codewords 4 env
    let x := u.chan ch
    let r := u.readEnd x.ctx x.desc.srcKind (x.desc.src + x.desc.bodyFrom) (x.desc.extent - x.desc.bodyFrom) env (u.moveView ch)
    x.phase = .reading → x.desc.op = opCopyRaw → x.desc.srcKind ≠ ekT2 → x.desc.srcKind ≠ ekTSP → r.refused = none → r.err = false →
    exec (.tileSourceReadDone ch env) s = .next
      (((u.noteEnd (chanHalf ch) x.ctx x.desc.srcKind (x.desc.src + x.desc.bodyFrom) (x.desc.extent - x.desc.bodyFrom)
        (u.moveView ch)).setChan ch { x with
          buf := slice x.buf 0 x.desc.bodyFrom ++ r.data, poison := r.poison.map (· + x.desc.bodyFrom / 64),
          flag := r.bad }).writeDest ch)) ∧
  (∀ (s : State) (ch : Nat), s.held = false → ch < 64 → (s.chan ch).phase = .writing → s.awaits (.chan ch) = false →
    (s.takeFails (.chan ch)).2 = [] → (s.chan ch).keyed = false →
    exec (.tileWritesAcked ch true) s = .next ((s.takeFails (.chan ch)).1.bodyWritten ch)) ∧
  (∀ (s : State) (ch : Nat), s.held = false → ch < 64 → (s.chan ch).phase = .t2Body →
    exec (.t2BodyWriteDone ch) s = .next (s.writeT2Header ch)) ∧
  (∀ (s : State) (ch : Nat), s.held = false → ch < 64 →
    ((s.chan ch).phase = .t2Header → exec (.tileHeaderWritten ch true) s = .next (s.t2Done ch)) ∧
    ((s.chan ch).phase = .header → s.awaits (.chan ch) = false → (s.takeFails (.chan ch)).2 = [] →
      exec (.tileHeaderWritten ch true) s = .next ((s.takeFails (.chan ch)).1.moveWritten ch))) ∧
  (∀ (s : State) (ch : Nat) (q : PortTile) (rest : List PortTile), s.held = false → ch < 64 → (s.chan ch).phase = .waitTsp →
    let t := tspOf (s.chan ch).desc.src
    s.inTiles t.1 t.2 = q :: rest → q.data.length ≤ (s.chan ch).desc.extent →
    (q.poison.any (· < 4) = true ∨ (hdrOf q.data).extent = q.data.length) →
    let u := ((s.setInTiles t.1 t.2 rest).returnTile t.1 t.2 q.data.length).cross (portHalf t.1) (chanHalf ch) q.data.length
    exec (.tspInboundTileTaken ch) s = .next
      ((u.setChan ch { s.chan ch with poison := q.poison }).acceptHeader ch q.data (q.poison.any (· < 4)))) ∧
  (∀ (s : State) (p q : Nat) (r : CqRec) (rest : List CqRec), s.held = false → p < 128 → q < 16 → (s.queue p q).records = r :: rest →
    (r.irq = false ∨ (s.queue p q).raised = true) →
    exec (.completionRecordPerformed p q true) s = .next
      (((s.setFld F.HIF_CQ_TAIL_INDEX (ringAdd (cqSize s p q) (s.fld F.HIF_CQ_TAIL_INDEX (qInst p q)) 1) (qInst p q)).setQueue p q
        { s.queue p q with records := rest }).syncInflight p q))

/-! ## Programs, sequences and the cursor (04_layer_cursor.md, 06_decode_arrays.md) -/

/-- The commands of DA_CMD that load, start, park and unload a program, and a reserved operation (loadProgram, startProgram, parkProgram,
unloadProgram, daCmdReservedOp; R178, R281, R286, R326), and the Proofer's events (prooferMoveComplete, stagingSpaceRelease; R196, R198). -/
def Obligations.ProgramCommandsComplete : Prop :=
  (∀ (s t u v w : State) (src : Source) (n part : Nat) (env : Env) (d : List Byte) (ls : List (Nat × Nat × List (List Byte)))
      (raw : List (List (List Byte))) (hs : List (List HEntry)), s.held = false →
    src.wf = true → n < 64 → part < 128 → s.admission src .DA_CMD 0 = .accept → t = s.codewords 1 env →
    t.flag F.DA_CMD_STATUS_BUSY = false → t.pstate n = pgEMPTY → t.peek part (t.fld F.DA_CMD_ARG_VA * 64) 64 env = (u, some d) →
    descCheck d = rsOK → State.readLayers part (leAt d 8 8) (leAt d 6 2) (leAt d 0x18 4) env (leAt d 4 2) 0 u = (v, .inr ls) →
    v.fld F.PRF_PROG_CFG_LEAD n < ls.length → State.readHampers part env 0 ls v = (w, .inr raw) → w.checkHampers n raw = .inr hs →
    exec (.loadProgram src n part env) s = .next (((w.loadStatus n 0 0 0).install n part (t.fld F.DA_CMD_ARG_VA * 64) d
      ((hs.zip ls).map fun x => ({ hamper := x.1, phases := x.2.2.2 } : LayerD))).daResult rsOK)) ∧
  (∀ (s : State) (src : Source) (n part : Nat), s.held = false → src.wf = true → n < 64 → part < 128 →
    s.admission src .DA_CMD 0 = .accept → s.flag F.DA_CMD_STATUS_BUSY = false → (s.prog n).part = part →
    (s.pstate n = pgPARKED → s.takenOwn.contains n = false →
      exec (.startProgram src n part) s = .next ((s.startProg n).daResult rsOK)) ∧
    (s.pstate n = pgRUNNING ∨ s.pstate n = pgSTALLED →
      exec (.parkProgram src n part) s = .next ((s.setProg n { s.prog n with parkReq := true }).daResult rsOK)) ∧
    (s.pstate n = pgPARKED ∨ s.pstate n = pgHALTED →
      exec (.unloadProgram src n part) s = .next ((s.unloadProg n).daResult rsOK))) ∧
  (∀ (s : State) (src : Source) (op : Nat), s.held = false → src.wf = true → (op = 0 ∨ 7 ≤ op) → op < 16 →
    s.admission src .DA_CMD 0 = .accept → s.flag F.DA_CMD_STATUS_BUSY = false →
    exec (.daCmdReservedOp src op) s = .next (s.daResult rsENCODING)) ∧
  (∀ (s : State) (e num status : Nat) (rest : List (Nat × Nat × Nat)), s.held = false → s.prfDone = (e, num, status) :: rest →
    exec .prooferMoveComplete s = .next (({ s with prfDone := rest } : State).prooferDone num status)) ∧
  (∀ s : State, s.held = false → exec .stagingSpaceRelease s = .next
    (((s.stage.filter fun t => t.st = .freed && !s.tileRead t).foldl (fun u t => u.removeTile t.num) s).retrySpace))

/-- Sequences (admitSeq, remove, ringHeadWrite, curMatchArm, cursorDelivery): ADMIT and REMOVE take effect at once on a program that does not run, else at its next step boundary (R287 to
R290); the token ring's head and the cursor match (R225, R294, R616). -/
def Obligations.SequenceCommandsComplete : Prop :=
  (∀ (s u : State) (src : Source) (n part slot : Nat) (env : Env) (b : List Byte), s.held = false → src.wf = true → n < 64 → part < 128 →
    slot < 1024 → s.admission src .DA_CMD 0 = .accept → s.flag F.DA_CMD_STATUS_BUSY = false → s.pstate n = pgPARKED →
    (s.prog n).part = part → s.peek (s.prog n).ctx (s.fld F.DA_CMD_ARG_VA * 64) 64 env = (u, some b) → slot < (s.prog n).maxSeqs →
    (s.prog n).occupied slot = false → seqOk (s.prog n) slot b = true → u.live n = false →
    exec (.admitSeq src n part slot env) s = .next
      (((u.setProg n (((u.prog n).apply (slot, some (seqOf slot b))).assignLanes)).syncProg n).daResult rsOK)) ∧
  (∀ (s : State) (src : Source) (n part slot : Nat), s.held = false → src.wf = true → n < 64 → part < 128 → slot < 1024 →
    s.admission src .DA_CMD 0 = .accept → s.flag F.DA_CMD_STATUS_BUSY = false → s.pstate n = pgRUNNING → (s.prog n).part = part →
    (s.prog n).occupied slot = true → s.live n = true →
    exec (.remove src n part slot) s = .next
      (((s.setProg n { s.prog n with pend := (s.prog n).pend ++ [(slot, none)] }).syncProg n).daResult rsOK)) ∧
  (∀ (s : State) (src : Source) (n v : Nat), s.held = false → src.wf = true → n < 64 → v < 65536 → s.admission src .DA_PROG_RING_HEAD n = .accept →
    s.pstate n ≠ pgEMPTY → s.flag F.DA_PROG_STATUS_RING_WAIT n = false →
    headOk (s.prog n).ringSize (s.fld F.DA_PROG_RING_HEAD_INDEX n) (s.fld F.DA_PROG_RING_TAIL_INDEX n) v = true →
    exec (.ringHeadWrite src n v) s = .next (s.setFld F.DA_PROG_RING_HEAD_INDEX v n)) ∧
  (∀ (s : State) (src : Source) (n vec : Nat), s.held = false → src.wf = true → n < 64 → s.admission src .CUR_MATCH_CTRL n = .accept →
    exec (.curMatchArm src n vec) s = .next
      (((s.setFld F.CUR_MATCH_CTRL_VEC vec n).setFlag F.CUR_MATCH_CTRL_EN true n).fireMatch n)) ∧
  (∀ (s : State) (h : Half) (u : Nat × Word), s.held = false → (s.cursorOut.find? fun u => u.1 == halfNum h) = some u →
    exec (.cursorDelivery h) s = .next { s with
      cursorOut := s.cursorOut.erase u
      cursorSeen := sput 0 (u.1 * 64 + F.CUR_VALUE_PROG.get u.2) u.2 s.cursorSeen })

/-- A phase ends and the cursor advances (phaseComplete; R171 to R174); speculative routing of the next layer (specRoutingDone) issues the
tiles of the first TOP_K + SPEC_EXTRA experts of the guess for each lane and charges its array-cycles (R203, R204). Which experts rank
first is the model's free operand (assumption log 63). -/
def Obligations.CursorCommandsComplete : Prop :=
  (∀ (s : State) (n : Nat) (env : Env), s.held = false → n < 64 → s.phaseDone n = true → s.mayIssue n = true →
    exec (.phaseComplete n env) s = .next (((s.advance n env).beginPhases env).beginEmbeds env)) ∧
  (∀ (s : State) (n l h : Nat) (d : List Byte) (guess : List (List Nat)) (rest : List Nat), s.held = false → n < 64 →
    (∀ g ∈ guess, ∀ e ∈ g, e < 256) → (s.prog n).spec = l :: rest → s.live n = true → s.mayIssue n = true →
    s.routerPresent n l = true → s.routePhase n l = some d →
    ([0, 1].find? fun h => s.arrayFree (s.prog n).part h (s.specCycles n l)) = some h →
    let es := ((List.range (s.prog n).lanes.length).flatMap fun b => specTake ((guess[b]?).getD [])
      (leAt d 6 1 + F.PRF_PROG_CFG_SPEC_EXTRA.get (s.prog n).cfg) (leAt d 4 2)).eraseDups
    let u := (s.setProg n { s.prog n with spec := rest, predicted := (s.prog n).predicted ++ es.map fun e => (l, e) }).daCharge
      (s.prog n).part h (s.specCycles n l)
    exec (.specRoutingDone n guess) s = .next ((u.expertNums n l es).foldl (fun v k => v.issueEntry n l k (u.curStep n)) u))

/-! ## Decode arrays (06_decode_arrays.md; 14_integrity.md R669 to R676) -/

/-- Grants and the ends of runs (arrayGrant, itemComplete, arbitrationRunDone, partialsArrive, itemOvertime, uncomparedTimeout,
csumRecomputeDone; R309, R312, R315 to R319, R671 to R675): an idle array starts an arbitration run or the next item; a run that ends
gives its partials to the combiner of the item's home half, across the bridge where that is the other half. -/
def Obligations.ArrayRunCommandsComplete : Prop :=
  (∀ (s : State) (a n : Nat) (it : Item) (env : Env), s.held = false → a < 256 →
    let v := s.codewords 5 env
    let w := (v.beginPhases env).beginLora a env
    let u := w.livePrograms.foldl State.splitPhase w
    v.astate a = arPOOL → v.thermtrip = false → (v.engResets.any fun r => r.cls == 0 && r.inst == a) = false → u.astate a = arPOOL →
    (u.pickArb a = some (n, it) → exec (.arrayGrant a env) s = .next (u.startRun a n it true env)) ∧
    (u.pickArb a = none → u.pickItem (a / 128) = some (n, it) →
      exec (.arrayGrant a env) s = .next (u.startRun a n it false env))) ∧
  (∀ (s : State) (a n num : Nat) (arb : Bool) (run : RunRes) (it : Item) (hw : RunHw), s.held = false → a < 256 →
    (s.arr a).job = .item n num arb → (s.arr a).cur = some run → s.astate a = arBUSY → s.awaits (.kv a) = false →
    (s.takeFails (.kv a)).2 = [] → run.fail = 0 → run.wait = false →
    let f := (s.takeFails (.kv a)).1
    let fmt := ((f.item n num).map fun it => (f.itemTile n it).1).getD 0
    let r := run.seenBy hw (f.seenAt a fmt)
    let u := (((f.wrap F.DA_ITEMS_DONE_COUNT).wrap F.DA_ARR_ITEMS_COUNT a).wrap F.DA_PROG_ITEMS_COUNT n).releaseArray a
    r.fail = 0 → r.wait = false → u.item n num = some it →
    let w := if it.home = a / 128 ∨ it.home = 2 then u.result n num r
      else { u.cross (ofHalfNum (a / 128)) (ofHalfNum it.home) (r.partialBytes (u.curDesc n)) with bridge := u.bridge ++ [(n, num, r)] }
    let t := ((w.retryWrites a).evalProg n).drainHalt n
    (arb = false → exec (.itemComplete a hw) s = .next t) ∧ (arb = true → exec (.arbitrationRunDone a hw) s = .next t)) ∧
  (∀ (s : State) (h : Half) (x : Nat × Nat × RunRes), s.held = false →
    (s.bridge.find? fun x => x.2.2.arr / 128 == 1 - halfNum h) = some x →
    exec (.partialsArrive h) s = .next ((({ s with bridge := s.bridge.erase x }.result x.1 x.2.1 x.2.2).evalProg x.1).drainHalt x.1)) ∧
  (∀ (s : State) (a b n num : Nat) (it : Item) (env : Env), s.held = false → a < 256 → (s.arr a).job = .item n num false →
    s.item n num = some it → s.astate a = arBUSY → it.dup = false → it.closed = false → it.runs = [] → s.live n = true →
    s.mayIssue n = true → s.thermtrip = false → (s.idleArrays it.staged ++ s.idleArrays it.halves).head? = some b →
    let times := (s.time :: (s.arr a).reissues).filter fun t => decide (s.time < t + 1000000000)
    exec (.itemOvertime a env) s = .next
      (((((s.setArr a { s.arr a with reissues := times, slow := (s.arr a).slow || decide (8 < times.length) }).bump
        F.DA_ARR_REISSUES_COUNT a).bump F.DA_REISSUE_CNT_COUNT).setItem n { it with dup := true }).startRun b n
          { it with dup := true } false env)) ∧
  (∀ (s : State) (a n num : Nat) (arb : Bool) (it : Item) (r : RunRes), s.held = false → a < 256 → (s.arr a).job = .item n num arb →
    s.item n num = some it → it.dup = true → it.closed = false → it.taken = some r → it.trig = .none →
    exec (.uncomparedTimeout a) s = .next
      (((s.setItem n { it with closed := true, running := [] }).bump F.ERR_UNCOMPARED_COUNT).closeGroup n it.group r.arr)) ∧
  (∀ (s : State) (n : Nat) (it : Item), s.held = false →
    (s.livePrograms.findSome? fun n => ((s.prog n).items.find? fun it => it.recomp).map fun it => (n, it)) = some (n, it) →
    let a := it.runs.headD { arr := 0 }
    let last := (it.runs.getLastD a).arr
    (phOp (s.curDesc n) = phATTN → exec .csumRecomputeDone s = .next (s.arbitrate n it ⟨none, [], 2⟩ last)) ∧
    (∀ u, phOp (s.curDesc n) ≠ phATTN → s.recompute n it.slot = (u, true) →
      exec .csumRecomputeDone s = .next ((u.bump F.ERR_CSUM_PATH_CNT_COUNT).arbitrate n it ⟨some a, [], 1⟩ last)) ∧
    (∀ u, phOp (s.curDesc n) ≠ phATTN → s.recompute n it.slot = (u, false) →
      exec .csumRecomputeDone s = .next (u.arbitrate n it ⟨none, [], 2⟩ last)))

/-- Arrays taken out of service and back, and restored (arrayOffline, arrayOnline, restore; R319, R684). -/
def Obligations.ArrayServiceCommandsComplete : Prop :=
  (∀ (s : State) (src : Source) (a : Nat), s.held = false → src.wf = true → a < 256 → s.admission src .DA_ARR_CTRL a = .accept →
    (s.astate a = arPOOL ∨ s.astate a = arSLOW →
      exec (.arrayOffline src a) s = .next ((s.setFlag F.DA_ARR_CTRL_OFFLINE true a).setAstate a arOFFLINE)) ∧
    (s.astate a = arOFFLINE → s.halfUp (ofHalfNum (a / 128)) = true →
      exec (.arrayOnline src a) s = .next ((s.setFlag F.DA_ARR_CTRL_OFFLINE false a).setAstate a arPOOL)) ∧
    (s.astate a = arSLOW → exec (.restore src a) s = .next (s.beginSweep (a / 128) (some a) [a])))

/-- The Taster: slots, retests and sweeps (tasterIdleSlot, tasterSlotDone, retestSlotDone, retestTimeout, sweep, sweepStageEnd; R678 to
R688). -/
def Obligations.TasterCommandsComplete : Prop :=
  (∀ s : State, s.held = false → (s.progs.any fun e => s.pstate e.1 == pgRUNNING) = false →
    exec .tasterIdleSlot s = .next ((s.takeSlots 0 1).takeSlots 1 1)) ∧
  (∀ (s : State) (a res : Nat) (t : TestSt), s.held = false → a < 256 → res < 4 → (s.arr a).test = some t → t.retest = false →
    exec (.tasterSlotDone a res) s = .next ((slotCharged a t res).foldl (fun u x => u.chargeDetect x (s.envNow a t.opclass))
      ((s.endSlot a t).slotMismatch t (slotCharged a t res)))) ∧
  (∀ (s : State) (a e w : Nat) (t : TestSt), s.held = false → a < 256 → (s.arr a).test = some t → t.retest = true → (s.arr a).retest = some (e, w) →
    exec (.retestSlotDone a 0) s = .next ((s.endSlot a t).passRetest a e) ∧
    exec (.retestSlotDone a 1) s = .next ((((s.endSlot a t).slotMismatch t [a]).chargeArray a).confirmRetest a)) ∧
  (∀ (s : State) (a e w : Nat), s.held = false → a < 256 → (s.arr a).retest = some (e, w) → (s.arr a).test = none →
    exec (.retestTimeout a) s = .next (s.passRetest a e)) ∧
  (∀ (s : State) (src : Source) (v : Word), s.held = false → src.wf = true → s.admission src .TST_SWEEP_CTRL 0 = .accept →
    (s.progs.any fun e => s.live e.1) = false →
    exec (.sweep src v) s = .next ((s.when (F.TST_SWEEP_CTRL_HALF_E.get v != 0) fun u => u.sweepHalf 0).when
      (F.TST_SWEEP_CTRL_HALF_W.get v != 0) fun u => u.sweepHalf 1)) ∧
  (∀ (s : State) (k : Nat) (w : SweepSt), s.held = false → s.sweeps[k]? = some w →
    let u := s.sweepCounts w
    (w.stage + 1 < 3 → exec (.sweepStageEnd k []) s = .next
        ({ u with sweeps := u.sweeps.set k { w with stage := w.stage + 1 } }.setFld F.TST_STATUS_STAGE (w.stage + 1))) ∧
    (3 ≤ w.stage + 1 → exec (.sweepStageEnd k []) s = .next
        (({ u with sweeps := u.sweeps.eraseIdx k }.setFld F.TST_STATUS_STAGE 0).endSweep { w with stage := w.stage + 1 })))

/-! ## The Scoop (07_scoop.md) -/

/-- The table commands of SCP_CMD and the retirement of old versions (R339 to R347, R377). Each command's effect in the states that
have it: define, flip, retire, scpCmdReservedOp, tableOldDrained. -/
def Obligations.ScoopTableCommandsComplete : Prop :=
  (∀ (s u : State) (src : Source) (t part : Nat) (env : Env) (d : List Byte), s.held = false → src.wf = true → t < 1024 → part < 128 →
    s.admission src .SCP_CMD 0 = .accept → s.flag F.SCP_CMD_STATUS_BUSY = false →
    ((s.tbl t).owner = none ∨ (s.tbl t).owner = some part) → s.flag F.SCP_TBL_STATUS_OLD_DRAINED t = true →
    s.peek part (s.fld F.SCP_CMD_ARG_VA * 64) 64 env = (u, some d) → tableCheck d = srOK →
    exec (.define src t part env) s = .next
      ((((u.setTbl t (if u.activeBank t = 0 then { u.tbl t with bank1 := d, owner := some part }
          else { u.tbl t with bank0 := d, owner := some part })).setFlag F.SCP_TBL_STATUS_STAGED true t).setFld
            F.SCP_TBL_STATUS_PARTITION part t).scpResult srOK)) ∧
  (∀ (s : State) (src : Source) (t part : Nat), s.held = false → src.wf = true → t < 1024 → part < 128 →
    s.admission src .SCP_CMD 0 = .accept → s.flag F.SCP_CMD_STATUS_BUSY = false → (s.tbl t).owner = some part →
    s.flag F.SCP_TBL_STATUS_STAGED t = true →
    exec (.flip src t part false) s = .next
      ((((((((s.setFld F.SCP_TBL_STATUS_ACTIVE_BANK (1 - s.activeBank t) t).setFlag F.SCP_TBL_STATUS_STAGED false t).setFlag
        F.SCP_TBL_STATUS_VALID true t).wrap F.SCP_TBL_STATUS_VERSION t).setFlag F.SCP_TBL_STATUS_OLD_DRAINED false t).evictReps
          fun r => r.tbl == t).scpResult srOK))) ∧
  (∀ (s : State) (src : Source) (t part : Nat), s.held = false → src.wf = true → t < 1024 → part < 128 →
    s.admission src .SCP_CMD 0 = .accept → s.flag F.SCP_CMD_STATUS_BUSY = false → (s.tbl t).owner = some part →
    s.flag F.SCP_TBL_STATUS_VALID t = true →
    let u := ((s.setFlag F.SCP_TBL_STATUS_VALID false t).setFlag F.SCP_TBL_STATUS_STAGED false t).evictReps fun r => r.tbl == t
    exec (.retire src t part) s = .next
      ((if u.flag F.SCP_TBL_STATUS_OLD_DRAINED t = true then u.freeTable t else u).scpResult srOK)) ∧
  (∀ (s : State) (src : Source) (op : Nat), s.held = false → src.wf = true → (op = 0 ∨ 4 ≤ op) → op < 16 →
    s.admission src .SCP_CMD 0 = .accept → s.flag F.SCP_CMD_STATUS_BUSY = false →
    exec (.scpCmdReservedOp src op) s = .next (s.scpResult srENCODING)) ∧
  (∀ (s : State) (t : Nat), s.held = false → t < 1024 → s.flag F.SCP_TBL_STATUS_OLD_DRAINED t = false → s.oldLatched t = false →
    let u := s.setFlag F.SCP_TBL_STATUS_OLD_DRAINED true t
    exec (.tableOldDrained t) s = .next
      (if u.flag F.SCP_TBL_STATUS_VALID t = true ∨ u.flag F.SCP_TBL_STATUS_STAGED t = true then u else u.freeTable t))

/-- Gathers and row updates on the engines, replicas and hot counts (R335, R349 to R370, R376). Each command's effect in the states
that have it: gather, rowUpdate, scoopRowReturn, scoopCommandComplete, scoopEngineFail, replicaInstallDone, hotCountDecay,
scpReplCommit. -/
def Obligations.ScoopEngineCommandsComplete : Prop :=
  (∀ (s u : State) (c e : Nat) (w : WorkSrc) (b : List Byte) (env : Env), s.held = false → s.scoopChoose none = some e →
    (s.takeEntry 0x20 false = some (u, c, w, b) → exec (.gather [] env) s = .next
      ({ u with scoopNum := u.scoopNum + 1 }.scoopGive (gatherOf u.scoopNum c w b) none env)) ∧
    (s.takeEntry 0x21 false = some (u, c, w, b) → exec (.rowUpdate [] env) s = .next
      ({ u with scoopNum := u.scoopNum + 1 }.scoopGive (updateOf u.scoopNum c w b) none env))) ∧
  (∀ (s u v w : State) (g : Nat) (env : Env) (c : ScoopCmd) (d : List Byte), s.held = false → g < 16 →
    let r := s.codewords 6 env
    r.scoopCmd g = some c → c.issued = true → c.ended = false → c.op = 0x20 → c.half = none → r.awaits (.scoop g) = false →
    r.previousWrites g c = (u, true) → u.collect g c env = (v, .data d []) → v.writeRow g c c.dst d [] = (w, true, true) →
    exec (.scoopRowReturn g env) s = .next ((w.wrap F.SCP_ROWS_COUNT).rowDone g env fun c => { c with rows := c.rows + 1 })) ∧
  (∀ (s u : State) (g : Nat) (env : Env) (c : ScoopCmd), s.held = false → g < 16 → s.scoopCmd g = some c → c.started = true →
    s.awaits (.scoop g) = false → (s.eng (slotScoop g)).st = .run →
    (c.op = 0x21 → c.ended = true → exec (.scoopCommandComplete g env) s = .next (s.scoopEnd g env)) ∧
    (c.op = 0x20 → c.issued = false → c.count ≤ c.j → s.previousWrites g c = (u, true) →
      exec (.scoopCommandComplete g env) s = .next (u.scoopEnd g env))) ∧
  (∀ (s : State) (g : Nat) (env : Env), s.held = false → g < 16 →
    let u := s.setFld F.SCP_ENG_STATUS_STATE seFAILED g
    exec (.scoopEngineFail g env) s = .next ((u.record
      { cls := ecSCP, event := 1, inst := g, part := ((u.scoopCmd g).map fun c => ctxPart c.ctx).getD 0xFE, op := 6,
        half := some (ofHalfNum (scoopHalf g)) }).scoopMove g env)) ∧
  (∀ (s u : State) (h j : Nat) (r : RepSlot) (d : List Byte), s.held = false → h < 2 → j < 32768 → s.repSlot h j = some r →
    r.st = .installing false → r.res = some (true, d, []) → s.writeMem (s.repOffset r) d [] = (u, true) →
    exec (.replicaInstallDone h j) s = .next
      ((u.setRep { r with st := .valid, use := s.repUse, res := none }).wrap F.SCP_REPL_INSTALLS_COUNT)) ∧
  (∀ (s : State) (h : Half), s.held = false → exec (.hotCountDecay h) s = .next { s with
    hot := (s.hot.map fun x => if x.1 = halfNum h then (x.1, x.2.1, x.2.2 / 2) else x).filter fun x => x.2.2 ≠ 0 }) ∧
  (∀ (s : State) (src : Source), s.held = false → src.wf = true → s.admission src .SCP_REPL_COMMIT 0 = .accept →
    (s.beginCommit .repl 0).replCheck = 0 →
    exec (.scpReplCommit src) s = .next ((s.beginCommit .repl 0).evictReps fun _ => true))

/-! ## Rows at their home (07_scoop.md R355 to R365) -/

/-- The reads and updates of stamped rows, step by step (R355 to R359). Each command's effect in the states that have it:
attemptReadReturn, waitingReadRelease, updateStampAcked, updateInvalidatesAcked, updateRowAcked, updateFinalStampAcked. -/
def Obligations.HomeRowCommandsComplete : Prop :=
  (∀ (s : State) (id : Nat) (o : HomeOp), s.held = false → s.homeOp id = some o → o.kind ≠ .update → o.active = true → s.homeTurn o = true →
    (let r := (s.homeDone o).readOwn o.stamp 8
     r.err = false → o.step = 0 → o.reg = none →
      let p : HomeOp := { o with step := 1, s1 := leAt r.data 0 8, bad := o.bad || r.bad, fail := false }
      exec (.attemptReadReturn id) s = .next ((((s.homeDone o).noteRead o.stamp 8).setHomeOp p).homeAccess p)) ∧
    (∀ (d : List Byte) (us : List Nat), o.step = 1 → (s.homeDone o).homeRow o.exts = (false, d, us) →
      let u := o.exts.foldl (fun u x => (u.noteRead x.1 x.2).crossIn (u.clientHalf o) x.1 x.2) (s.homeDone o)
      let p : HomeOp := { o with step := 2, data := d, poison := us }
      exec (.attemptReadReturn id) s = .next ((u.setHomeOp p).homeAccess p)) ∧
    (let r := (s.homeDone o).readOwn o.stamp 8
     r.err = false → o.step = 2 →
      exec (.attemptReadReturn id) s = .next
        (((s.homeDone o).noteRead o.stamp 8).readReturned { o with s2 := leAt r.data 0 8, bad := o.bad || r.bad } false))) ∧
  (∀ (s : State) (id : Nat) (o : HomeOp), s.held = false → s.homeOp id = some o → o.kind = .waiting → o.active = false → s.updating o.row = false →
    exec (.waitingReadRelease id) s = .next ((s.setHomeOp { o with active := true }).homeAccess { o with active := true })) ∧
  (∀ (s u : State) (id : Nat) (o : HomeOp), s.held = false → s.homeOp id = some o → o.kind = .update → o.active = true → o.step = 0 →
    s.homeTurn o = true → ((s.homeDone o).readOwn o.stamp 8).err = false → ((s.homeDone o).readOwn o.stamp 8).bad = false →
    let v := oddStamp (leAt ((s.homeDone o).readOwn o.stamp 8).data 0 8)
    let w := (s.homeDone o).noteRead o.stamp 8
    w.writeOwn (w.homeHalf o.row) o.stamp (leBytes 8 v) [] = (u, true) → (u.holders.filter fun x => x.1 == o.row) = [] →
    exec (.updateStampAcked id true) s = .next (u.setHomeOp { o with step := 1, s1 := v, acks := [] })) ∧
  (∀ (s : State) (id : Nat) (o : HomeOp), s.held = false → s.homeOp id = some o → o.kind = .update → o.step = 1 → o.acks = [] →
    exec (.updateInvalidatesAcked id) s = .next ((s.setHomeOp { o with step := 2 }).homeAccess { o with step := 2 })) ∧
  (∀ (s : State) (id : Nat) (o : HomeOp), s.held = false → s.homeOp id = some o → o.kind = .update → o.step = 4 → o.acks = [] →
    exec (.updateInvalidatesAcked id) s = .next (s.homeEnd o)) ∧
  (∀ (s u : State) (id : Nat) (o : HomeOp), s.held = false → s.homeOp id = some o → o.kind = .update → o.step = 2 → s.homeTurn o = true →
    (s.homeDone o).homeWrite ((s.homeDone o).clientHalf o) o.exts o.data o.poison = (u, true) →
    exec (.updateRowAcked id true) s = .next
      ((u.setHomeOp { o with step := 3, fail := false }).homeAccess { o with step := 3, fail := false })) ∧
  (∀ (s u : State) (id : Nat) (o : HomeOp), s.held = false → s.homeOp id = some o → o.kind = .update → o.step = 3 → s.homeTurn o = true →
    o.fail = false → (s.homeDone o).writeOwn ((s.homeDone o).homeHalf o.row) o.stamp (leBytes 8 ((o.s1 + 1) % 2 ^ 64)) [] = (u, true) →
    exec (.updateFinalStampAcked id true) s = .next (u.updateEnd o 0))

/-- Memory requests of other nodes: RD, WR, ATOM and FENCE (R521 to R525). Each command's effect in the states that have it: rd, wr,
atom, fenceRequest. -/
def Obligations.MemoryRequestCommandsComplete : Prop :=
  (∀ (s u : State) (k c : Nat) (env : Env) (p q : Packet), s.held = false →
    (s.homeWords env).takeInbox k (fun p => p.op == opRD) = some (u, p) →
    u.requestPart p F.YT_RKEY_CTRL_READ (some (p.off, p.len)) = some c → u.region p.off ≠ .control →
    rdShape p.off p.len = true → u.offsetRefusal p.off p.len = none → responseTo p psOK = some q →
    exec (.rd ⟨k, env⟩) s = .next ((u.noteRead p.off p.len).sendPacket { q with
      data := withImage p.off (u.readMem p.off p.len).data (u.readMem p.off p.len).poison
      len := p.len
      poison := !(u.readMem p.off p.len).poison.isEmpty })) ∧
  (∀ (s u v : State) (k c : Nat) (env : Env) (p : Packet), s.held = false → s.takeInbox k (fun p => p.op == opWR) = some (u, p) →
    u.requestPart p F.YT_RKEY_CTRL_WRITE (some (p.off, p.len)) = some c → u.region p.off ≠ .control →
    wrShape p.off p.len = true → u.offsetRefusal p.off p.len = none →
    u.storeAt (some p.src) p.off p.data (touchedLines p.off p.poisonLines) = (v, psOK) →
    exec (.wr k env) s = .next ((if p.len = 4 ∨ p.len = 8 then v.memDoorbell p.off else v).answer p psOK)) ∧
  (∀ (s u v : State) (k c : Nat) (p q : Packet) (old : List Byte), s.held = false → s.takeInbox k (fun p => p.op == opATOM) = some (u, p) →
    p.atop ≤ 8 → u.requestPart p F.YT_RKEY_CTRL_ATOMIC (some (p.off, atomWidth p.atop)) = some c → u.region p.off ≠ .control →
    u.offsetRefusal p.off (atomWidth p.atop) = none →
    u.homeAtom p.off p.atop p.data = (v, { status := psOK, old := old, poison := false, pushed := none }) →
    responseTo p psOK = some q →
    exec (.atom k) s = .next ((if p.atop = 0 ∨ p.atop = 5 then v.memDoorbell p.off else v).sendPacket { q with data := old, poison := false })) ∧
  (∀ (s u : State) (k c : Nat) (p : Packet), s.held = false → s.takeInbox k (fun p => p.op == opFENCE) = some (u, p) →
    u.requestPart p F.YT_RKEY_CTRL_READ none = some c → exec (.fenceRequest k) s = .next (u.answer p psOK))

/-- Row requests and messages of other nodes: SRD, SUPD, RINV, RDEREG and MSG (R526 to R532, R625 to R627). Each command's effect in
the states that have it: srd, supd, rinv, rdereg, msg, rdData, wrAck, atomData, fenceAck, msgAck, srdData, supdAck, rinvAck,
msgAckTimeout. -/
def Obligations.RowRequestCommandsComplete : Prop :=
  (∀ (s u : State) (k stamp len c : Nat) (p : Packet), s.held = false → 0 < len → s.takeInbox k (fun p => p.op == opSRD) = some (u, p) →
    u.requestPart p F.YT_RKEY_CTRL_READ (some (p.off, len)) = some c → u.offsetRefusal p.off len = none →
    u.stampPlaceOk [(p.off, len)] stamp = true →
    exec (.srd k stamp len) s = .next (u.homeStart
      { id := 0, kind := if p.wait then .waiting else .attempt, row := p.off, exts := [(p.off, len)], stamp := stamp,
        client := .packet p, reg := if p.reg then some (p.src, 2) else none })) ∧
  (∀ (s u : State) (k stamp : Nat) (p : Packet), s.held = false → s.takeInbox k (fun p => p.op == opSUPD) = some (u, p) → p.last = false →
    exec (.supd k stamp) s = .next { u with supds := u.supds ++ [p] }) ∧
  (∀ (s u : State) (k stamp c : Nat) (p : Packet), s.held = false → s.takeInbox k (fun p => p.op == opSUPD) = some (u, p) → p.last = true →
    (u.supds.filter fun q => q.src == p.src && q.tag == p.tag) = [] → p.poisonLines = [] →
    let v : State := { u with supds := u.supds.filter fun q => !(q.src == p.src && q.tag == p.tag) }
    v.requestPart p F.YT_RKEY_CTRL_WRITE (some (p.off, p.data.length)) = some c → v.offsetRefusal p.off p.data.length = none →
    v.inHandoff p.off p.data.length = false → v.inMirror p.off p.data.length = false →
    v.stampPlaceOk [(p.off, p.data.length)] stamp = true →
    exec (.supd k stamp) s = .next (v.homeStart
      { id := 0, kind := .update, row := p.off, exts := [(p.off, p.data.length)], stamp := stamp, client := .packet p,
        data := p.data, poison := [] })) ∧
  (∀ (s u : State) (k : Nat) (p : Packet) (r : RepSlot), s.held = false → s.takeInbox k (fun p => p.op == opRINV) = some (u, p) → u.region p.off ≠ .control →
    (u.replicas.filter fun r => r.gpa == p.src * 2 ^ 48 + p.off && match r.st with | .draining _ _ => false | _ => true) = [r] →
    r.st = .valid → u.repReading r = false → exec (.rinv k) s = .next ((u.freeRep r).answer p psOK)) ∧
  (∀ (s u : State) (k c : Nat) (p : Packet), s.held = false → s.takeInbox k (fun p => p.op == opRDEREG) = some (u, p) →
    u.requestPart p F.YT_RKEY_CTRL_READ (some (p.off, 1)) = some c → u.offsetRefusal p.off 1 = none →
    exec (.rdereg k) s = .next ((u.dropHolder p.off p.src 2).answer p psOK)) ∧
  (∀ (s u v w : State) (k c : Nat) (m : Packet), s.held = false → s.takeInbox k (fun p => p.op == opMSG) = some (u, m) →
    u.requestPart m F.YT_RKEY_CTRL_MSG none = some c → c < 128 → m.off % 65536 < 8 → u.mrRoom c (m.off % 65536) m.len = true →
    let idx := ringAdd (mrSlots u c (m.off % 65536)) (u.fld F.PTN_MR_TAIL_INDEX (mrInst c (m.off % 65536)))
      (u.mring c (m.off % 65536)).records.length
    let va := F.PTN_MR_BASE_VA.get (u.rd .PTN_MR_BASE (mrInst c (m.off % 65536))) * 64 + idx % 65536 * mrSlotBytes u c (m.off % 65536)
    u.checkExtent c va (32 + m.len) .write = .ok →
    u.writeVA c (va + 32) m.data (touchedLines (va + 32) m.poisonLines) = (v, true) →
    v.writeVA c va (mrHeader u m (idx / 65536 == 0)) = (w, true) →
    exec (.msg k) s = .next (w.setMring c (m.off % 65536)
      { u.mring c (m.off % 65536) with records := (u.mring c (m.off % 65536)).records ++ [⟨m⟩] })) ∧
  (∀ (s u v : State) (k pp q slot : Nat) (p : Packet) (r : Req), s.held = false → s.takeInbox k (fun p => p.op == opRD_DATA) = some (u, p) →
    u.takeReq p opRD = some (v, r) → r.client = .flag pp q slot → p.status = psOK →
    exec (.rdData k) s = .next (v.flagAnswer pp q slot { data := p.data, poison := if p.poison then [0] else [] })) ∧
  (∀ (s u v : State) (k : Nat) (p : Packet) (r : Req), s.held = false → s.takeInbox k (fun p => p.op == opWR_ACK) = some (u, p) →
    u.takeReq p opWR = some (v, r) →
    (p.status ≠ psOK → exec (.wrAck k) s = .next (v.requestFailed r p.status)) ∧
    (∀ pp q slot, p.status = psOK → r.client = .flag pp q slot → exec (.wrAck k) s = .next (v.flagAnswer pp q slot {})) ∧
    (p.status = psOK → (∀ pp q slot, r.client ≠ .flag pp q slot) → exec (.wrAck k) s = .next (v.settleWrites r.client))) ∧
  (∀ (s u v : State) (k : Nat) (p : Packet) (r : Req), s.held = false → p.status = psOK →
    (s.takeInbox k (fun p => p.op == opATOM_DATA) = some (u, p) → u.takeReq p opATOM = some (v, r) → exec (.atomData k) s = .next v) ∧
    (s.takeInbox k (fun p => p.op == opFENCE_ACK) = some (u, p) → u.takeReq p opFENCE = some (v, r) → exec (.fenceAck k) s = .next v) ∧
    (s.takeInbox k (fun p => p.op == opMSG_ACK) = some (u, p) → u.takeReq p opMSG = some (v, r) → exec (.msgAck k) s = .next v)) ∧
  (∀ (s u : State) (k g j : Nat) (p : Packet) (r : Req), s.held = false → s.takeInbox k (fun p => p.op == opSRD_DATA) = some (u, p) →
    (u.reqs.find? fun r => r.tag == p.tag && r.op == opSRD) = some r → p.status = psOK → p.last = false → r.client = .row g j →
    exec (.srdData k) s = .next (u.onPart g j fun (x : RowPart) => { x with got := x.got ++ p.data })) ∧
  (∀ (s u v : State) (k g : Nat) (p : Packet) (r : Req), s.held = false → s.takeInbox k (fun p => p.op == opSUPD_ACK) = some (u, p) →
    u.takeReq p opSUPD = some (v, r) → r.client = .update g → p.status = psOK →
    exec (.supdAck k) s = .next (v.onCmd g fun (c : ScoopCmd) => { c with rows := 1, ended := true })) ∧
  (∀ (s u v : State) (k op node : Nat) (p : Packet) (r : Req) (o : HomeOp), s.held = false → s.takeInbox k (fun p => p.op == opRINV_ACK) = some (u, p) →
    u.takeReq p opRINV = some (v, r) → r.client = .inval op node → p.status = psOK → v.homeOp op = some o →
    exec (.rinvAck k) s = .next ((v.setHomeOp { o with acks := o.acks.filter fun x => x.1 ≠ node }).dropHolder p.off node 2)) ∧
  (∀ (s : State) (tag : Nat), s.held = false → exec (.msgAckTimeout tag) s = .next
    (s.failRequests (fun r => r.tag == tag && r.op == opMSG) psUNREACHABLE))

/-! ## Command queues and the ordering unit (08_ordering.md, 12_host_interface.md) -/

/-- Queue registers, fetching, and vectors (R600 to R608, R616, R622 to R624, R885). Each command's effect in the states that have it:
sqDoorbell, queueFetch, sqEnable, sqDisable, cqHeadWrite, msixUnmask. -/
def Obligations.QueueCommandsComplete : Prop :=
  (∀ (s : State) (src : Source) (p q v : Nat), s.held = false → src.wf = true → p < 128 → q < 16 →
    s.admission src .HIF_SQ_TAIL (qInst p q) = .accept → s.flag F.HIF_SQ_CTRL_DB_MEM (qInst p q) = false →
    exec (.sqDoorbell src p q v) s = .next (s.sqTail p q v)) ∧
  (∀ (s : State) (p q : Nat) (x : PartSt) (env : Env), s.held = false → p < 128 → (s.codewords 1 env).nextQueue p = some (q, x) →
    exec (.queueFetch p env) s = .next (((s.codewords 1 env).setPtn p x).fetch p q env)) ∧
  (∀ (s : State) (src : Source) (p q : Nat) (v : Word), s.held = false → src.wf = true → p < 128 → q < 16 →
    s.admission src .HIF_SQ_CTRL (qInst p q) = .accept → s.flag F.HIF_SQ_CTRL_EN (qInst p q) = false →
    let w := F.HIF_SQ_CTRL_EN.put v 1
    let k := qInst p q
    F.HIF_SQ_CTRL_EN.get w = 1 → 6 ≤ F.HIF_SQ_CTRL_LOG2_ENTRIES.get w → F.HIF_SQ_CTRL_LOG2_ENTRIES.get w ≤ 16 →
    F.HIF_SQ_CTRL_BURST.get w ≠ 0 → F.HIF_SQ_CTRL_RESUME.get w = 0 →
    let u := ((((s.plainWrite .HIF_SQ_CTRL k w).setFld F.HIF_SQ_HEAD_INDEX 0 k).setFld F.HIF_SQ_TAIL_INDEX 0 k).setFld
      F.HIF_CQ_HEAD_INDEX 0 k).setFld F.HIF_CQ_TAIL_INDEX 0 k
    exec (.sqEnable src p q v) s = .next ((u.setQueue p q { u.queue p q with raised := false, unreached := false }).syncInflight p q)) ∧
  (∀ (s : State) (src : Source) (p q : Nat) (v : Word), s.held = false → src.wf = true → p < 128 → q < 16 →
    s.admission src .HIF_SQ_CTRL (qInst p q) = .accept →
    let w := F.HIF_SQ_CTRL_EN.put v 0
    let old := s.rd .HIF_SQ_CTRL (qInst p q)
    F.HIF_SQ_CTRL_EN.get w = 0 → 6 ≤ F.HIF_SQ_CTRL_LOG2_ENTRIES.get w → F.HIF_SQ_CTRL_LOG2_ENTRIES.get w ≤ 16 →
    F.HIF_SQ_CTRL_LOG2_ENTRIES.get w = F.HIF_SQ_CTRL_LOG2_ENTRIES.get old → F.HIF_SQ_CTRL_DB_MEM.get w = F.HIF_SQ_CTRL_DB_MEM.get old →
    F.HIF_SQ_CTRL_BURST.get w ≠ 0 → F.HIF_SQ_CTRL_RESUME.get w = 0 →
    exec (.sqDisable src p q v) s = .next ((s.plainWrite .HIF_SQ_CTRL (qInst p q) w).syncInflight p q)) ∧
  (∀ (s : State) (src : Source) (p q v : Nat), s.held = false → src.wf = true → p < 128 → q < 16 → v < 131072 →
    s.admission src .HIF_CQ_HEAD (qInst p q) = .accept →
    headOk (cqSize s p q) (s.fld F.HIF_CQ_HEAD_INDEX (qInst p q)) (s.fld F.HIF_CQ_TAIL_INDEX (qInst p q)) v = true →
    exec (.cqHeadWrite src p q v) s = .next
      ((s.setFld F.HIF_CQ_HEAD_INDEX v (qInst p q)).setQueue p q { s.queue p q with raised := false })) ∧
  (∀ (s : State) (fn vec : Nat), s.held = false → fn < 129 → vec < 32 →
    let u := s.setFlag F.MSIX_CTRL_MASK false (fn * 1024 + vec)
    exec (.msixUnmask .pf fn vec) s = .next
      (if u.flag F.MSIX_PEND_PEND (fn * 1024 + vec) then (u.setFld F.MSIX_PEND_PEND 0 (fn * 1024 + vec)).msix fn vec else u))

/-- RESUME leaves a halt by BAD_ENTRY, with the entry again or past it (R605). Each command's effect in the states that have it:
resume, resumeSkip. -/
def Obligations.QueueResumeCommandsComplete : Prop :=
  ∀ (s : State) (src : Source) (p q : Nat), s.held = false → src.wf = true → p < 128 → q < 16 →
    s.admission src .HIF_SQ_CTRL (qInst p q) = .accept →
    let k := qInst p q
    let old := s.rd .HIF_SQ_CTRL k
    let good := fun (w : Word) => F.HIF_SQ_CTRL_LOG2_ENTRIES.get w = F.HIF_SQ_CTRL_LOG2_ENTRIES.get old ∧
      F.HIF_SQ_CTRL_DB_MEM.get w = F.HIF_SQ_CTRL_DB_MEM.get old ∧ F.HIF_SQ_CTRL_EN.get w = F.HIF_SQ_CTRL_EN.get old ∧
      F.HIF_SQ_CTRL_BURST.get w ≠ 0 ∧ F.HIF_SQ_CTRL_RESUME.get w = 1 ∧ F.HIF_SQ_CTRL_SKIP.get w < 2
    let again := fun (u : State) => (u.setFlag F.HIF_SQ_STATUS_HALTED false k).setFld F.HIF_SQ_STATUS_ERR qeNone k
    6 ≤ F.HIF_SQ_CTRL_LOG2_ENTRIES.get old → F.HIF_SQ_CTRL_LOG2_ENTRIES.get old ≤ 16 →
    (let w := F.HIF_SQ_CTRL_RESUME.put old 1
     let u := (s.plainWrite .HIF_SQ_CTRL k w).syncInflight p q
     good w → F.HIF_SQ_CTRL_SKIP.get w = 0 → u.flag F.HIF_SQ_STATUS_HALTED k = true → u.fld F.HIF_SQ_STATUS_ERR k = qeBadEntry →
     exec (.resume src p q) s = .next (again u)) ∧
    (let w := F.HIF_SQ_CTRL_SKIP.put (F.HIF_SQ_CTRL_RESUME.put old 1) 1
     let u := (s.plainWrite .HIF_SQ_CTRL k w).syncInflight p q
     good w → F.HIF_SQ_CTRL_SKIP.get w = 1 → u.flag F.HIF_SQ_STATUS_HALTED k = true → u.fld F.HIF_SQ_STATUS_ERR k = qeBadEntry →
     exec (.resumeSkip src p q) s = .next
       (again (u.setFld F.HIF_SQ_HEAD_INDEX (ringAdd (sqSize u p q) (u.fld F.HIF_SQ_HEAD_INDEX k) 1) k)))

/-- The ordering unit's entries (R405 to R410). Each command's effect in the states that have it: releaseWrite, acquireWait,
acquirePoll, acquireWaitTimeout, fenceEntry, invRange, invComplete. -/
def Obligations.OrderingCommandsComplete : Prop :=
  (∀ (s t u : State) (o : OrdSt), s.held = false → s.takeOrder ooRelease = some (t, o) →
    (t.fencesNodes o && (t.queue o.p o.q).unreached) = false →
    let d := leBytes (ordSize o.bytes) (leAt o.bytes 0x10 8)
    t.checkExtent o.p (leAt o.bytes 8 8) d.length .write = .ok →
    (∀ nd off part key, t.target o.p (leAt o.bytes 8 8) ≠ some (.remote nd off part key)) →
    t.writeStrict o.p (leAt o.bytes 8 8) d = (u, true) → exec .releaseWrite s = .next (u.endOrder o osOK 0)) ∧
  (∀ (s t : State) (o : OrdSt) (env : Env), s.held = false → s.takeOrder ooAcquire = some (t, o) →
    exec (.acquireWait env) s = .next ((t.flagPoll o env).flagFails o)) ∧
  (∀ (s : State) (p q : Nat) (o : OrdSt) (env : Env), s.held = false → p < 128 → q < 16 → s.orderAt p q 1 = some o →
    exec (.acquirePoll p q env) s = .next ((s.flagPoll o env).flagFails o)) ∧
  (∀ (s : State) (p q : Nat) (o : OrdSt), s.held = false → p < 128 → q < 16 →
    (s.orders.find? fun o => o.p == p && o.q == q && leAt o.bytes 0 1 == ooAcquire && (o.phase == 1 || o.phase == 2)) = some o →
    exec (.acquireWaitTimeout p q) s = .next ((s.dropClient (.flag p q o.slot)).endOrder o osTimeout 0)) ∧
  (∀ (s t : State) (o : OrdSt), s.held = false → s.takeOrder ooFence = some (t, o) →
    (t.fencesNodes o && (t.queue o.p o.q).unreached) = false → exec .fenceEntry s = .next (t.endOrder o osOK 0)) ∧
  (∀ (s t : State) (o : OrdSt), s.held = false → (t.fencesNodes o && (t.queue o.p o.q).unreached) = true →
    let u := (t.setQueue o.p o.q { t.queue o.p o.q with unreached := false }).endOrder o osError 0
    (s.takeOrder ooFence = some (t, o) → exec .fenceEntry s = .next u) ∧
    (s.takeOrder ooRelease = some (t, o) → exec .releaseWrite s = .next u)) ∧
  (∀ (s t : State) (o : OrdSt), s.held = false → s.takeOrder ooInv = some (t, o) → (t.ctx o.p).lost = false →
    t.invFault o.p (leAt o.bytes 0x20 8) (leAt o.bytes 0x28 8) = none → exec .invRange s = .next (t.orderIn o 3)) ∧
  (∀ (s : State) (p q : Nat) (o : OrdSt), s.held = false → p < 128 → q < 16 → s.orderAt p q 3 = some o → leAt o.bytes 0x28 8 ≤ 48 * 1048576 →
    exec (.invComplete p q) s = .next ((s.invalidateVA p (leAt o.bytes 0x20 8) (leAt o.bytes 0x28 8)).endOrder o osOK 0))

/-- Resets of the host side and PCIe events (R586 to R597, R609, R885). Each command's effect in the states that have it: perstAssert,
perstRelease, hostLinkLoss, pfFlr, vfFlr, configRequest, vfEnable, vecCfgLockTimeout, pcieCplTimeout. -/
def Obligations.HostSideCommandsComplete : Prop :=
  (∀ (s : State) (env : Env), s.held = false → s.noHost = false → exec (.perstAssert env) s = .next
    ((({ s with perst := true, relaxed := true } : State).hostDown.resetAllParts env).setVfs 0)) ∧
  (∀ (s : State) (gen width : Nat), gen < 16 → width < 256 → s.perst = true → s.noHost = false →
    exec (.perstRelease gen width) s = .next (((({ s with perst := false, vecLocked := false, vfAccepted := false } : State).setFlag
      F.HIF_LINK_STATUS_UP true).setFld F.HIF_LINK_STATUS_GEN gen).setFld F.HIF_LINK_STATUS_WIDTH width)) ∧
  (∀ (s : State) (env : Env), s.held = false → exec (.hostLinkLoss env) s = .next (s.hostDown.resetAllParts env)) ∧
  (∀ (s : State) (env : Env), s.held = false → exec (.pfFlr env) s = .next (s.resetAllParts env)) ∧
  (∀ (s : State) (p : Nat) (env : Env), s.held = false → p < 128 → exec (.vfFlr p env) s = .next (s.requestReset p env)) ∧
  (∀ (s : State) (r : Option Bool), s.held = false → s.vecLocked = true → exec (.configRequest r) s = .next
    (({ s with relaxed := r.getD s.relaxed } : State).emit (.pcieStatus "Successful Completion"))) ∧
  (∀ (s : State) (n : Nat), s.held = false → n ≤ 128 → s.vecLocked = true → s.perst = false → s.vfAccepted = false →
    exec (.vfEnable n) s = .next (({ s with vfAccepted := true } : State).setVfs n)) ∧
  (∀ s : State, s.held = false → s.perst = false → exec .vecCfgLockTimeout s = .next { s with vecLocked := true }) ∧
  (∀ (s : State) (c : Nat), s.held = false → c < 64 → (s.chan c).phase = .reading →
    exec (.pcieCplTimeout (some c) none) s = .next ((s.bump F.HIF_CPL_TIMEOUT_COUNT).finishMove c tsSrcError 0)) ∧
  (∀ (s : State) (g k : Nat), s.held = false → g < 16 → k < 2 →
    exec (.pcieCplTimeout none (some (g, k))) s = .next ((s.bump F.HIF_CPL_TIMEOUT_COUNT).partError g k))

/-! ## Partitions, engine resets, the error ring (13_partitions.md, 14_integrity.md) -/

/-- Partition resets, QoS and message rings (R625 to R655). Each command's effect in the states that have it: partitionReset,
partitionDrained, partitionDrainTimeout, partitionCleared, qosCommit, mrEnable, mrHeadWrite, mrRecordPerformed. -/
def Obligations.PartitionCommandsComplete : Prop :=
  (∀ (s : State) (src : Source) (p : Nat) (env : Env), s.held = false → src.wf = true → p < 128 → s.admission src .PTN_CTRL p = .accept →
    s.fld F.PTN_STATUS_STATE p = psActive → exec (.partitionReset src p env) s = .next (s.enterDraining p env)) ∧
  (∀ (s : State) (p : Nat), s.held = false → p < 128 → s.fld F.PTN_STATUS_STATE p = psDraining → s.partBusy p = false →
    exec (.partitionDrained p) s = .next (s.enterClearing p)) ∧
  (∀ (s : State) (p : Nat) (env : Env), s.held = false → p < 128 → s.fld F.PTN_STATUS_STATE p = psDraining →
    exec (.partitionDrainTimeout p env) s = .next
      (((((s.endWork p env).setFlag F.PTN_STATUS_TIMEOUT true p).bump F.RST_STATUS_TIMEOUT_CNT).record
        { cls := ecRST, event := 1, inst := p, part := p }).enterClearing p)) ∧
  (∀ (s : State) (p : Nat) (env : Env), s.held = false → p < 128 → s.fld F.PTN_STATUS_STATE p = psClearing → (s.ptn p).held = false →
    (s.ptn p).qos = [] →
    let u := (((s.resetPage p).setPart p psActive).setFld F.PTN_STATUS_LAST_US
      (min (((s.resetPage p).time - (s.ptn p).since) / 1000) 65535) p).setPtn p {}
    exec (.partitionCleared p env) s = .next (if u.flag F.PTN_RST_VEC_EN then u.raisePf (u.fld F.PTN_RST_VEC_VEC) else u)) ∧
  (∀ (s : State) (src : Source), s.held = false → src.wf = true → s.admission src .QOS_COMMIT 0 = .accept →
    (s.beginCommit .qos 0).qosCheck = none → exec (.qosCommit src) s = .next (s.beginCommit .qos 0)) ∧
  (∀ (s : State) (src : Source) (p r : Nat) (v : Word), s.held = false → src.wf = true → p < 128 → r < 8 →
    s.admission src .PTN_MR_CTRL (mrInst p r) = .accept →
    let w := F.PTN_MR_CTRL_EN.put v 1
    let u := s.plainWrite .PTN_MR_CTRL (mrInst p r) w
    s.flag F.PTN_MR_CTRL_EN (mrInst p r) = false → F.PTN_MR_CTRL_EN.get w = 1 → 7 ≤ F.PTN_MR_CTRL_SLOT_LOG2.get w →
    F.PTN_MR_CTRL_SLOT_LOG2.get w ≤ 13 → 4 ≤ F.PTN_MR_CTRL_LOG2_SLOTS.get w → F.PTN_MR_CTRL_LOG2_SLOTS.get w ≤ 16 →
    u.mrRingOk p r = true →
    exec (.mrEnable src p r v) s = .next (((u.setFld F.PTN_MR_TAIL_INDEX 0 (mrInst p r)).setFld F.PTN_MR_HEAD_INDEX 0
      (mrInst p r)).setMring p r { u.mring p r with raised := false })) ∧
  (∀ (s : State) (src : Source) (p r v : Nat), s.held = false → src.wf = true → p < 128 → r < 8 → v < 131072 →
    s.admission src .PTN_MR_HEAD (mrInst p r) = .accept →
    headOk (mrSlots s p r) (s.fld F.PTN_MR_HEAD_INDEX (mrInst p r)) (s.fld F.PTN_MR_TAIL_INDEX (mrInst p r)) v = true →
    exec (.mrHeadWrite src p r v) s = .next
      ((s.setFld F.PTN_MR_HEAD_INDEX v (mrInst p r)).setMring p r { s.mring p r with raised := false })) ∧
  (∀ (s : State) (p r : Nat) (m : MrRec) (rest : List MrRec), s.held = false → p < 128 → r < 8 → (s.mring p r).records = m :: rest →
    (s.mring p r).raised = true →
    exec (.mrRecordPerformed p r) s = .next (((s.setFld F.PTN_MR_TAIL_INDEX
      (ringAdd (mrSlots s p r) (s.fld F.PTN_MR_TAIL_INDEX (mrInst p r)) 1) (mrInst p r)).setMring p r
        { records := rest, raised := true }).answer m.msg psOK))

/-- Single-engine resets and the error ring (R650 to R653, R693 to R698). Each command's effect in the states that have it:
engineReset, engineFailure, engineResetDone, errRingWriteDone, errRingHeadWrite, commitSafePoint. -/
def Obligations.EngineAndErrorCommandsComplete : Prop :=
  (∀ (s : State) (src : Source) (cls inst : Nat) (env : Env), s.held = false → src.wf = true → cls < 16 → inst < 256 → inst < engCount cls →
    s.admission src .RST_ENGINE 0 = .accept → s.flag F.RST_STATUS_ENG_BUSY = false →
    exec (.engineReset src cls inst env) s = .next (s.beginEngReset cls inst env)) ∧
  (∀ (s : State) (cls inst : Nat) (env : Env), s.held = false → inst < engCount cls →
    exec (.engineFailure cls inst env) s = .next (s.beginEngReset cls inst env)) ∧
  (∀ (s : State) (inst : Nat) (env : Env), s.held = false → inst < 64 → (s.engResets.any fun r => r.cls == 2 && r.inst == inst) = true →
    let u : State := { s with engResets := s.engResets.filter fun r => !(r.cls == 2 && r.inst == inst) }
    exec (.engineResetDone 2 inst env) s = .next (u.setFlag F.RST_STATUS_ENG_BUSY (!u.engResets.isEmpty))) ∧
  (∀ (s : State) (e : ErrRec) (rest : List ErrRec), s.held = false → s.errWrites = e :: rest → s.errRaised = true →
    exec (.errRingWriteDone true) s = .next ({ s with errWrites := rest, errRaised := true }.setFld F.ERR_RING_TAIL_INDEX
      (ringAdd (errRingSize s) (s.fld F.ERR_RING_TAIL_INDEX) 1))) ∧
  (∀ (s : State) (src : Source) (v : Nat), s.held = false → src.wf = true → v < 131072 → s.admission src .ERR_RING_HEAD 0 = .accept →
    headOk (errRingSize s) (s.fld F.ERR_RING_HEAD_INDEX) (s.fld F.ERR_RING_TAIL_INDEX) v = true →
    exec (.errRingHeadWrite src v) s = .next ({ s with errRaised := false }.setFld F.ERR_RING_HEAD_INDEX v)) ∧
  (∀ (s : State) (idx sub k : Nat) (g : Group) (r : Reg), s.held = false → commitAt idx sub = some (g, r, k) → s.committing g k = true →
    exec (.commitSafePoint idx sub) s = .next (s.commitApply g k).flushOwed)

/-- Host accesses to registers and to memory through BAR2 (R50, R222, R412 to R414, R598, R599). Each command's effect in the states
that have it: registerWrite, registerRead, bar2Write, bar2Read, bar2Atomic. -/
def Obligations.HostAccessCommandsComplete : Prop :=
  (∀ (s : State) (src : Source) (off o : Nat) (v : Word) (x : Reg × Nat) (env : Env), s.held = false → src = .pf ∨ src = .fw → off < 0x4000000 →
    off % 4 = 0 → barOffset src off = some o → msixAt o = none → (o < 0xD1000 ∨ 0xD6000 ≤ o) → regAt o = some x →
    x.1.place.width ≠ 64 → s.bar0Down o = false →
    exec (.registerWrite src off 4 v none env) s = .next
      ((s.regWrite src x.1 x.2 (BitVec.ofNat 64 (v.toNat % 2 ^ 32)) env).1.serveMailbox env)) ∧
  (∀ (s : State) (off : Nat), s.held = false → off < 0x4000000 → off % 8 = 0 →
    exec (.registerRead .pf off 8) s = .next (s.emit (.readValue (leBytes 8 (s.bar0Word off + s.bar0Word (off + 4) * 2 ^ 32)) false))) ∧
  (∀ (s : State) (off : Nat), s.held = false → off < 0x4000000 → off % 4 = 0 →
    exec (.registerRead .pf off 4) s = .next ((s.latchRead .pf off).2.emit (.readValue (leBytes 4 (s.latchRead .pf off).1) false))) ∧
  (∀ (s : State) (x : Nat) (d : List Byte), s.held = false → d ≠ [] → d.length ≤ 512 → x + d.length ≤ 2 ^ 36 →
    s.bar2Refused (s.bar2Offset x) d.length = false →
    exec (.bar2Write x d false) s = .next ((s.crossOut .east (s.bar2Offset x) d.length).storeAt none (s.bar2Offset x) d []).1) ∧
  (∀ (s : State) (x n : Nat), s.held = false → 0 < n → n ≤ 4096 → x + n ≤ 2 ^ 36 → s.bar2Refused (s.bar2Offset x) n = false →
    let r := s.readMem (s.bar2Offset x) n
    exec (.bar2Read x n) s = .next (((s.noteRead (s.bar2Offset x) n).crossIn .east (s.bar2Offset x) n).emit
      (.readValue (withImage (s.bar2Offset x) r.data r.poison) (!r.poison.isEmpty)))) ∧
  (∀ (s u : State) (x atop : Nat) (d old : List Byte), s.held = false → (atop = 0 ∨ atop = 5 ∨ atop = 6 ∨ atop = 7) → x + 4 ≤ 2 ^ 36 →
    d.length ≤ 32 → d.length = atomOperand atop → x % atomWidth atop = 0 →
    s.bar2Refused (s.bar2Offset x) (atomWidth atop) = false →
    ((s.crossOut .east (s.bar2Offset x) d.length).crossIn .east (s.bar2Offset x) (atomWidth atop)).homeAtom (s.bar2Offset x) atop d = (u, { status := psOK, old := old, poison := false, pushed := none }) →
    exec (.bar2Atomic x atop d) s = .next (u.emit (.readValue old false)))

/-! ## The coherence domain (09_coherence.md) -/

/-- Requests, data and responses of the members, and the domain's state (R426 to R452). Each command's effect in the states that have
it: rdshared, rdown, upgrade, wbdata, evictclean, snoopAck, snprespwbpending, fwddata, snoopTimeout, collapse, reinit, reinitDone,
cohCommit. -/
def Obligations.CoherenceCommandsComplete : Prop :=
  (∀ (s u : State) (k slot : Nat) (env : Env) (p : Packet), s.held = false → u.region p.off ≠ .control → u.memberSlot p.src = some slot → u.windowed p.off = true → u.domState = cdUP →
    u.cohBusy (p.off / 64) = false → (u.cohWait.any fun q => q.off / 64 == p.off / 64) = false →
    ((s.homeWords env).takeInbox k (cohKind cmRdShared) = some (u, p) → exec (.rdshared ⟨k, env⟩) s = .next (u.cohServe p slot)) ∧
    (s.takeInbox k (cohKind cmRdOwn) = some (u, p) → exec (.rdown k) s = .next (u.cohServe p slot)) ∧
    (s.takeInbox k (cohKind cmUpgrade) = some (u, p) → exec (.upgrade k) s = .next (u.cohServe p slot))) ∧
  (∀ (s u : State) (k slot : Nat) (p : Packet) (e : DirEnt), s.held = false → s.takeInbox k (cohKind cmWbData) = some (u, p) → u.region p.off ≠ .control →
    u.memberSlot p.src = some slot → u.dirAt (p.off / 64) = some e → e.owner = some slot →
    (u.cohTxns.find? fun t => t.line == p.off / 64 && (t.waits.contains slot || t.pend == some slot)) = none →
    exec (.wbdata k) s = .next (((u.cohWrite (p.off / 64) p.data p.poison).setDir (p.off / 64) (e.without slot)).cohAck p)) ∧
  (∀ (s u : State) (k slot : Nat) (p : Packet) (e : DirEnt), s.held = false → s.takeInbox k (cohKind cmEvictClean) = some (u, p) → u.region p.off ≠ .control →
    u.memberSlot p.src = some slot → u.dirAt (p.off / 64) = some e → e.holders.contains slot = true →
    (u.cohTxns.any fun t => t.line == p.off / 64 && !t.waits.contains slot) = false →
    exec (.evictclean k) s = .next ((u.setDir (p.off / 64) (e.without slot)).cohAck p)) ∧
  (∀ (s u : State) (k slot : Nat) (p : Packet) (t : CohTxn), s.held = false → u.cohFind p = some (t, slot) →
    (s.takeInbox k (cohKind cmAck) = some (u, p) → t.owner ≠ some slot →
      exec (.snoopAck k) s = .next (u.cohStep { t with waits := t.waits.filter (· ≠ slot) })) ∧
    (s.takeInbox k (cohKind cmWbPending) = some (u, p) → exec (.snprespwbpending k) s = .next
      (u.cohStep { t with waits := t.waits.filter (· ≠ slot), pend := some slot, kept := 0, fwd := false }))) ∧
  (∀ (s u : State) (k : Nat) (p : Packet) (t : CohTxn), s.held = false → s.takeInbox k (cohKind cmFwdData) = some (u, p) →
    (u.cohTxns.find? fun t => t.line == p.off / 64 && t.txn == cohTxn p.coh && t.req.isNone) = some t →
    exec (.fwddata k) s = .next (u.cohStep { t with data := some (p.data, p.poison) })) ∧
  (∀ (s : State) (k slot : Nat) (t : CohTxn), s.held = false → slot < 16 → s.cohTxns[k]? = some t → t.waits.contains slot = true →
    s.domState = cdUP → exec (.snoopTimeout k slot) s = .next (s.collapseNotice.collapse 1 (some slot))) ∧
  (∀ (s : State) (src : Source), s.held = false → src.wf = true → s.admission src .COH_DOM_CTRL 0 = .accept →
    (s.domState = cdUP → exec (.collapse src) s = .next (s.collapseNotice.collapse 5 none)) ∧
    (s.domState = cdDOWN → exec (.reinit src) s = .next (s.cohClear.setFld F.COH_DOM_STATUS_STATE cdREINIT))) ∧
  (∀ s : State, s.held = false → s.domState = cdREINIT → exec .reinitDone s = .next s.cohUp) ∧
  (∀ (s : State) (src : Source), s.held = false → src.wf = true → s.admission src .COH_COMMIT 0 = .accept → (s.beginCommit .coh 0).cohCheck = 0 →
    exec (.cohCommit src) s = .next (s.beginCommit .coh 0))

/-! ## The switch and the streams (11_yalig_transactions.md) -/

/-- Packets through the switch, the streams' timers, and MGMT packets (R511 to R516, R533 to R536, R560 to R569). Each command's
effect in the states that have it: packetIngress, detourPacket, packetEgress, mirrorRecordPerformed, sack, sackTimer, retxTimeout,
mgmtSync, mgmtCollapse, mgmtTelemetry. -/
def Obligations.SwitchCommandsComplete : Prop :=
  (∀ (s : State) (l : Nat) (p : Packet) (good : Bool) (rest : List (Option Nat × Packet × Bool)), s.held = false → l < 96 →
    (s.link l).arrived = (none, p, good) :: rest →
    let u := (s.setLink l { s.link l with arrived := rest }).wrap F.YT_PKTS_IN_COUNT
    exec (.packetIngress l) s = .next
      ((u.mirror l 0 p (u.cutThrough { pkt := p, ingress := l, num := 0 }) false).arrive l p good false)) ∧
  (∀ (s : State) (l t : Nat) (p : Packet) (good : Bool) (rest : List (Option Nat × Packet × Bool)), s.held = false → l < 96 →
    (s.link l).arrived = (some t, p, good) :: rest →
    let u := (s.setLink l { s.link l with arrived := rest }).wrap F.YT_PKTS_IN_COUNT
    let v := u.mirror l 0 p (u.cutThrough { pkt := p, ingress := l, num := 0 }) true
    (t = v.node → exec (.detourPacket l) s = .next (v.arrive l p good true)) ∧
    (t ≠ v.node → good = true → headerBad p = false → v.flag F.YL_LINK_CFG_TRANSIT_EN l = true → v.peersTo t ≠ [] →
      let w : SwPkt := { pkt := p, ingress := l, transit := true, via := some t, num := 0 }
      let x := v.enterSwitch { w with shared := v.chargesShared w }
      exec (.detourPacket l) s = .next
        (if v.chargesShared w then x.freeIngress l (8 + p.vc) ((8 * (p.words + 1) + 63) / 64) else x))) ∧
  (∀ (s : State) (l : Nat) (a : SwPkt × Option Nat) (x : LinkSt), s.held = false → l < 96 → s.linkUp l = true → s.chooseEgress l = some (a, x) →
    s.replayFull l 20 = false → exec (.packetEgress l) s = .next ((s.setLink l x).sendOver l a.1 a.2)) ∧
  (∀ (s : State) (c : List Byte) (rest : List (List Byte)), s.held = false → s.captures = c :: rest →
    let u : State := { s with captures := rest }
    let o := s.fld F.SWC_MIR_BASE_OFFSET * 4096 + s.fld F.SWC_MIR_TAIL_COUNT % 2 ^ s.fld F.SWC_MIR_SIZE_LOG2_RECORDS * 128
    u.region o = .tier1 → exec .mirrorRecordPerformed s = .next ((u.writeMem o c []).1.wrap F.SWC_MIR_TAIL_COUNT)) ∧
  (∀ (s u : State) (k : Nat) (p : Packet), s.held = false → s.takeInbox k (fun p => p.op == opSACK) = some (u, p) →
    let key := p.src * 8 + p.off % 8
    let rest := (u.tx key).store.filter fun q => !decide ((p.seq + 65536 - q.seq) % 65536 < 32768)
    rest.length ≠ (u.tx key).store.length →
    exec (.sack k) s = .next (u.setTx key { u.tx key with store := rest, resends := 0 })) ∧
  (∀ (s : State) (n vc : Nat), s.held = false → n < 272 → vc < 6 → (s.rx (n * 8 + vc)).seen = true →
    exec (.sackTimer n vc) s = .next (s.sendSack n vc)) ∧
  (∀ (s : State) (n vc : Nat), s.held = false → n < 272 → vc < 6 → (s.tx (n * 8 + vc)).store ≠ [] → (s.tx (n * 8 + vc)).dead = false →
    (s.tx (n * 8 + vc)).resends < s.fld F.YT_RETX_RETRIES →
    let x := s.tx (n * 8 + vc)
    exec (.retxTimeout n vc) s = .next ((x.store.take 512).foldl (fun s p => s.enterSwitch
        { pkt := p, ingress := 97, group := if 256 ≤ n then some (n - 256) else none, resent := true, num := 0 })
      ((s.setTx (n * 8 + vc) { x with resends := x.resends + 1 }).wrap F.YT_RETX_CNT_COUNT 0 (x.store.take 512).length))) ∧
  (∀ (s u : State) (k : Nat) (p : Packet), s.held = false →
    (s.takeInbox k (mgmtKind 1) = some (u, p) → exec (.mgmtSync k) s = .next (u.resetStreams p.src)) ∧
    (s.takeInbox k (mgmtKind 2) = some (u, p) → bits (leAt p.data 0 8) 8 6 = u.fld F.COH_CFG_DOMAIN → u.domState = cdUP →
      exec (.mgmtCollapse k) s = .next (u.collapse 3 none)) ∧
    (s.takeInbox k (mgmtKind 3) = some (u, p) →
      exec (.mgmtTelemetry k) s = .next (u.emit (.note "telemetry" [p.src, leNat p.data]))))

/-! ## Yalig links (10_yalig_links.md) -/

/-- Link training (R457 to R475): each event in the link state that has it. Each command's effect in the states that have it:
detectSignal, detectOneLaneTimeout, equalizeConverged, equalizeTimeout, lockAchieved, lockTimeout, negotiateTimeout, fastRetrainDone,
failedRetry, retrain, linkDisable, linkDisableClear, ylCfgCommit. -/
def Obligations.LinkTrainingCommandsComplete : Prop :=
  (∀ (s : State) (l : Nat), s.held = false → l < 96 → s.lstate l = lsDETECT → exec (.detectSignal l) s = .next
    ((s.setLink l { s.link l with lane1 := none }).setLstate l lsEQUALIZE)) ∧
  (∀ (s : State) (l lane : Nat), s.held = false → l < 96 → lane < 2 → s.lstate l = lsDETECT → s.flag F.YL_LINK_CFG_DEGRADE_EN l = true →
    exec (.detectOneLaneTimeout l lane) s = .next ((s.setLink l { s.link l with lane1 := some lane }).setLstate l lsEQUALIZE)) ∧
  (∀ (s : State) (l : Nat), s.held = false → l < 96 → s.lstate l = lsEQUALIZE →
    exec (.equalizeConverged l) s = .next (s.setLstate l lsLOCK) ∧ exec (.equalizeTimeout l) s = .next (s.linkFail l lcTRAIN)) ∧
  (∀ (s : State) (l : Nat), s.held = false → l < 96 → s.lstate l = lsLOCK →
    exec (.lockAchieved l) s = .next
      ((s.setLock l ((s.link l).lane1 ≠ some 1) ((s.link l).lane1 ≠ some 0)).negotiate l) ∧
    exec (.lockTimeout l) s = .next (s.linkFail l lcLOCK)) ∧
  (∀ (s : State) (l : Nat), s.held = false → l < 96 → s.lstate l = lsNEGOTIATE → exec (.negotiateTimeout l) s = .next (s.linkFail l lcVERSION)) ∧
  (∀ (s : State) (l : Nat) (ok : Bool) (caps : List Nat) (lane : Nat), s.held = false → l < 96 → s.lstate l = lsRECOVER →
    let u := (s.bump F.YL_RETRAIN_CNT_FAST l).lifeAdd 0x5060 (l + 1) 1
    (∀ c, capsOf caps = some c → u.capsCheck l c = none → exec (.fastRetrainDone l true caps lane) s = .next
      ((((u.setLink l { u.link l with txSeq := 0, lane1 := if lane < 2 then some lane else none }).startStream l).sendCaps
        l).linkNegotiated l c)) ∧
    (ok = false → (u.link l).fast + 1 < 3 → exec (.fastRetrainDone l ok caps lane) s = .next
      (u.setLink l { u.link l with fast := (u.link l).fast + 1 }))) ∧
  (∀ (s : State) (l : Nat), s.held = false → l < 96 → s.lstate l = lsFAILED → s.flag F.YL_LINK_CTRL_RETRY_EN l = true →
    s.fld F.YL_LINK_STATUS_FAIL_CAUSE l ≠ lcVERSION → s.fld F.YL_LINK_STATUS_FAIL_CAUSE l ≠ lcROLE →
    exec (.failedRetry l) s = .next (s.setLstate l lsDETECT)) ∧
  (∀ (s : State) (src : Source) (l : Nat), s.held = false → src.wf = true → l < 96 → s.admission src .YL_LINK_CTRL l = .accept →
    (let w := F.YL_LINK_CTRL_RETRAIN.put (s.rd .YL_LINK_CTRL l) 1
     let u := s.plainWrite .YL_LINK_CTRL l w
     F.YL_LINK_CTRL_DISABLE.get w = 0 → F.YL_LINK_CTRL_RETRAIN.get w = 1 → u.lstate l ≠ lsDISABLED → u.linkUp l = true →
     exec (.retrain src l) s = .next (u.linkFault l)) ∧
    (let w := F.YL_LINK_CTRL_DISABLE.put (s.rd .YL_LINK_CTRL l) 1
     let u := s.plainWrite .YL_LINK_CTRL l w
     F.YL_LINK_CTRL_DISABLE.get w = 1 → u.lstate l ≠ lsDISABLED → u.linkUp l = true →
     exec (.linkDisable src l) s = .next (u.leaveUp l lsDISABLED)) ∧
    (let w := F.YL_LINK_CTRL_DISABLE.put (s.rd .YL_LINK_CTRL l) 0
     let u := s.plainWrite .YL_LINK_CTRL l w
     F.YL_LINK_CTRL_DISABLE.get w = 0 → F.YL_LINK_CTRL_RETRAIN.get w = 0 → u.lstate l = lsDISABLED → u.ylLocked = true →
     u.flag F.YL_LINK_CFG_EN l = true → u.linkHeld l = false →
     exec (.linkDisableClear src l) s = .next (u.setLstate l lsDETECT))) ∧
  (∀ (s : State) (src : Source), s.held = false → src.wf = true → s.admission src .YL_CFG_COMMIT 0 = .accept →
    (s.beginCommit .yl 0).ylLocked = false → (s.beginCommit .yl 0).expectBad = none →
    exec (.ylCfgCommit src) s = .next (s.beginCommit .yl 0))

/-- FLITs, acknowledgements and replay on a link (R476 to R489). Each command's effect in the states that have it: flitReceive,
ackTimer, nakRepeat, flitAcceptTimeout, replayAckTimeout. -/
def Obligations.LinkFlitCommandsComplete : Prop :=
  (∀ (s : State) (l cw s0 s1 : Nat) (b : List Byte), s.held = false → l < 96 → b.length = 256 → s.linkUp l = true →
    let u := ((s.wrap F.YL_FEC_CORR_CW_COUNT l cw).wrap F.YL_FEC_SYM0_COUNT l s0).wrap F.YL_FEC_SYM1_COUNT l s1
    (u.link l).judge b false = .sequenced →
    exec (.flitReceive l b false cw s0 s1) s = .next
      ((State.takeUnits 31 ((u.flitTaken l).wrap F.YL_RX_FLITS_COUNT l) l (flitWords b)).ackDue l)) ∧
  (∀ (s : State) (l cw s0 s1 : Nat) (b : List Byte), s.held = false → l < 96 → b.length = 256 → s.linkUp l = true →
    exec (.flitReceive l b true cw s0 s1) s = .next
      ((((s.wrap F.YL_FEC_CORR_CW_COUNT l cw).wrap F.YL_FEC_SYM0_COUNT l s0).wrap F.YL_FEC_SYM1_COUNT l s1).flitBad l fun s =>
        (s.bump F.YL_FEC_UNCORR_COUNT l).bump F.YL_REPLAY_CNT_COUNT l)) ∧
  (∀ (s : State) (l : Nat), s.held = false → l < 96 → s.linkUp l = true → (s.link l).unacked ≠ 0 → exec (.ackTimer l) s = .next (s.sendAck l)) ∧
  (∀ (s : State) (l : Nat), s.held = false → l < 96 → s.linkUp l = true → (s.link l).nak ≠ 0 → (s.link l).nak < 3 →
    exec (.nakRepeat l) s = .next
      (((s.setLink l { s.link l with nak := (s.link l).nak + 1 }).bump F.YL_REPLAY_CNT_COUNT l).sendAck l)) ∧
  (∀ (s : State) (l : Nat), s.held = false → l < 96 → exec (.flitAcceptTimeout l) s = .next (s.linkFault l) ∧
    ((s.link l).replay ≠ [] → exec (.replayAckTimeout l) s = .next (s.linkFault l)))

/-- Lanes lost and restored, and the reach of peer links (R490 to R510). Each command's effect in the states that have it:
receiveLaneLoss, oneLaneMarker, laneDropLockTimeout, laneTest, reachPeriodic, reachHold, reachStale. -/
def Obligations.LinkLaneCommandsComplete : Prop :=
  (∀ (s : State) (l mask k : Nat), s.held = false → l < 96 → mask < 4 → s.linkUp l = true →
    ((List.range 2).filter fun k => mask.testBit k && s.flag (if k = 0 then F.YL_LINK_STATUS_RX_L0 else F.YL_LINK_STATUS_RX_L1) l) = [k] →
    s.feature l 0 = true → s.flag F.YL_LINK_CFG_DEGRADE_EN l = true → (s.link l).drop = none → (s.link l).lane1 = none →
    let u := ((s.setLink l { s.link l with drop := some k, provisional := false }).setRxLanes l (k ≠ 0) (k ≠ 1)).setFlag
      (if k = 0 then F.YL_LANE_STATUS_RX0_LOCK else F.YL_LANE_STATUS_RX1_LOCK) false l
    let v := if u.lstate l = lsUP then (u.setLstate l lsDEGRADED).bump F.YL_DEGRADE_CNT_COUNT l else u
    exec (.receiveLaneLoss l mask) s = .next (v.sendControl l [])) ∧
  (∀ (s : State) (l k : Nat) (ok : Bool), s.held = false → l < 96 → (s.link l).drop = some k → s.linkUp l = true → (s.link l).provisional = false →
    exec (.oneLaneMarker l ok) s = .next (s.setLink l { s.link l with provisional := true })) ∧
  (∀ (s : State) (l k : Nat), s.held = false → l < 96 → (s.link l).drop = some k → (s.link l).provisional = false →
    exec (.laneDropLockTimeout l) s = .next (s.linkFault l)) ∧
  (∀ (s : State) (l ser0 ser1 : Nat) (hold : Bool), s.held = false → l < 96 → ser0 < 16 → ser1 < 16 →
    let u := (s.setFld F.YL_LANE_STATUS_RX0_SER ser0 l).setFld F.YL_LANE_STATUS_RX1_SER ser1 l
    ((s.link l).drop = none → exec (.laneTest l hold ser0 ser1) s = .next u) ∧
    (∀ k, (u.link l).drop = some k → (u.link l).provisional = true → u.linkUp l = true →
      let v := u.sendControl l [(u.link l).lcw loLANE_RESTORE k []]
      let w := ((v.setLink l { v.link l with drop := none, provisional := false }).setRxLanes l true true).setLock l true true
      exec (.laneTest l true ser0 ser1) s = .next (if w.bothWide l then w.setLstate l lsUP else w))) ∧
  (∀ (s : State) (l : Nat), s.held = false → l < 96 → isPeer l = true → s.linkUp l = true →
    exec (.reachPeriodic l) s = .next (s.sendReach l) ∧
    exec (.reachHold l) s = .next (s.setLink l { s.link l with held := true }).syncReach) ∧
  (∀ (s : State) (l : Nat), s.held = false → l < 96 → exec (.reachStale l) s = .next (s.setLink l { s.link l with reachMap := 0 }))

/-! ## TSP ports (12_host_interface.md) -/

/-- Training, faults and control of the ports (R570 to R585). Each command's effect in the states that have it: tspTrainDone,
tspTrainTimeout, tspNegotiateTimeout, tspLaneLoss, tspRecoverDone, tspRetry, tspRefclkLoss, tspRefclkReturn, tspDisableClear,
tspDisable, tspPortCommit. -/
def Obligations.TspPortCommandsComplete : Prop :=
  (∀ (s : State) (t : Nat), s.held = false → t < 16 → s.port t = tpTRAIN → s.refOk t = true →
    exec (.tspTrainDone t 15) s = .next ((((s.setPortLanes t 15 15).setPort t tpNEGOTIATE).beginNegotiate t).sendPortCaps t) ∧
    exec (.tspTrainTimeout t true) s = .next (s.portFail t tcLOCK) ∧
    exec (.tspTrainTimeout t false) s = .next (s.portFail t tcTRAIN)) ∧
  (∀ (s : State) (t : Nat), s.held = false → t < 16 → s.port t = tpNEGOTIATE → exec (.tspNegotiateTimeout t) s = .next (s.portFail t tcVERSION)) ∧
  (∀ (s : State) (t mask : Nat), s.held = false → t < 16 → mask < 16 → s.tspServes t = true →
    (s.fld F.TSP_PORT_STATUS_RX_LANES t ≠ 15 →
      ((List.range 4).filter fun k => mask.testBit k && (s.fld F.TSP_PORT_STATUS_RX_LANES t).testBit k) ≠ [] →
      exec (.tspLaneLoss t mask) s = .next (s.portFault t)) ∧
    (s.fld F.TSP_PORT_STATUS_RX_LANES t = 15 → (s.fld F.TSP_PORT_NEG_FEATURES t).testBit 0 = true →
      s.flag F.TSP_PORT_CTRL_DEGRADE_EN t = true → mask = 1 ∨ mask = 4 →
      let k := mask / 2
      let u := s.setFld F.TSP_PORT_STATUS_RX_LANES (otherPair k) t
      let v := u.setLink (96 + t) { u.link (96 + t) with drop := some k, provisional := false }
      exec (.tspLaneLoss t mask) s = .next
        ((if v.port t = tpUP then (v.bump F.TSP_DEGRADE_CNT_COUNT t).setPort t tpDEGRADED else v).sendControl (96 + t) []))) ∧
  (∀ (s : State) (t : Nat) (caps : List Nat) (c : Caps), s.held = false → t < 16 → s.port t = tpRECOVER → portCapsOf caps = some c →
    portCapsOk c = true → exec (.tspRecoverDone t true caps 15) s = .next
      (((s.beginNegotiate t).sendPortCaps t).portUp t c 15 false)) ∧
  (∀ (s : State) (t : Nat), s.held = false → t < 16 → s.port t = tpFAILED → s.flag F.TSP_PORT_CTRL_RETRY_EN t = true →
    s.fld F.TSP_PORT_STATUS_FAIL_CAUSE t ≠ tcVERSION → exec (.tspRetry none t) s = .next (s.setPort t tpTRAIN)) ∧
  (∀ (s : State) (k : Nat), s.held = false → k < 8 → (s.fld F.TSP_REF_STATUS_PAIR_OK).testBit k = true →
    exec (.tspRefclkLoss k) s = .next (((s.setBit .TSP_REF_STATUS 0 k false).each 2 fun s j =>
      if s.port (2 * k + j) = tpDISABLED then s else (s.portDown (2 * k + j) tpTRAIN).setPortCause (2 * k + j) tcREFCLK).record
        { cls := ecTSP, event := 1, inst := 2 * k, op := 8 })) ∧
  (∀ (s : State) (k : Nat), s.held = false → k < 8 → exec (.tspRefclkReturn k) s = .next (s.setBit .TSP_REF_STATUS 0 k true)) ∧
  (∀ (s : State) (src : Source) (t : Nat), s.held = false → src.wf = true → t < 16 → s.admission src .TSP_PORT_CTRL t = .accept →
    (let w := F.TSP_PORT_CTRL_DISABLE.put (s.rd .TSP_PORT_CTRL t) 0
     let u := s.plainWrite .TSP_PORT_CTRL t w
     F.TSP_PORT_CTRL_DISABLE.get w = 0 → F.TSP_PORT_CTRL_RETRAIN.get w = 0 → u.port t = tpDISABLED →
     exec (.tspDisableClear src t) s = .next (u.setPort t tpTRAIN)) ∧
    (let w := F.TSP_PORT_CTRL_DISABLE.put (s.rd .TSP_PORT_CTRL t) 1
     let u := s.plainWrite .TSP_PORT_CTRL t w
     F.TSP_PORT_CTRL_DISABLE.get w = 1 → u.port t ≠ tpDISABLED →
     exec (.tspDisable src t) s = .next (((u.portDown t tpDISABLED).dropOut t).dropWaiting t))) ∧
  (∀ (s : State) (src : Source) (t : Nat), s.held = false → src.wf = true → t < 16 → s.admission src .TSP_PORT_COMMIT t = .accept →
    let u := s.beginCommit .tsp t
    let v := (List.range 16).map fun k => u.snapOf .tsp t .TSP_STREAM_CRED (strm t k)
    v.foldl (fun n w => n + F.TSP_STREAM_CRED_BLOCKS.get w) 0 ≤ 4096 →
    (v.any fun w => (F.TSP_STREAM_CRED_BLOCKS.get w == 0) != (F.TSP_STREAM_CRED_TILES.get w == 0)) = false →
    exec (.tspPortCommit src t) s = .next u)

/-- FLITs and tiles of the ports (R577 to R584). Each command's effect in the states that have it: tspFlitReceive, tileUnit,
tspTileSend. -/
def Obligations.TspTileCommandsComplete : Prop :=
  (∀ (s : State) (t : Nat) (b : List Byte), s.held = false → t < 16 → b.length = 256 → s.tspServes t = true →
    ((s.link (96 + t)).judge b false = .sequenced → exec (.tspFlitReceive t b false) s = .next
      ((State.takeTspUnits 31 (s.flitTaken (96 + t)) t (flitWords b)).ackDue (96 + t))) ∧
    exec (.tspFlitReceive t b true) s = .next (s.flitBad (96 + t) fun s => s.bump F.TSP_REPLAY_CNT_COUNT t)) ∧
  (∀ (s : State) (t k q : Nat) (d : List Byte) (rest : List (Nat × Nat × List Byte)), s.held = false → t < 16 →
    (s.link (96 + t)).tilesIn = (k, q, d) :: rest → (((s.link (96 + t)).tseqs.find? fun e => e.1 = k).map (·.2)).getD 0 = q →
    let u := s.setLink (96 + t) { s.link (96 + t) with tilesIn := rest }
    let v := ((u.setLink (96 + t) { u.link (96 + t) with
      tseqs := (k, (q + 1) % 65536) :: (u.link (96 + t)).tseqs.filter fun e => e.1 ≠ k }).wrap F.TSP_TILES_IN_COUNT).wrap
        F.TSP_RX_BYTES_COUNT t d.length
    exec (.tileUnit t) s = .next (v.setInTiles t k (v.inTiles t k ++ [{ data := d, poison := containerPoison d }]))) ∧
  (∀ (s : State) (t k : Nat) (x : PortTile), s.held = false → t < 16 → s.tspServes t = true →
    let u := s.dropTooBig t
    (((List.range 16).map fun j => ((u.link (96 + t)).turn + 1 + j) % 16).find? (u.canSend t)) = some k → u.nextOut t k = some x →
    exec (.tspTileSend t) s = .next (u.sendTile t k x))

/-! ## Continuity (15_continuity.md) -/

/-- Mirrored programs, the pair, the handoff window (R700 to R712, R727 to R729). Each command's effect in the states that have it:
sequenceCopyDone, mirrorPushDone, mirrorBankWritten, mirrorCommitted, handoffMirrorWritten. -/
def Obligations.MirrorCommandsComplete : Prop :=
  (∀ (s : State) (n slot : Nat), s.held = false → n < 64 → slot < 1024 → (s.prog n).mir.copying.contains slot = true → s.mirrors n = true →
    s.mirDone n (mirCopy n slot) = true → let p := s.prog n
    exec (.sequenceCopyDone n slot) s = .next ((s.setProg n
      { p with mir := { p.mir with copying := p.mir.copying.filter (· ≠ slot), copied := slot :: p.mir.copied } }).freeCopies n
        (· == slot))) ∧
  (∀ (s : State) (n step : Nat) (es : List SeqSt) (rest : List (Nat × List SeqSt)), s.held = false → n < 64 →
    (s.prog n).mir.steps = (step, es) :: rest → (s.prog n).mir.stage = 0 → s.mirrors n = true → s.mirDone n (mirPush n step) = true →
    let kept := es.filter fun e => (s.prog n).mir.copied.contains e.slot
    let u := kept.foldl (fun u e =>
      u.mirWrite (mirBank n) (u.mirOff n (0x1000 + step % 2 * 0x10000 + 64 * e.slot)) e.bytes false) s
    exec (.mirrorPushDone n) s = .next (u.setProg n
      { u.prog n with mir := { (s.prog n).mir with stage := 1, steps := (step, kept) :: rest } })) ∧
  (∀ (s : State) (n step : Nat) (es : List SeqSt) (rest : List (Nat × List SeqSt)), s.held = false → n < 64 →
    (s.prog n).mir.steps = (step, es) :: rest → s.mirrors n = true → s.mirDone n (mirBank n) = true → let p := s.prog n
    (p.mir.stage = 1 → let u := s.mirWrite (mirBank n) (s.mirOff n 0) (mirHeader n p.part step false (es.map (·.slot))) false
      exec (.mirrorBankWritten n) s = .next (u.setProg n { u.prog n with mir := { p.mir with stage := 2 } })) ∧
    (p.mir.stage = 2 → exec (.mirrorCommitted n) s = .next
      (((s.setProg n { p with mir := { p.mir with stage := 0, steps := rest, committed := some (es.map (·.slot)) } }).syncMirrored
        n).mirRelease n))) ∧
  (∀ (s : State) (h : Handoff) (rest : List Handoff), s.held = false → s.handoffs = h :: rest → s.awaits (.handoff h.num) = false →
    let u := (s.takeFails (.handoff h.num)).1
    (s.takeFails (.handoff h.num)).2 = [] → let v : State := { u.dropClient (.handoff h.num) with handoffs := rest }
    exec .handoffMirrorWritten s = .next (if h.host then v.emit (.readValue h.answer.data false) else v.sendPacket h.answer))

/-- Pairing, loss of the partner, takeover and return (R695 to R726). Each command's effect in the states that have it:
pairingReadDone, pairingRetry, partnerLossTimer, takeover, restart, cntCommit, peerTakeover, handbackReq, handbackDone,
returnSweepDone, frozenPoll, bulkPullDone, deltaPullDone. -/
def Obligations.ContinuityCommandsComplete : Prop :=
  (∀ (s u : State) (env : Env) (st : Nat), s.held = false → s.cntState = csPAIRING → s.pairing env = (u, some st) → st ≠ csSERVING →
    let v : State := { u with
      partnerBase := ((u.partnerWord env 8 8).getD 0) / gib % 2 ^ 18
      partnerSize := ((u.partnerWord env 0x10 4).getD 0) % 2 ^ 14 }
    exec (.pairingReadDone env) s = .next (v.setCnt csPAIRED).startMirrors) ∧
  (∀ (s u : State) (env : Env), s.held = false → s.cntState = csPAIRING → s.pairing env = (u, some csSERVING) →
    let v : State := { u with
      partnerBase := ((u.partnerWord env 8 8).getD 0) / gib % 2 ^ 18
      partnerSize := ((u.partnerWord env 0x10 4).getD 0) % 2 ^ 14 }
    exec (.pairingReadDone env) s = .next (v.beginReturn (maskBits ((v.partnerWord env 0x40 8).getD 0)) [0, 1])) ∧
  (∀ s : State, s.held = false → s.cntState = csPAIRING → exec .pairingRetry s = .next s.readPartner) ∧
  (∀ s : State, s.held = false → s.reach s.partner = false → s.detours s.partner = [] → exec .partnerLossTimer s = .next (s.partnerLost llNO_PATH)) ∧
  (∀ (s : State) (src : Source), s.held = false → src.wf = true → s.admission src .CNT_CTRL 0 = .accept →
    (s.cntState = csPAIRED ∨ s.cntState = csSERVING → exec (.takeover src 0xA5) s = .next (s.partnerLost llHOST)) ∧
    (s.cntState = csALONE → exec (.restart src 0xA5) s = .next (s.setCnt csPAIRING).readPartner)) ∧
  (∀ (s : State) (src : Source), s.held = false → src.wf = true → s.admission src .CNT_COMMIT 0 = .accept → (s.beginCommit .cnt 0).cntCheck = 0 →
    exec (.cntCommit src) s = .next (s.beginCommit .cnt 0)) ∧
  (∀ (s : State) (m : Nat) (rest : List (Nat × Nat)), s.held = false → s.cntState = csPAIRED → s.peerCmds = (1, m) :: rest →
    exec .peerTakeover s = .next (((({ s with peerCmds := rest } : State).setFld F.CNT_STATE_LAST_LOSS llPEER_REQUEST).setCnt
      csSERVING).stopMirrors.takeover (maskBits m))) ∧
  (∀ (s : State) (m : Nat) (rest : List (Nat × Nat)), s.held = false → s.cntState = csSERVING → let u : State := { s with peerCmds := rest }
    (s.peerCmds = (2, m) :: rest → exec .handbackReq s = .next
      ((s.served.filter fun v => (maskBits m).contains v.prog && !v.back).foldl State.askBack u)) ∧
    (s.peerCmds = (3, m) :: rest →
      let v := (s.served.filter fun v => (maskBits m).contains v.prog).foldl State.endService u
      exec .handbackDone s = .next (if v.served.isEmpty then (v.setCnt csPAIRED).startMirrors else v))) ∧
  (∀ (s : State) (env : Env), s.held = false → s.cntState = csRETURNING → s.retSwept = false → s.retSweeping = false → s.retFailed = false →
    exec (.returnSweepDone env) s = .next
      ({ s with ret := (match s.partnerWord env 0x40 8 with
                        | some m => (maskBits m).map fun n => ({ prog := n } : RetProg)
                        | none => s.ret)
                retSwept := true } : State).endReturn) ∧
  (∀ (s : State) (n : Nat) (env : Env) (b : List Byte), s.held = false → n < 64 → s.cntState = csRETURNING → s.retHeader n env = some b →
    (leAt b 4 1).testBit 0 = true → let u := s.pullRead (s.prog n).part (s.mirOff n 0) 256
    exec (.frozenPoll n env) s = .next
      { u with ret := u.ret.map fun r => if r.prog = n && r.asked then { r with frozen := true } else r }) ∧
  (∀ (s : State) (env : Env), s.held = false → s.cntState = csRETURNING → s.retSwept = true →
    let l := s.ret.filterMap fun r =>
      if r.asked || !s.retReady r.prog then none else (s.retHeader r.prog env).map fun b => (r.prog, b, s.retEntries r.prog b env)
    l ≠ [] →
    let u := l.foldl (fun s x => x.2.2.foldl (fun s e => ((s.prog x.1).kvTiles e.kvBase e.pos).foldl (fun s t => s.pull x.1 e env t) s)
      (s.readRegion x.1 x.2.1 (x.2.2.map (·.slot)))) s
    let ret := u.ret.map fun (r : RetProg) =>
      match l.find? (fun x => x.1 == r.prog) with
      | some x => { r with asked := true, noted := x.2.2.map fun e => (e.slot, e.pos) }
      | none => r
    exec (.bulkPullDone env) s = .next (({ u with ret := ret } : State).tellPartner (l.map (·.1)) 2)) ∧
  (∀ (s : State) (n : Nat) (env : Env) (r : RetProg) (b : List Byte), s.held = false → n < 64 → s.cntState = csRETURNING → s.retReady n = true →
    (s.ret.find? fun r => r.prog == n && r.frozen) = some r → s.retHeader n env = some b →
    let es := s.retEntries n b env
    let slots := es.map (·.slot)
    let w := es.foldl (fun s e => ((s.prog n).kvRows e.kvBase (((r.noted.find? fun x => x.1 == e.slot).map (·.2)).getD 0) e.pos).foldl
      (fun s t => s.pull n e env t) s) (s.readRegion n b slots)
    let p := es.foldl (fun (p : ProgSt) e => p.apply (e.slot, some e)) (w.prog n)
    let u := (w.setProg n { p.assignLanes with mir := { p.mir with copied := slots, committed := some slots } }).syncProg n
    let v : State := { u with takenOwn := u.takenOwn.filter (· ≠ n), ret := u.ret.filter fun x => x.prog ≠ n }
    exec (.deltaPullDone n env) s = .next ((v.syncTaken.startProg n).tellPartner [n] 3).endReturn)

/-! ## Management (16_jxvm.md) -/

/-- The messages of a session (R775 to R777, R756, R760, R744, R784, R795). Each command's effect in the states that have it:
readEntries, writeEntries, commitGroup, discardGroup, describeEntries, saveConfig, keepalive, closeSession. -/
def Obligations.SessionMessagesComplete : Prop :=
  ∀ (s w : State) (d : Dgram) (env : Env) (k t : Nat) (a : List Byte), s.held = false → t ≠ 0x1F →
    (s.takesMessage w 0x10 d env k t a → exec (.readEntries d env) s = .next (w.answerIn k t d.reqId a)) ∧
    (s.takesMessage w 0x12 d env k t a → exec (.writeEntries d env) s = .next ((w.answerIn k t d.reqId a).serveMailbox env)) ∧
    (s.takesMessage w 0x14 d env k t a → exec (.commitGroup d env) s = .next (w.answerIn k t d.reqId a)) ∧
    (s.takesMessage w 0x16 d env k t a → exec (.discardGroup d env) s = .next (w.answerIn k t d.reqId a)) ∧
    (s.takesMessage w 0x18 d env k t a → exec (.describeEntries d env) s = .next (w.answerIn k t d.reqId a)) ∧
    (s.takesMessage w 0x1A d env k t a → exec (.saveConfig d env) s = .next (w.answerIn k t d.reqId a)) ∧
    (s.takesMessage w 0x1C d env k t a → exec (.keepalive d env) s = .next (w.answerIn k t d.reqId a)) ∧
    (s.takesMessage w 0x1E d env k 0x1F a →
      exec (.closeSession d env) s = .next ((w.answerIn k 0x1F d.reqId a).closeSession k))

/-- Messages outside a session: DISCOVER, HELLO and AUTH, and their timers (R774, R775, R780 to R786). Each command's effect in the
states that have it: discover, helloMsg, authMsg, fragmentTimeout, sessionIdleTimeout, handshakeTimeout. -/
def Obligations.SessionOpeningComplete : Prop :=
  (∀ (s v : State) (d : Dgram), s.held = false → s.rxFrame.mgmtServes = true → d.flags % 2 = 0 → s.rxFrame.silent d.toMac = false →
    s.rxFrame.assemble (8 + d.from_) 0x01 d = (v, .message []) →
    let recent := v.mg.discovers.filter fun e => decide (v.time < e.1 + 1000000000)
    recent.length < 16 → (recent.any fun e => e.2 == d.from_) = false →
    let u : State := { v.discoverRsp.1 with mg := { v.discoverRsp.1.mg with discovers := (v.time, d.from_) :: recent } }
    exec (.discover d) s = .next (u.sendMsg false 0x02 d.session 0 d.reqId v.discoverRsp.2)) ∧
  (∀ (s v : State) (d : Dgram) (b : List Byte) (k : Nat), s.held = false → s.rxFrame.mgmtServes = true → d.flags % 2 = 0 →
    s.rxFrame.silent d.toMac = false → s.rxFrame.assemble (8 + d.from_) 0x03 d = (v, .message b) → b.length = 1600 →
    sget 0 v.mg.hellos d.from_ ≤ v.time →
    let u : State := { v with mg := { v.mg with hellos := sput 0 d.from_ (v.time + 100000000) v.mg.hellos } }
    u.flag F.BOOT_STATUS_ID_VALID = true → ((List.range 2).find? fun k => (u.shake k).isNone) = some k → u.openSessions < 4 →
    let id := Config.freeNat u.free % (2 ^ 64 - 1) + 1
    let bytes := fun (j m : Nat) => (List.range m).map (Config.freeByte (u.free + j))
    exec (.helloMsg d) s = .next ((({ u with free := u.free + 4 } : State).setShake k (some { id := id, role := 0 })).sendMsg false 0x04 id 0
      d.reqId (bytes 1 32 ++ bytes 2 1568 ++ leBytes 2 u.credential.length ++ u.credential ++ bytes 3 4627))) ∧
  (∀ (s v w : State) (d : Dgram) (prov : Bool) (x : Session) (b : List Byte) (j k role : Nat) (slot : Option Nat), s.held = false →
    s.rxFrame.mgmtServes = true → ((List.range 2).find? fun k => (s.rxFrame.shake k).any fun y => y.id == d.session) = some k →
    s.rxFrame.shake k = some x → d.flags % 2 = 1 → d.tagOk = true → x.rx < d.seq →
    (s.rxFrame.setShake k (some { x with rx := d.seq })).silent d.toMac = false →
    (s.rxFrame.setShake k (some { x with rx := d.seq })).assemble (4 + k) 0x05 d = (v, .message b) → b.length = 14454 →
    v.grantRole b prov = some (role, slot) → ((List.range 4).find? fun j => (v.session j).isNone) = some j →
    w = (v.dropShake k).setSession j (some { id := x.id, role := role, anchor := slot, rx := d.seq, tx := x.tx }) →
    exec (.authMsg d true prov) s = .next (w.answerIn j 0x06 d.reqId (leBytes 1 role ++ leBytes 7 0))) ∧
  (∀ (s : State) (k : Nat), s.held = false → exec (.fragmentTimeout k) s = .next { s with mg := { s.mg with partials := s.mg.partials.eraseIdx k } }) ∧
  (∀ (s : State) (k : Nat), s.held = false → k < 4 → exec (.sessionIdleTimeout k) s = .next (s.closeSession k)) ∧
  (∀ (s : State) (k : Nat), s.held = false → k < 2 → exec (.handshakeTimeout k) s = .next (s.dropShake k))

/-- The mailbox, the groups of the management block, and flash (R758, R762, R764, R787, R788, R792 to R795). Each command's effect in
the states that have it: mbxDoorbell, openSession, mgtNetCommit, mgtAnchorCommit, mgtDelegCommit, saveFlashDone, configLoad. -/
def Obligations.MailboxAndConfigComplete : Prop :=
  (∀ (s : State) (src : Source) (v : Word) (env : Env), s.held = false → src.wf = true →
    exec (.mbxDoorbell src v env) s = .next ((s.regWrite src .MGT_MBX_DOORBELL 0 v env).1.serveMailbox env)) ∧
  (∀ (s : State) (reqId : Nat), s.held = false → reqId < 2 ^ 32 →
    let b := jxvHead 0x20 0 0 0 0 0 reqId 0
    let u : State := { s with mg := { s.mg with
      mbxReq := (List.range 8).foldl (fun m k => sput 0 k (leAt b (4 * k) 4) m) s.mg.mbxReq } }
    exec (.openSession reqId) s = .next ((u.regWrite .pf .MGT_MBX_DOORBELL 0 32 []).1.serveMailbox [])) ∧
  (∀ (s : State) (src : Source), s.held = false → src.wf = true → s.admission src .MGT_NET_COMMIT 0 = .accept →
    let u := s.beginCommit .net 0
    let p := u.snapOf .net 0 .MGT_NET_PLCA 0
    F.MGT_NET_PLCA_EN.get p = 0 → F.MGT_NET_PLCA_TO_TIMER.get p ≠ 0 → exec (.mgtNetCommit src) s = .next u) ∧
  (∀ (s : State) (src : Source) (k : Nat), s.held = false → src.wf = true → k < 8 → s.admission src .MGT_ANCHOR_COMMIT 0 = .accept →
    let u := s.beginCommit .anchor 0
    let v : State := { u with mg := { u.mg with anchorSnap := some u.mg.anchorsStaged } }
    (v.anchorStaged k).valid = true → 3 ≤ (v.anchorStaged k).roleMax → exec (.mgtAnchorCommit src) s = .next v) ∧
  (∀ (s : State) (src : Source), s.held = false → src.wf = true → s.admission src .MGT_DELEG_COMMIT 0 = .accept →
    let u := s.beginCommit .deleg 0
    delegCheck ((List.range 16).map fun k => u.snapOf .deleg 0 .MGT_DELEG k) = 0 → exec (.mgtDelegCommit src) s = .next u) ∧
  (∀ (s : State) (copy gen : Nat) (device : List Byte), s.held = false → s.mg.cfgSaving = some (copy, gen, device) → s.mg.owedRsp = [] →
    let u := ({ s with mg := { s.mg with cfgSaving := none, owedRsp := [] } } : State).setFlag F.MGT_CFG_STATUS_SAVE_BUSY false
    exec (.saveFlashDone false) s = .next u ∧
    exec (.saveFlashDone true) s = .next ((({ u with mg := { u.mg with cfgUsed := some (copy, gen, device) } } : State).setFld
      F.MGT_CFG_STATUS_GENERATION gen).setFld (copyState copy) csVALID)) ∧
  (∀ (s w : State) (env : Env), s.held = false → s.configReady = true →
    let a := s.readCopy env 0
    let b := s.readCopy env 1
    let u := ((s.setFld F.MGT_CFG_STATUS_A_STATE a.1).setFld F.MGT_CFG_STATUS_B_STATE b.1).setFlag F.MGT_CFG_STATUS_DEFAULTED false
    (∀ c, u.tryCopies (cfgOrder a.2 b.2) = (w, some c) → exec (.configLoad env) s = .next
      (((({ w with mg := { w.mg with cfgUsed := some (c.which, c.gen, c.device) } } : State).setFld
        F.MGT_CFG_STATUS_GENERATION c.gen).setFld F.MGT_CFG_STATUS_SOURCE c.which).configDone (sha3 c.image))) ∧
    (u.tryCopies (cfgOrder a.2 b.2) = (w, none) → exec (.configLoad env) s = .next
      ((((({ w.resetConfig with mg := { w.resetConfig.mg with cfgUsed := none } } : State).setFld F.MGT_CFG_STATUS_SOURCE 2).setFlag
        F.MGT_CFG_STATUS_DEFAULTED true).record { cls := ecMGT, event := 1 }).configDone (leBytes 64 0))))

/-- The lease and the management segment (R732 to R736, R769 to R772). Each command's effect in the states that have it: leaseRenew,
leaseExpiry, neighborSolicitation, echoRequest, dadComplete, droppedFrame, beaconLoss, beaconSeen. -/
def Obligations.LeaseAndNetComplete : Prop :=
  (∀ (s : State) (h : Half) (e : Nat), s.held = false → e < 2 ^ 32 → s.holder = some h → s.fld F.CNT_LEASE_STATUS_EPOCH = e →
    exec (.leaseRenew h e) s = .next (s.setFld F.CNT_LEASE_STATUS_AGE_NS 0)) ∧
  (∀ (s : State) (h : Half), s.held = false → s.nextHolder = some h → s.holder ≠ some h →
    exec .leaseExpiry s = .next (((s.grantLease h).closeNet.dropShake 0).dropShake 1)) ∧
  (∀ (s : State) (target : List Byte), s.held = false → target = s.rxFrame.ipv6 → s.rxFrame.silent true = false →
    exec (.neighborSolicitation target true) s = .next
      ((s.rxFrame.emit (.icmp "neighbor advertisement" (s.rxFrame.ipv6 ++ s.rxFrame.mac))).txFrame)) ∧
  (∀ (s : State) (target data : List Byte), s.held = false → target = s.rxFrame.ipv6 → s.rxFrame.silent true = false →
    exec (.echoRequest target data true) s = .next ((s.rxFrame.emit (.icmp "echo reply" data)).txFrame)) ∧
  (∀ (s : State) (b : Bool), s.held = false → exec (.dadComplete b) s = .next (s.setFlag F.MGT_NET_STATUS_DUP b)) ∧
  (∀ (s : State) (why : Nat), s.held = false → why < 5 → exec (.droppedFrame why) s = .next
    ((if why = 0 ∨ why = 4 then s else s.rxFrame).bump ([F.MGT_NET_FCS_ERR_COUNT, F.MGT_NET_OTHER_COUNT, F.MGT_NET_UNAUTH_COUNT,
      F.MGT_NET_LIMITED_COUNT].getD why F.MGT_NET_COLLISIONS_COUNT))) ∧
  (∀ s : State, s.held = false → let u := ({ s with mg := { s.mg with beacons := 0 } } : State).setFlag F.MGT_NET_STATUS_BEACON false
    u.flag F.MGT_NET_STATUS_PLCA_ACTIVE = true →
    exec .beaconLoss s = .next ((u.setFlag F.MGT_NET_STATUS_PLCA_ACTIVE false).bump F.MGT_NET_BEACON_LOSS_COUNT)) ∧
  (∀ s : State, s.held = false →
    let v : State := { s with mg := { s.mg with beacons := min 2 (s.mg.beacons + 1) } }
    let u := v.setFlag F.MGT_NET_STATUS_BEACON true
    u.flag F.MGT_NET_PLCA_EN = true → 2 ≤ u.mg.beacons → exec .beaconSeen s = .next (u.setFlag F.MGT_NET_STATUS_PLCA_ACTIVE true))

/-! ## Metering, boot, time, life and thermal (17_metering.md, 18_boot_and_identity.md, 19_operations.md) -/

/-- Commands to Scale (R800 to R818). Each command's effect in the states that have it: tick, compMsg, tokensMsg, timeMsg,
scaleTimeTimeout, scaleLoadDone, scaleSramUncorr, recordPersisted, sclOffer, offerVerifyDone, offerFlashDone. -/
def Obligations.MeteringCommandsComplete : Prop :=
  (∀ s : State, s.held = false → s.metering = false → exec .tick s = .next { s with scale := { s.scale with gap := true } }) ∧
  (∀ s : State, s.held = false → s.metering = true →
    let t := s.fld F.SCL_TICK_VALUE + 1
    let u := (sclKeys 9).foldl (fun s k => s.when (s.scale.enabled k.2) fun s => s.sclAdd k.1 k.2 (s.metered k.1 k.2)) (s.sclChange t).sclHold
    let v := ({ u with scale := { u.scale with
      tokens := [], undisc := u.scale.undisc || !u.flag F.SCL_STATUS_DISCIPLINED } } : State).setFld F.SCL_TICK_VALUE t
    exec .tick s = .next (if t % 60000 = 0 then v.cutRecord rrPERIODIC t else v)) ∧
  (∀ (s : State) (p c : Nat), s.held = false → p < 128 → c < 8 → s.scale.change = none → s.metered p c ≠ sget 0 s.scale.vals (16 * p + c) →
    s.scale.enabled c = true → exec (.compMsg p c) s = .next { s with scale := { s.scale with change := some (p, c) } }) ∧
  (∀ (s : State) (p : Nat), s.held = false → p < 128 → s.metering = true → exec (.tokensMsg p) s = .next { s with
    tokPend := sput 0 p 0 s.tokPend
    scale := { s.scale with tokens := sput 0 p (sget 0 s.scale.tokens p + sget 0 s.tokPend p) s.scale.tokens } }) ∧
  (∀ (s : State) (resid : Nat) (want : Int), s.held = false → resid ≤ 1000 → -20000 ≤ want → want ≤ 20000 →
    sgn 16 (s.fld F.SCL_DISC_CORR) - 100 ≤ want → want ≤ sgn 16 (s.fld F.SCL_DISC_CORR) + 100 →
    s.flag F.BOOT_TIME_STATUS_DISCIPLINED = true → exec (.timeMsg resid want) s = .next
      (({ (s.setFld F.SCL_DISC_CORR (twos 16 want)).setFld F.SCL_DISC_RESID resid with
          scale := { ((s.setFld F.SCL_DISC_CORR (twos 16 want)).setFld F.SCL_DISC_RESID resid).scale with timeOk := true } } :
        State).setFlag F.SCL_STATUS_DISCIPLINED true)) ∧
  (∀ s : State, s.held = false → exec .scaleTimeTimeout s = .next (s.setFlag F.SCL_STATUS_DISCIPLINED false)) ∧
  (∀ s : State, s.held = false → s.sclState = scLOADING →
    let u := s.sclRestore.sclHold.setFld F.SCL_STATUS_STATE scMETERING
    let v : State := { u with scale := { u.scale with unclean := u.scale.unclean || !u.scale.closed } }
    exec (.scaleLoadDone true) s = .next (v.cutRecord rrPOWER_UP (v.fld F.SCL_TICK_VALUE))) ∧
  (∀ s : State, s.held = false → s.metering = true →
    let u := s.sclRestore.setFld F.SCL_STATUS_STATE scLOADING
    exec .scaleSramUncorr s = .next { u with scale := { u.scale with unclean := true, image := none } }) ∧
  (∀ (s : State) (r : List Byte) (q : List (List Byte)), s.held = false → s.scale.queue = r :: q → leAt r 3 1 ≠ rrSHUTDOWN →
    exec .recordPersisted s = .next (({ s with scale := { s.scale with
      queue := q, saved := some r, mirror := sput [] (leAt r 8 8 % 64) r s.scale.mirror } } : State).setFld F.SCL_LAST_SEQ_VALUE (leAt r 8 8))) ∧
  (∀ (s : State) (src : Source) (data : List Byte), s.held = false → src.wf = true → s.entryStatus src 0x2F40 = stOK → data.length ≤ 16368 →
    data.length < sclOfferMax → s.metering = true → s.fld F.SCL_OFFER_STATUS_RESULT ≠ ofVERIFYING → s.scale.image = none →
    data ≠ [] → sclOfferMax < 2 ^ 32 → exec (.sclOffer src 0 sclOfferMax data) s = .next
      ((({ s with scale := { s.scale with offer := data, offerTotal := sclOfferMax } } : State).setFld
        F.SCL_OFFER_STATUS_RESULT ofRECEIVING).setFld F.SCL_OFFER_STATUS_HELD data.length)) ∧
  (∀ (s : State) (v cls : Nat) (m : List Byte), s.held = false → s.metering = true → s.fld F.SCL_OFFER_STATUS_RESULT = ofVERIFYING → s.scale.image = none →
    s.fld F.SCL_FW_VERSION_PARAM_VERSION < v → v < 65536 → m.length = 16 → cls < 512 →
    let u := s.cutRecord rrEVENT (s.fld F.SCL_TICK_VALUE)
    exec (.offerVerifyDone true 2 v m cls) s = .next { u with scale := { u.scale with image := some (2, v, m, cls) } }) ∧
  (∀ (s : State) (k v cls : Nat) (m : List Byte), s.held = false → s.scale.image = some (k, v, m, cls) →
    exec (.offerFlashDone false) s = .next (({ s with scale := { s.scale with image := none } } : State).setFld
      F.SCL_OFFER_STATUS_RESULT ofFLASH)) ∧
  (∀ (s : State) (v cls : Nat) (m : List Byte), s.held = false → s.scale.image = some (1, v, m, cls) →
    exec (.offerFlashDone true) s = .next ((((({ s with
      scale := { s.scale with image := none, fwDigest := some (sha3 s.scale.offer) } } : State).wrap F.SCL_EVENT_CNT_COUNT).setFld
      F.SCL_FW_VERSION_FW_VERSION v).setFld F.SCL_OFFER_STATUS_RESULT ofACCEPTED).record { cls := ecSCL, event := 1, half := some .west }))

/-- The boot of a half, firmware offers and anti-rollback (R820 to R829, R840, R841). Each command's effect in the states that have
it: romStageDone, imageReadDone, verifyDone, serdesDone, bootSvnCommit, fwOffer, fwOfferVerifyDone. -/
def Obligations.BootCommandsComplete : Prop :=
  (∀ s : State, s.held = false → s.bootStage .east = sgROM →
    let u := (s.setFlag F.BOOT_STATUS_ID_VALID true).setStage .east sgIMAGE
    exec (.romStageDone .east true) s = .next (if u.holder = none then u.grantLease .east else u)) ∧
  (∀ (s : State) (h : Half) (a b : Option Img) (k : Nat), s.held = false → s.bootStage h = sgIMAGE → s.half h ≠ hsResetting → s.holder = some h →
    s.bootStage (otherHalf h) < sgVERIFY →
    let u : State := { s with boot := { s.boot with slots := [a, b] } }
    u.boot.choose = some k → exec (.imageReadDone h a b) s = .next ((u.setFld F.BOOT_STATUS_SLOT k).setStage h sgVERIFY)) ∧
  (∀ (s : State) (h : Half) (i : Img), s.held = false → s.bootStage h = sgVERIFY → s.published = some i → i.keyOk = true → i.sigOk = true →
    s.boot.rpmcKey = true → s.boot.rpmc ≤ i.svn →
    exec (.verifyDone h true) s = .next (({ s with boot := { s.boot with rpmcKey := true } } : State).verified h i)) ∧
  (∀ (s : State) (h : Half), s.held = false → s.bootStage h = sgSERDES → s.boot.done = false →
    let u : State := { s with boot := { s.boot with badQuads := s.boot.badQuads.filter fun q => q / 24 ≠ halfNum h } }
    exec (.serdesDone h 0) s = .next (u.setStage h sgCONFIG)) ∧
  (∀ (s : State) (src : Source) (v : Word), s.held = false → src.wf = true → s.admission src .BOOT_SVN_COMMIT 0 = .accept →
    F.BOOT_SVN_COMMIT_CONFIRM.get v = 0xA5 → F.BOOT_SVN_COMMIT_GO.get v ≠ 0 → s.boot.rpmc < s.fld F.BOOT_SVN_IMAGE_SVN →
    exec (.bootSvnCommit src v) s = .next (({ s with boot := { s.boot with rpmc := s.fld F.BOOT_SVN_IMAGE_SVN } } : State).setFld
      F.BOOT_SVN_COUNTER (s.fld F.BOOT_SVN_IMAGE_SVN))) ∧
  (∀ (s : State) (src : Source) (off tot : Nat) (data : List Byte), s.held = false → src.wf = true → off < 2 ^ 32 → tot < 2 ^ 32 →
    s.entryStatus src 0x1011 = stOK → data.length ≤ 16368 → s.fld F.BOOT_OFFER_RESULT ≠ ofVERIFYING → 0 < off →
    off = s.fld F.BOOT_OFFER_HELD → tot = s.boot.offerTotal → off + data.length < tot →
    exec (.fwOffer src off tot data) s = .next ((({ s.setFld F.BOOT_OFFER_RESULT ofRECEIVING with
        boot := { (s.setFld F.BOOT_OFFER_RESULT ofRECEIVING).boot with offerTotal := tot } } : State).setFld F.BOOT_OFFER_HELD
          (off + data.length)).emit (.flashWrite (slotBase (1 - (({ s.setFld F.BOOT_OFFER_RESULT ofRECEIVING with
        boot := { (s.setFld F.BOOT_OFFER_RESULT ofRECEIVING).boot with offerTotal := tot } } : State).setFld F.BOOT_OFFER_HELD
          (off + data.length)).fld F.BOOT_STATUS_SLOT) + off) data))) ∧
  (∀ (s : State) (i : Img), s.held = false → s.fld F.BOOT_OFFER_RESULT = ofVERIFYING → i.keyOk = true → i.sigOk = true → s.boot.rpmc ≤ i.svn →
    exec (.fwOfferVerifyDone true (some i)) s = .next (s.setFld F.BOOT_OFFER_RESULT ofACCEPTED))

/-- Attestation and the calendar (R837, R838, R842 to R846). Each command's effect in the states that have it: attestNonce,
attestReportReady, bootTimeSync, bootTimeFollow, bootTimeHost, deviceTimeUndisciplined. -/
def Obligations.AttestationAndTimeComplete : Prop :=
  (∀ (s : State) (src : Source) (n : List Byte), s.held = false → src.wf = true → s.entryStatus src 0x2F63 = stOK → n.length = 64 →
    exec (.attestNonce src true n) s = .next { s with attestHost := some { nonce := n } }) ∧
  (∀ (s : State) (src : Source) (n : List Byte), s.held = false → src.wf = true → s.entryStatus src 0x1010 = stOK → n.length = 64 →
    s.flag F.BOOT_STATUS_ID_VALID = true → exec (.attestNonce src false n) s = .next { s with attestNet := some { nonce := n } }) ∧
  (∀ (s : State) (a : Attest), s.held = false → s.flag F.BOOT_STATUS_ID_VALID = true → s.attestNet = some a →
    ∃ sig : List Byte, sig.length = 4627 ∧ exec (.attestReportReady false) s = .next { s with
      attestNet := some { a with report := some (s.reportBody a.nonce ++ sig) }, free := s.free + 1 }) ∧
  (∀ (s : State) (src : Source) (n : Nat), s.held = false → src.wf = true → n < 2 ^ 32 → s.entryStatus src 0x1104 = stOK →
    exec (.bootTimeSync src n) s = .next { s with cal := { s.cal with sync := some (n, s.time) } }) ∧
  (∀ (s : State) (src : Source) (n t1 t2 : Nat), s.held = false → src.wf = true → n < 2 ^ 32 → t1 < 2 ^ 64 → s.entryStatus src 0x1104 = stOK →
    s.cal.sync = some (n, t2) → s.flag F.BOOT_TIME_CTRL_EN_NET = true → s.flag F.BOOT_TIME_STATUS_RESTORED = false →
    exec (.bootTimeFollow src n t1) s = .next
      ((s.restoreCalendar ((t1 + s.fld F.BOOT_TIME_CTRL_DELAY_NS) % 2 ^ 64) t2).acceptSample true)) ∧
  (∀ (s : State) (src : Source) (u : Word), s.held = false → src.wf = true → s.admission src .BOOT_TIME_HOST 0 = .accept →
    s.flag F.BOOT_TIME_CTRL_EN_HOST = true → s.flag F.BOOT_TIME_CTRL_EN_NET = false →
    let far := apart u.toNat ((s.time + s.fld F.BOOT_UTC_OFFSET_VALUE) % 2 ^ 64)
    (s.flag F.BOOT_TIME_STATUS_RESTORED = false →
      exec (.bootTimeHost src u) s = .next ((s.restoreCalendar u.toNat s.time).acceptSample false)) ∧
    (s.flag F.BOOT_TIME_STATUS_RESTORED = true → far ≤ 1000000000 → exec (.bootTimeHost src u) s = .next (s.acceptSample false)) ∧
    (s.flag F.BOOT_TIME_STATUS_RESTORED = true → 1000000000 < far → s.cal.last = none →
      exec (.bootTimeHost src u) s = .next (s.bump F.BOOT_TIME_STATUS_REJECTS))) ∧
  (∀ s : State, s.held = false → exec .deviceTimeUndisciplined s = .next (s.setFlag F.BOOT_TIME_STATUS_DISCIPLINED false))

/-- The life log, shutdown, the sensors and throttling (R847 to R852, R868 to R876, R566). Each command's effect in the states that
have it: lifeSnapshotTimer, persistNow, shutdown, snapshotWriteDone, lifeServiceAdd, sensorRead, pmbusPoll, avsAdjust, throttleStep,
prochot, quadRefclkLoss. -/
def Obligations.LifeAndThermalComplete : Prop :=
  (∀ s : State, s.held = false →
    (s.snaps.busy.isSome = true → exec .lifeSnapshotTimer s = .next { s with snaps := { s.snaps with again := true } }) ∧
    (s.snaps.busy = none →
      let t := (s.lifeSet 0x5000 5 (s.lifeGet 0x5000 5 + 1)).lifeSet 0x5000 6 (s.utcNs / 1000000)
      let x : Snap := ⟨(s.snaps.saved.elim 0 fun p => p.seq + 1) % 2 ^ 32, t.life, s.snaps.service⟩
      let u := ({ s with snaps := { s.snaps with busy := some x, again := false } } : State).setFlag F.LIFE_STATUS_PERSIST_BUSY true
      let at_ := 0xF00000 + 0x4000 * s.snaps.slot
      let v := (if u.snaps.slot % 4 = 0 then u.emit (.note "flash sector erase" [at_]) else u).emit (.flashWrite at_ (t.snapBytes x.seq))
      exec .lifeSnapshotTimer s = .next v ∧
      (∀ src : Source, src.wf = true → s.admission src .LIFE_CTRL 0 = .accept → exec (.persistNow src) s = .next v))) ∧
  (∀ (s : State) (src : Source), s.held = false → src.wf = true → s.admission src .LIFE_CTRL 0 = .accept → s.snaps.stage = 0 →
    (∀ n, s.live n = false) → exec (.shutdown src 0xA5) s = .next ({ s with snaps := { s.snaps with stage := 1 } } : State).advanceShutdown) ∧
  (∀ (s : State) (ok : Bool), s.held = false → s.snaps.busy.isSome = true → s.snaps.stage ≠ 2 → exec (.snapshotWriteDone ok) s = .next (s.endSnap ok)) ∧
  (∀ (s : State) (src : Source) (v : Word), s.held = false → src.wf = true → s.admission src .LIFE_SERVICE_ADD 0 = .accept →
    exec (.lifeServiceAdd src v) s = .next
      ({ s.lifeSet 0x5080 (3 + s.snaps.service) (v.toNat / 65536 * 65536) with snaps :=
        { (s.lifeSet 0x5080 (3 + s.snaps.service) (v.toNat / 65536 * 65536)).snaps with service := (s.snaps.service + 1) % 16 } } :
        State).beginSnap) ∧
  (∀ (s : State) (dies : List Int), s.held = false → dies.length = 6 →
    let d := fun k => dies.getD k 0
    let u : State := { s with sensors := dies, tempE := maxInt [d 0, d 2, d 3], tempW := maxInt [d 1, d 4, d 5] }
    exec (.sensorRead dies) s = .next ((u.noteTj.noteCycle.beginThrottle false).trip)) ∧
  (∀ (s : State) (rails : List (Option (Nat × Nat))), s.held = false → rails.length = 18 →
    let u := (List.range 18).foldl (fun s i => s.pollRail i (rails.getD i none)) s
    let w := (List.range 18).foldl (fun a i => a + u.railPower i) 0
    let v : State := { u with power := (w :: u.power).take 5, voltE := sget 0 u.railV 2, voltW := sget 0 u.railV 3 }
    exec (.pmbusPoll rails) s = .next (v.beginThrottle (decide (165000000 < w)))) ∧
  (∀ (s : State) (e w : Nat), s.held = false → s.flag F.PKG_AVS_CTRL_EN = true →
    let e' := avsStep (s.fld F.PKG_AVS_CTRL_SET_E_MV) e
    let w' := avsStep (s.fld F.PKG_AVS_CTRL_SET_W_MV) w
    let u := (s.setFld F.PKG_AVS_CTRL_SET_E_MV e').emit (.note "VOUT_COMMAND" [2, e'])
    (s.fld F.PKG_AVS_CTRL_SET_E_MV = e' → s.fld F.PKG_AVS_CTRL_SET_W_MV = w' → exec (.avsAdjust e w) s = .next s) ∧
    (s.fld F.PKG_AVS_CTRL_SET_E_MV ≠ e' → u.fld F.PKG_AVS_CTRL_SET_W_MV ≠ w' →
      exec (.avsAdjust e w) s = .next ((u.setFld F.PKG_AVS_CTRL_SET_W_MV w').emit (.note "VOUT_COMMAND" [3, w'])))) ∧
  (∀ s : State, s.held = false →
    (s.fld (thState 0) ≠ thTHROTTLE → s.fld (thState 1) ≠ thTHROTTLE → exec .throttleStep s = .next (s.throttled id)) ∧
    (s.fld (thState 0) = thTHROTTLE → s.hasCause 0 = true →
      let u := s.setFld (thDuty 0) (max 1 (s.fld (thDuty 0) - 1))
      u.fld (thState 1) ≠ thTHROTTLE → exec .throttleStep s = .next (s.throttled fun _ => u))) ∧
  (∀ (s : State) (low : Bool), s.held = false → exec (.prochot low) s = .next ((s.setFlag F.PKG_THROTTLE_STATUS_PROCHOT low).beginThrottle low)) ∧
  (∀ (s : State) (io q : Nat), s.held = false → io < 4 → q < 12 → exec (.quadRefclkLoss io q) s =
    .next ((s.loseReference (dieLink io (2 * q))).loseReference (dieLink io (2 * q + 1))))
end

