-- ==== Sys2Proof/Laws/Sparse.lean ====
section
/-!
SUPPORT. Sparse maps: what a key reads as after a write, and that a write keeps the keys rising.
-/

namespace Sys2Proof.Machine

variable {α : Type}

/-- A map whose keys all lie above `lo` lists nothing at or below it. -/
theorem sget_le {d : α} {m : Sparse α} {lo k : Nat} (h : srising (some lo) m = true) (hk : k ≤ lo) : sget d m k = d := by
  induction m generalizing lo with
  | nil => rfl
  | cons e r ih =>
    simp only [srising, Bool.and_eq_true, decide_eq_true_eq] at h
    have hne : ¬ e.1 = k := by omega
    show (if e.1 = k then e.2 else sget d r k) = d
    rw [if_neg hne]
    exact ih h.2 (by omega)

/-- Rising keys above `lo` are rising keys above anything lower. -/
theorem srising_mono {m : Sparse α} {lo lo' : Nat} (h : srising (some lo) m = true) (hl : lo' ≤ lo) : srising (some lo') m = true := by
  cases m with
  | nil => rfl
  | cons e r =>
    simp only [srising, Bool.and_eq_true, decide_eq_true_eq] at h ⊢
    exact ⟨by omega, h.2⟩

/-- Rising keys above a bound are rising keys. -/
theorem srising_none {m : Sparse α} {lo : Nat} (h : srising (some lo) m = true) : srising none m = true := by
  cases m with
  | nil => rfl
  | cons e r =>
    simp only [srising, Bool.and_eq_true] at h ⊢
    exact ⟨trivial, h.2⟩

/-- The rest of a rising map. -/
theorem srising_tail {lo : Option Nat} {e : Nat × α} {r : Sparse α} (h : srising lo (e :: r) = true) :
    srising (some e.1) r = true := by
  simp only [srising, Bool.and_eq_true] at h
  exact h.2

/-- The first key of a map rising above `lo`. -/
theorem srising_head {lo : Nat} {e : Nat × α} {r : Sparse α} (h : srising (some lo) (e :: r) = true) : lo < e.1 := by
  simp only [srising, Bool.and_eq_true, decide_eq_true_eq] at h
  exact h.1

/-- A rising map with a first entry. -/
theorem srising_cons {lo : Nat} {e : Nat × α} {r : Sparse α} (h1 : lo < e.1) (h2 : srising (some e.1) r = true) :
    srising (some lo) (e :: r) = true := by
  simp only [srising, Bool.and_eq_true, decide_eq_true_eq]
  exact ⟨h1, h2⟩


/-- A write above `lo` keeps the keys rising above `lo`. -/
theorem srising_sput_some [DecidableEq α] {d v : α} {k lo : Nat} {m : Sparse α} (h : srising (some lo) m = true) (hk : lo < k) :
    srising (some lo) (sput d k v m) = true := by
  induction m generalizing lo with
  | nil =>
    rw [sput]
    split
    · rfl
    · exact srising_cons hk rfl
  | cons e r ih =>
    rw [sput]
    split
    · split
      · exact h
      · exact srising_cons hk (srising_cons ‹_› (srising_tail h))
    · split
      · rename_i _ he
        subst he
        have ht : srising (some e.1) r = true := srising_tail h
        split
        · exact srising_mono ht (Nat.le_of_lt hk)
        · exact srising_cons hk ht
      · exact srising_cons (srising_head h) (ih (srising_tail h) (by omega))

/-- A write keeps the keys rising. -/
theorem srising_sput [DecidableEq α] {d v : α} {k : Nat} {m : Sparse α} (h : srising none m = true) : srising none (sput d k v m) = true := by
  cases m with
  | nil =>
    rw [sput]
    split <;> rfl
  | cons e r =>
    have ht : srising (some e.1) r = true := srising_tail h
    rw [sput]
    split
    · split
      · exact h
      · simp only [srising, Bool.true_and, Bool.and_eq_true, decide_eq_true_eq]
        exact ⟨‹_›, ht⟩
    · split
      · rename_i _ he
        subst he
        split
        · exact srising_none ht
        · simp only [srising, Bool.true_and]; exact ht
      · simp only [srising, Bool.true_and]; exact srising_sput_some ht (by omega)

/-- Dropping entries keeps the keys rising above a bound. -/
theorem srising_filter_some {p : Nat × α → Bool} {lo : Nat} {m : Sparse α} (h : srising (some lo) m = true) :
    srising (some lo) (m.filter p) = true := by
  induction m generalizing lo with
  | nil => rfl
  | cons e r ih =>
    rw [List.filter]
    split
    · exact srising_cons (srising_head h) (ih (srising_tail h))
    · exact ih (srising_mono (srising_tail h) (Nat.le_of_lt (srising_head h)))

/-- Dropping entries keeps the keys rising. -/
theorem srising_filter {p : Nat × α → Bool} {m : Sparse α} (h : srising none m = true) : srising none (m.filter p) = true := by
  cases m with
  | nil => rfl
  | cons e r =>
    have ht := srising_tail h
    rw [List.filter]
    split
    · simp only [srising, Bool.true_and]; exact srising_filter_some ht
    · exact srising_none (srising_filter_some ht)

/-- A key reads what was written to it. -/
theorem sget_sput_same [DecidableEq α] {d v : α} {k : Nat} {m : Sparse α} (h : srising none m = true) : sget d (sput d k v m) k = v := by
  induction m with
  | nil =>
    rw [sput]
    split
    · rename_i he
      exact he.symm
    · rw [sget, if_pos rfl]
  | cons e r ih =>
    have ht : srising (some e.1) r = true := srising_tail h
    rw [sput]
    split
    · split
      · rename_i _ he
        rw [he]
        exact sget_le (lo := k) (srising_cons ‹_› ht) (Nat.le_refl k)
      · rw [sget, if_pos rfl]
    · split
      · rename_i _ he
        subst he
        split
        · rename_i hv
          rw [hv]
          exact sget_le ht (Nat.le_refl _)
        · rw [sget, if_pos rfl]
      · rename_i _ he
        rw [sget, if_neg he]
        exact ih (srising_none ht)

/-- Every other key reads as before, whatever its default. -/
theorem sget_sput_other [DecidableEq α] {d d' v : α} {k j : Nat} {m : Sparse α} (hj : j ≠ k) : sget d' (sput d k v m) j = sget d' m j := by
  induction m with
  | nil =>
    rw [sput]
    split
    · rfl
    · exact if_neg (Ne.symm hj)
  | cons e r ih =>
    rw [sput]
    split
    · split
      · rfl
      · exact if_neg (Ne.symm hj)
    · split
      · rename_i _ he
        subst he
        split
        · exact (if_neg (Ne.symm hj)).symm
        · exact (if_neg (Ne.symm hj)).trans (if_neg (Ne.symm hj)).symm
      · rw [sget, sget, ih]

end Sys2Proof.Machine
end

