-- ==== Sys2Proof/Laws/Memory.lean ====
section
/-!
SUPPORT. Memory: every operation keeps the canonical form, and what a byte reads as after a write.
-/

namespace Sys2Proof.Machine

theorem Memory.wf_iff {m : Memory} : m.wf = true ↔
    srising none m.cells = true ∧ (∀ e ∈ m.cells, e.2 ≠ m.default e.1) ∧ rising m.poison = true ∧ rising m.clean = true := by
  unfold Memory.wf
  simp only [Bool.and_eq_true, List.all_eq_true, decide_eq_true_eq]
  constructor
  · rintro ⟨⟨⟨h1, h2⟩, h3⟩, h4⟩
    exact ⟨h1, h2, h3, h4⟩
  · rintro ⟨h1, h2, h3, h4⟩
    exact ⟨⟨⟨h1, h2⟩, h3⟩, h4⟩

/-- What is listed after a write was listed before, or is the byte written. -/
theorem mem_sput {α : Type} [DecidableEq α] {d v : α} {k : Nat} {m : Sparse α} {e : Nat × α} (h : e ∈ sput d k v m) :
    e ∈ m ∨ (e = (k, v) ∧ v ≠ d) := by
  induction m with
  | nil =>
    rw [sput] at h
    split at h
    · cases h
    · rw [List.mem_singleton] at h
      exact .inr ⟨h, ‹_›⟩
  | cons x r ih =>
    rw [sput] at h
    split at h
    · split at h
      · exact .inl h
      · rcases List.mem_cons.1 h with h | h
        · exact .inr ⟨h, ‹_›⟩
        · exact .inl h
    · split at h
      · split at h
        · exact .inl (List.mem_cons_of_mem _ h)
        · rcases List.mem_cons.1 h with h | h
          · exact .inr ⟨h, ‹_›⟩
          · exact .inl (List.mem_cons_of_mem _ h)
      · rcases List.mem_cons.1 h with h | h
        · exact .inl (h ▸ List.mem_cons_self)
        · exact (ih h).imp_left (List.mem_cons_of_mem _)

/-! ## Rising lists of numbers -/

theorem rising_cons {x : Nat} {l : List Nat} : rising (x :: l) = true ↔ (∀ y ∈ l, x < y) ∧ rising l = true := by
  induction l generalizing x with
  | nil => simp [rising]
  | cons y r ih =>
    simp only [rising, Bool.and_eq_true, decide_eq_true_eq, ih, List.mem_cons]
    constructor
    · rintro ⟨h1, h2, h3⟩
      exact ⟨fun z hz => hz.elim (fun e => e ▸ h1) fun hz => Nat.lt_trans h1 (h2 z hz), h2, h3⟩
    · rintro ⟨h1, h2, h3⟩
      exact ⟨h1 y (.inl rfl), h2, h3⟩

theorem rising_filter {p : Nat → Bool} {l : List Nat} (h : rising l = true) : rising (l.filter p) = true := by
  induction l with
  | nil => rfl
  | cons x r ih =>
    have hx := rising_cons.1 h
    rw [List.filter]
    split
    · exact rising_cons.2 ⟨fun y hy => hx.1 y (List.mem_filter.1 hy).1, ih hx.2⟩
    · exact ih hx.2

theorem mem_ninsert {k x : Nat} {l : List Nat} (h : x ∈ ninsert k l) : x = k ∨ x ∈ l := by
  induction l with
  | nil => exact .inl (List.mem_singleton.1 h)
  | cons y r ih =>
    rw [ninsert] at h
    split at h
    · exact List.mem_cons.1 h
    · split at h
      · exact .inr h
      · rcases List.mem_cons.1 h with h | h
        · exact .inr (h ▸ List.mem_cons_self)
        · exact (ih h).imp_right (List.mem_cons_of_mem _)

theorem rising_ninsert {k : Nat} {l : List Nat} (h : rising l = true) : rising (ninsert k l) = true := by
  induction l with
  | nil => rfl
  | cons x r ih =>
    have hx := rising_cons.1 h
    rw [ninsert]
    split
    · exact rising_cons.2 ⟨fun y hy => by
        rcases List.mem_cons.1 hy with e | e
        · omega
        · have := hx.1 y e
          omega, h⟩
    · split
      · exact h
      · refine rising_cons.2 ⟨fun y hy => ?_, ih hx.2⟩
        rcases mem_ninsert hy with e | e
        · omega
        · exact hx.1 y e

/-! ## The operations keep the canonical form -/

theorem Memory.wf_put {m : Memory} (h : m.wf = true) (a : Nat) (b : Byte) : (m.put a b).wf = true := by
  rw [Memory.wf_iff] at h ⊢
  refine ⟨srising_sput h.1, fun e he => ?_, h.2.2.1, h.2.2.2⟩
  rcases mem_sput he with he | ⟨rfl, hv⟩
  · exact h.2.1 e he
  · exact hv

theorem Memory.wf_putAll {m : Memory} (h : m.wf = true) (a : Nat) (d : List Byte) : (m.putAll a d).wf = true := by
  induction d generalizing m a with
  | nil => exact h
  | cons b r ih => exact ih (Memory.wf_put h a b) _

theorem Memory.wf_cleanLine {m : Memory} (h : m.wf = true) (line : Nat) : (m.cleanLine line).wf = true := by
  rw [Memory.wf_iff] at h ⊢
  refine ⟨h.1, h.2.1, rising_filter h.2.2.1, ?_⟩
  show rising (if (m.ext (64 * line)).isSome then ninsert line m.clean else m.clean) = true
  split
  · exact rising_ninsert h.2.2.2
  · exact h.2.2.2

theorem Memory.wf_poisonLine {m : Memory} (h : m.wf = true) (line : Nat) : (m.poisonLine line).wf = true := by
  unfold Memory.poisonLine
  have h' := Memory.wf_putAll h (64 * line) (List.replicate 64 0)
  generalize m.putAll (64 * line) (List.replicate 64 0) = n at h'
  rw [Memory.wf_iff] at h' ⊢
  exact ⟨h'.1, h'.2.1, rising_ninsert h'.2.2.1, h'.2.2.2⟩

theorem Memory.wf_undefine {m : Memory} (h : m.wf = true) (base len stamp : Nat) : (m.undefine base len stamp).wf = true := by
  rw [Memory.wf_iff] at h ⊢
  refine ⟨srising_filter h.1, fun e he => ?_, rising_filter h.2.2.1, rising_filter h.2.2.2⟩
  have hm := List.mem_filter.1 he
  have hn : inExt base len e.1 = false := by simpa using hm.2
  have hd : (m.undefine base len stamp).default e.1 = m.default e.1 := by
    unfold Memory.default Memory.ext Memory.undefine
    simp only [List.find?_cons, hn]
  rw [hd]
  exact h.2.1 e hm.1

theorem Memory.wf_writeLine {m t : Memory} (h : m.wf = true) {a : Nat} {d : List Byte} (e : m.writeLine a d = some t) :
    t.wf = true := by
  unfold Memory.writeLine at e
  split at e
  · exact Option.some.inj e ▸ Memory.wf_putAll (Memory.wf_cleanLine h _) _ _
  · split at e
    · cases e
    · exact Option.some.inj e ▸ Memory.wf_cleanLine (Memory.wf_putAll h _ _) _

theorem Memory.wf_writeLines {m : Memory} (h : m.wf = true) (n a : Nat) (d : List Byte) (poison : List Nat) (first : Nat) :
    (Memory.writeLines n m a d poison first).1.wf = true := by
  induction n generalizing m a d with
  | zero => exact h
  | succ n ih =>
    cases d with
    | nil => exact h
    | cons b r =>
      unfold Memory.writeLines
      refine ih ?_ _ _
      split
      · exact Memory.wf_poisonLine h _
      · split
        · exact Memory.wf_writeLine h ‹_›
        · exact h

/-! ## What a byte reads as -/

/-- A write changes what no unlisted address reads as. -/
theorem Memory.default_put (m : Memory) (a : Nat) (b : Byte) (x : Nat) : (m.put a b).default x = m.default x := rfl

/-- A byte reads what was written to it. -/
theorem Memory.byte_put_same {m : Memory} (h : m.wf = true) (a : Nat) (b : Byte) : (m.put a b).byte a = b :=
  sget_sput_same (Memory.wf_iff.1 h).1

/-- Every other byte reads as before. -/
theorem Memory.byte_put_other (m : Memory) {a x : Nat} (b : Byte) (hx : x ≠ a) : (m.put a b).byte x = m.byte x :=
  sget_sput_other hx

/-- A write of several bytes leaves every byte outside them. -/
theorem Memory.byte_putAll_other (m : Memory) {a x : Nat} (d : List Byte) (hx : x < a ∨ a + d.length ≤ x) :
    (m.putAll a d).byte x = m.byte x := by
  induction d generalizing m a with
  | nil => rfl
  | cons b r ih =>
    simp only [List.length_cons] at hx
    exact (ih (m.put a b) (a := a + 1) (by omega)).trans (m.byte_put_other b (by omega))

/-- Bytes read what was written to them. -/
theorem Memory.bytes_putAll_same {m : Memory} (h : m.wf = true) (a : Nat) (d : List Byte) :
    (m.putAll a d).bytes a d.length = d := by
  induction d generalizing m a with
  | nil => rfl
  | cons b r ih =>
    show ((m.put a b).putAll (a + 1) r).byte a :: _ = _
    rw [Memory.byte_putAll_other _ _ (by omega), Memory.byte_put_same h]
    exact congrArg _ (ih (Memory.wf_put h a b) _)

/-- Clearing a line's poison changes no byte. -/
theorem Memory.byte_cleanLine (m : Memory) (line x : Nat) : (m.cleanLine line).byte x = m.byte x := rfl

end Sys2Proof.Machine
end

