-- ==== Sys2Proof/Laws/Registers.lean ====
section
/-!
SUPPORT. Registers and their fields: what a write leaves of each, and that it leaves every other register.
-/

namespace Sys2Proof.Machine

/-- Instances below 2^20 have keys of their own. -/
theorem regKey_inj {r r' : Reg} {k k' : Nat} (hk : instOk k = true) (hk' : instOk k' = true) (h : regKey r k = regKey r' k') :
    r = r' ∧ k = k' := by
  simp only [instOk, decide_eq_true_eq] at hk hk'
  unfold regKey at h
  have h1 : r.ctorIdx = r'.ctorIdx := by omega
  refine ⟨?_, by omega⟩
  rw [← Reg.ofNat_ctorIdx r, h1, Reg.ofNat_ctorIdx]

theorem State.canonical_iff {s : State} :
    s.canonical = true ↔ s.mem.wf = true ∧ srising none s.regs = true ∧ srising none s.staged = true := by
  unfold State.canonical
  rw [Bool.and_eq_true, Bool.and_eq_true, and_assoc]

/-- A register reads what was written to it. -/
theorem State.rd_wr_same {s : State} (h : s.canonical = true) (r : Reg) (k : Nat) (v : Word) : (s.wr r k v).rd r k = v :=
  sget_sput_same (State.canonical_iff.1 h).2.1

/-- A write of a register leaves every other one. -/
theorem State.rd_wr_other (s : State) {r r' : Reg} {k k' : Nat} (v : Word) (hk : instOk k = true) (hk' : instOk k' = true)
    (h : (r', k') ≠ (r, k)) : (s.wr r k v).rd r' k' = s.rd r' k' :=
  sget_sput_other fun e => h (by obtain ⟨h1, h2⟩ := regKey_inj hk' hk e; rw [h1, h2])

/-- A staged value reads what was written to it. -/
theorem State.rdStaged_wrStaged_same {s : State} (h : s.canonical = true) (r : Reg) (k : Nat) (v : Word) :
    (s.wrStaged r k v).rdStaged r k = v :=
  sget_sput_same (State.canonical_iff.1 h).2.2

/-- A write of a staged value leaves every other one. -/
theorem State.rdStaged_wrStaged_other (s : State) {r r' : Reg} {k k' : Nat} (v : Word) (hk : instOk k = true)
    (hk' : instOk k' = true) (h : (r', k') ≠ (r, k)) : (s.wrStaged r k v).rdStaged r' k' = s.rdStaged r' k' :=
  sget_sput_other fun e => h (by obtain ⟨h1, h2⟩ := regKey_inj hk' hk e; rw [h1, h2])

/-- A field reads what was put into it, cut to its width. -/
theorem Fld.get_put_same (f : Fld) (v : Word) (x : Nat) (h : f.lo + f.w ≤ 64) : f.get (f.put v x) = x % 2 ^ f.w := by
  unfold Fld.get Fld.put
  rw [BitVec.toNat_ofNat]
  have hl : v.toNat % 2 ^ f.lo < 2 ^ f.lo := Nat.mod_lt _ (Nat.two_pow_pos _)
  have hx : x % 2 ^ f.w < 2 ^ f.w := Nat.mod_lt _ (Nat.two_pow_pos _)
  have hp : (2 : Nat) ^ (f.lo + f.w) = 2 ^ f.lo * 2 ^ f.w := Nat.pow_add ..
  have h64 : (2 : Nat) ^ 64 = 2 ^ f.lo * 2 ^ f.w * 2 ^ (64 - (f.lo + f.w)) := by
    rw [← Nat.pow_add, ← Nat.pow_add]
    congr 1
    omega
  rw [h64, Nat.mul_assoc, Nat.mod_mul_right_div_self, Nat.mod_mul_right_mod, hp]
  have e : v.toNat % 2 ^ f.lo + x % 2 ^ f.w * 2 ^ f.lo + v.toNat / (2 ^ f.lo * 2 ^ f.w) * (2 ^ f.lo * 2 ^ f.w) =
      v.toNat % 2 ^ f.lo + (x % 2 ^ f.w + v.toNat / (2 ^ f.lo * 2 ^ f.w) * 2 ^ f.w) * 2 ^ f.lo := by
    rw [Nat.add_mul, Nat.add_assoc, Nat.mul_assoc (v.toNat / _), Nat.mul_comm (2 ^ f.w) (2 ^ f.lo)]
  rw [e, Nat.add_mul_div_right _ _ (Nat.two_pow_pos _), Nat.div_eq_of_lt hl, Nat.zero_add, Nat.add_mul_mod_self_right,
    Nat.mod_eq_of_lt hx]

/-- A field that another does not meet reads as before. -/
theorem Fld.get_put_other (f g : Fld) (v : Word) (x : Nat) (h : f.lo + f.w ≤ g.lo ∨ g.lo + g.w ≤ f.lo)
    (hg : g.lo + g.w ≤ 64) : g.get (f.put v x) = g.get v := by
  unfold Fld.get Fld.put
  rw [BitVec.toNat_ofNat]
  refine Nat.eq_of_testBit_eq fun i => ?_
  rw [Nat.testBit_mod_two_pow, Nat.testBit_mod_two_pow, Nat.testBit_div_two_pow, Nat.testBit_div_two_pow, Nat.testBit_mod_two_pow]
  by_cases hi : i < g.w
  · have h64 : i + g.lo < 64 := by omega
    have hl : v.toNat % 2 ^ f.lo < 2 ^ f.lo := Nat.mod_lt _ (Nat.two_pow_pos _)
    have hx : x % 2 ^ f.w < 2 ^ f.w := Nat.mod_lt _ (Nat.two_pow_pos _)
    have hlx : v.toNat % 2 ^ f.lo + x % 2 ^ f.w * 2 ^ f.lo < 2 ^ (f.lo + f.w) := by
      rw [Nat.pow_add]
      calc v.toNat % 2 ^ f.lo + x % 2 ^ f.w * 2 ^ f.lo < 2 ^ f.lo + x % 2 ^ f.w * 2 ^ f.lo := Nat.add_lt_add_right hl _
        _ = (x % 2 ^ f.w + 1) * 2 ^ f.lo := by rw [Nat.succ_mul, Nat.add_comm]
        _ ≤ 2 ^ f.w * 2 ^ f.lo := Nat.mul_le_mul_right _ hx
        _ = 2 ^ f.lo * 2 ^ f.w := Nat.mul_comm ..
    simp only [hi, h64, decide_true, Bool.true_and]
    rcases h with h | h
    · rw [Nat.add_comm, Nat.mul_comm, Nat.testBit_two_pow_mul_add _ hlx]
      rw [if_neg (by omega), Nat.testBit_div_two_pow]
      congr 1
      omega
    · have : ∀ y, (v.toNat % 2 ^ f.lo + x % 2 ^ f.w * 2 ^ f.lo + y * 2 ^ (f.lo + f.w)).testBit (i + g.lo) =
          (v.toNat % 2 ^ f.lo).testBit (i + g.lo) := by
        intro y
        rw [Nat.add_comm, Nat.mul_comm y, Nat.testBit_two_pow_mul_add _ hlx, if_pos (by omega), Nat.add_comm, Nat.mul_comm,
          Nat.testBit_two_pow_mul_add _ hl, if_pos (by omega)]
      rw [this, Nat.testBit_mod_two_pow]
      simp only [show i + g.lo < f.lo by omega, decide_true, Bool.true_and]
  · simp only [hi, decide_false, Bool.false_and]

/-- A field of a register reads what was put into it. -/
theorem State.fld_setFld_same {s : State} (h : s.canonical = true) (f : Fld) (x k : Nat) (hf : f.lo + f.w ≤ 64) :
    (s.setFld f x k).fld f k = x % 2 ^ f.w := by
  unfold State.fld State.setFld
  rw [State.rd_wr_same h, Fld.get_put_same f _ _ hf]

/-- A field of another register reads as before. -/
theorem State.fld_setFld_other (s : State) {f g : Fld} (x : Nat) {k j : Nat} (hk : instOk k = true) (hj : instOk j = true)
    (h : (g.reg, j) ≠ (f.reg, k)) : (s.setFld f x k).fld g j = s.fld g j := by
  unfold State.fld State.setFld
  rw [State.rd_wr_other s _ hk hj h]

/-- Another field of the same register reads as before. -/
theorem State.fld_setFld_field {s : State} (hc : s.canonical = true) {f g : Fld} (x k : Nat) (hr : g.reg = f.reg)
    (h : f.lo + f.w ≤ g.lo ∨ g.lo + g.w ≤ f.lo) (hg : g.lo + g.w ≤ 64) :
    (s.setFld f x k).fld g k = s.fld g k := by
  unfold State.fld State.setFld
  rw [hr, State.rd_wr_same hc, Fld.get_put_other f g _ _ h hg]

/-- A write of a field keeps the canonical form. -/
theorem State.canonical_wr {s : State} (h : s.canonical = true) (r : Reg) (k : Nat) (v : Word) : (s.wr r k v).canonical = true := by
  rw [State.canonical_iff] at h ⊢
  exact ⟨h.1, srising_sput h.2.1, h.2.2⟩

/-- A write of a staged value keeps the canonical form. -/
theorem State.canonical_wrStaged {s : State} (h : s.canonical = true) (r : Reg) (k : Nat) (v : Word) :
    (s.wrStaged r k v).canonical = true := by
  rw [State.canonical_iff] at h ⊢
  exact ⟨h.1, h.2.1, srising_sput h.2.2⟩

/-- A list of members with their staged values gives each member's. -/
theorem find_members (s : State) (r : Reg) (i : Nat) (hi : instOk i = true) : ∀ l : List (Reg × Nat),
    (∀ m ∈ l, instOk m.2 = true) →
      ((l.map fun m => (regKey m.1 m.2, s.rdStaged m.1 m.2)).find? fun e => e.1 = regKey r i).elim (s.rdStaged r i) (·.2) =
        s.rdStaged r i := by
  intro l hl
  induction l with
  | nil => rfl
  | cons m t ih =>
    by_cases h : regKey m.1 m.2 = regKey r i
    · obtain ⟨rfl, rfl⟩ := regKey_inj (hl m List.mem_cons_self) hi h
      rw [List.map_cons, List.find?_cons_of_pos (by exact decide_eq_true rfl)]
      rfl
    · rw [List.map_cons, List.find?_cons_of_neg (by exact fun e => h (of_decide_eq_true e))]
      exact ih fun x hx => hl x (List.mem_cons_of_mem _ hx)

theorem commits_beginCommit (s : State) (g : Group) (n : Nat) : (s.beginCommit g n).commits =
    ⟨regKey g.entry n, (g.members n).map fun m => (regKey m.1 m.2, s.rdStaged m.1 m.2)⟩ ::
      s.commits.filter fun c => c.key ≠ regKey g.entry n := rfl

theorem rdStaged_beginCommit (s : State) (g : Group) (n : Nat) (r : Reg) (i : Nat) :
    (s.beginCommit g n).rdStaged r i = s.rdStaged r i := rfl

theorem find_commit (key : Nat) (snap : List (Nat × Word)) (rest : List CommitSt) :
    ((⟨key, snap⟩ : CommitSt) :: rest).find? (fun c => c.key = key) = some ⟨key, snap⟩ := by simp

/-- A member of a group as the snapshot of its commit gives it. -/
theorem snapOf_eq (s : State) (g : Group) (n : Nat) (r : Reg) (i : Nat) (snap : List (Nat × Word)) (rest : List CommitSt)
    (h : s.commits = ⟨regKey g.entry n, snap⟩ :: rest) :
    s.snapOf g n r i = (snap.find? fun e => e.1 = regKey r i).elim (s.rdStaged r i) (·.2) := by
  unfold State.snapOf
  rw [h, find_commit]

/-- A snapshot taken at the begin of a commit holds every member's staged value (R756). -/
theorem snapOf_beginCommit (s : State) (g : Group) (n : Nat) (r : Reg) (i : Nat) (hi : instOk i = true)
    (hm : ∀ m ∈ g.members n, instOk m.2 = true) : (s.beginCommit g n).snapOf g n r i = s.rdStaged r i := by
  rw [snapOf_eq _ g n r i _ _ (commits_beginCommit s g n), rdStaged_beginCommit]
  exact find_members s r i hi (g.members n) hm

end Sys2Proof.Machine
end

