-- ==== Sys2Proof/Laws/KeepsOps.lean ====
section
/-!
SUPPORT. What the operations of Machine/Ops.lean and its commands leave alone: none touches the queue of commands, and each keeps the
canonical form of memory and of the register files.
-/

namespace Sys2Proof.Machine

/-- From `s` to `t` the queue of commands is the same, and the canonical form is kept. -/
structure Keeps (s t : State) : Prop where
  pending : t.pending = s.pending
  canonical : s.canonical = true → t.canonical = true

/-- `Keeps` of the state that comes with an answer. -/
def Keeps1 {α : Type} (s : State) (p : State × α) : Prop := Keeps s p.1
def Keeps2 {α : Type} (s : State) (p : α × State) : Prop := Keeps s p.2
structure KeepsO (s : State) (o : Out) : Prop where
  get : ∀ t, o = .next t → Keeps s t
structure KeepsP {α : Type} (s : State) (o : Option (State × α)) : Prop where
  all : ∀ t a, o = some (t, a) → Keeps s t

theorem Keeps.refl (s : State) : Keeps s s := ⟨rfl, id⟩
theorem Keeps.trans {s t u : State} (h : Keeps s t) (k : Keeps t u) : Keeps s u :=
  ⟨k.pending.trans h.pending, fun c => k.canonical (h.canonical c)⟩
theorem Keeps.same {s₀ s t : State} (h : Keeps s₀ s) (h1 : t.pending = s.pending) (h2 : t.regs = s.regs) (h3 : t.staged = s.staged)
    (h4 : t.mem = s.mem) : Keeps s₀ t :=
  ⟨h1.trans h.pending, fun c => by have := h.canonical c; unfold State.canonical at *; rw [h2, h3, h4]; exact this⟩
theorem Keeps.upd {s₀ s : State} (h : Keeps s₀ s) {x4 x5 x6 x7 x8 x9 x10 x11 x12 x13 x14 x15 x16 x17 x18 x19 x20 x21 x22 x23 x24 x25 x26 x27 x28 x29 x30 x31 x32 x33 x34 x35 x36 x37 x38 x39 x40 x41 x42 x43 x44 x45 x46 x47 x48 x49 x50 x51 x52 x53 x54 x55 x56 x57 x58 x59 x60 x61 x62 x63 x64 x65 x66 x67 x68 x69 x70 x71 x72 x73 x74 x75 x76 x77 x78 x79 x80 x81 x82 x83 x84 x85 x86 x87 x88 x89 x90 x91 x92 x93 x94 x95 x96 x97 x98 x99 x100 x101 x102 x103 x104 x105 x106 x107 x108 x109 x110 x111 x112 x113 x114 x115 x116 x117 x118 x119 x120 x121 x122 x123 x124} :
    Keeps s₀ (State.mk s.pending s.regs s.staged s.mem x4 x5 x6 x7 x8 x9 x10 x11 x12 x13 x14 x15 x16 x17 x18 x19 x20 x21 x22 x23 x24 x25 x26 x27 x28 x29 x30 x31 x32 x33 x34 x35 x36 x37 x38 x39 x40 x41 x42 x43 x44 x45 x46 x47 x48 x49 x50 x51 x52 x53 x54 x55 x56 x57 x58 x59 x60 x61 x62 x63 x64 x65 x66 x67 x68 x69 x70 x71 x72 x73 x74 x75 x76 x77 x78 x79 x80 x81 x82 x83 x84 x85 x86 x87 x88 x89 x90 x91 x92 x93 x94 x95 x96 x97 x98 x99 x100 x101 x102 x103 x104 x105 x106 x107 x108 x109 x110 x111 x112 x113 x114 x115 x116 x117 x118 x119 x120 x121 x122 x123 x124) :=
  Keeps.same h rfl rfl rfl rfl
theorem Keeps.updFresh {s₀ s : State} (h : Keeps s₀ s) {l : List Nat} :
    Keeps s₀ { s with mem := { s.mem with fresh := l } } :=
  h.trans ⟨rfl, fun c => by rw [State.canonical_iff] at c ⊢; exact ⟨c.1, c.2⟩⟩
theorem Keeps.ite {s a b : State} {c : Prop} [Decidable c] (ha : Keeps s a) (hb : Keeps s b) : Keeps s (if c then a else b) := by
  split <;> assumption
theorem Keeps1.ite {α : Type} {s : State} {a b : State × α} {c : Prop} [Decidable c] (ha : Keeps1 s a) (hb : Keeps1 s b) : Keeps1 s (if c then a else b) := by
  split <;> assumption
theorem Keeps2.ite {α : Type} {s : State} {a b : α × State} {c : Prop} [Decidable c] (ha : Keeps2 s a) (hb : Keeps2 s b) : Keeps2 s (if c then a else b) := by
  split <;> assumption
theorem KeepsO.ite {s : State} {a b : Out} {c : Prop} [Decidable c] (ha : KeepsO s a) (hb : KeepsO s b) : KeepsO s (if c then a else b) := by
  split <;> assumption
theorem KeepsP.ite {α : Type} {s : State} {a b : Option (State × α)} {c : Prop} [Decidable c] (ha : KeepsP s a) (hb : KeepsP s b) : KeepsP s (if c then a else b) := by
  split <;> assumption
theorem Keeps1.mk {α : Type} {s t : State} {a : α} (h : Keeps s t) : Keeps1 s (t, a) := h
theorem Keeps2.mk {α : Type} {s t : State} {a : α} (h : Keeps s t) : Keeps2 s (a, t) := h
theorem Keeps1.fst {α : Type} {s : State} {p : State × α} (h : Keeps1 s p) : Keeps s p.1 := h
theorem Keeps2.snd {α : Type} {s : State} {p : α × State} (h : Keeps2 s p) : Keeps s p.2 := h
theorem KeepsO.next {s t : State} (h : Keeps s t) : KeepsO s (.next t) := ⟨fun _ e => by injection e with e; exact e ▸ h⟩
theorem KeepsO.run {s t : State} {i : Instr} (h : Keeps s t) : KeepsO s (run i t) := ⟨fun u e => by
  unfold Machine.run at e
  split at e
  · exact (KeepsO.next h).get u e
  · exact nomatch e⟩
theorem KeepsP.none {α : Type} {s : State} : KeepsP (α := α) s Option.none := ⟨fun _ _ e => nomatch e⟩
theorem KeepsP.some {α : Type} {s t : State} {a : α} (h : Keeps s t) : KeepsP s (Option.some (t, a)) := ⟨fun _ _ e => by
  injection e with e; injection e with e _; exact e ▸ h⟩
theorem Keeps1.get {α : Type} {s t : State} {a : α} {p : State × α} (h : Keeps1 s p) (e : p = (t, a)) : Keeps s t := by
  rw [e] at h; exact h
theorem Keeps2.get {α : Type} {s t : State} {a : α} {p : α × State} (h : Keeps2 s p) (e : p = (a, t)) : Keeps s t := by
  rw [e] at h; exact h
theorem KeepsP.get {α : Type} {s t : State} {a : α} {p : Option (State × α)} (h : KeepsP s p) (e : p = Option.some (t, a)) : Keeps s t := h.all t a e
theorem KeepsP.fst {α : Type} {s : State} {r : State × α} {p : Option (State × α)} (h : KeepsP s p) (e : p = Option.some r) : Keeps s r.1 := h.all r.1 r.2 e
theorem Keeps.foldl {α : Type} {s₀ : State} {f : State → α → State} {l : List α} {s : State} (h : Keeps s₀ s)
    (hf : ∀ x a, Keeps s₀ x → Keeps s₀ (f x a)) : Keeps s₀ (l.foldl f s) := by
  induction l generalizing s with
  | nil => exact h
  | cons a l ih => exact ih (hf s a h)
theorem Keeps1.foldl {α β : Type} {s₀ : State} {f : State × β → α → State × β} {l : List α} {p : State × β} (h : Keeps1 s₀ p)
    (hf : ∀ x a, Keeps1 s₀ x → Keeps1 s₀ (f x a)) : Keeps1 s₀ (l.foldl f p) := by
  induction l generalizing p with
  | nil => exact h
  | cons a l ih => exact ih (hf p a h)

/-- A fold over any accumulator that carries a state. -/
theorem Keeps.foldlVia {α β : Type} (π : β → State) {s₀ : State} {f : β → α → β} {l : List α} {b : β} (h : Keeps s₀ (π b))
    (hf : ∀ x a, Keeps s₀ (π x) → Keeps s₀ (π (f x a))) : Keeps s₀ (π (l.foldl f b)) := by
  induction l generalizing b with
  | nil => exact h
  | cons a l ih => exact ih (hf b a h)

/-- A command keeps what its effect keeps, whether or not the package is held in reset. -/
theorem State.clocked_keeps (s t : State) {s₀ : State} (hk : Keeps s₀ s) (ht : Keeps s₀ t) : Keeps s₀ (State.clocked s t) := by
  unfold State.clocked
  split <;> assumption

theorem run_keeps (i : Instr) {s₀ t : State} (hk : Keeps s₀ t) : KeepsO s₀ (run i t) := KeepsO.run hk

theorem State.wr_keeps (s : State) (r : Reg) (inst : Nat) (v : Word) {s₀ : State} (hk : Keeps s₀ s) : Keeps s₀ (State.wr s r
    inst v) := by
  refine hk.trans ⟨rfl, fun c => State.canonical_wr c _ _ _⟩

theorem State.wrStaged_keeps (s : State) (r : Reg) (inst : Nat) (v : Word) {s₀ : State} (hk : Keeps s₀ s) : Keeps s₀
    (State.wrStaged s r inst v) := by
  refine hk.trans ⟨rfl, fun c => State.canonical_wrStaged c _ _ _⟩

theorem State.setFld_keeps (s : State) (f : Fld) (x : Nat) (inst : Nat) {s₀ : State} (hk : Keeps s₀ s) : Keeps s₀
    (State.setFld s f x inst) := by
  unfold State.setFld
  with_reducible
    repeat' first
      | assumption | apply State.wr_keeps

theorem State.setFlag_keeps (s : State) (f : Fld) (b : Bool) (inst : Nat) {s₀ : State} (hk : Keeps s₀ s) : Keeps s₀
    (State.setFlag s f b inst) := by
  unfold State.setFlag
  with_reducible
    repeat' first
      | assumption | apply State.setFld_keeps

theorem State.bump_keeps (s : State) (f : Fld) (inst : Nat) (n : Nat) {s₀ : State} (hk : Keeps s₀ s) : Keeps s₀ (State.bump s
    f inst n) := by
  unfold State.bump
  with_reducible
    repeat' first
      | assumption | apply State.setFld_keeps

theorem State.wrap_keeps (s : State) (f : Fld) (inst : Nat) (n : Nat) {s₀ : State} (hk : Keeps s₀ s) : Keeps s₀ (State.wrap s
    f inst n) := by
  unfold State.wrap
  with_reducible
    repeat' first
      | assumption | apply State.setFld_keeps

theorem State.less_keeps (s : State) (f : Fld) (inst : Nat) (n : Nat) {s₀ : State} (hk : Keeps s₀ s) : Keeps s₀ (State.less s
    f inst n) := by
  unfold State.less
  with_reducible
    repeat' first
      | assumption | apply State.setFld_keeps

theorem State.setBit_keeps (s : State) (r : Reg) (inst : Nat) (k : Nat) (b : Bool) {s₀ : State} (hk : Keeps s₀ s) : Keeps s₀
    (State.setBit s r inst k b) := by
  unfold State.setBit
  with_reducible
    repeat' first
      | assumption | apply State.setFld_keeps

theorem State.resetReg_keeps (s : State) (r : Reg) (inst : Nat) {s₀ : State} (hk : Keeps s₀ s) : Keeps s₀ (State.resetReg s r
    inst) := by
  unfold State.resetReg
  with_reducible
    repeat' first
      | assumption | apply State.wr_keeps | apply State.wrStaged_keeps

theorem State.resetRegs_keeps (s : State) (rs : List Reg) (n : Nat) {s₀ : State} (hk : Keeps s₀ s) : Keeps s₀
    (State.resetRegs s rs n) := by
  unfold State.resetRegs
  with_reducible
    repeat' first
      | assumption | intro _ | apply State.resetReg_keeps | apply Keeps.foldl

theorem State.each_keeps (s : State) (n : Nat) (f : State → Nat → State) {s₀ : State} (hk : Keeps s₀ s) (hf : ∀ (x0 : State)
    (x1 : Nat), Keeps s₀ x0 → Keeps s₀ (f x0 x1)) : Keeps s₀ (State.each s n f) := by
  unfold State.each
  with_reducible
    repeat' first
      | assumption | apply hf | apply Keeps.foldl

theorem State.when_keeps (s : State) (b : Bool) (f : State → State) {s₀ : State} (hk : Keeps s₀ s) (hf : ∀ (x0 : State),
    Keeps s₀ x0 → Keeps s₀ (f x0)) : Keeps s₀ (State.when s b f) := by
  unfold State.when
  with_reducible
    repeat' first
      | assumption | apply hf | apply Keeps.ite

theorem State.emit_keeps (s : State) (o : Output) {s₀ : State} (hk : Keeps s₀ s) : Keeps s₀ (State.emit s o) := by
  unfold State.emit
  with_reducible
    repeat' first
      | assumption | apply Keeps.upd

theorem State.fresh_keeps (s : State) {s₀ : State} (hk : Keeps s₀ s) : Keeps2 s₀ (State.fresh s) := by
  unfold State.fresh
  with_reducible
    repeat' first
      | assumption | apply Keeps2.mk | apply Keeps.upd

theorem State.setHalf_keeps (s : State) (h : Half) (st : Nat) {s₀ : State} (hk : Keeps s₀ s) : Keeps s₀ (State.setHalf s h
    st) := by
  unfold State.setHalf
  with_reducible
    repeat' first
      | assumption | apply State.setFld_keeps

theorem State.undefine_keeps (s : State) (base : Nat) (len : Nat) {s₀ : State} (hk : Keeps s₀ s) : Keeps s₀ (State.undefine s
    base len) := by
  unfold State.undefine
  split
  · exact hk
  · refine hk.trans ⟨rfl, fun c => ?_⟩
    rw [State.canonical_iff] at c ⊢
    exact ⟨Memory.wf_undefine c.1 _ _ _, c.2⟩

theorem State.syncDir_keeps (s : State) {s₀ : State} (hk : Keeps s₀ s) : Keeps s₀ (State.syncDir s) := by
  unfold State.syncDir
  with_reducible
    repeat' first
      | assumption | apply State.setFld_keeps

theorem State.lifeAdd_keeps (s : State) (idx : Nat) (sub : Nat) (n : Nat) {s₀ : State} (hk : Keeps s₀ s) : Keeps s₀
    (State.lifeAdd s idx sub n) := by
  unfold State.lifeAdd
  with_reducible
    repeat' first
      | assumption | apply Keeps.upd

theorem State.chargeArray_keeps (s : State) (a : Nat) {s₀ : State} (hk : Keeps s₀ s) : Keeps s₀ (State.chargeArray s a) := by
  unfold State.chargeArray
  with_reducible
    repeat' first
      | assumption | apply State.bump_keeps | apply State.lifeAdd_keeps

theorem State.poisonLine_keeps (s : State) (line : Nat) {s₀ : State} (hk : Keeps s₀ s) : Keeps s₀ (State.poisonLine s line) := by
  unfold State.poisonLine
  refine hk.trans ⟨rfl, fun c => ?_⟩
  rw [State.canonical_iff] at c ⊢
  exact ⟨Memory.wf_poisonLine c.1 _, c.2⟩

theorem State.storeLine_keeps (s : State) (line : Nat) (d : List Byte) {s₀ : State} (hk : Keeps s₀ s) : Keeps s₀
    (State.storeLine s line d) := by
  unfold State.storeLine
  refine hk.trans ⟨rfl, fun c => ?_⟩
  rw [State.canonical_iff] at c ⊢
  generalize slice d 0 64 = d
  exact And.intro (Memory.wf_putAll (Memory.wf_cleanLine c.1 _) _ _) c.2

theorem State.cross_keeps (s : State) (src : Half) (dst : Half) (n : Nat) {s₀ : State} (hk : Keeps s₀ s) : Keeps s₀ (State.cross
    s src dst n) := by
  unfold State.cross
  with_reducible
    repeat' first
      | assumption | apply State.wrap_keeps | apply Keeps.ite | split

theorem State.crossIn_keeps (s : State) (h : Half) (o : Nat) (n : Nat) {s₀ : State} (hk : Keeps s₀ s) : Keeps s₀
    (State.crossIn s h o n) := by
  unfold State.crossIn
  with_reducible
    repeat' first
      | assumption | apply State.cross_keeps | split

theorem State.crossOut_keeps (s : State) (h : Half) (o : Nat) (n : Nat) {s₀ : State} (hk : Keeps s₀ s) : Keeps s₀
    (State.crossOut s h o n) := by
  unfold State.crossOut
  with_reducible
    repeat' first
      | assumption | apply State.cross_keeps | split

theorem State.tally_keeps (s : State) (o : Nat) (n : Nat) (wr : Bool) {s₀ : State} (hk : Keeps s₀ s) : Keeps s₀ (State.tally
    s o n wr) := by
  unfold State.tally
  with_reducible
    repeat' first
      | assumption | apply State.wrap_keeps | apply State.lifeAdd_keeps | apply Keeps.ite

theorem State.msix_keeps (s : State) (fn : Nat) (vec : Nat) {s₀ : State} (hk : Keeps s₀ s) : Keeps s₀ (State.msix s fn vec) := by
  unfold State.msix
  with_reducible
    repeat' first
      | assumption | apply State.setFld_keeps | apply State.emit_keeps | apply Keeps.ite

theorem State.raisePf_keeps (s : State) (vec : Nat) {s₀ : State} (hk : Keeps s₀ s) : Keeps s₀ (State.raisePf s vec) := by
  unfold State.raisePf
  with_reducible
    repeat' first
      | assumption | apply State.msix_keeps

theorem State.raiseVec_keeps (s : State) (p : Nat) (vec : Nat) {s₀ : State} (hk : Keeps s₀ s) : Keeps s₀ (State.raiseVec s p
    vec) := by
  unfold State.raiseVec
  with_reducible
    repeat' first
      | assumption | apply State.bump_keeps | apply State.msix_keeps | apply Keeps.ite

theorem State.logRecord_keeps (s : State) (r : ErrRec) {s₀ : State} (hk : Keeps s₀ s) : Keeps s₀ (State.logRecord s r) := by
  unfold State.logRecord
  with_reducible
    repeat' first
      | assumption | apply State.setFld_keeps | apply State.bump_keeps | apply State.emit_keeps | apply Keeps.ite
      | apply Keeps.upd

theorem State.record_keeps (s : State) (e : ErrInfo) {s₀ : State} (hk : Keeps s₀ s) : Keeps s₀ (State.record s e) := by
  unfold State.record
  with_reducible
    repeat' first
      | assumption | apply State.logRecord_keeps | apply Keeps.ite | apply Keeps.upd

end Sys2Proof.Machine
end

