-- ==== Sys2Proof/Laws/KeepsRegisters.lean ====
section
/-!
SUPPORT. What the operations of Machine/Registers.lean and its commands leave alone: none touches the queue of commands, and each keeps the
canonical form of memory and of the register files.
-/

namespace Sys2Proof.Machine

theorem State.beginCommit_keeps (s : State) (g : Group) (n : Nat) {s₀ : State} (hk : Keeps s₀ s) : Keeps s₀
    (State.beginCommit s g n) := by
  unfold State.beginCommit
  with_reducible
    repeat' first
      | assumption | intro _ | apply State.setFlag_keeps | apply Keeps.upd

theorem State.rejectCommit_keeps (s : State) (g : Group) (n : Nat) (result : Nat) {s₀ : State} (hk : Keeps s₀ s) : Keeps s₀
    (State.rejectCommit s g n result) := by
  unfold State.rejectCommit
  with_reducible
    repeat' first
      | assumption | intro _ | apply State.setFld_keeps | apply State.setFlag_keeps | apply Keeps.upd

theorem State.finishCommit_keeps (s : State) (g : Group) (n : Nat) {s₀ : State} (hk : Keeps s₀ s) : Keeps s₀
    (State.finishCommit s g n) := by
  unfold State.finishCommit
  with_reducible
    repeat' first
      | assumption | intro _ | apply State.wr_keeps | apply State.wrStaged_keeps | apply State.setFld_keeps
      | apply State.setFlag_keeps | apply Keeps.foldl | apply Keeps1.foldl | apply Keeps.ite
      | refine Keeps1.get ?_ (by assumption) | apply Keeps1.fst | apply Keeps1.ite | apply Keeps1.mk | split
      | apply Keeps.upd | dsimp only

theorem State.discardStaged_keeps (s : State) (g : Group) (n : Nat) {s₀ : State} (hk : Keeps s₀ s) : Keeps s₀
    (State.discardStaged s g n) := by
  unfold State.discardStaged
  with_reducible
    repeat' first
      | assumption | intro _ | apply State.wrStaged_keeps | apply Keeps.foldl

theorem State.refuseEntry_keeps (s : State) (src : Source) (idx : Nat) (sub : Nat) (cause : Nat) {s₀ : State} (hk : Keeps s₀
    s) : Keeps s₀ (State.refuseEntry s src idx sub cause) := by
  unfold State.refuseEntry
  with_reducible
    repeat' first
      | assumption | apply State.setFld_keeps | apply State.bump_keeps

theorem State.refuse_keeps (s : State) (src : Source) (r : Reg) (inst : Nat) (cause : Nat) {s₀ : State} (hk : Keeps s₀ s) :
    Keeps s₀ (State.refuse s src r inst cause) := by
  unfold State.refuse
  with_reducible
    repeat' first
      | assumption | apply State.bump_keeps | apply State.refuseEntry_keeps | apply Keeps.ite

theorem State.admitted_keeps (s : State) (src : Source) (r : Reg) (inst : Nat) (f : State → State × Nat) {s₀ : State} (hk :
    Keeps s₀ s) (hf : ∀ (x0 : State), Keeps s₀ x0 → Keeps1 s₀ (f x0)) : Keeps1 s₀ (State.admitted s src r inst f) := by
  unfold State.admitted
  with_reducible
    repeat' first
      | assumption | apply State.bump_keeps | apply State.refuse_keeps | apply hf | split | apply Keeps1.mk

theorem State.gated_keeps (s : State) (src : Source) (r : Reg) (inst : Nat) (f : State → State) {s₀ : State} (hk : Keeps s₀
    s) (hf : ∀ (x0 : State), Keeps s₀ x0 → Keeps s₀ (f x0)) : Keeps s₀ (State.gated s src r inst f) := by
  unfold State.gated
  with_reducible
    repeat' first
      | assumption | intro _ | apply State.admitted_keeps | apply hf | apply Keeps1.fst | apply Keeps1.mk

theorem State.plainWrite_keeps (s : State) (r : Reg) (inst : Nat) (v : Word) {s₀ : State} (hk : Keeps s₀ s) : Keeps s₀
    (State.plainWrite s r inst v) := by
  unfold State.plainWrite
  with_reducible
    repeat' first
      | assumption | apply State.wr_keeps | apply State.wrStaged_keeps | apply State.setFld_keeps | apply State.setFlag_keeps
      | apply Keeps.ite | split

end Sys2Proof.Machine
end

