-- ==== Sys2Proof/Laws/KeepsPackets.lean ====
section
/-!
SUPPORT. What the operations of Machine/Packets.lean and its commands leave alone: none touches the queue of commands, and each keeps the
canonical form of memory and of the register files.
-/

namespace Sys2Proof.Machine

theorem State.setLink_keeps (s : State) (l : Nat) (x : LinkSt) {s₀ : State} (hk : Keeps s₀ s) : Keeps s₀ (State.setLink s l
    x) := by
  unfold State.setLink
  with_reducible
    repeat' first
      | assumption | apply Keeps.upd

theorem State.setTx_keeps (s : State) (k : Nat) (x : TxStream) {s₀ : State} (hk : Keeps s₀ s) : Keeps s₀ (State.setTx s k x) := by
  unfold State.setTx
  with_reducible
    repeat' first
      | assumption | apply Keeps.upd

theorem State.setRx_keeps (s : State) (k : Nat) (x : RxStream) {s₀ : State} (hk : Keeps s₀ s) : Keeps s₀ (State.setRx s k x) := by
  unfold State.setRx
  with_reducible
    repeat' first
      | assumption | apply Keeps.upd

theorem State.syncSwitch_keeps (s : State) {s₀ : State} (hk : Keeps s₀ s) : Keeps s₀ (State.syncSwitch s) := by
  unfold State.syncSwitch
  with_reducible
    repeat' first
      | assumption | intro _ | apply State.setFld_keeps

theorem State.mirror_keeps (s : State) (port : Nat) (dir : Nat) (p : Packet) (cut : Bool) (detoured : Bool) {s₀ : State} (hk
    : Keeps s₀ s) : Keeps s₀ (State.mirror s port dir p cut detoured) := by
  unfold State.mirror
  with_reducible
    repeat' first
      | assumption | apply State.bump_keeps | apply Keeps.ite | apply Keeps.upd

theorem State.enterSwitch_keeps (s : State) (w : SwPkt) {s₀ : State} (hk : Keeps s₀ s) : Keeps s₀ (State.enterSwitch s w) := by
  unfold State.enterSwitch
  with_reducible
    repeat' first
      | assumption | intro _ | apply State.syncSwitch_keeps | apply State.mirror_keeps | split | apply Keeps.upd | dsimp only

theorem State.sequence_keeps (s : State) (p : Packet) (ingress : Nat) (group : Option Nat) (mid : Option Nat) {s₀ : State}
    (hk : Keeps s₀ s) : Keeps s₀ (State.sequence s p ingress group mid) := by
  unfold State.sequence
  with_reducible
    repeat' first
      | assumption | intro _ | apply State.setTx_keeps | apply State.enterSwitch_keeps | apply Keeps.ite | split
      | apply Keeps.upd | dsimp only

theorem State.sendPacket_keeps (s : State) (p : Packet) {s₀ : State} (hk : Keeps s₀ s) : Keeps s₀ (State.sendPacket s p) := by
  unfold State.sendPacket
  with_reducible
    repeat' first
      | assumption | intro _ | apply State.enterSwitch_keeps | apply State.sequence_keeps | apply Keeps.foldl
      | apply Keeps.ite | split | apply Keeps.upd

theorem State.noteUnreached_keeps (s : State) (c : ReqClient) (status : Nat) {s₀ : State} (hk : Keeps s₀ s) : Keeps s₀
    (State.noteUnreached s c status) := by
  unfold State.noteUnreached
  with_reducible
    repeat' first
      | assumption | intro _ | apply Keeps.ite | split | apply Keeps.upd | dsimp only

theorem State.failClient_keeps (s : State) (c : ReqClient) (status : Nat) (va : Nat) (fin : Nat) {s₀ : State} (hk : Keeps s₀
    s) : Keeps s₀ (State.failClient s c status va fin) := by
  unfold State.failClient
  with_reducible
    repeat' first
      | assumption | intro _ | apply State.noteUnreached_keeps | apply Keeps.ite | split | apply Keeps.upd | dsimp only

theorem State.request_keeps (s : State) (c : ReqClient) (p : Packet) (va : Nat) (fin : Nat) (mid : Option Nat) {s₀ : State}
    (hk : Keeps s₀ s) : Keeps s₀ (State.request s c p va fin mid) := by
  unfold State.request
  with_reducible
    repeat' first
      | assumption | intro _ | apply State.sequence_keeps | apply State.failClient_keeps | apply Keeps.ite | split
      | apply Keeps.upd | dsimp only

theorem State.takeFailsOf_keeps (s : State) (f : ReqClient → Bool) {s₀ : State} (hk : Keeps s₀ s) : Keeps1 s₀
    (State.takeFailsOf s f) := by
  unfold State.takeFailsOf
  with_reducible
    repeat' first
      | assumption | intro _ | apply Keeps1.ite | apply Keeps.ite | split | apply Keeps.upd | apply Keeps1.mk | dsimp only

theorem State.takeFails_keeps (s : State) (c : ReqClient) {s₀ : State} (hk : Keeps s₀ s) : Keeps1 s₀ (State.takeFails s c)
    := by
  unfold State.takeFails
  with_reducible
    repeat' first
      | assumption | intro _ | apply State.takeFailsOf_keeps | apply Keeps1.ite | apply Keeps.ite | apply Keeps1.fst
      | split | apply Keeps1.mk | dsimp only

theorem State.dropClient_keeps (s : State) (c : ReqClient) {s₀ : State} (hk : Keeps s₀ s) : Keeps s₀ (State.dropClient s c)
    := by
  unfold State.dropClient
  with_reducible
    repeat' first
      | assumption | intro _ | apply Keeps.ite | split | apply Keeps.upd | dsimp only

theorem State.remoteWrite_keeps (s : State) (c : ReqClient) (node : Nat) (off : Nat) (d : List Byte) (poison : Bool) (part :
    Nat) (key : Nat) (va : Nat) (fin : Nat) {s₀ : State} (hk : Keeps s₀ s) : Keeps s₀ (State.remoteWrite s c node off d
    poison part key va fin) := by
  unfold State.remoteWrite
  with_reducible
    repeat' first
      | assumption | intro _ | apply State.request_keeps | apply Keeps.foldl | apply Keeps.ite | apply Keeps1.fst
      | apply Keeps1.ite | split | apply Keeps1.mk | dsimp only

theorem State.remoteRead_keeps (s : State) (h : Half) (node : Nat) (off : Nat) (n : Nat) (part : Nat) (key : Nat) (tc : Nat)
    {s₀ : State} (hk : Keeps s₀ s) : Keeps s₀ (State.remoteRead s h node off n part key tc) := by
  unfold State.remoteRead
  with_reducible
    repeat' first
      | assumption | intro _ | apply State.request_keeps | apply Keeps.foldl | apply Keeps.ite | apply Keeps1.fst
      | apply Keeps1.ite | split | apply Keeps1.mk | dsimp only

theorem State.takeInbox_keeps (s : State) (k : Nat) (kind : Packet → Bool) {s₀ : State} (hk : Keeps s₀ s) : KeepsP s₀
    (State.takeInbox s k kind) := by
  unfold State.takeInbox
  with_reducible
    repeat' first
      | assumption | apply KeepsP.ite | exact KeepsP.none | apply KeepsP.some | split | apply Keeps.upd

theorem State.perform_keeps (s : State) (k : Nat) (kind : Packet → Bool) (f : State → Packet → State) {s₀ : State} (hk :
    Keeps s₀ s) (hf : ∀ (x0 : State) (x1 : Packet), Keeps s₀ x0 → Keeps s₀ (f x0 x1)) : Keeps s₀ (State.perform s k kind f) := by
  unfold State.perform
  with_reducible
    repeat' first
      | assumption | apply State.takeInbox_keeps | apply hf | refine KeepsP.get ?_ (by assumption) | split

end Sys2Proof.Machine
end

