-- ==== Sys2Proof/Laws/KeepsEcc.lean ====
section
/-!
SUPPORT. What the operations of Machine/Ecc.lean and its commands leave alone: none touches the queue of commands, and each keeps the
canonical form of memory and of the register files.
-/

namespace Sys2Proof.Machine

theorem State.countCorrected_keeps (s : State) (dev : Nat) (off : Nat) {s₀ : State} (hk : Keeps s₀ s) : Keeps s₀
    (State.countCorrected s dev off) := by
  unfold State.countCorrected
  with_reducible
    repeat' first
      | assumption | intro _ | apply State.record_keeps | apply Keeps.ite | split | apply Keeps.updFresh | apply Keeps.upd | dsimp only

theorem State.corrected_keeps (s : State) (off : Nat) (symbols : List Nat) {s₀ : State} (hk : Keeps s₀ s) : Keeps s₀
    (State.corrected s off symbols) := by
  unfold State.corrected
  with_reducible
    repeat' first
      | assumption | intro _ | apply State.wrap_keeps | apply State.lifeAdd_keeps | apply State.countCorrected_keeps
      | apply Keeps.foldl | apply Keeps.ite | apply Keeps1.fst | apply Keeps1.ite | split | apply Keeps1.mk | dsimp only

theorem State.cellRead_keeps (s : State) (event : Nat) (op : Nat) (off : Nat) (err : List Byte) {s₀ : State} (hk : Keeps s₀
    s) : Keeps s₀ (State.cellRead s event op off err) := by
  unfold State.cellRead
  with_reducible
    repeat' first
      | assumption | intro _ | apply State.bump_keeps | apply State.fresh_keeps | apply State.poisonLine_keeps
      | apply State.storeLine_keeps | apply State.lifeAdd_keeps | apply State.record_keeps | apply State.corrected_keeps
      | apply Keeps.ite | refine Keeps2.get ?_ (by assumption) | apply Keeps1.fst | apply Keeps1.ite | apply Keeps2.snd
      | split | apply Keeps.updFresh | apply Keeps.upd | apply Keeps1.mk | dsimp only

theorem State.rowPoison_keeps (s : State) (y0 : SramRow) {s₀ : State} (hk : Keeps s₀ s) : Keeps s₀ (State.rowPoison s y0) :=
    by
  unfold State.rowPoison
  with_reducible
    repeat' first
      | assumption | intro _ | apply Keeps.ite | split | apply Keeps.updFresh | apply Keeps.upd | dsimp only

theorem State.rowRead64_keeps (s : State) (r : SramRow) (op : Nat) (err : List Byte) {s₀ : State} (hk : Keeps s₀ s) : Keeps
    s₀ (State.rowRead64 s r op err) := by
  unfold State.rowRead64
  with_reducible
    repeat' first
      | assumption | intro _ | apply State.record_keeps | apply State.rowPoison_keeps | apply Keeps.ite | split
      | dsimp only

theorem State.codewords_keeps (s : State) (op : Nat) (env : Env) {s₀ : State} (hk : Keeps s₀ s) : Keeps s₀ (State.codewords
    s op env) := by
  unfold State.codewords
  with_reducible
    repeat' first
      | assumption | intro _ | apply State.fresh_keeps | apply State.cellRead_keeps | apply State.rowRead64_keeps
      | apply Keeps.foldl | apply Keeps.ite | refine Keeps2.get ?_ (by assumption) | apply Keeps1.fst | apply Keeps1.ite
      | apply Keeps2.snd | split | apply Keeps.updFresh | apply Keeps.upd | apply Keeps1.mk | dsimp only

end Sys2Proof.Machine
end

