-- ==== Sys2Proof/Laws/KeepsSnoops.lean ====
section
/-!
SUPPORT. What the operations of Machine/Snoops.lean and its commands leave alone: none touches the queue of commands, and each keeps the
canonical form of memory and of the register files.
-/

namespace Sys2Proof.Machine

theorem State.ownSnoop_keeps (s : State) (line : Nat) (msg : Nat) (slot : Nat) {s₀ : State} (hk : Keeps s₀ s) : Keeps s₀
    (State.ownSnoop s line msg slot) := by
  unfold State.ownSnoop
  with_reducible
    repeat' first
      | assumption | intro _ | apply State.wrap_keeps | apply State.sendPacket_keeps | apply Keeps.ite | split
      | apply Keeps.upd | dsimp only

theorem State.snoopRead_keeps (s : State) (a : Nat) (n : Nat) {s₀ : State} (hk : Keeps s₀ s) : Keeps s₀ (State.snoopRead s a
    n) := by
  unfold State.snoopRead
  with_reducible
    repeat' first
      | assumption | intro _ | apply State.syncDir_keeps | apply State.ownSnoop_keeps | apply Keeps.foldl | apply Keeps.ite
      | apply Keeps1.fst | apply Keeps1.ite | split | apply Keeps.upd | apply Keeps1.mk | dsimp only

theorem State.snoopWrite_keeps (s : State) (a : Nat) (n : Nat) {s₀ : State} (hk : Keeps s₀ s) : Keeps s₀ (State.snoopWrite s
    a n) := by
  unfold State.snoopWrite
  refine Keeps.ite hk ?_
  refine Keeps.foldl (State.syncDir_keeps _ (hk.trans ⟨rfl, fun c => ?_⟩)) fun x e hx =>
    Keeps.foldl hx fun y k hy => State.ownSnoop_keeps y e.line 6 k hy
  rw [State.canonical_iff] at c ⊢
  refine ⟨?_, c.2⟩
  generalize (s.dir.filter fun e => (linesOf a n).contains e.line) = l
  have : ∀ m : Memory, m.wf = true → (l.foldl (fun (m : Memory) e =>
      if e.owner.isNone then m
      else (m.cleanLine e.line).putAll (64 * e.line) ((List.range 64).map fun k => Config.agentByte s.free (64 * e.line + k))) m).wf = true := by
    induction l with
    | nil => exact fun _ h => h
    | cons e r ih =>
      intro m h
      refine ih _ ?_
      dsimp only
      split
      · exact h
      · exact Memory.wf_putAll (Memory.wf_cleanLine h _) _ _
  exact this _ c.1

theorem State.countPoison_keeps (s : State) (a : Nat) (n : Nat) {s₀ : State} (hk : Keeps s₀ s) : Keeps s₀ (State.countPoison
    s a n) := by
  unfold State.countPoison
  refine State.snoopRead_keeps _ _ _ (State.wrap_keeps _ _ _ _ (hk.trans ⟨rfl, fun c => ?_⟩))
  rw [State.canonical_iff] at c ⊢
  exact ⟨c.1, c.2⟩

theorem State.noteRead_keeps (s : State) (o : Nat) (n : Nat) {s₀ : State} (hk : Keeps s₀ s) : Keeps s₀ (State.noteRead s o
    n) := by
  unfold State.noteRead
  with_reducible
    repeat' first
      | assumption | intro _ | apply State.tally_keeps | apply State.countPoison_keeps | apply Keeps.ite | split
      | dsimp only

theorem State.writeMem_keeps (s : State) (a : Nat) (d : List Byte) (poison : List Nat) {s₀ : State} (hk : Keeps s₀ s) :
    Keeps1 s₀ (State.writeMem s a d poison) := by
  unfold State.writeMem
  refine Keeps1.ite hk (State.tally_keeps _ _ _ _ ((State.snoopWrite_keeps s a d.length hk).trans ⟨rfl, fun c => ?_⟩))
  rw [State.canonical_iff] at c ⊢
  exact ⟨Memory.wf_writeLines c.1 _ _ _ _ _, c.2⟩

end Sys2Proof.Machine
end

