-- ==== Sys2Proof/Laws/KeepsXlate.lean ====
section
/-!
SUPPORT. What the operations of Machine/Xlate.lean and its commands leave alone: none touches the queue of commands, and each keeps the
canonical form of memory and of the register files.
-/

namespace Sys2Proof.Machine

theorem State.setCtx_keeps (s : State) (c : Nat) (x : CtxSt) {s₀ : State} (hk : Keeps s₀ s) : Keeps s₀ (State.setCtx s c x) := by
  unfold State.setCtx
  with_reducible
    repeat' first
      | assumption | apply Keeps.upd

theorem State.setLook_keeps (s : State) (h : Half) (x : LookSt) {s₀ : State} (hk : Keeps s₀ s) : Keeps s₀ (State.setLook s h
    x) := by
  unfold State.setLook
  with_reducible
    repeat' first
      | assumption | intro _ | apply Keeps.ite | split | apply Keeps.upd | dsimp only

theorem State.lookRange_keeps (s : State) (h : Half) (c : Nat) (page : Nat) {s₀ : State} (hk : Keeps s₀ s) : Keeps s₀
    (State.lookRange s h c page) := by
  unfold State.lookRange
  with_reducible
    repeat' first
      | assumption | intro _ | apply State.wrap_keeps | apply State.setLook_keeps | apply Keeps.ite | split
      | apply Keeps.upd | dsimp only

theorem State.lookBits_keeps (s : State) (h : Half) (c : Nat) (pp : Nat) {s₀ : State} (hk : Keeps s₀ s) : Keeps s₀
    (State.lookBits s h c pp) := by
  unfold State.lookBits
  with_reducible
    repeat' first
      | assumption | intro _ | apply State.wrap_keeps | apply State.setLook_keeps | apply Keeps.ite | split
      | apply Keeps.upd | dsimp only

theorem State.lookup_keeps (s : State) (h : Half) (c : Nat) (va : Nat) (n : Nat) {s₀ : State} (hk : Keeps s₀ s) : Keeps s₀
    (State.lookup s h c va n) := by
  unfold State.lookup
  with_reducible
    repeat' first
      | assumption | intro _ | apply State.lookRange_keeps | apply State.lookBits_keeps | apply Keeps.foldl
      | apply Keeps.ite | apply Keeps1.fst | apply Keeps1.ite | split | apply Keeps1.mk | dsimp only

theorem State.dropLook_keeps (s : State) (c : Nat) {s₀ : State} (hk : Keeps s₀ s) : Keeps s₀ (State.dropLook s c) := by
  unfold State.dropLook
  with_reducible
    repeat' first
      | assumption | intro _ | apply Keeps.ite | apply Keeps1.fst | apply Keeps1.ite | split | apply Keeps.upd
      | apply Keeps1.mk | dsimp only

theorem State.asOf_keeps (s : State) (slot : Nat) (c : Nat) {s₀ : State} (hk : Keeps s₀ s) : Keeps s₀ (State.asOf s slot c)
    := by
  unfold State.asOf
  with_reducible
    repeat' first
      | assumption | intro _ | apply State.wr_keeps | apply State.setCtx_keeps | apply Keeps.ite | split | apply Keeps.upd
      | dsimp only

theorem State.endAccess_keeps (s : State) (slot : Nat) {s₀ : State} (hk : Keeps s₀ s) : Keeps s₀ (State.endAccess s slot) :=
    by
  unfold State.endAccess
  with_reducible
    repeat' first
      | assumption | intro _ | apply Keeps.ite | split | apply Keeps.upd | dsimp only

theorem State.noteOwn_keeps (s : State) (h : Half) (o : Nat) (n : Nat) {s₀ : State} (hk : Keeps s₀ s) : Keeps s₀
    (State.noteOwn s h o n) := by
  unfold State.noteOwn
  with_reducible
    repeat' first
      | assumption | intro _ | apply State.bump_keeps | apply State.crossIn_keeps | apply State.noteRead_keeps
      | apply Keeps.ite | split | dsimp only

theorem State.noteVA_keeps (s : State) (h : Half) (c : Nat) (va : Nat) (n : Nat) (view : State) {s₀ : State} (hk : Keeps s₀
    s) : Keeps s₀ (State.noteVA s h c va n view) := by
  unfold State.noteVA
  with_reducible
    repeat' first
      | assumption | intro _ | apply State.cross_keeps | apply State.remoteRead_keeps | apply State.noteOwn_keeps
      | apply Keeps.foldl | apply Keeps.ite | apply Keeps1.fst | apply Keeps1.ite | split | apply Keeps1.mk | dsimp only

theorem State.writeOwn_keeps (s : State) (h : Half) (o : Nat) (d : List Byte) (poison : List Nat) {s₀ : State} (hk : Keeps
    s₀ s) : Keeps1 s₀ (State.writeOwn s h o d poison) := by
  unfold State.writeOwn
  with_reducible
    repeat' first
      | assumption | intro _ | apply State.bump_keeps | apply State.crossOut_keeps | apply State.writeMem_keeps
      | apply Keeps1.ite | apply Keeps.ite | apply Keeps1.fst | split | apply Keeps.upd | apply Keeps1.mk | dsimp only

theorem State.setPtn_keeps (s : State) (p : Nat) (x : PartSt) {s₀ : State} (hk : Keeps s₀ s) : Keeps s₀ (State.setPtn s p x)
    := by
  unfold State.setPtn
  with_reducible
    repeat' first
      | assumption | intro _ | apply Keeps.ite | split | apply Keeps.upd | dsimp only

theorem State.hostData_keeps (s : State) (c : Nat) (addr : Nat) (d : List Byte) (poisoned : Bool) {s₀ : State} (hk : Keeps
    s₀ s) : Keeps s₀ (State.hostData s c addr d poisoned) := by
  unfold State.hostData
  with_reducible
    repeat' first
      | assumption | intro _ | apply State.emit_keeps | apply State.setPtn_keeps | apply Keeps.ite | split
      | apply Keeps.upd | dsimp only

theorem State.writeVA_keeps (s : State) (c : Nat) (va : Nat) (d : List Byte) (poison : List Nat) (w : ReqClient) (view :
    State) (pick : Target → Bool) {s₀ : State} (hk : Keeps s₀ s) : Keeps1 s₀ (State.writeVA s c va d poison w view pick) :=
    by
  unfold State.writeVA
  with_reducible
    repeat' first
      | assumption | intro _ | apply State.cross_keeps | apply State.remoteWrite_keeps | apply State.writeOwn_keeps
      | apply State.hostData_keeps | apply Keeps.foldl | apply Keeps1.foldl | apply Keeps1.ite | apply Keeps.ite
      | apply Keeps1.fst | split | apply Keeps.upd | apply Keeps1.mk | dsimp only

theorem State.invalidate_keeps (s : State) (gpa : Nat) (n : Nat) {s₀ : State} (hk : Keeps s₀ s) : Keeps s₀ (State.invalidate
    s gpa n) := by
  unfold State.invalidate
  with_reducible
    repeat' first
      | assumption | intro _ | apply Keeps.ite | apply Keeps1.fst | apply Keeps1.ite | split | apply Keeps.upd
      | apply Keeps1.mk | dsimp only

theorem State.setEng_keeps (s : State) (slot : Nat) (e : EngSt) {s₀ : State} (hk : Keeps s₀ s) : Keeps s₀ (State.setEng s
    slot e) := by
  unfold State.setEng
  with_reducible
    repeat' first
      | assumption | apply Keeps.upd

theorem State.setFltq_keeps (s : State) (c : Nat) (q : FltqSt) {s₀ : State} (hk : Keeps s₀ s) : Keeps s₀ (State.setFltq s c
    q) := by
  unfold State.setFltq
  with_reducible
    repeat' first
      | assumption | apply Keeps.upd

theorem State.setFltTail_keeps (s : State) (c : Nat) (v : Nat) {s₀ : State} (hk : Keeps s₀ s) : Keeps s₀ (State.setFltTail s
    c v) := by
  unfold State.setFltTail
  with_reducible
    repeat' first
      | assumption | apply State.setFld_keeps | apply Keeps.ite | apply Keeps.upd

theorem State.queueFault_keeps (s : State) (slot : Nat) {s₀ : State} (hk : Keeps s₀ s) : Keeps s₀ (State.queueFault s slot)
    := by
  unfold State.queueFault
  with_reducible
    repeat' first
      | assumption | intro _ | apply State.emit_keeps | apply State.setEng_keeps | apply State.setFltq_keeps
      | apply State.setFltTail_keeps | apply Keeps.ite | split | apply Keeps.upd | dsimp only

theorem State.countUnqueued_keeps (s : State) (c : Nat) {s₀ : State} (hk : Keeps s₀ s) : Keeps s₀ (State.countUnqueued s c) := by
  unfold State.countUnqueued
  with_reducible
    repeat' first
      | assumption | apply State.setFld_keeps | apply State.setFlag_keeps | apply State.raiseVec_keeps | apply Keeps.ite

theorem State.uncountUnqueued_keeps (s : State) (c : Nat) {s₀ : State} (hk : Keeps s₀ s) : Keeps s₀ (State.uncountUnqueued s
    c) := by
  unfold State.uncountUnqueued
  with_reducible
    repeat' first
      | assumption | apply State.less_keeps | apply Keeps.ite

theorem State.raiseFault_keeps (s : State) (slot : Nat) (c : Nat) (access : Nat) (va : Nat) (n : Nat) (cursor : Word) (fva :
    Nat) (k : FaultKind) (more : Bool) {s₀ : State} (hk : Keeps s₀ s) : Keeps s₀ (State.raiseFault s slot c access va n
    cursor fva k more) := by
  unfold State.raiseFault
  with_reducible
    repeat' first
      | assumption | intro _ | apply State.bump_keeps | apply State.setEng_keeps | apply State.queueFault_keeps
      | apply State.countUnqueued_keeps | apply Keeps.ite | split | apply Keeps.upd | dsimp only

theorem State.holdEngine_keeps (s : State) (slot : Nat) (c : Nat) {s₀ : State} (hk : Keeps s₀ s) : Keeps s₀ (State.holdEngine
    s slot c) := by
  unfold State.holdEngine
  with_reducible
    repeat' first
      | assumption | apply State.setEng_keeps

theorem State.freeEngine_keeps (s : State) (slot : Nat) {s₀ : State} (hk : Keeps s₀ s) : Keeps s₀ (State.freeEngine s slot) := by
  unfold State.freeEngine
  with_reducible
    repeat' first
      | assumption | apply State.setEng_keeps | apply State.uncountUnqueued_keeps | apply Keeps.ite

theorem State.loseShadow_keeps (s : State) (c : Nat) {s₀ : State} (hk : Keeps s₀ s) : Keeps s₀ (State.loseShadow s c) := by
  unfold State.loseShadow
  with_reducible
    repeat' first
      | assumption | apply State.record_keeps | apply State.setCtx_keeps

theorem State.keyFault_keeps (s : State) (slot : Nat) (c : Nat) (access : Nat) (va : Nat) (n : Nat) (cursor : Word) (fva :
    Nat) {s₀ : State} (hk : Keeps s₀ s) : Keeps s₀ (State.keyFault s slot c access va n cursor fva) := by
  unfold State.keyFault
  with_reducible
    repeat' first
      | assumption | apply State.raiseFault_keeps

theorem State.present_keeps (s : State) (slot : Nat) (c : Nat) (access : Nat) (va : Nat) (n : Nat) (a : Acc) (cursor : Word)
    {s₀ : State} (hk : Keeps s₀ s) : Keeps1 s₀ (State.present s slot c access va n a cursor) := by
  unfold State.present
  with_reducible
    repeat' first
      | assumption | intro _ | apply State.lookup_keeps | apply State.endAccess_keeps | apply State.raiseFault_keeps
      | apply State.holdEngine_keeps | apply Keeps1.ite | apply Keeps.ite | split | apply Keeps1.mk | dsimp only

end Sys2Proof.Machine
end

