-- ==== Sys2Proof/Laws/KeepsQueueOps.lean ====
section
/-!
SUPPORT. What the operations of Machine/QueueOps.lean and its commands leave alone: none touches the queue of commands, and each keeps the
canonical form of memory and of the register files.
-/

namespace Sys2Proof.Machine

theorem State.setQueue_keeps (s : State) (p : Nat) (q : Nat) (x : QueueSt) {s₀ : State} (hk : Keeps s₀ s) : Keeps s₀
    (State.setQueue s p q x) := by
  unfold State.setQueue
  with_reducible
    repeat' first
      | assumption | apply Keeps.upd

theorem State.syncInflight_keeps (s : State) (p : Nat) (q : Nat) {s₀ : State} (hk : Keeps s₀ s) : Keeps s₀
    (State.syncInflight s p q) := by
  unfold State.syncInflight
  with_reducible
    repeat' first
      | assumption | apply State.setFld_keeps | apply State.setFlag_keeps | apply Keeps.ite

theorem State.haltQueue_keeps (s : State) (p : Nat) (q : Nat) (err : Nat) {s₀ : State} (hk : Keeps s₀ s) : Keeps s₀
    (State.haltQueue s p q err) := by
  unfold State.haltQueue
  with_reducible
    repeat' first
      | assumption | apply State.setFld_keeps | apply State.setFlag_keeps | apply State.raiseVec_keeps

theorem State.ringFault_keeps (s : State) (p : Nat) (q : Nat) (err : Nat) {s₀ : State} (hk : Keeps s₀ s) : Keeps s₀
    (State.ringFault s p q err) := by
  unfold State.ringFault
  with_reducible
    repeat' first
      | assumption | apply State.record_keeps | apply State.haltQueue_keeps

theorem State.writeStrict_keeps (s : State) (c : Nat) (va : Nat) (d : List Byte) {s₀ : State} (hk : Keeps s₀ s) : Keeps1 s₀
    (State.writeStrict s c va d) := by
  unfold State.writeStrict
  with_reducible
    repeat' first
      | assumption | apply State.writeVA_keeps | apply Keeps1.fst | apply Keeps1.mk | apply Keeps.upd

theorem State.flushRelaxed_keeps (s : State) (p : Nat) {s₀ : State} (hk : Keeps s₀ s) : Keeps s₀ (State.flushRelaxed s p) :=
    by
  unfold State.flushRelaxed
  with_reducible
    repeat' first
      | assumption | intro _ | apply State.emit_keeps | apply State.setPtn_keeps | apply Keeps.ite | split
      | apply Keeps.upd | dsimp only

theorem State.completeEntry_keeps (s : State) (p : Nat) (q : Nat) (slot : Nat) (status : Nat) (count : Nat) (fail : Nat) {s₀
    : State} (hk : Keeps s₀ s) : Keeps s₀ (State.completeEntry s p q slot status count fail) := by
  unfold State.completeEntry
  with_reducible
    repeat' first
      | assumption | intro _ | apply State.setQueue_keeps | apply State.syncInflight_keeps | apply State.ringFault_keeps
      | apply State.writeStrict_keeps | apply State.flushRelaxed_keeps | apply Keeps.ite | apply Keeps1.fst
      | apply Keeps1.ite | split | apply Keeps.upd | apply Keeps1.mk | dsimp only

theorem State.readyOrder_keeps (s : State) (t : State) {s₀ : State} (hk : Keeps s₀ s) : Keeps s₀ (State.readyOrder s t) :=
    by
  unfold State.readyOrder
  with_reducible
    repeat' first
      | assumption | intro _ | apply Keeps.ite | apply Keeps1.fst | apply Keeps1.ite | split | apply Keeps.upd
      | apply Keeps1.mk | dsimp only

theorem State.finishWork_keeps (s : State) (w : WorkSrc) (status : Nat) (count : Nat) (fail : Nat) {s₀ : State} (hk : Keeps
    s₀ s) : Keeps s₀ (State.finishWork s w status count fail) := by
  unfold State.finishWork
  with_reducible
    repeat' first
      | assumption | intro _ | apply State.emit_keeps | apply State.completeEntry_keeps | apply State.readyOrder_keeps
      | apply Keeps.ite | split | apply Keeps.upd | dsimp only

end Sys2Proof.Machine
end

