-- ==== Sys2Proof/Laws/KeepsTileOps.lean ====
section
/-!
SUPPORT. What the operations of Machine/TileOps.lean and its commands leave alone: none touches the queue of commands, and each keeps the
canonical form of memory and of the register files.
-/

namespace Sys2Proof.Machine

theorem State.noteEnd_keeps (s : State) (h : Half) (ctx : Nat) (kind : Nat) (addr : Nat) (n : Nat) (view : State) {s₀ :
    State} (hk : Keeps s₀ s) : Keeps s₀ (State.noteEnd s h ctx kind addr n view) := by
  unfold State.noteEnd
  with_reducible
    repeat' first
      | assumption | intro _ | apply State.crossIn_keeps | apply State.remoteRead_keeps | apply State.noteRead_keeps
      | apply State.noteOwn_keeps | apply State.noteVA_keeps | apply Keeps.ite | split | dsimp only

theorem State.writeEnd_keeps (s : State) (ctx : Nat) (kind : Nat) (addr : Nat) (d : List Byte) (poison : List Nat) (w :
    ReqClient) (view : State) (pick : Target → Bool) {s₀ : State} (hk : Keeps s₀ s) : Keeps1 s₀ (State.writeEnd s ctx kind
    addr d poison w view pick) := by
  unfold State.writeEnd
  with_reducible
    repeat' first
      | assumption | intro _ | apply State.crossOut_keeps | apply State.remoteWrite_keeps | apply State.writeMem_keeps
      | apply State.writeOwn_keeps | apply State.writeVA_keeps | apply Keeps1.ite | apply Keeps.ite | apply Keeps1.fst
      | split | apply Keeps1.mk | dsimp only

theorem State.undefineEnd_keeps (s : State) (ctx : Nat) (kind : Nat) (addr : Nat) (n : Nat) (view : State) {s₀ : State} (hk
    : Keeps s₀ s) : Keeps s₀ (State.undefineEnd s ctx kind addr n view) := by
  unfold State.undefineEnd
  with_reducible
    repeat' first
      | assumption | intro _ | apply State.undefine_keeps | apply Keeps.foldl | apply Keeps.ite | apply Keeps1.fst
      | apply Keeps1.ite | split | apply Keeps1.mk | dsimp only

theorem State.invalidateEnd_keeps (s : State) (ctx : Nat) (kind : Nat) (addr : Nat) (n : Nat) (view : State) {s₀ : State}
    (hk : Keeps s₀ s) : Keeps s₀ (State.invalidateEnd s ctx kind addr n view) := by
  unfold State.invalidateEnd
  with_reducible
    repeat' first
      | assumption | intro _ | apply State.invalidate_keeps | apply Keeps.foldl | apply Keeps.ite | apply Keeps1.fst
      | apply Keeps1.ite | split | apply Keeps1.mk | dsimp only

theorem State.syncChan_keeps (s : State) (ch : Nat) {s₀ : State} (hk : Keeps s₀ s) : Keeps s₀ (State.syncChan s ch) := by
  unfold State.syncChan
  with_reducible
    repeat' first
      | assumption | intro _ | apply State.setBit_keeps | apply Keeps.ite | split | dsimp only

theorem State.setChan_keeps (s : State) (ch : Nat) (x : ChanSt) {s₀ : State} (hk : Keeps s₀ s) : Keeps s₀ (State.setChan s
    ch x) := by
  unfold State.setChan
  with_reducible
    repeat' first
      | assumption | intro _ | apply State.syncChan_keeps | apply Keeps.ite | split | apply Keeps.upd | dsimp only

theorem State.queueMove_keeps (s : State) (ctx : Nat) (w : WorkSrc) (d : Desc) {s₀ : State} (hk : Keeps s₀ s) : Keeps s₀
    (State.queueMove s ctx w d) := by
  unfold State.queueMove
  with_reducible
    repeat' first
      | assumption | intro _ | apply Keeps.ite | split | apply Keeps.upd | dsimp only

theorem State.closeDrive_keeps (s : State) (d : Nat) {s₀ : State} (hk : Keeps s₀ s) : Keeps s₀ (State.closeDrive s d) := by
  unfold State.closeDrive
  with_reducible
    repeat' first
      | assumption | intro _ | apply State.emit_keeps | apply Keeps.ite | split | apply Keeps.upd | dsimp only

end Sys2Proof.Machine
end

