-- ==== Sys2Proof/Laws/KeepsEngineCache.lean ====
section
/-!
SUPPORT. What the operations of Machine/EngineCache.lean and its commands leave alone: none touches the queue of commands, and each keeps the
canonical form of memory and of the register files.
-/

namespace Sys2Proof.Machine

theorem State.setCache_keeps (s : State) (h : Half) (c : Sparse (List Byte)) {s₀ : State} (hk : Keeps s₀ s) : Keeps s₀
    (State.setCache s h c) := by
  unfold State.setCache
  with_reducible
    repeat' first
      | assumption | split | apply Keeps.upd

theorem State.cachedLine_keeps (s : State) (h : Half) (line : Nat) {s₀ : State} (hk : Keeps s₀ s) : Keeps1 s₀
    (State.cachedLine s h line) := by
  unfold State.cachedLine
  with_reducible
    repeat' first
      | assumption | intro _ | apply State.fresh_keeps | apply State.crossIn_keeps | apply State.noteRead_keeps
      | apply State.setCache_keeps | apply Keeps1.ite | apply Keeps.ite | refine Keeps2.get ?_ (by assumption)
      | apply Keeps1.fst | apply Keeps2.snd | split | apply Keeps.upd | apply Keeps1.mk | dsimp only

theorem State.cachedLines_keeps (s : State) (h : Half) (first : Nat) (y0 : Nat) {s₀ : State} (hk : Keeps s₀ s) : Keeps1 s₀
    (State.cachedLines s h first y0) := by
  induction y0 with
  | zero =>
    unfold State.cachedLines
    with_reducible
      repeat' first
        | assumption | apply State.cachedLine_keeps | apply Keeps1.ite | apply Keeps1.fst | split | apply Keeps1.mk
  | succ _ ih =>
    unfold State.cachedLines
    with_reducible
      repeat' first
        | assumption | apply ih | apply State.cachedLine_keeps | apply Keeps1.ite | apply Keeps1.fst | split
        | apply Keeps1.mk

theorem State.cachedOwn_keeps (s : State) (h : Half) (o : Nat) (n : Nat) {s₀ : State} (hk : Keeps s₀ s) : Keeps1 s₀
    (State.cachedOwn s h o n) := by
  unfold State.cachedOwn
  with_reducible
    repeat' first
      | assumption | intro _ | apply State.cachedLines_keeps | apply Keeps1.ite | apply Keeps.ite | apply Keeps1.fst
      | split | apply Keeps1.mk | dsimp only

theorem State.readPiece_keeps (s : State) (h : Half) (n : Nat) (env : Env) (t : Option Target) {s₀ : State} (hk : Keeps s₀
    s) : Keeps1 s₀ (State.readPiece s h n env t) := by
  unfold State.readPiece
  with_reducible
    repeat' first
      | assumption | intro _ | apply State.cross_keeps | apply State.remoteRead_keeps | apply State.noteOwn_keeps
      | apply State.cachedOwn_keeps | apply Keeps1.ite | apply Keeps.ite | apply Keeps1.fst | split | apply Keeps1.mk
      | dsimp only

theorem State.readCached_keeps (s : State) (h : Half) (c : Nat) (va : Nat) (n : Nat) (env : Env) (view : State) {s₀ : State}
    (hk : Keeps s₀ s) : Keeps1 s₀ (State.readCached s h c va n env view) := by
  unfold State.readCached
  with_reducible
    repeat' first
      | assumption | intro _ | apply State.readPiece_keeps | apply Keeps.foldl | apply Keeps1.foldl | apply Keeps1.ite
      | apply Keeps.ite | apply Keeps1.fst | split | apply Keeps.upd | apply Keeps1.mk | dsimp only

end Sys2Proof.Machine
end

