-- ==== Sys2Proof/Laws/KeepsMover.lean ====
section
/-!
SUPPORT. What the operations of Machine/Mover.lean and its commands leave alone: none touches the queue of commands, and each keeps the
canonical form of memory and of the register files.
-/

namespace Sys2Proof.Machine

theorem State.finishMove_keeps (s : State) (ch : Nat) (status : Nat) (count : Nat) {s₀ : State} (hk : Keeps s₀ s) : Keeps s₀
    (State.finishMove s ch status count) := by
  unfold State.finishMove
  with_reducible
    repeat' first
      | assumption | intro _ | apply State.bump_keeps | apply State.wrap_keeps | apply State.dropClient_keeps
      | apply State.endAccess_keeps | apply State.finishWork_keeps | apply State.setChan_keeps
      | apply State.closeDrive_keeps | apply Keeps.ite | apply Keeps1.fst | apply Keeps1.ite | split | apply Keeps1.mk
      | dsimp only

theorem State.acceptHeader_keeps (s : State) (ch : Nat) (buf : List Byte) (hdrBad : Bool) {s₀ : State} (hk : Keeps s₀ s) :
    Keeps s₀ (State.acceptHeader s ch buf hdrBad) := by
  unfold State.acceptHeader
  with_reducible
    repeat' first
      | assumption | apply State.setChan_keeps | apply State.finishMove_keeps | apply Keeps.ite | split

theorem State.moveKeyFault_keeps (s : State) (ch : Nat) (access : Nat) (fva : Nat) {s₀ : State} (hk : Keeps s₀ s) : Keeps s₀
    (State.moveKeyFault s ch access fva) := by
  unfold State.moveKeyFault
  with_reducible
    repeat' first
      | assumption | intro _ | apply State.dropClient_keeps | apply State.endAccess_keeps | apply State.keyFault_keeps
      | apply State.setChan_keeps | apply State.keyed_keeps | apply Keeps.ite | split | apply Keeps.upd | dsimp only

theorem State.moveView_keeps (s : State) (ch : Nat) {s₀ : State} (hk : Keeps s₀ s) : Keeps s₀ (State.moveView s ch) := by
  unfold State.moveView
  with_reducible
    repeat' first
      | assumption | intro _ | apply State.asOf_keeps | apply Keeps.ite | split | dsimp only

theorem State.readSource_keeps (s : State) (ch : Nat) (env : Env) {s₀ : State} (hk : Keeps s₀ s) : Keeps s₀
    (State.readSource s ch env) := by
  unfold State.readSource
  with_reducible
    repeat' first
      | assumption | intro _ | apply State.emit_keeps | apply State.noteEnd_keeps | apply State.setChan_keeps
      | apply State.finishMove_keeps | apply State.acceptHeader_keeps | apply State.moveKeyFault_keeps | apply Keeps.ite
      | apply Keeps1.fst | apply Keeps1.ite | split | apply Keeps.upd | apply Keeps1.mk | dsimp only

theorem State.checkMove_keeps (s : State) (ch : Nat) {s₀ : State} (hk : Keeps s₀ s) : Keeps1 s₀ (State.checkMove s ch) := by
  unfold State.checkMove
  with_reducible
    repeat' first
      | assumption | apply State.present_keeps | apply Keeps1.fst | split | apply Keeps1.mk

theorem State.presentMove_keeps (s : State) (ch : Nat) (env : Env) {s₀ : State} (hk : Keeps s₀ s) : Keeps s₀
    (State.presentMove s ch env) := by
  unfold State.presentMove
  with_reducible
    repeat' first
      | assumption | intro _ | apply State.bump_keeps | apply State.setChan_keeps | apply State.finishMove_keeps
      | apply State.readSource_keeps | apply State.checkMove_keeps | apply Keeps.ite | refine Keeps1.get ?_ (by assumption)
      | apply Keeps1.fst | apply Keeps1.ite | split | apply Keeps.upd | apply Keeps1.mk | dsimp only

theorem State.startMove_keeps (s : State) (op : Nat) (fw : List Byte) (env : Env) {s₀ : State} (hk : Keeps s₀ s) : Keeps s₀
    (State.startMove s op fw env) := by
  unfold State.startMove
  with_reducible
    repeat' first
      | assumption | intro _ | apply State.emit_keeps | apply State.setChan_keeps | apply State.queueMove_keeps
      | apply State.presentMove_keeps | apply Keeps.ite | split | apply Keeps.upd | dsimp only

theorem execCopyTile_keeps (fw : List Byte) (env : Env) (s : State) {s₀ : State} (hk : Keeps s₀ s) : KeepsO s₀ (execCopyTile
    fw env s) := by
  unfold execCopyTile
  with_reducible
    repeat' first
      | assumption | intro _ | apply State.clocked_keeps | apply State.startMove_keeps | apply KeepsO.next
      | apply KeepsO.ite | apply Keeps.ite | split | dsimp only

theorem execCopyRaw_keeps (fw : List Byte) (env : Env) (s : State) {s₀ : State} (hk : Keeps s₀ s) : KeepsO s₀ (execCopyRaw
    fw env s) := by
  unfold execCopyRaw
  with_reducible
    repeat' first
      | assumption | intro _ | apply State.clocked_keeps | apply State.startMove_keeps | apply KeepsO.next
      | apply KeepsO.ite | apply Keeps.ite | split | dsimp only

theorem State.t2Write_keeps (s : State) (ch : Nat) (lba : Nat) (d : List Byte) {s₀ : State} (hk : Keeps s₀ s) : Keeps s₀
    (State.t2Write s ch lba d) := by
  unfold State.t2Write
  with_reducible
    repeat' first
      | assumption | intro _ | apply State.emit_keeps | apply State.cross_keeps | apply Keeps.ite | apply Keeps1.fst
      | apply Keeps1.ite | split | apply Keeps1.mk | dsimp only

theorem State.writeParts_keeps (s : State) (ch : Nat) (first : Nat) (keyed : Bool) {s₀ : State} (hk : Keeps s₀ s) : Keeps s₀
    (State.writeParts s ch first keyed) := by
  unfold State.writeParts
  with_reducible
    repeat' first
      | assumption | intro _ | apply State.writeEnd_keeps | apply State.undefineEnd_keeps | apply State.setChan_keeps
      | apply State.finishMove_keeps | apply State.moveView_keeps | apply State.keyed_keeps | apply Keeps.ite
      | apply Keeps1.fst | apply Keeps1.ite | split | apply Keeps.upd | apply Keeps1.mk | dsimp only

theorem State.writeDest_keeps (s : State) (ch : Nat) {s₀ : State} (hk : Keeps s₀ s) : Keeps s₀ (State.writeDest s ch) := by
  unfold State.writeDest
  with_reducible
    repeat' first
      | assumption | intro _ | apply State.setFlag_keeps | apply State.cross_keeps | apply State.setChan_keeps
      | apply State.finishMove_keeps | apply State.moveView_keeps | apply State.t2Write_keeps
      | apply State.writeParts_keeps | apply Keeps.ite | apply Keeps1.fst | apply Keeps1.ite | split | apply Keeps.upd
      | apply Keeps1.mk | dsimp only

theorem execTileSourceReadDone_keeps (ch : Nat) (env : Env) (s : State) {s₀ : State} (hk : Keeps s₀ s) : KeepsO s₀
    (execTileSourceReadDone ch env s) := by
  unfold execTileSourceReadDone
  with_reducible
    repeat' first
      | assumption | intro _ | apply State.clocked_keeps | apply run_keeps | apply State.codewords_keeps
      | apply State.noteEnd_keeps | apply State.setChan_keeps | apply State.finishMove_keeps
      | apply State.moveKeyFault_keeps | apply State.moveView_keeps | apply State.writeDest_keeps | apply KeepsO.next
      | apply KeepsO.ite | apply Keeps.ite | split | apply Keeps.upd | dsimp only

theorem State.moveWritten_keeps (s : State) (ch : Nat) {s₀ : State} (hk : Keeps s₀ s) : Keeps s₀ (State.moveWritten s ch) :=
    by
  unfold State.moveWritten
  with_reducible
    repeat' first
      | assumption | intro _ | apply State.invalidateEnd_keeps | apply State.finishMove_keeps | apply State.moveView_keeps
      | apply Keeps.ite | split | dsimp only

theorem State.destFailed_keeps (s : State) (ch : Nat) {s₀ : State} (hk : Keeps s₀ s) : Keeps s₀ (State.destFailed s ch) :=
    by
  unfold State.destFailed
  with_reducible
    repeat' first
      | assumption | intro _ | apply State.undefineEnd_keeps | apply State.finishMove_keeps | apply State.moveView_keeps
      | apply Keeps.ite | split | dsimp only

theorem State.bodyWritten_keeps (s : State) (ch : Nat) {s₀ : State} (hk : Keeps s₀ s) : Keeps s₀ (State.bodyWritten s ch) :=
    by
  unfold State.bodyWritten
  with_reducible
    repeat' first
      | assumption | intro _ | apply State.writeEnd_keeps | apply State.setChan_keeps | apply State.moveView_keeps
      | apply State.moveWritten_keeps | apply State.destFailed_keeps | apply Keeps.ite | apply Keeps1.fst
      | apply Keeps1.ite | split | apply Keeps.upd | apply Keeps1.mk | dsimp only

theorem execTileWritesAcked_keeps (ch : Nat) (ok : Bool) (s : State) {s₀ : State} (hk : Keeps s₀ s) : KeepsO s₀
    (execTileWritesAcked ch ok s) := by
  unfold execTileWritesAcked
  with_reducible
    repeat' first
      | assumption | intro _ | apply State.clocked_keeps | apply run_keeps | apply State.takeFails_keeps
      | apply State.moveKeyFault_keeps | apply State.writeParts_keeps | apply State.destFailed_keeps
      | apply State.bodyWritten_keeps | apply State.keyed_keeps | apply KeepsO.next | apply KeepsO.ite | apply Keeps.ite
      | apply Keeps1.fst | apply Keeps1.ite | split | apply Keeps1.mk | dsimp only

theorem State.t2Wrote_keeps (s : State) (n : Nat) {s₀ : State} (hk : Keeps s₀ s) : Keeps s₀ (State.t2Wrote s n) := by
  unfold State.t2Wrote
  with_reducible
    repeat' first
      | assumption | intro _ | apply State.wrap_keeps | apply State.lifeAdd_keeps | apply Keeps.ite | split | dsimp only

theorem State.writeT2Header_keeps (s : State) (ch : Nat) {s₀ : State} (hk : Keeps s₀ s) : Keeps s₀ (State.writeT2Header s
    ch) := by
  unfold State.writeT2Header
  with_reducible
    repeat' first
      | assumption | intro _ | apply State.setChan_keeps | apply State.finishMove_keeps | apply State.t2Write_keeps
      | apply State.t2Wrote_keeps | apply Keeps.ite | split | apply Keeps.upd | dsimp only

theorem State.t2Done_keeps (s : State) (ch : Nat) {s₀ : State} (hk : Keeps s₀ s) : Keeps s₀ (State.t2Done s ch) := by
  unfold State.t2Done
  with_reducible
    repeat' first
      | assumption | intro _ | apply State.finishMove_keeps | apply State.moveWritten_keeps | apply State.t2Wrote_keeps
      | apply Keeps.ite | split | dsimp only

theorem execT2BodyWriteDone_keeps (ch : Nat) (s : State) {s₀ : State} (hk : Keeps s₀ s) : KeepsO s₀ (execT2BodyWriteDone ch
    s) := by
  unfold execT2BodyWriteDone
  with_reducible
    repeat' first
      | assumption | intro _ | apply State.clocked_keeps | apply run_keeps | apply State.writeT2Header_keeps
      | apply KeepsO.next | apply KeepsO.ite | apply Keeps.ite | split | dsimp only

theorem State.t2Failed_keeps (s : State) (ch : Nat) {s₀ : State} (hk : Keeps s₀ s) : Keeps s₀ (State.t2Failed s ch) := by
  unfold State.t2Failed
  with_reducible
    repeat' first
      | assumption | intro _ | apply State.finishMove_keeps | apply Keeps.ite | split | dsimp only

theorem execTileHeaderWritten_keeps (ch : Nat) (ok : Bool) (s : State) {s₀ : State} (hk : Keeps s₀ s) : KeepsO s₀
    (execTileHeaderWritten ch ok s) := by
  unfold execTileHeaderWritten
  with_reducible
    repeat' first
      | assumption | intro _ | apply State.clocked_keeps | apply run_keeps | apply State.bump_keeps
      | apply State.takeFails_keeps | apply State.moveKeyFault_keeps | apply State.moveWritten_keeps
      | apply State.destFailed_keeps | apply State.t2Done_keeps | apply State.t2Failed_keeps | apply KeepsO.next
      | apply KeepsO.ite | apply Keeps.ite | apply Keeps1.fst | apply Keeps1.ite | split | apply Keeps1.mk | dsimp only

theorem execNvmeCompletion_keeps (ch : Nat) (ok : Bool) (env : Env) (s : State) {s₀ : State} (hk : Keeps s₀ s) : KeepsO s₀
    (execNvmeCompletion ch ok env s) := by
  unfold execNvmeCompletion
  with_reducible
    repeat' first
      | assumption | intro _ | apply State.clocked_keeps | apply run_keeps | apply State.bump_keeps
      | apply State.wrap_keeps | apply State.cross_keeps | apply State.setChan_keeps | apply State.finishMove_keeps
      | apply State.acceptHeader_keeps | apply State.writeT2Header_keeps | apply State.t2Done_keeps
      | apply State.t2Failed_keeps | apply KeepsO.next | apply KeepsO.ite | apply Keeps.ite | apply Keeps1.fst
      | apply Keeps1.ite | split | apply Keeps.upd | apply Keeps1.mk | dsimp only

theorem State.abortMove_keeps (s : State) (ch : Nat) {s₀ : State} (hk : Keeps s₀ s) : Keeps s₀ (State.abortMove s ch) := by
  unfold State.abortMove
  with_reducible
    repeat' first
      | assumption | intro _ | apply State.freeEngine_keeps | apply State.writeEnd_keeps | apply State.undefineEnd_keeps
      | apply State.setChan_keeps | apply State.finishMove_keeps | apply State.moveView_keeps | apply Keeps.ite
      | apply Keeps1.fst | apply Keeps1.ite | split | apply Keeps.upd | apply Keeps1.mk | dsimp only

theorem State.restartMove_keeps (s : State) (ch : Nat) (env : Env) {s₀ : State} (hk : Keeps s₀ s) : Keeps s₀
    (State.restartMove s ch env) := by
  unfold State.restartMove
  with_reducible
    repeat' first
      | assumption | intro _ | apply State.dropClient_keeps | apply State.freeEngine_keeps | apply State.setChan_keeps
      | apply State.finishMove_keeps | apply State.presentMove_keeps | apply Keeps.ite | split | apply Keeps.upd
      | dsimp only

theorem execScrubRead_keeps (off : Nat) (err : List Byte) (s : State) {s₀ : State} (hk : Keeps s₀ s) : KeepsO s₀
    (execScrubRead off err s) := by
  unfold execScrubRead
  with_reducible
    repeat' first
      | assumption | intro _ | apply State.clocked_keeps | apply State.cellRead_keeps | apply KeepsO.next
      | apply KeepsO.ite | apply Keeps.ite | split | apply Keeps.upd | dsimp only

theorem execCorrHourRollover_keeps (s : State) {s₀ : State} (hk : Keeps s₀ s) : KeepsO s₀ (execCorrHourRollover s) := by
  unfold execCorrHourRollover
  with_reducible
    repeat' first
      | assumption | intro _ | apply State.clocked_keeps | apply KeepsO.next | apply KeepsO.ite | apply Keeps.ite | split
      | apply Keeps.upd | dsimp only

end Sys2Proof.Machine
end

