-- ==== Sys2Proof/Laws/KeepsProofer.lean ====
section
/-!
SUPPORT. What the operations of Machine/Proofer.lean and its commands leave alone: none touches the queue of commands, and each keeps the
canonical form of memory and of the register files.
-/

namespace Sys2Proof.Machine

theorem State.setProg_keeps (s : State) (n : Nat) (p : ProgSt) {s₀ : State} (hk : Keeps s₀ s) : Keeps s₀ (State.setProg s n
    p) := by
  unfold State.setProg
  with_reducible
    repeat' first
      | assumption | apply Keeps.upd

theorem State.setPstate_keeps (s : State) (n : Nat) (st : Nat) {s₀ : State} (hk : Keeps s₀ s) : Keeps s₀ (State.setPstate s n
    st) := by
  unfold State.setPstate
  with_reducible
    repeat' first
      | assumption | apply State.setFld_keeps | apply Keeps.ite

theorem State.haltAt_keeps (s : State) (n : Nat) (code : Nat) (layer : Nat) (entry : Nat) {s₀ : State} (hk : Keeps s₀ s) :
    Keeps s₀ (State.haltAt s n code layer entry) := by
  unfold State.haltAt
  with_reducible
    repeat' first
      | assumption | intro _ | apply State.setFld_keeps | apply State.record_keeps | apply State.setProg_keeps
      | apply State.setPstate_keeps | apply Keeps.ite | split | apply Keeps.upd | dsimp only

theorem State.haltProg_keeps (s : State) (n : Nat) (code : Nat) {s₀ : State} (hk : Keeps s₀ s) : Keeps s₀ (State.haltProg s n
    code) := by
  unfold State.haltProg
  with_reducible
    repeat' first
      | assumption | apply State.haltAt_keeps

theorem State.arrayHalt_keeps (s : State) (n : Nat) (code : Nat) (slot : Nat) {s₀ : State} (hk : Keeps s₀ s) : Keeps s₀
    (State.arrayHalt s n code slot) := by
  unfold State.arrayHalt
  with_reducible
    repeat' first
      | assumption | apply State.setFld_keeps | apply State.haltProg_keeps | apply Keeps.ite

theorem State.syncFree_keeps (s : State) {s₀ : State} (hk : Keeps s₀ s) : Keeps s₀ (State.syncFree s) := by
  unfold State.syncFree
  with_reducible
    repeat' first
      | assumption | intro _ | apply State.setFld_keeps

theorem State.setTile_keeps (s : State) (t : StageTile) {s₀ : State} (hk : Keeps s₀ s) : Keeps s₀ (State.setTile s t) := by
  unfold State.setTile
  with_reducible
    repeat' first
      | assumption | intro _ | apply Keeps.upd

theorem State.issueMove_keeps (s : State) (t : StageTile) {s₀ : State} (hk : Keeps s₀ s) : Keeps s₀ (State.issueMove s t) :=
    by
  unfold State.issueMove
  with_reducible
    repeat' first
      | assumption | intro _ | apply State.wrap_keeps | apply State.queueMove_keeps | apply State.syncFree_keeps
      | apply State.setTile_keeps | apply Keeps.ite | split | apply Keeps.upd | dsimp only

theorem State.retrySpace_keeps (s : State) {s₀ : State} (hk : Keeps s₀ s) : Keeps s₀ (State.retrySpace s) := by
  unfold State.retrySpace
  with_reducible
    repeat' first
      | assumption | intro _ | apply State.issueMove_keeps | apply Keeps.foldl | apply Keeps.ite | apply Keeps1.fst
      | apply Keeps1.ite | split | apply Keeps1.mk | dsimp only

theorem State.useEntry_keeps (s : State) (r : TileRef) (e : HEntry) (h0 : Nat) (fol : Bool) {s₀ : State} (hk : Keeps s₀ s) :
    Keeps s₀ (State.useEntry s r e h0 fol) := by
  unfold State.useEntry
  with_reducible
    repeat' first
      | assumption | intro _ | apply State.bump_keeps | apply State.setTile_keeps | apply State.issueMove_keeps
      | apply Keeps.ite | split | apply Keeps.upd | dsimp only

theorem State.issueEntry_keeps (s : State) (n : Nat) (l : Nat) (k : Nat) (step : Nat) (fol : Bool) {s₀ : State} (hk : Keeps
    s₀ s) : Keeps s₀ (State.issueEntry s n l k step fol) := by
  unfold State.issueEntry
  with_reducible
    repeat' first
      | assumption | intro _ | apply State.useEntry_keeps | apply Keeps.foldl | apply Keeps.ite | apply Keeps1.fst
      | apply Keeps1.ite | split | apply Keeps.upd | apply Keeps1.mk | dsimp only

theorem State.issueLayer_keeps (s : State) (n : Nat) (step : Nat) (l : Nat) (fol : Bool) {s₀ : State} (hk : Keeps s₀ s) :
    Keeps s₀ (State.issueLayer s n step l fol) := by
  unfold State.issueLayer
  with_reducible
    repeat' first
      | assumption | intro _ | apply State.setProg_keeps | apply State.issueEntry_keeps | apply Keeps.foldl
      | apply Keeps.ite | apply Keeps1.fst | apply Keeps1.ite | split | apply Keeps.upd | apply Keeps1.mk | dsimp only

theorem State.removeTile_keeps (s : State) (num : Nat) {s₀ : State} (hk : Keeps s₀ s) : Keeps s₀ (State.removeTile s num) := by
  unfold State.removeTile
  with_reducible
    repeat' first
      | assumption | intro _ | apply State.syncFree_keeps | split | apply Keeps.upd

theorem State.freeTile_keeps (s : State) (t : StageTile) {s₀ : State} (hk : Keeps s₀ s) : Keeps s₀ (State.freeTile s t) := by
  unfold State.freeTile
  with_reducible
    repeat' first
      | assumption | intro _ | apply State.setTile_keeps | apply State.removeTile_keeps | apply Keeps.ite | split

theorem State.dropRefs_keeps (s : State) (p : TileRef → Bool) {s₀ : State} (hk : Keeps s₀ s) : Keeps s₀ (State.dropRefs s p)
    := by
  unfold State.dropRefs
  with_reducible
    repeat' first
      | assumption | intro _ | apply State.retrySpace_keeps | apply State.freeTile_keeps | apply Keeps.foldl
      | apply Keeps.ite | apply Keeps1.fst | apply Keeps1.ite | split | apply Keeps.upd | apply Keeps1.mk | dsimp only

theorem State.daCharge_keeps (s : State) (part : Nat) (h : Nat) (cycles : Nat) {s₀ : State} (hk : Keeps s₀ s) : Keeps s₀
    (State.daCharge s part h cycles) := by
  unfold State.daCharge
  with_reducible
    repeat' first
      | assumption | intro _ | apply Keeps.ite | apply Keeps1.fst | apply Keeps1.ite | split | apply Keeps.upd
      | apply Keeps1.mk | dsimp only

theorem State.evalProg_keeps (s : State) (n : Nat) {s₀ : State} (hk : Keeps s₀ s) : Keeps s₀ (State.evalProg s n) := by
  unfold State.evalProg
  with_reducible
    repeat' first
      | assumption | apply State.setFld_keeps | apply State.setPstate_keeps | apply Keeps.ite | split

theorem State.stallTick_keeps (s : State) (n : Nat) {s₀ : State} (hk : Keeps s₀ s) : Keeps s₀ (State.stallTick s n) := by
  unfold State.stallTick
  with_reducible
    repeat' first
      | assumption | apply State.wrap_keeps | apply State.evalProg_keeps | apply Keeps.ite

theorem State.checkLoaded_keeps (s : State) (n : Nat) {s₀ : State} (hk : Keeps s₀ s) : Keeps s₀ (State.checkLoaded s n) := by
  unfold State.checkLoaded
  with_reducible
    repeat' first
      | assumption | intro _ | apply State.setPstate_keeps | apply Keeps.ite

theorem State.reissue_keeps (s : State) (t : StageTile) (poisoned : Bool) {s₀ : State} (hk : Keeps s₀ s) : Keeps s₀
    (State.reissue s t poisoned) := by
  unfold State.reissue
  with_reducible
    repeat' first
      | assumption | intro _ | apply State.bump_keeps | apply State.setTile_keeps | apply State.issueMove_keeps
      | apply State.refetch_keeps | apply Keeps.ite | split | apply Keeps.upd | dsimp only

theorem State.nextSource_keeps (s : State) (t : StageTile) (poisoned : Bool) {s₀ : State} (hk : Keeps s₀ s) : Keeps s₀
    (State.nextSource s t poisoned) := by
  unfold State.nextSource
  with_reducible
    repeat' first
      | assumption | intro _ | apply State.haltAt_keeps | apply State.setTile_keeps | apply State.removeTile_keeps
      | apply State.reissue_keeps | apply Keeps.foldl | apply Keeps.ite | apply Keeps1.fst | apply Keeps1.ite | split
      | apply Keeps.upd | apply Keeps1.mk | dsimp only

theorem State.prooferDone_keeps (s : State) (num : Nat) (status : Nat) {s₀ : State} (hk : Keeps s₀ s) : Keeps s₀
    (State.prooferDone s num status) := by
  unfold State.prooferDone
  with_reducible
    repeat' first
      | assumption | intro _ | apply State.wrap_keeps | apply State.present_keeps | apply State.haltProg_keeps
      | apply State.setTile_keeps | apply State.issueMove_keeps | apply State.retrySpace_keeps
      | apply State.removeTile_keeps | apply State.evalProg_keeps | apply State.checkLoaded_keeps
      | apply State.nextSource_keeps | apply State.refetch_keeps | apply Keeps.foldl | apply Keeps.ite | apply Keeps1.fst
      | apply Keeps1.ite | split | apply Keeps.upd | apply Keeps1.mk | dsimp only

theorem State.refetch_keeps (s : State) (num : Nat) {s₀ : State} (hk : Keeps s₀ s) : Keeps s₀ (State.refetch s num) := by
  unfold State.refetch
  with_reducible
    repeat' first
      | assumption | apply State.nextSource_keeps | apply Keeps.ite | split

theorem State.restage_keeps (s : State) (r : TileRef) (h : Nat) (fol : Bool) {s₀ : State} (hk : Keeps s₀ s) : Keeps s₀
    (State.restage s r h fol) := by
  unfold State.restage
  with_reducible
    repeat' first
      | assumption | intro _ | apply State.useEntry_keeps | apply Keeps.ite | split | dsimp only

theorem State.unfire_keeps (s : State) (r : TileRef) {s₀ : State} (hk : Keeps s₀ s) : Keeps s₀ (State.unfire s r) := by
  unfold State.unfire
  with_reducible
    repeat' first
      | assumption | intro _ | apply State.setProg_keeps | apply Keeps.ite | apply Keeps1.fst | apply Keeps1.ite | split
      | apply Keeps.upd | apply Keeps1.mk | dsimp only

theorem State.withdrawStage_keeps (s : State) (h : Half) {s₀ : State} (hk : Keeps s₀ s) : Keeps s₀ (State.withdrawStage s h)
    := by
  unfold State.withdrawStage
  with_reducible
    repeat' first
      | assumption | intro _ | apply State.setFlag_keeps | apply State.present_keeps | apply State.haltProg_keeps
      | apply State.syncFree_keeps | apply State.evalProg_keeps | apply State.checkLoaded_keeps | apply State.restage_keeps
      | apply State.unfire_keeps | apply Keeps.foldl | apply Keeps.ite | apply Keeps1.fst | apply Keeps1.ite | split
      | apply Keeps.upd | apply Keeps1.mk | dsimp only

theorem execProoferMoveComplete_keeps (s : State) {s₀ : State} (hk : Keeps s₀ s) : KeepsO s₀ (execProoferMoveComplete s) :=
    by
  unfold execProoferMoveComplete
  with_reducible
    repeat' first
      | assumption | intro _ | apply State.clocked_keeps | apply State.prooferDone_keeps | apply KeepsO.next
      | apply KeepsO.ite | apply Keeps.ite | split | apply Keeps.upd | dsimp only

theorem execStagingSpaceRelease_keeps (s : State) {s₀ : State} (hk : Keeps s₀ s) : KeepsO s₀ (execStagingSpaceRelease s) :=
    by
  unfold execStagingSpaceRelease
  with_reducible
    repeat' first
      | assumption | intro _ | apply State.clocked_keeps | apply State.retrySpace_keeps | apply State.removeTile_keeps
      | apply Keeps.foldl | apply Keeps1.foldl | apply KeepsO.next | apply KeepsO.ite | apply Keeps.ite
      | refine Keeps1.get ?_ (by assumption) | apply Keeps1.fst | apply Keeps1.ite | apply Keeps1.mk | split | dsimp only

end Sys2Proof.Machine
end

