-- ==== Sys2Proof/Laws/KeepsPrograms.lean ====
section
/-!
SUPPORT. What the operations of Machine/Programs.lean and its commands leave alone: none touches the queue of commands, and each keeps the
canonical form of memory and of the register files.
-/

namespace Sys2Proof.Machine

theorem State.daResult_keeps (s : State) (res : Nat) (layer : Nat) (phase : Nat) {s₀ : State} (hk : Keeps s₀ s) : Keeps s₀
    (State.daResult s res layer phase) := by
  unfold State.daResult
  with_reducible
    repeat' first
      | assumption | apply State.setFld_keeps | apply State.setFlag_keeps

theorem State.syncProg_keeps (s : State) (n : Nat) {s₀ : State} (hk : Keeps s₀ s) : Keeps s₀ (State.syncProg s n) := by
  unfold State.syncProg
  with_reducible
    repeat' first
      | assumption | apply State.setFld_keeps

theorem State.peek_keeps (s : State) (ctx : Nat) (va : Nat) (n : Nat) (env : Env) {s₀ : State} (hk : Keeps s₀ s) : Keeps1 s₀
    (State.peek s ctx va n env) := by
  unfold State.peek
  with_reducible
    repeat' first
      | assumption | intro _ | apply State.lookup_keeps | apply State.noteVA_keeps | apply Keeps1.ite | apply Keeps.ite
      | split | apply Keeps1.mk | dsimp only

theorem State.readPhases_keeps (ctx : Nat) (va : Nat) (maxSeqs : Nat) (actBytes : Nat) (env : Env) (y0 : Nat) (y1 : Nat) (y2
    : State) {s₀ : State} (hk : Keeps s₀ y2) : Keeps1 s₀ (State.readPhases ctx va maxSeqs actBytes env y0 y1 y2) := by
  induction y0 generalizing ctx va maxSeqs actBytes env y1 y2 with
  | zero =>
    unfold State.readPhases
    with_reducible
      repeat' first
        | assumption | intro _ | apply State.peek_keeps | apply Keeps1.ite | apply Keeps.ite
        | refine Keeps1.get ?_ (by assumption) | apply Keeps1.fst | split | apply Keeps.upd | apply Keeps1.mk | dsimp only
  | succ _ ih =>
    unfold State.readPhases
    with_reducible
      repeat' first
        | assumption | intro _ | apply ih | apply State.peek_keeps | apply Keeps1.ite | apply Keeps.ite
        | refine Keeps1.get ?_ (by assumption) | apply Keeps1.fst | split | apply Keeps.upd | apply Keeps1.mk | dsimp only

theorem State.readLayers_keeps (ctx : Nat) (tbl : Nat) (maxSeqs : Nat) (actBytes : Nat) (env : Env) (y0 : Nat) (y1 : Nat)
    (y2 : State) {s₀ : State} (hk : Keeps s₀ y2) : Keeps1 s₀ (State.readLayers ctx tbl maxSeqs actBytes env y0 y1 y2) := by
  induction y0 generalizing ctx tbl maxSeqs actBytes env y1 y2 with
  | zero =>
    unfold State.readLayers
    with_reducible
      repeat' first
        | assumption | intro _ | apply State.peek_keeps | apply State.readPhases_keeps | apply Keeps1.ite | apply Keeps.ite
        | refine Keeps1.get ?_ (by assumption) | apply Keeps1.fst | split | apply Keeps.upd | apply Keeps1.mk | dsimp only
  | succ _ ih =>
    unfold State.readLayers
    with_reducible
      repeat' first
        | assumption | intro _ | apply ih | apply State.peek_keeps | apply State.readPhases_keeps | apply Keeps1.ite
        | apply Keeps.ite | refine Keeps1.get ?_ (by assumption) | apply Keeps1.fst | split | apply Keeps.upd
        | apply Keeps1.mk | dsimp only

theorem State.readHampers_keeps (ctx : Nat) (env : Env) (y0 : Nat) (y1 : List (Nat × Nat × List (List Byte))) (y2 : State)
    {s₀ : State} (hk : Keeps s₀ y2) : Keeps1 s₀ (State.readHampers ctx env y0 y1 y2) := by
  induction y1 generalizing y0 y2 with
  | nil => unfold State.readHampers; exact Keeps1.mk hk
  | cons r rs ih =>
    obtain ⟨va, cnt, ps⟩ := r
    unfold State.readHampers
    have hp : Keeps1 s₀ (if cnt = 0 then (y2, some []) else y2.peek ctx va (64 * cnt) env) :=
      Keeps1.ite (Keeps1.mk hk) (State.peek_keeps _ _ _ _ _ hk)
    split
    · exact Keeps1.mk (hp.get (by assumption))
    · have h := ih (y0 + 1) _ (hp.get (by assumption))
      split
      · exact Keeps1.mk (h.get (by assumption))
      · exact Keeps1.mk (h.get (by assumption))

theorem State.loadStatus_keeps (s : State) (n : Nat) (code : Nat) (layer : Nat) (entry : Nat) {s₀ : State} (hk : Keeps s₀ s)
    : Keeps s₀ (State.loadStatus s n code layer entry) := by
  unfold State.loadStatus
  with_reducible
    repeat' first
      | assumption | apply State.setFld_keeps

theorem State.setCursor_keeps (s : State) (n : Nat) (step : Nat) (layer : Nat) (phase : Nat) {s₀ : State} (hk : Keeps s₀ s) :
    Keeps s₀ (State.setCursor s n step layer phase) := by
  unfold State.setCursor
  with_reducible
    repeat' first
      | assumption | apply State.setFld_keeps | apply Keeps.upd

theorem State.fireMatch_keeps (s : State) (n : Nat) {s₀ : State} (hk : Keeps s₀ s) : Keeps s₀ (State.fireMatch s n) := by
  unfold State.fireMatch
  with_reducible
    repeat' first
      | assumption | apply State.setFlag_keeps | apply State.raisePf_keeps | apply State.raiseVec_keeps | apply Keeps.ite

theorem State.install_keeps (s : State) (n : Nat) (part : Nat) (va : Nat) (d : List Byte) (ls : List LayerD) {s₀ : State}
    (hk : Keeps s₀ s) : Keeps s₀ (State.install s n part va d ls) := by
  unfold State.install
  with_reducible
    repeat' first
      | assumption | intro _ | apply State.setFld_keeps | apply State.resetReg_keeps | apply State.setProg_keeps
      | apply State.setPstate_keeps | apply State.issueEntry_keeps | apply State.checkLoaded_keeps
      | apply State.setCursor_keeps | apply State.fireMatch_keeps | apply Keeps.foldl | apply Keeps.ite | apply Keeps1.fst
      | apply Keeps1.ite | split | apply Keeps.upd | apply Keeps1.mk | dsimp only

theorem State.load_keeps (s : State) (n : Nat) (part : Nat) (env : Env) {s₀ : State} (hk : Keeps s₀ s) : Keeps s₀
    (State.load s n part env) := by
  unfold State.load
  with_reducible
    repeat' first
      | assumption | intro _ | apply State.daResult_keeps | apply State.peek_keeps | apply State.readLayers_keeps
      | apply State.readHampers_keeps | apply State.loadStatus_keeps | apply State.install_keeps | apply Keeps.ite
      | refine Keeps1.get ?_ (by assumption) | apply Keeps1.fst | apply Keeps1.ite | split | apply Keeps.upd
      | apply Keeps1.mk | dsimp only

theorem State.fireTriggers_keeps (s : State) (n : Nat) {s₀ : State} (hk : Keeps s₀ s) : Keeps s₀ (State.fireTriggers s n) :=
    by
  unfold State.fireTriggers
  with_reducible
    repeat' first
      | assumption | intro _ | apply State.setProg_keeps | apply State.issueLayer_keeps | apply Keeps.foldl
      | apply Keeps.ite | apply Keeps1.fst | apply Keeps1.ite | split | apply Keeps.upd | apply Keeps1.mk | dsimp only

theorem State.runProg_keeps (s : State) (n : Nat) {s₀ : State} (hk : Keeps s₀ s) : Keeps s₀ (State.runProg s n) := by
  unfold State.runProg
  with_reducible
    repeat' first
      | assumption | intro _ | apply State.setProg_keeps | apply State.setPstate_keeps | apply State.issueLayer_keeps
      | apply State.evalProg_keeps | apply State.fireTriggers_keeps | apply Keeps.foldl | apply Keeps.ite

theorem State.startProg_keeps (s : State) (n : Nat) {s₀ : State} (hk : Keeps s₀ s) : Keeps s₀ (State.startProg s n) := by
  unfold State.startProg
  with_reducible
    repeat' first
      | assumption | apply State.setProg_keeps | apply State.runProg_keeps

theorem State.daCommand_keeps (s : State) (n : Nat) (part : Nat) (states : List Nat) (f : State → State) {s₀ : State} (hk :
    Keeps s₀ s) (hf : ∀ (x0 : State), Keeps s₀ x0 → Keeps s₀ (f x0)) : Keeps s₀ (State.daCommand s n part states f) := by
  unfold State.daCommand
  with_reducible
    repeat' first
      | assumption | apply State.daResult_keeps | apply hf | apply Keeps.ite

theorem State.daStart_keeps (s : State) (n : Nat) (part : Nat) {s₀ : State} (hk : Keeps s₀ s) : Keeps s₀ (State.daStart s n
    part) := by
  unfold State.daStart
  with_reducible
    repeat' first
      | assumption | intro _ | apply State.daResult_keeps | apply State.startProg_keeps | apply State.daCommand_keeps

theorem State.daPark_keeps (s : State) (n : Nat) (part : Nat) {s₀ : State} (hk : Keeps s₀ s) : Keeps s₀ (State.daPark s n
    part) := by
  unfold State.daPark
  with_reducible
    repeat' first
      | assumption | intro _ | apply State.setProg_keeps | apply State.daResult_keeps | apply State.daCommand_keeps

theorem State.unloadProg_keeps (s : State) (n : Nat) {s₀ : State} (hk : Keeps s₀ s) : Keeps s₀ (State.unloadProg s n) := by
  unfold State.unloadProg
  with_reducible
    repeat' first
      | assumption | intro _ | apply State.setFld_keeps | apply State.resetReg_keeps | apply State.setProg_keeps
      | apply State.setPstate_keeps | apply State.dropRefs_keeps | apply Keeps.ite | split | apply Keeps.upd | dsimp only

theorem State.daUnload_keeps (s : State) (n : Nat) (part : Nat) {s₀ : State} (hk : Keeps s₀ s) : Keeps s₀ (State.daUnload s n
    part) := by
  unfold State.daUnload
  with_reducible
    repeat' first
      | assumption | intro _ | apply State.daResult_keeps | apply State.daCommand_keeps | apply State.unloadProg_keeps

theorem State.seqCommand_keeps (s : State) (n : Nat) (slot : Nat) (e : Option SeqSt) {s₀ : State} (hk : Keeps s₀ s) : Keeps
    s₀ (State.seqCommand s n slot e) := by
  unfold State.seqCommand
  with_reducible
    repeat' first
      | assumption | apply State.setProg_keeps | apply State.daResult_keeps | apply State.syncProg_keeps

theorem State.daAdmit_keeps (s : State) (n : Nat) (part : Nat) (slot : Nat) (env : Env) {s₀ : State} (hk : Keeps s₀ s) :
    Keeps s₀ (State.daAdmit s n part slot env) := by
  unfold State.daAdmit
  with_reducible
    repeat' first
      | assumption | intro _ | apply State.daResult_keeps | apply State.peek_keeps | apply State.daCommand_keeps
      | apply State.seqCommand_keeps | apply Keeps.ite | refine Keeps1.get ?_ (by assumption) | apply Keeps1.fst
      | apply Keeps1.ite | split | apply Keeps1.mk | dsimp only

theorem State.daRemove_keeps (s : State) (n : Nat) (part : Nat) (slot : Nat) {s₀ : State} (hk : Keeps s₀ s) : Keeps s₀
    (State.daRemove s n part slot) := by
  unfold State.daRemove
  with_reducible
    repeat' first
      | assumption | intro _ | apply State.daResult_keeps | apply State.daCommand_keeps | apply State.seqCommand_keeps
      | apply Keeps.ite

theorem State.daCmd_keeps (s : State) (op : Nat) (n : Nat) (part : Nat) (slot : Nat) (env : Env) {s₀ : State} (hk : Keeps s₀
    s) : Keeps1 s₀ (State.daCmd s op n part slot env) := by
  unfold State.daCmd
  with_reducible
    repeat' first
      | assumption | intro _ | apply State.daResult_keeps | apply State.load_keeps | apply State.daStart_keeps
      | apply State.daPark_keeps | apply State.daUnload_keeps | apply State.daAdmit_keeps | apply State.daRemove_keeps
      | apply Keeps1.ite | split | apply Keeps1.mk | dsimp only

theorem State.guarded_keeps (s : State) (src : Source) (r : Reg) (inst : Nat) (f : State → State × Nat) {s₀ : State} (hk :
    Keeps s₀ s) (hf : ∀ (x0 : State), Keeps s₀ x0 → Keeps1 s₀ (f x0)) : Keeps s₀ (State.guarded s src r inst f) := by
  unfold State.guarded
  with_reducible
    repeat' first
      | assumption | intro _ | apply State.refuse_keeps | apply State.admitted_keeps | apply hf | apply Keeps1.ite
      | apply Keeps1.fst | apply Keeps1.mk

theorem execLoadProgram_keeps (src : Source) (n : Nat) (part : Nat) (env : Env) (s : State) {s₀ : State} (hk : Keeps s₀ s) :
    KeepsO s₀ (execLoadProgram src n part env s) := by
  unfold execLoadProgram
  with_reducible
    repeat' first
      | assumption | intro _ | apply State.clocked_keeps | apply run_keeps | apply State.codewords_keeps
      | apply State.daCmd_keeps | apply State.guarded_keeps | apply KeepsO.next | apply KeepsO.ite | apply Keeps.ite
      | apply Keeps1.fst | apply Keeps1.ite | split | apply Keeps1.mk | dsimp only

theorem execStartProgram_keeps (src : Source) (n : Nat) (part : Nat) (s : State) {s₀ : State} (hk : Keeps s₀ s) : KeepsO s₀
    (execStartProgram src n part s) := by
  unfold execStartProgram
  with_reducible
    repeat' first
      | assumption | intro _ | apply State.clocked_keeps | apply run_keeps | apply State.daCmd_keeps
      | apply State.guarded_keeps | apply KeepsO.next | apply KeepsO.ite | apply Keeps.ite
      | refine Keeps1.get ?_ (by assumption) | apply Keeps1.fst | apply Keeps1.ite | apply Keeps1.mk | split | dsimp only

theorem execParkProgram_keeps (src : Source) (n : Nat) (part : Nat) (s : State) {s₀ : State} (hk : Keeps s₀ s) : KeepsO s₀
    (execParkProgram src n part s) := by
  unfold execParkProgram
  with_reducible
    repeat' first
      | assumption | intro _ | apply State.clocked_keeps | apply run_keeps | apply State.daCmd_keeps
      | apply State.guarded_keeps | apply KeepsO.next | apply KeepsO.ite | apply Keeps.ite
      | refine Keeps1.get ?_ (by assumption) | apply Keeps1.fst | apply Keeps1.ite | apply Keeps1.mk | split | dsimp only

theorem execUnloadProgram_keeps (src : Source) (n : Nat) (part : Nat) (s : State) {s₀ : State} (hk : Keeps s₀ s) : KeepsO s₀
    (execUnloadProgram src n part s) := by
  unfold execUnloadProgram
  with_reducible
    repeat' first
      | assumption | intro _ | apply State.clocked_keeps | apply run_keeps | apply State.daCmd_keeps
      | apply State.guarded_keeps | apply KeepsO.next | apply KeepsO.ite | apply Keeps.ite
      | refine Keeps1.get ?_ (by assumption) | apply Keeps1.fst | apply Keeps1.ite | apply Keeps1.mk | split | dsimp only

theorem execAdmitSeq_keeps (src : Source) (n : Nat) (part : Nat) (slot : Nat) (env : Env) (s : State) {s₀ : State} (hk :
    Keeps s₀ s) : KeepsO s₀ (execAdmitSeq src n part slot env s) := by
  unfold execAdmitSeq
  with_reducible
    repeat' first
      | assumption | intro _ | apply State.clocked_keeps | apply run_keeps | apply State.daCmd_keeps
      | apply State.guarded_keeps | apply KeepsO.next | apply KeepsO.ite | apply Keeps.ite
      | refine Keeps1.get ?_ (by assumption) | apply Keeps1.fst | apply Keeps1.ite | apply Keeps1.mk | split | dsimp only

theorem execRemove_keeps (src : Source) (n : Nat) (part : Nat) (slot : Nat) (s : State) {s₀ : State} (hk : Keeps s₀ s) :
    KeepsO s₀ (execRemove src n part slot s) := by
  unfold execRemove
  with_reducible
    repeat' first
      | assumption | intro _ | apply State.clocked_keeps | apply run_keeps | apply State.daCmd_keeps
      | apply State.guarded_keeps | apply KeepsO.next | apply KeepsO.ite | apply Keeps.ite
      | refine Keeps1.get ?_ (by assumption) | apply Keeps1.fst | apply Keeps1.ite | apply Keeps1.mk | split | dsimp only

theorem execDaCmdReservedOp_keeps (src : Source) (op : Nat) (s : State) {s₀ : State} (hk : Keeps s₀ s) : KeepsO s₀
    (execDaCmdReservedOp src op s) := by
  unfold execDaCmdReservedOp
  with_reducible
    repeat' first
      | assumption | intro _ | apply State.clocked_keeps | apply run_keeps | apply State.daCmd_keeps
      | apply State.guarded_keeps | apply KeepsO.next | apply KeepsO.ite | apply Keeps.ite
      | refine Keeps1.get ?_ (by assumption) | apply Keeps1.fst | apply Keeps1.ite | apply Keeps1.mk | split | dsimp only

theorem State.writeTokens_keeps (s : State) (n : Nat) (recs : List (List Byte)) {s₀ : State} (hk : Keeps s₀ s) : Keeps1 s₀
    (State.writeTokens s n recs) := by
  unfold State.writeTokens
  with_reducible
    repeat' first
      | assumption | intro _ | apply State.setFld_keeps | apply State.wrap_keeps | apply State.writeVA_keeps
      | apply State.arrayHalt_keeps | apply Keeps1.foldl | apply Keeps1.ite | apply Keeps1.fst | split | apply Keeps1.mk
      | apply Keeps.upd | dsimp only

theorem State.writeRingHead_keeps (s : State) (n : Nat) (v : Nat) {s₀ : State} (hk : Keeps s₀ s) : Keeps s₀
    (State.writeRingHead s n v) := by
  unfold State.writeRingHead
  with_reducible
    repeat' first
      | assumption | apply State.setFld_keeps | apply State.setFlag_keeps | apply State.runProg_keeps
      | apply State.writeTokens_keeps | apply Keeps.ite | apply Keeps1.fst | apply Keeps.upd

theorem execRingHeadWrite_keeps (src : Source) (n : Nat) (v : Nat) (s : State) {s₀ : State} (hk : Keeps s₀ s) : KeepsO s₀
    (execRingHeadWrite src n v s) := by
  unfold execRingHeadWrite
  with_reducible
    repeat' first
      | assumption | intro _ | apply State.clocked_keeps | apply run_keeps | apply State.gated_keeps
      | apply State.writeRingHead_keeps | apply KeepsO.next | apply KeepsO.ite | apply Keeps.ite | split | dsimp only

theorem execCurMatchArm_keeps (src : Source) (n : Nat) (vec : Nat) (s : State) {s₀ : State} (hk : Keeps s₀ s) : KeepsO s₀
    (execCurMatchArm src n vec s) := by
  unfold execCurMatchArm
  with_reducible
    repeat' first
      | assumption | intro _ | apply State.clocked_keeps | apply run_keeps | apply State.setFld_keeps
      | apply State.setFlag_keeps | apply State.gated_keeps | apply State.fireMatch_keeps | apply KeepsO.next
      | apply KeepsO.ite | apply Keeps.ite | split | dsimp only

theorem execCursorDelivery_keeps (h : Half) (s : State) {s₀ : State} (hk : Keeps s₀ s) : KeepsO s₀ (execCursorDelivery h s)
    := by
  unfold execCursorDelivery
  with_reducible
    repeat' first
      | assumption | intro _ | apply State.clocked_keeps | apply KeepsO.next | apply KeepsO.ite | apply Keeps.ite
      | apply Keeps1.fst | apply Keeps1.ite | apply Keeps1.mk | split | apply Keeps.upd | dsimp only

end Sys2Proof.Machine
end

