-- ==== Sys2Proof/Laws/KeepsItems.lean ====
section
/-!
SUPPORT. What the operations of Machine/Items.lean and its commands leave alone: none touches the queue of commands, and each keeps the
canonical form of memory and of the register files.
-/

namespace Sys2Proof.Machine

theorem State.readSel_keeps (s : State) (n : Nat) (env : Env) {s₀ : State} (hk : Keeps s₀ s) : Keeps s₀ (State.readSel s n
    env) := by
  unfold State.readSel
  with_reducible
    repeat' first
      | assumption | intro _ | apply State.noteVA_keeps | apply State.setProg_keeps | apply Keeps.foldl | apply Keeps.ite
      | apply Keeps1.fst | apply Keeps1.ite | split | apply Keeps.upd | apply Keeps1.mk | dsimp only

theorem State.beginItems_keeps (s : State) (n : Nat) (env : Env) (tbl : List Byte) {s₀ : State} (hk : Keeps s₀ s) : Keeps s₀
    (State.beginItems s n env tbl) := by
  unfold State.beginItems
  with_reducible
    repeat' first
      | assumption | intro _ | apply State.setProg_keeps | apply State.readSel_keeps | apply Keeps.ite | apply Keeps1.fst
      | apply Keeps1.ite | split | apply Keeps.upd | apply Keeps1.mk | dsimp only

theorem State.presentAll_keeps (s : State) (a : Nat) (n : Nat) (access : Nat) (w : Acc) (y0 : List (Nat × Nat)) {s₀ : State}
    (hk : Keeps s₀ s) : Keeps1 s₀ (State.presentAll s a n access w y0) := by
  induction y0 generalizing s a n access w with
  | nil =>
    unfold State.presentAll
    with_reducible
      repeat' first
        | assumption | apply State.present_keeps | refine Keeps1.get ?_ (by assumption) | split | apply Keeps1.mk
  | cons _ _ ih =>
    unfold State.presentAll
    with_reducible
      repeat' first
        | assumption | apply ih | apply State.present_keeps | refine Keeps1.get ?_ (by assumption) | split | apply Keeps1.mk

theorem State.readAll_keeps (s : State) (h : Half) (c : Nat) (env : Env) (l : List (Nat × Nat)) {s₀ : State} (hk : Keeps s₀
    s) : Keeps1 s₀ (State.readAll s h c env l) := by
  unfold State.readAll
  with_reducible
    repeat' first
      | assumption | intro _ | apply State.readCached_keeps | apply Keeps1.foldl | apply Keeps1.fst | apply Keeps1.mk

theorem State.arrReads_keeps (s : State) (a : Nat) (n : Nat) (env : Env) (l : List (Nat × Nat)) {s₀ : State} (hk : Keeps s₀
    s) : Keeps1 s₀ (State.arrReads s a n env l) := by
  unfold State.arrReads
  with_reducible
    repeat' first
      | assumption | intro _ | apply State.keyFault_keeps | apply State.presentAll_keeps | apply State.readAll_keeps
      | refine Keeps1.get ?_ (by assumption) | apply Keeps1.fst | split | apply Keeps1.mk

theorem State.readTile_keeps (s : State) (a : Nat) (n : Nat) (t : StageTile) (keep : Bool) {s₀ : State} (hk : Keeps s₀ s) :
    Keeps1 s₀ (State.readTile s a n t keep) := by
  unfold State.readTile
  with_reducible
    repeat' first
      | assumption | intro _ | apply State.cachedOwn_keeps | apply State.refetch_keeps | apply Keeps1.ite | apply Keeps.ite
      | apply Keeps1.fst | split | apply Keeps.upd | apply Keeps1.mk | dsimp only

theorem State.readBook_keeps (s : State) (a : Nat) (n : Nat) (h : Hdr) {s₀ : State} (hk : Keeps s₀ s) : Keeps1 s₀
    (State.readBook s a n h) := by
  unfold State.readBook
  with_reducible
    repeat' first
      | assumption | intro _ | apply State.present_keeps | apply State.readTile_keeps | apply Keeps1.ite | apply Keeps.ite
      | apply Keeps1.fst | split | apply Keeps.upd | apply Keeps1.mk | dsimp only

theorem State.weightTile_keeps (s : State) (a : Nat) (n : Nat) (slot : Nat) (shape : Hdr → Bool) {s₀ : State} (hk : Keeps s₀
    s) : Keeps1 s₀ (State.weightTile s a n slot shape) := by
  unfold State.weightTile
  with_reducible
    repeat' first
      | assumption | intro _ | apply State.readTile_keeps | apply State.readBook_keeps | apply Keeps1.ite | apply Keeps.ite
      | apply Keeps1.fst | split | apply Keeps1.mk | dsimp only

theorem State.runGrid_keeps (s : State) (a : Nat) (n : Nat) (it : Item) (g : GridSt) (env : Env) {s₀ : State} (hk : Keeps s₀
    s) : Keeps1 s₀ (State.runGrid s a n it g env) := by
  unfold State.runGrid
  with_reducible
    repeat' first
      | assumption | intro _ | apply State.arrReads_keeps | apply State.weightTile_keeps | apply Keeps1.ite
      | apply Keeps.ite | apply Keeps1.fst | split | apply Keeps1.mk | dsimp only

theorem State.kvWrite_keeps (s : State) (a : Nat) (n : Nat) (d : List Byte) (va : Nat) (row : Nat) (v : List F32) (hdr :
    Option (List Byte)) (body : List Byte) {s₀ : State} (hk : Keeps s₀ s) : Keeps1 s₀ (State.kvWrite s a n d va row v hdr
    body) := by
  unfold State.kvWrite
  with_reducible
    repeat' first
      | assumption | intro _ | apply State.writeVA_keeps | apply State.invalidateEnd_keeps | apply Keeps1.ite
      | apply Keeps.ite | apply Keeps1.fst | split | apply Keeps.upd | apply Keeps1.mk | dsimp only

theorem State.runAttn_keeps (s : State) (a : Nat) (n : Nat) (it : Item) (d : List Byte) (env : Env) {s₀ : State} (hk : Keeps
    s₀ s) : Keeps1 s₀ (State.runAttn s a n it d env) := by
  unfold State.runAttn
  with_reducible
    repeat' first
      | assumption | intro _ | apply State.setProg_keeps | apply State.presentAll_keeps | apply State.arrReads_keeps
      | apply State.kvWrite_keeps | apply Keeps1.ite | apply Keeps.ite | refine Keeps1.get ?_ (by assumption)
      | apply Keeps1.fst | split | apply Keeps.upd | apply Keeps1.mk | dsimp only

theorem State.normTile_keeps (s : State) (a : Nat) (n : Nat) (slot : Nat) (width : Nat) {s₀ : State} (hk : Keeps s₀ s) :
    Keeps1 s₀ (State.normTile s a n slot width) := by
  unfold State.normTile
  with_reducible
    repeat' first
      | assumption | intro _ | apply State.weightTile_keeps | apply Keeps1.fst | split | apply Keeps1.mk

theorem State.runElem_keeps (s : State) (a : Nat) (n : Nat) (it : Item) (d : List Byte) (env : Env) {s₀ : State} (hk : Keeps
    s₀ s) : Keeps1 s₀ (State.runElem s a n it d env) := by
  unfold State.runElem
  with_reducible
    repeat' first
      | assumption | intro _ | apply State.fresh_keeps | apply State.arrReads_keeps | apply State.normTile_keeps
      | apply Keeps1.ite | apply Keeps.ite | refine Keeps2.get ?_ (by assumption) | apply Keeps1.fst | apply Keeps2.snd
      | split | apply Keeps.upd | apply Keeps1.mk | dsimp only

theorem State.runItem_keeps (s : State) (a : Nat) (n : Nat) (it : Item) (env : Env) {s₀ : State} (hk : Keeps s₀ s) : Keeps1
    s₀ (State.runItem s a n it env) := by
  unfold State.runItem
  with_reducible
    repeat' first
      | assumption | intro _ | apply State.runGrid_keeps | apply State.runAttn_keeps | apply State.runElem_keeps
      | apply Keeps1.ite | apply Keeps.ite | apply Keeps1.fst | split | apply Keeps1.mk | dsimp only

end Sys2Proof.Machine
end

