-- ==== Sys2Proof/Laws/KeepsArrays.lean ====
section
/-!
SUPPORT. What the operations of Machine/Arrays.lean and its commands leave alone: none touches the queue of commands, and each keeps the
canonical form of memory and of the register files.
-/

namespace Sys2Proof.Machine

theorem State.setAstate_keeps (s : State) (a : Nat) (st : Nat) {s₀ : State} (hk : Keeps s₀ s) : Keeps s₀ (State.setAstate s a
    st) := by
  unfold State.setAstate
  with_reducible
    repeat' first
      | assumption | apply State.setFld_keeps | apply State.wrap_keeps | apply State.less_keeps | apply Keeps.ite

theorem State.setArr_keeps (s : State) (a : Nat) (x : ArrSt) {s₀ : State} (hk : Keeps s₀ s) : Keeps s₀ (State.setArr s a x) := by
  unfold State.setArr
  with_reducible
    repeat' first
      | assumption | apply Keeps.upd

theorem State.releaseArray_keeps (s : State) (a : Nat) {s₀ : State} (hk : Keeps s₀ s) : Keeps s₀ (State.releaseArray s a) :=
    by
  unfold State.releaseArray
  with_reducible
    repeat' first
      | assumption | intro _ | apply State.bump_keeps | apply State.record_keeps | apply State.dropClient_keeps
      | apply State.setAstate_keeps | apply State.setArr_keeps | apply Keeps.ite | split | apply Keeps.upd | dsimp only

theorem State.setItem_keeps (s : State) (n : Nat) (it : Item) {s₀ : State} (hk : Keeps s₀ s) : Keeps s₀ (State.setItem s n
    it) := by
  unfold State.setItem
  with_reducible
    repeat' first
      | assumption | intro _ | apply State.setProg_keeps

theorem State.drainHalt_keeps (s : State) (n : Nat) {s₀ : State} (hk : Keeps s₀ s) : Keeps s₀ (State.drainHalt s n) := by
  unfold State.drainHalt
  with_reducible
    repeat' first
      | assumption | apply State.haltProg_keeps | apply Keeps.ite

theorem State.beginPhases_keeps (s : State) (env : Env) {s₀ : State} (hk : Keeps s₀ s) : Keeps s₀ (State.beginPhases s env)
    := by
  unfold State.beginPhases
  with_reducible
    repeat' first
      | assumption | intro _ | apply State.beginItems_keeps | apply Keeps.foldl | apply Keeps.ite | apply Keeps1.fst
      | apply Keeps1.ite | split | apply Keeps1.mk | dsimp only

theorem State.readTable_keeps (s : State) (a : Nat) (n : Nat) (env : Env) {s₀ : State} (hk : Keeps s₀ s) : Keeps s₀
    (State.readTable s a n env) := by
  unfold State.readTable
  with_reducible
    repeat' first
      | assumption | intro _ | apply State.setProg_keeps | apply State.beginItems_keeps | apply State.arrReads_keeps
      | apply State.setAstate_keeps | apply State.setArr_keeps | apply Keeps.foldl | apply Keeps.ite | apply Keeps1.fst
      | apply Keeps1.ite | split | apply Keeps.upd | apply Keeps1.mk | dsimp only

theorem State.beginLora_keeps (s : State) (a : Nat) (env : Env) {s₀ : State} (hk : Keeps s₀ s) : Keeps s₀ (State.beginLora s
    a env) := by
  unfold State.beginLora
  with_reducible
    repeat' first
      | assumption | intro _ | apply State.readTable_keeps | apply Keeps.foldl | apply Keeps.ite | apply Keeps1.fst
      | apply Keeps1.ite | split | apply Keeps1.mk | dsimp only

theorem State.splitPhase_keeps (s : State) (n : Nat) {s₀ : State} (hk : Keeps s₀ s) : Keeps s₀ (State.splitPhase s n) := by
  unfold State.splitPhase
  with_reducible
    repeat' first
      | assumption | intro _ | apply State.setProg_keeps | apply Keeps.ite | apply Keeps.upd

theorem State.execRun_keeps (s : State) (a : Nat) (n : Nat) (it : Item) (env : Env) {s₀ : State} (hk : Keeps s₀ s) : Keeps s₀
    (State.execRun s a n it env) := by
  unfold State.execRun
  with_reducible
    repeat' first
      | assumption | apply State.setFld_keeps | apply State.runItem_keeps | apply State.setAstate_keeps
      | apply State.setArr_keeps | apply Keeps1.fst | split | apply Keeps.upd

theorem State.startRun_keeps (s : State) (a : Nat) (n : Nat) (it : Item) (arb : Bool) (env : Env) {s₀ : State} (hk : Keeps
    s₀ s) : Keeps s₀ (State.startRun s a n it arb env) := by
  unfold State.startRun
  with_reducible
    repeat' first
      | assumption | intro _ | apply State.daCharge_keeps | apply State.evalProg_keeps | apply State.setArr_keeps
      | apply State.setItem_keeps | apply State.execRun_keeps | apply Keeps.ite | split | apply Keeps.upd | dsimp only

theorem State.grant_keeps (s : State) (a : Nat) (env : Env) {s₀ : State} (hk : Keeps s₀ s) : Keeps s₀ (State.grant s a env)
    := by
  unfold State.grant
  with_reducible
    repeat' first
      | assumption | intro _ | apply State.beginPhases_keeps | apply State.beginLora_keeps | apply State.splitPhase_keeps
      | apply State.startRun_keeps | apply Keeps.foldl | apply Keeps.ite | apply Keeps1.fst | apply Keeps1.ite | split
      | apply Keeps.upd | apply Keeps1.mk | dsimp only

theorem State.writeGroup_keeps (s : State) (n : Nat) (g : Nat) (a : Nat) {s₀ : State} (hk : Keeps s₀ s) : Keeps s₀
    (State.writeGroup s n g a) := by
  unfold State.writeGroup
  with_reducible
    repeat' first
      | assumption | intro _ | apply State.setFld_keeps | apply State.writeVA_keeps | apply State.invalidateEnd_keeps
      | apply State.setProg_keeps | apply State.arrayHalt_keeps | apply State.presentAll_keeps
      | apply State.setAstate_keeps | apply State.setArr_keeps | apply Keeps.foldl | apply Keeps1.foldl | apply Keeps.ite
      | refine Keeps1.get ?_ (by assumption) | apply Keeps1.fst | apply Keeps1.ite | split | apply Keeps.upd
      | apply Keeps1.mk | dsimp only

theorem State.keyRefused_keeps (s : State) (n : Nat) (g : Nat) (a : Nat) (va : Nat) (fin : Nat) {s₀ : State} (hk : Keeps s₀
    s) : Keeps s₀ (State.keyRefused s n g a va fin) := by
  unfold State.keyRefused
  with_reducible
    repeat' first
      | assumption | intro _ | apply State.keyFault_keeps | apply State.setProg_keeps | apply State.setAstate_keeps
      | apply State.setArr_keeps | apply Keeps.ite | split | apply Keeps.upd | dsimp only

theorem State.settleWrites_keeps (s : State) (w : ReqClient) {s₀ : State} (hk : Keeps s₀ s) : Keeps s₀ (State.settleWrites s
    w) := by
  unfold State.settleWrites
  with_reducible
    repeat' first
      | assumption | intro _ | apply State.takeFails_keeps | apply State.keyFault_keeps | apply State.setAstate_keeps
      | apply State.setArr_keeps | apply State.keyRefused_keeps | apply Keeps.ite | apply Keeps1.fst | apply Keeps1.ite
      | split | apply Keeps.upd | apply Keeps1.mk | dsimp only

theorem State.retireArray_keeps (s : State) (a : Nat) {s₀ : State} (hk : Keeps s₀ s) : Keeps s₀ (State.retireArray s a) :=
    by
  unfold State.retireArray
  with_reducible
    repeat' first
      | assumption | intro _ | apply run_keeps | apply State.setBit_keeps | apply State.record_keeps
      | apply State.dropClient_keeps | apply State.freeEngine_keeps | apply State.setProg_keeps
      | apply State.setAstate_keeps | apply State.setArr_keeps | apply State.setItem_keeps | apply Keeps.ite | split
      | apply Keeps.upd | dsimp only

theorem State.syncRetests_keeps (s : State) {s₀ : State} (hk : Keeps s₀ s) : Keeps s₀ (State.syncRetests s) := by
  unfold State.syncRetests
  with_reducible
    repeat' first
      | assumption | intro _ | apply State.setFld_keeps

theorem State.confirmRetest_keeps (s : State) (a : Nat) {s₀ : State} (hk : Keeps s₀ s) : Keeps s₀ (State.confirmRetest s a) := by
  unfold State.confirmRetest
  with_reducible
    repeat' first
      | assumption | apply State.bump_keeps | apply State.record_keeps | apply State.retireArray_keeps
      | apply State.syncRetests_keeps

theorem State.track_keeps (s : State) (a : Nat) (env : Nat) {s₀ : State} (hk : Keeps s₀ s) : Keeps s₀ (State.track s a env) := by
  unfold State.track
  with_reducible
    repeat' first
      | assumption | apply State.setArr_keeps | apply State.syncRetests_keeps | apply State.confirmRetest_keeps
      | apply Keeps.ite | split

theorem State.chargeDetect_keeps (s : State) (a : Nat) (env : Nat) {s₀ : State} (hk : Keeps s₀ s) : Keeps s₀
    (State.chargeDetect s a env) := by
  unfold State.chargeDetect
  with_reducible
    repeat' first
      | assumption | apply State.chargeArray_keeps | apply State.track_keeps

theorem State.detectRecord_keeps (s : State) (n : Nat) (it : Item) (inst : Nat) (ev : Nat) (r : RunRes) (cnt : Nat) (taken :
    Option RunRes) (outcome : Nat) {s₀ : State} (hk : Keeps s₀ s) : Keeps s₀ (State.detectRecord s n it inst ev r cnt taken
    outcome) := by
  unfold State.detectRecord
  with_reducible
    repeat' first
      | assumption | apply State.bump_keeps | apply State.record_keeps

theorem State.noDecision_keeps (s : State) (n : Nat) (it : Item) {s₀ : State} (hk : Keeps s₀ s) : Keeps s₀ (State.noDecision
    s n it) := by
  unfold State.noDecision
  with_reducible
    repeat' first
      | assumption | intro _ | apply State.bump_keeps | apply State.arrayHalt_keeps | apply Keeps.ite | split | dsimp only

theorem State.kvDetect_keeps (s : State) (n : Nat) (it : Item) {s₀ : State} (hk : Keeps s₀ s) : Keeps s₀ (State.kvDetect s n
    it) := by
  unfold State.kvDetect
  with_reducible
    repeat' first
      | assumption | intro _ | apply State.bump_keeps | apply State.setItem_keeps | apply State.detectRecord_keeps
      | apply State.noDecision_keeps | apply Keeps.ite | apply Keeps1.fst | apply Keeps1.ite | split | apply Keeps.upd
      | apply Keeps1.mk | dsimp only

theorem State.closeGroup_keeps (s : State) (n : Nat) (g : Nat) (a : Nat) {s₀ : State} (hk : Keeps s₀ s) : Keeps s₀
    (State.closeGroup s n g a) := by
  unfold State.closeGroup
  with_reducible
    repeat' first
      | assumption | intro _ | apply State.writeGroup_keeps | apply State.kvDetect_keeps | apply Keeps.foldl
      | apply Keeps.ite | apply Keeps1.fst | apply Keeps1.ite | split | apply Keeps1.mk | dsimp only

theorem State.arbitrate_keeps (s : State) (n : Nat) (it : Item) (v : Verdict) (last : Nat) {s₀ : State} (hk : Keeps s₀ s) :
    Keeps s₀ (State.arbitrate s n it v last) := by
  unfold State.arbitrate
  with_reducible
    repeat' first
      | assumption | intro _ | apply State.setItem_keeps | apply State.chargeDetect_keeps | apply State.detectRecord_keeps
      | apply State.noDecision_keeps | apply State.closeGroup_keeps | apply Keeps.foldl | apply Keeps.ite
      | apply Keeps1.fst | apply Keeps1.ite | split | apply Keeps.upd | apply Keeps1.mk | dsimp only

theorem State.stepItem_keeps (s : State) (n : Nat) (num : Nat) (last : Nat) {s₀ : State} (hk : Keeps s₀ s) : Keeps s₀
    (State.stepItem s n num last) := by
  unfold State.stepItem
  with_reducible
    repeat' first
      | assumption | intro _ | apply State.bump_keeps | apply State.setItem_keeps | apply State.closeGroup_keeps
      | apply State.arbitrate_keeps | apply Keeps.ite | split | apply Keeps.upd

theorem State.combinerResidue_keeps (s : State) (n : Nat) (it : Item) (r : RunRes) {s₀ : State} (hk : Keeps s₀ s) : Keeps s₀
    (State.combinerResidue s n it r) := by
  unfold State.combinerResidue
  with_reducible
    repeat' first
      | assumption | intro _ | apply State.bump_keeps | apply State.setProg_keeps | apply State.detectRecord_keeps
      | apply State.noDecision_keeps | apply Keeps.ite | apply Keeps1.fst | apply Keeps1.ite | split | apply Keeps.upd
      | apply Keeps1.mk | dsimp only

theorem State.result_keeps (s : State) (n : Nat) (num : Nat) (r : RunRes) {s₀ : State} (hk : Keeps s₀ s) : Keeps s₀
    (State.result s n num r) := by
  unfold State.result
  with_reducible
    repeat' first
      | assumption | apply State.bump_keeps | apply State.arrayHalt_keeps | apply State.setItem_keeps
      | apply State.stepItem_keeps | apply State.combinerResidue_keeps | apply Keeps.ite | split

theorem State.retryWrites_keeps (s : State) (a : Nat) {s₀ : State} (hk : Keeps s₀ s) : Keeps s₀ (State.retryWrites s a) :=
    by
  unfold State.retryWrites
  with_reducible
    repeat' first
      | assumption | intro _ | apply State.setProg_keeps | apply State.writeGroup_keeps | apply State.keyRefused_keeps
      | apply Keeps.foldl | apply Keeps.ite | apply Keeps1.fst | apply Keeps1.ite | split | apply Keeps.upd
      | apply Keeps1.mk | dsimp only

theorem State.runEnds_keeps (s : State) (a : Nat) (hw : RunHw) (arb : Bool) {s₀ : State} (hk : Keeps s₀ s) : Keeps s₀
    (State.runEnds s a hw arb) := by
  unfold State.runEnds
  with_reducible
    repeat' first
      | assumption | intro _ | apply run_keeps | apply State.wrap_keeps | apply State.cross_keeps
      | apply State.takeFails_keeps | apply State.evalProg_keeps | apply State.releaseArray_keeps
      | apply State.drainHalt_keeps | apply State.result_keeps | apply State.retryWrites_keeps | apply Keeps.ite
      | apply Keeps1.fst | apply Keeps1.ite | split | apply Keeps.upd | apply Keeps1.mk | dsimp only

theorem execArrayGrant_keeps (a : Nat) (env : Env) (s : State) {s₀ : State} (hk : Keeps s₀ s) : KeepsO s₀ (execArrayGrant a
    env s) := by
  unfold execArrayGrant
  with_reducible
    repeat' first
      | assumption | intro _ | apply State.clocked_keeps | apply run_keeps | apply State.codewords_keeps
      | apply State.grant_keeps | apply KeepsO.next | apply KeepsO.ite | apply Keeps.ite | split | dsimp only

theorem execItemComplete_keeps (a : Nat) (hw : RunHw) (s : State) {s₀ : State} (hk : Keeps s₀ s) : KeepsO s₀
    (execItemComplete a hw s) := by
  unfold execItemComplete
  with_reducible
    repeat' first
      | assumption | intro _ | apply State.clocked_keeps | apply run_keeps | apply State.runEnds_keeps | apply KeepsO.next
      | apply KeepsO.ite | apply Keeps.ite | split | dsimp only

theorem execArbitrationRunDone_keeps (a : Nat) (hw : RunHw) (s : State) {s₀ : State} (hk : Keeps s₀ s) : KeepsO s₀
    (execArbitrationRunDone a hw s) := by
  unfold execArbitrationRunDone
  with_reducible
    repeat' first
      | assumption | intro _ | apply State.clocked_keeps | apply run_keeps | apply State.runEnds_keeps | apply KeepsO.next
      | apply KeepsO.ite | apply Keeps.ite | split | dsimp only

theorem execPartialsArrive_keeps (h : Half) (s : State) {s₀ : State} (hk : Keeps s₀ s) : KeepsO s₀ (execPartialsArrive h s)
    := by
  unfold execPartialsArrive
  with_reducible
    repeat' first
      | assumption | intro _ | apply State.clocked_keeps | apply State.evalProg_keeps | apply State.drainHalt_keeps
      | apply State.result_keeps | apply KeepsO.next | apply KeepsO.ite | apply Keeps.ite | apply Keeps1.fst
      | apply Keeps1.ite | apply Keeps1.mk | split | apply Keeps.upd | dsimp only

theorem execItemOvertime_keeps (a : Nat) (env : Env) (s : State) {s₀ : State} (hk : Keeps s₀ s) : KeepsO s₀
    (execItemOvertime a env s) := by
  unfold execItemOvertime
  with_reducible
    repeat' first
      | assumption | intro _ | apply State.clocked_keeps | apply run_keeps | apply State.bump_keeps
      | apply State.setArr_keeps | apply State.setItem_keeps | apply State.startRun_keeps | apply KeepsO.next
      | apply KeepsO.ite | apply Keeps.ite | split | apply Keeps.upd | dsimp only

theorem execUncomparedTimeout_keeps (a : Nat) (s : State) {s₀ : State} (hk : Keeps s₀ s) : KeepsO s₀ (execUncomparedTimeout
    a s) := by
  unfold execUncomparedTimeout
  with_reducible
    repeat' first
      | assumption | intro _ | apply State.clocked_keeps | apply run_keeps | apply State.bump_keeps
      | apply State.setItem_keeps | apply State.closeGroup_keeps | apply KeepsO.next | apply KeepsO.ite | apply Keeps.ite
      | split | apply Keeps.upd | dsimp only

theorem State.recompute_keeps (s : State) (n : Nat) (slot : Nat) {s₀ : State} (hk : Keeps s₀ s) : Keeps1 s₀ (State.recompute
    s n slot) := by
  unfold State.recompute
  with_reducible
    repeat' first
      | assumption | intro _ | apply State.writeMem_keeps | apply State.invalidate_keeps | apply Keeps.foldl
      | apply Keeps1.foldl | apply Keeps1.ite | apply Keeps.ite | apply Keeps1.fst | split | apply Keeps.upd
      | apply Keeps1.mk | dsimp only

theorem execCsumRecomputeDone_keeps (s : State) {s₀ : State} (hk : Keeps s₀ s) : KeepsO s₀ (execCsumRecomputeDone s) := by
  unfold execCsumRecomputeDone
  with_reducible
    repeat' first
      | assumption | intro _ | apply State.clocked_keeps | apply State.bump_keeps | apply State.arbitrate_keeps
      | apply State.recompute_keeps | apply KeepsO.next | apply KeepsO.ite | apply Keeps.ite | apply Keeps1.fst
      | apply Keeps1.ite | split | apply Keeps1.mk | dsimp only

theorem State.replayArray_keeps (s : State) (a : Nat) (env : Env) {s₀ : State} (hk : Keeps s₀ s) : Keeps s₀
    (State.replayArray s a env) := by
  unfold State.replayArray
  with_reducible
    repeat' first
      | assumption | intro _ | apply State.evalProg_keeps | apply State.releaseArray_keeps | apply State.execRun_keeps
      | apply State.grant_keeps | apply State.writeGroup_keeps | apply Keeps.ite | split | dsimp only

theorem State.abortArray_keeps (s : State) (a : Nat) {s₀ : State} (hk : Keeps s₀ s) : Keeps s₀ (State.abortArray s a) := by
  unfold State.abortArray
  with_reducible
    repeat' first
      | assumption | intro _ | apply State.arrayHalt_keeps | apply State.releaseArray_keeps | apply Keeps.ite | split
      | dsimp only

theorem execArrayOffline_keeps (src : Source) (a : Nat) (s : State) {s₀ : State} (hk : Keeps s₀ s) : KeepsO s₀
    (execArrayOffline src a s) := by
  unfold execArrayOffline
  with_reducible
    repeat' first
      | assumption | intro _ | apply State.clocked_keeps | apply run_keeps | apply State.setFlag_keeps
      | apply State.gated_keeps | apply State.setAstate_keeps | apply KeepsO.next | apply KeepsO.ite | apply Keeps.ite
      | split | dsimp only

theorem execArrayOnline_keeps (src : Source) (a : Nat) (s : State) {s₀ : State} (hk : Keeps s₀ s) : KeepsO s₀
    (execArrayOnline src a s) := by
  unfold execArrayOnline
  with_reducible
    repeat' first
      | assumption | intro _ | apply State.clocked_keeps | apply run_keeps | apply State.setFlag_keeps
      | apply State.gated_keeps | apply State.setAstate_keeps | apply KeepsO.next | apply KeepsO.ite | apply Keeps.ite
      | split | dsimp only

end Sys2Proof.Machine
end

