-- ==== Sys2Proof/Laws/KeepsHomeRows.lean ====
section
/-!
SUPPORT. What the operations of Machine/HomeRows.lean and its commands leave alone: none touches the queue of commands, and each keeps the
canonical form of memory and of the register files.
-/

namespace Sys2Proof.Machine

theorem State.setScoop_keeps (s : State) (g : Nat) (l : List ScoopCmd) {s₀ : State} (hk : Keeps s₀ s) : Keeps s₀
    (State.setScoop s g l) := by
  unfold State.setScoop
  with_reducible
    repeat' first
      | assumption | apply Keeps.upd

theorem State.onCmd_keeps (s : State) (g : Nat) (f : ScoopCmd → ScoopCmd) {s₀ : State} (hk : Keeps s₀ s) : Keeps s₀
    (State.onCmd s g f) := by
  unfold State.onCmd
  with_reducible
    repeat' first
      | assumption | apply State.setScoop_keeps | split

theorem State.onPart_keeps (s : State) (g : Nat) (k : Nat) (f : RowPart → RowPart) {s₀ : State} (hk : Keeps s₀ s) : Keeps s₀
    (State.onPart s g k f) := by
  unfold State.onPart
  with_reducible
    repeat' first
      | assumption | intro _ | apply State.onCmd_keeps | split

theorem State.setHomeOp_keeps (s : State) (o : HomeOp) {s₀ : State} (hk : Keeps s₀ s) : Keeps s₀ (State.setHomeOp s o) := by
  unfold State.setHomeOp
  with_reducible
    repeat' first
      | assumption | intro _ | apply Keeps.upd

theorem State.homeAccess_keeps (s : State) (o : HomeOp) {s₀ : State} (hk : Keeps s₀ s) : Keeps s₀ (State.homeAccess s o) := by
  unfold State.homeAccess
  with_reducible
    repeat' first
      | assumption | apply Keeps.upd

theorem State.homeDone_keeps (s : State) (o : HomeOp) {s₀ : State} (hk : Keeps s₀ s) : Keeps s₀ (State.homeDone s o) := by
  unfold State.homeDone
  with_reducible
    repeat' first
      | assumption | apply Keeps.upd

theorem State.homeStart_keeps (s : State) (o : HomeOp) {s₀ : State} (hk : Keeps s₀ s) : Keeps s₀ (State.homeStart s o) := by
  unfold State.homeStart
  with_reducible
    repeat' first
      | assumption | intro _ | apply State.homeAccess_keeps | apply Keeps.ite | split | apply Keeps.upd

theorem State.homeEnd_keeps (s : State) (o : HomeOp) {s₀ : State} (hk : Keeps s₀ s) : Keeps s₀ (State.homeEnd s o) := by
  unfold State.homeEnd
  with_reducible
    repeat' first
      | assumption | intro _ | apply State.setHomeOp_keeps | apply State.homeAccess_keeps | apply Keeps.ite | split
      | apply Keeps.upd

theorem State.register_keeps (s : State) (row : Nat) (node : Nat) (h : Nat) {s₀ : State} (hk : Keeps s₀ s) : Keeps1 s₀
    (State.register s row node h) := by
  unfold State.register
  with_reducible
    repeat' first
      | assumption | apply Keeps1.ite | apply Keeps1.mk | apply Keeps.upd

theorem State.dropHolder_keeps (s : State) (row : Nat) (node : Nat) (h : Nat) {s₀ : State} (hk : Keeps s₀ s) : Keeps s₀
    (State.dropHolder s row node h) := by
  unfold State.dropHolder
  with_reducible
    repeat' first
      | assumption | apply Keeps.upd

theorem State.setRep_keeps (s : State) (r : RepSlot) {s₀ : State} (hk : Keeps s₀ s) : Keeps s₀ (State.setRep s r) := by
  unfold State.setRep
  with_reducible
    repeat' first
      | assumption | intro _ | apply Keeps.upd

theorem State.freeRep_keeps (s : State) (r : RepSlot) {s₀ : State} (hk : Keeps s₀ s) : Keeps s₀ (State.freeRep s r) := by
  unfold State.freeRep
  with_reducible
    repeat' first
      | assumption | intro _ | apply Keeps.upd

theorem State.repGone_keeps (s : State) (r : RepSlot) (op : Option Nat) (rinv : Option Packet) {s₀ : State} (hk : Keeps s₀
    s) : Keeps s₀ (State.repGone s r op rinv) := by
  unfold State.repGone
  with_reducible
    repeat' first
      | assumption | intro _ | apply State.sendPacket_keeps | apply State.request_keeps | apply State.setHomeOp_keeps
      | apply State.dropHolder_keeps | apply State.freeRep_keeps | apply Keeps.ite | split | apply Keeps.upd | dsimp only

theorem State.killRep_keeps (s : State) (r : RepSlot) (op : Option Nat) (rinv : Option Packet) {s₀ : State} (hk : Keeps s₀ s)
    : Keeps s₀ (State.killRep s r op rinv) := by
  unfold State.killRep
  with_reducible
    repeat' first
      | assumption | apply State.sendPacket_keeps | apply State.setHomeOp_keeps | apply State.dropHolder_keeps
      | apply State.setRep_keeps | apply State.repGone_keeps | apply Keeps.ite | split

theorem State.settleReps_keeps (s : State) {s₀ : State} (hk : Keeps s₀ s) : Keeps s₀ (State.settleReps s) := by
  unfold State.settleReps
  with_reducible
    repeat' first
      | assumption | intro _ | apply State.repGone_keeps | apply Keeps.foldl | split

theorem State.evictReps_keeps (s : State) (f : RepSlot → Bool) {s₀ : State} (hk : Keeps s₀ s) : Keeps s₀ (State.evictReps s
    f) := by
  unfold State.evictReps
  with_reducible
    repeat' first
      | assumption | intro _ | apply State.killRep_keeps | apply Keeps.foldl

theorem State.partAnswer_keeps (s : State) (g : Nat) (k : Nat) (data : List Byte) (poison : List Nat) {s₀ : State} (hk :
    Keeps s₀ s) : Keeps s₀ (State.partAnswer s g k data poison) := by
  unfold State.partAnswer
  with_reducible
    repeat' first
      | assumption | intro _ | apply State.onPart_keeps

theorem State.partError_keeps (s : State) (g : Nat) (k : Nat) {s₀ : State} (hk : Keeps s₀ s) : Keeps s₀ (State.partError s g
    k) := by
  unfold State.partError
  with_reducible
    repeat' first
      | assumption | intro _ | apply State.onPart_keeps

theorem State.answerSrd_keeps (s : State) (p : Packet) (s1 : Nat) (s2 : Nat) (row : List Byte) (poison : List Nat) (status :
    Nat) {s₀ : State} (hk : Keeps s₀ s) : Keeps s₀ (State.answerSrd s p s1 s2 row poison status) := by
  unfold State.answerSrd
  with_reducible
    repeat' first
      | assumption | intro _ | apply State.sendPacket_keeps | apply Keeps.foldl | apply Keeps.ite

theorem State.readReturned_keeps (s : State) (o : HomeOp) (err : Bool) {s₀ : State} (hk : Keeps s₀ s) : Keeps s₀
    (State.readReturned s o err) := by
  unfold State.readReturned
  with_reducible
    repeat' first
      | assumption | intro _ | apply State.bump_keeps | apply State.wrap_keeps | apply State.when_keeps
      | apply State.onPart_keeps | apply State.homeStart_keeps | apply State.homeEnd_keeps | apply State.setRep_keeps
      | apply State.partAnswer_keeps | apply State.partError_keeps | apply State.answerSrd_keeps | apply Keeps.ite | split
      | apply Keeps.upd

theorem State.rowRead_keeps (s : State) (o : HomeOp) {s₀ : State} (hk : Keeps s₀ s) : Keeps s₀ (State.rowRead s o) := by
  unfold State.rowRead
  with_reducible
    repeat' first
      | assumption | intro _ | apply State.crossIn_keeps | apply State.noteRead_keeps | apply State.setHomeOp_keeps
      | apply State.homeAccess_keeps | apply State.readReturned_keeps | apply Keeps.foldl | apply Keeps.ite
      | apply Keeps1.fst | apply Keeps1.ite | split | apply Keeps.upd | apply Keeps1.mk | dsimp only

theorem State.firstStamp_keeps (s : State) (o : HomeOp) (v : Nat) (bad : Bool) {s₀ : State} (hk : Keeps s₀ s) : Keeps s₀
    (State.firstStamp s o v bad) := by
  unfold State.firstStamp
  with_reducible
    repeat' first
      | assumption | intro _ | apply State.setHomeOp_keeps | apply State.homeAccess_keeps | apply State.register_keeps
      | apply Keeps.ite | apply Keeps1.fst | apply Keeps1.ite | split | apply Keeps.upd | apply Keeps1.mk | dsimp only

theorem State.stampRead_keeps (s : State) (o : HomeOp) {s₀ : State} (hk : Keeps s₀ s) : Keeps s₀ (State.stampRead s o) := by
  unfold State.stampRead
  with_reducible
    repeat' first
      | assumption | intro _ | apply State.noteRead_keeps | apply State.readReturned_keeps | apply State.firstStamp_keeps
      | apply Keeps.ite | split | apply Keeps.upd | dsimp only

theorem execAttemptReadReturn_keeps (id : Nat) (s : State) {s₀ : State} (hk : Keeps s₀ s) : KeepsO s₀ (execAttemptReadReturn
    id s) := by
  unfold execAttemptReadReturn
  with_reducible
    repeat' first
      | assumption | intro _ | apply State.clocked_keeps | apply State.homeDone_keeps | apply State.rowRead_keeps
      | apply State.stampRead_keeps | apply KeepsO.next | apply KeepsO.ite | apply Keeps.ite | split | dsimp only

theorem execWaitingReadRelease_keeps (id : Nat) (s : State) {s₀ : State} (hk : Keeps s₀ s) : KeepsO s₀
    (execWaitingReadRelease id s) := by
  unfold execWaitingReadRelease
  with_reducible
    repeat' first
      | assumption | intro _ | apply State.clocked_keeps | apply State.setHomeOp_keeps | apply State.homeAccess_keeps
      | apply KeepsO.next | apply KeepsO.ite | apply Keeps.ite | split | apply Keeps.upd | dsimp only

theorem State.updateEnd_keeps (s : State) (o : HomeOp) (status : Nat) {s₀ : State} (hk : Keeps s₀ s) : Keeps s₀
    (State.updateEnd s o status) := by
  unfold State.updateEnd
  with_reducible
    repeat' first
      | assumption | intro _ | apply State.wrap_keeps | apply State.when_keeps | apply State.sendPacket_keeps
      | apply State.onCmd_keeps | apply State.homeEnd_keeps | split

theorem State.invalidateHolders_keeps (s : State) (id : Nat) (row : Nat) (hs : List (Nat × Nat)) {s₀ : State} (hk : Keeps s₀
    s) : Keeps s₀ (State.invalidateHolders s id row hs) := by
  unfold State.invalidateHolders
  with_reducible
    repeat' first
      | assumption | intro _ | apply State.request_keeps | apply State.setHomeOp_keeps | apply State.dropHolder_keeps
      | apply State.killRep_keeps | apply Keeps.foldl | apply Keeps.ite | apply Keeps1.fst | apply Keeps1.ite | split
      | apply Keeps.upd | apply Keeps1.mk | dsimp only

theorem execUpdateStampAcked_keeps (id : Nat) (ok : Bool) (s : State) {s₀ : State} (hk : Keeps s₀ s) : KeepsO s₀
    (execUpdateStampAcked id ok s) := by
  unfold execUpdateStampAcked
  with_reducible
    repeat' first
      | assumption | intro _ | apply State.clocked_keeps | apply State.noteRead_keeps | apply State.writeOwn_keeps
      | apply State.setHomeOp_keeps | apply State.homeDone_keeps | apply State.updateEnd_keeps
      | apply State.invalidateHolders_keeps | apply KeepsO.next | apply KeepsO.ite | apply Keeps.ite | apply Keeps1.fst
      | apply Keeps1.ite | split | apply Keeps.upd | apply Keeps1.mk | dsimp only

theorem execUpdateInvalidatesAcked_keeps (id : Nat) (s : State) {s₀ : State} (hk : Keeps s₀ s) : KeepsO s₀
    (execUpdateInvalidatesAcked id s) := by
  unfold execUpdateInvalidatesAcked
  with_reducible
    repeat' first
      | assumption | intro _ | apply State.clocked_keeps | apply State.takeFails_keeps | apply State.setHomeOp_keeps
      | apply State.homeAccess_keeps | apply State.homeEnd_keeps | apply State.dropHolder_keeps | apply Keeps.foldl
      | apply Keeps1.foldl | apply KeepsO.next | apply KeepsO.ite | apply Keeps.ite | apply Keeps1.fst | apply Keeps1.ite
      | split | apply Keeps.upd | apply Keeps1.mk | dsimp only

theorem State.homeWrite_keeps (s : State) (h : Half) (exts : List (Nat × Nat)) (d : List Byte) (units : List Nat) {s₀ :
    State} (hk : Keeps s₀ s) : Keeps1 s₀ (State.homeWrite s h exts d units) := by
  unfold State.homeWrite
  exact Keeps.foldlVia (fun a : (State × Bool) × Nat => a.1.1) hk fun _ _ hx => State.writeOwn_keeps _ _ _ _ _ hx

theorem execUpdateRowAcked_keeps (id : Nat) (ok : Bool) (s : State) {s₀ : State} (hk : Keeps s₀ s) : KeepsO s₀
    (execUpdateRowAcked id ok s) := by
  unfold execUpdateRowAcked
  with_reducible
    repeat' first
      | assumption | intro _ | apply State.clocked_keeps | apply State.undefine_keeps | apply State.setHomeOp_keeps
      | apply State.homeAccess_keeps | apply State.homeDone_keeps | apply State.homeWrite_keeps | apply Keeps.foldl
      | apply KeepsO.next | apply KeepsO.ite | apply Keeps.ite | apply Keeps1.fst | apply Keeps1.ite | split
      | apply Keeps.upd | apply Keeps1.mk | dsimp only

theorem execUpdateFinalStampAcked_keeps (id : Nat) (ok : Bool) (s : State) {s₀ : State} (hk : Keeps s₀ s) : KeepsO s₀
    (execUpdateFinalStampAcked id ok s) := by
  unfold execUpdateFinalStampAcked
  with_reducible
    repeat' first
      | assumption | intro _ | apply State.clocked_keeps | apply State.writeOwn_keeps | apply State.homeDone_keeps
      | apply State.updateEnd_keeps | apply KeepsO.next | apply KeepsO.ite | apply Keeps.ite | apply Keeps1.fst
      | apply Keeps1.ite | split | apply Keeps1.mk | dsimp only

end Sys2Proof.Machine
end

