-- ==== Sys2Proof/Laws/KeepsScoop.lean ====
section
/-!
SUPPORT. What the operations of Machine/Scoop.lean and its commands leave alone: none touches the queue of commands, and each keeps the
canonical form of memory and of the register files.
-/

namespace Sys2Proof.Machine

theorem State.setTbl_keeps (s : State) (t : Nat) (x : TblSt) {s₀ : State} (hk : Keeps s₀ s) : Keeps s₀ (State.setTbl s t x) := by
  unfold State.setTbl
  with_reducible
    repeat' first
      | assumption | apply Keeps.upd

theorem State.scpResult_keeps (s : State) (r : Nat) {s₀ : State} (hk : Keeps s₀ s) : Keeps s₀ (State.scpResult s r) := by
  unfold State.scpResult
  with_reducible
    repeat' first
      | assumption | apply State.setFld_keeps | apply State.setFlag_keeps

theorem State.invalidateVA_keeps (s : State) (c : Nat) (va : Nat) (n : Nat) {s₀ : State} (hk : Keeps s₀ s) : Keeps s₀
    (State.invalidateVA s c va n) := by
  unfold State.invalidateVA
  with_reducible
    repeat' first
      | assumption | intro _ | apply Keeps.ite | apply Keeps1.fst | apply Keeps1.ite | split | apply Keeps.upd
      | apply Keeps1.mk | dsimp only

theorem State.scpDefine_keeps (s : State) (t : Nat) (part : Nat) (env : Env) {s₀ : State} (hk : Keeps s₀ s) : Keeps s₀
    (State.scpDefine s t part env) := by
  unfold State.scpDefine
  with_reducible
    repeat' first
      | assumption | intro _ | apply State.setFld_keeps | apply State.setFlag_keeps | apply State.peek_keeps
      | apply State.setTbl_keeps | apply State.scpResult_keeps | apply Keeps.ite | refine Keeps1.get ?_ (by assumption)
      | apply Keeps1.fst | apply Keeps1.ite | split | apply Keeps.upd | apply Keeps1.mk | dsimp only

theorem State.scpFlip_keeps (s : State) (t : Nat) (part : Nat) (inv : Bool) {s₀ : State} (hk : Keeps s₀ s) : Keeps s₀
    (State.scpFlip s t part inv) := by
  unfold State.scpFlip
  with_reducible
    repeat' first
      | assumption | intro _ | apply State.setFld_keeps | apply State.setFlag_keeps | apply State.wrap_keeps
      | apply State.evictReps_keeps | apply State.scpResult_keeps | apply State.invalidateVA_keeps | apply Keeps.ite

theorem State.freeTable_keeps (s : State) (t : Nat) {s₀ : State} (hk : Keeps s₀ s) : Keeps s₀ (State.freeTable s t) := by
  unfold State.freeTable
  with_reducible
    repeat' first
      | assumption | apply State.setFld_keeps | apply State.setTbl_keeps

theorem State.scpRetire_keeps (s : State) (t : Nat) (part : Nat) {s₀ : State} (hk : Keeps s₀ s) : Keeps s₀ (State.scpRetire s
    t part) := by
  unfold State.scpRetire
  with_reducible
    repeat' first
      | assumption | intro _ | apply State.setFlag_keeps | apply State.evictReps_keeps | apply State.scpResult_keeps
      | apply State.freeTable_keeps | apply Keeps.ite

theorem State.scpCmd_keeps (s : State) (op : Nat) (t : Nat) (part : Nat) (inv : Bool) (env : Env) {s₀ : State} (hk : Keeps s₀
    s) : Keeps1 s₀ (State.scpCmd s op t part inv env) := by
  unfold State.scpCmd
  with_reducible
    repeat' first
      | assumption | intro _ | apply State.scpResult_keeps | apply State.scpDefine_keeps | apply State.scpFlip_keeps
      | apply State.scpRetire_keeps | apply Keeps1.ite | split | apply Keeps1.mk | dsimp only

theorem execDefine_keeps (src : Source) (t : Nat) (part : Nat) (env : Env) (s : State) {s₀ : State} (hk : Keeps s₀ s) :
    KeepsO s₀ (execDefine src t part env s) := by
  unfold execDefine
  with_reducible
    repeat' first
      | assumption | intro _ | apply State.clocked_keeps | apply run_keeps | apply State.guarded_keeps
      | apply State.scpCmd_keeps | apply KeepsO.next | apply KeepsO.ite | apply Keeps.ite
      | refine Keeps1.get ?_ (by assumption) | apply Keeps1.fst | apply Keeps1.ite | apply Keeps1.mk | split | dsimp only

theorem execFlip_keeps (src : Source) (t : Nat) (part : Nat) (inv : Bool) (s : State) {s₀ : State} (hk : Keeps s₀ s) :
    KeepsO s₀ (execFlip src t part inv s) := by
  unfold execFlip
  with_reducible
    repeat' first
      | assumption | intro _ | apply State.clocked_keeps | apply run_keeps | apply State.guarded_keeps
      | apply State.scpCmd_keeps | apply KeepsO.next | apply KeepsO.ite | apply Keeps.ite
      | refine Keeps1.get ?_ (by assumption) | apply Keeps1.fst | apply Keeps1.ite | apply Keeps1.mk | split | dsimp only

theorem execRetire_keeps (src : Source) (t : Nat) (part : Nat) (s : State) {s₀ : State} (hk : Keeps s₀ s) : KeepsO s₀
    (execRetire src t part s) := by
  unfold execRetire
  with_reducible
    repeat' first
      | assumption | intro _ | apply State.clocked_keeps | apply run_keeps | apply State.guarded_keeps
      | apply State.scpCmd_keeps | apply KeepsO.next | apply KeepsO.ite | apply Keeps.ite
      | refine Keeps1.get ?_ (by assumption) | apply Keeps1.fst | apply Keeps1.ite | apply Keeps1.mk | split | dsimp only

theorem execScpCmdReservedOp_keeps (src : Source) (op : Nat) (s : State) {s₀ : State} (hk : Keeps s₀ s) : KeepsO s₀
    (execScpCmdReservedOp src op s) := by
  unfold execScpCmdReservedOp
  with_reducible
    repeat' first
      | assumption | intro _ | apply State.clocked_keeps | apply run_keeps | apply State.guarded_keeps
      | apply State.scpCmd_keeps | apply KeepsO.next | apply KeepsO.ite | apply Keeps.ite
      | refine Keeps1.get ?_ (by assumption) | apply Keeps1.fst | apply Keeps1.ite | apply Keeps1.mk | split | dsimp only

theorem execTableOldDrained_keeps (t : Nat) (s : State) {s₀ : State} (hk : Keeps s₀ s) : KeepsO s₀ (execTableOldDrained t s)
    := by
  unfold execTableOldDrained
  with_reducible
    repeat' first
      | assumption | intro _ | apply State.clocked_keeps | apply run_keeps | apply State.setFlag_keeps
      | apply State.freeTable_keeps | apply KeepsO.next | apply KeepsO.ite | apply Keeps.ite | split | dsimp only

theorem State.syncScoop_keeps (s : State) (g : Nat) {s₀ : State} (hk : Keeps s₀ s) : Keeps s₀ (State.syncScoop s g) := by
  unfold State.syncScoop
  with_reducible
    repeat' first
      | assumption | intro _ | apply run_keeps | apply State.setFld_keeps | apply Keeps.ite | split | dsimp only

theorem State.installBegin_keeps (s : State) (h : Nat) (i : Nat) (tbl : Nat) (part : Nat) (gpa : Nat) (len : Nat) (stampGpa
    : Nat) (exts : List (Nat × Nat)) {s₀ : State} (hk : Keeps s₀ s) : Keeps s₀ (State.installBegin s h i tbl part gpa len
    stampGpa exts) := by
  unfold State.installBegin
  with_reducible
    repeat' first
      | assumption | intro _ | apply State.request_keeps | apply State.install_keeps | apply State.homeStart_keeps
      | apply Keeps.ite | split | apply Keeps.upd | dsimp only

theorem State.hotInstall_keeps (s : State) (h : Nat) (tbl : Nat) (part : Nat) (gpa : Nat) (len : Nat) (stampGpa : Nat) (exts
    : List (Nat × Nat)) {s₀ : State} (hk : Keeps s₀ s) : Keeps s₀ (State.hotInstall s h tbl part gpa len stampGpa exts) :=
    by
  unfold State.hotInstall
  with_reducible
    repeat' first
      | assumption | intro _ | apply State.killRep_keeps | apply State.installBegin_keeps | apply Keeps.foldl
      | apply Keeps.ite | apply Keeps1.fst | apply Keeps1.ite | split | apply Keeps1.mk | dsimp only

theorem State.countHot_keeps (s : State) (h : Nat) (tbl : Nat) (part : Nat) (gpa : Nat) (len : Nat) (stampGpa : Nat) (exts :
    List (Nat × Nat)) {s₀ : State} (hk : Keeps s₀ s) : Keeps s₀ (State.countHot s h tbl part gpa len stampGpa exts) := by
  unfold State.countHot
  with_reducible
    repeat' first
      | assumption | intro _ | apply State.hotInstall_keeps | apply Keeps.ite | apply Keeps1.fst | apply Keeps1.ite | split
      | apply Keeps.upd | apply Keeps1.mk | dsimp only

theorem execReplicaInstallDone_keeps (h : Nat) (i : Nat) (s : State) {s₀ : State} (hk : Keeps s₀ s) : KeepsO s₀
    (execReplicaInstallDone h i s) := by
  unfold execReplicaInstallDone
  with_reducible
    repeat' first
      | assumption | intro _ | apply State.clocked_keeps | apply run_keeps | apply State.bump_keeps
      | apply State.wrap_keeps | apply State.writeMem_keeps | apply State.takeFails_keeps | apply State.install_keeps
      | apply State.setRep_keeps | apply State.freeRep_keeps | apply KeepsO.next | apply KeepsO.ite | apply Keeps.ite
      | refine Keeps1.get ?_ (by assumption) | apply Keeps1.fst | apply Keeps1.ite | apply Keeps1.mk | split
      | apply Keeps.upd | dsimp only

theorem execHotCountDecay_keeps (h : Half) (s : State) {s₀ : State} (hk : Keeps s₀ s) : KeepsO s₀ (execHotCountDecay h s) :=
    by
  unfold execHotCountDecay
  with_reducible
    repeat' first
      | assumption | intro _ | apply State.clocked_keeps | apply KeepsO.next | apply KeepsO.ite | apply Keeps.ite
      | apply Keeps1.fst | apply Keeps1.ite | apply Keeps1.mk | split | apply Keeps.upd | dsimp only

theorem State.issuePart_keeps (s : State) (g : Nat) (k : Nat) (c : ScoopCmd) (d : List Byte) (p : RowPart) {s₀ : State} (hk
    : Keeps s₀ s) : Keeps s₀ (State.issuePart s g k c d p) := by
  unfold State.issuePart
  with_reducible
    repeat' first
      | assumption | intro _ | apply State.request_keeps | apply State.onPart_keeps | apply State.homeStart_keeps
      | apply State.setRep_keeps | apply State.partError_keeps | apply State.countHot_keeps | apply Keeps.ite
      | apply Keeps1.fst | apply Keeps1.ite | split | apply Keeps.upd | apply Keeps1.mk | dsimp only

theorem State.countLines_keeps (s : State) (g : Nat) {s₀ : State} (hk : Keeps s₀ s) : Keeps s₀ (State.countLines s g) := by
  unfold State.countLines
  with_reducible
    repeat' first
      | assumption | apply State.wrap_keeps

theorem State.nextRow_keeps (s : State) (g : Nat) (c : ScoopCmd) (d : List Byte) (env : Env) {s₀ : State} (hk : Keeps s₀ s) :
    Keeps1 s₀ (State.nextRow s g c d env) := by
  unfold State.nextRow
  with_reducible
    repeat' first
      | assumption | intro _ | apply State.keyFault_keeps | apply State.present_keeps | apply State.readCached_keeps
      | apply Keeps1.ite | refine Keeps1.get ?_ (by assumption) | apply Keeps1.fst | split | apply Keeps1.mk

theorem State.presentRow_keeps (s : State) (g : Nat) (c : ScoopCmd) (dst : Nat) (n : Nat) (y0 : List RowPart) {s₀ : State}
    (hk : Keeps s₀ s) : Keeps1 s₀ (State.presentRow s g c dst n y0) := by
  induction y0 generalizing s g c dst n with
  | nil =>
    unfold State.presentRow
    with_reducible
      repeat' first
        | assumption | apply State.present_keeps | refine Keeps1.get ?_ (by assumption) | apply Keeps1.fst | split
        | apply Keeps1.mk
  | cons _ _ ih =>
    unfold State.presentRow
    with_reducible
      repeat' first
        | assumption | apply ih | apply State.present_keeps | refine Keeps1.get ?_ (by assumption) | apply Keeps1.fst | split
        | apply Keeps1.mk

theorem State.dropRow_keeps (s : State) (g : Nat) {s₀ : State} (hk : Keeps s₀ s) : Keeps s₀ (State.dropRow s g) := by
  unfold State.dropRow
  with_reducible
    repeat' first
      | assumption | intro _ | apply State.dropClient_keeps | apply State.onCmd_keeps | apply State.homeEnd_keeps
      | apply Keeps.foldl | apply Keeps.ite | apply Keeps1.fst | apply Keeps1.ite | split | apply Keeps.upd
      | apply Keeps1.mk | dsimp only

theorem State.laneWritten_keeps (s : State) (c : ScoopCmd) (lane : Nat) (dst : Nat) (d : List Byte) {s₀ : State} (hk : Keeps
    s₀ s) : Keeps s₀ (State.laneWritten s c lane dst d) := by
  unfold State.laneWritten
  with_reducible
    repeat' first
      | assumption | intro _ | apply State.invalidateEnd_keeps | apply State.setProg_keeps | apply Keeps.ite
      | apply Keeps1.fst | apply Keeps1.ite | split | apply Keeps.upd | apply Keeps1.mk | dsimp only

theorem State.skipRow_keeps (s : State) (g : Nat) (c : ScoopCmd) {s₀ : State} (hk : Keeps s₀ s) : Keeps s₀ (State.skipRow s
    g c) := by
  unfold State.skipRow
  with_reducible
    repeat' first
      | assumption | intro _ | apply State.bump_keeps | apply State.when_keeps | apply State.writeVA_keeps
      | apply State.present_keeps | apply State.setProg_keeps | apply State.arrayHalt_keeps | apply State.onCmd_keeps
      | apply State.laneWritten_keeps | apply Keeps.ite | refine Keeps1.get ?_ (by assumption) | apply Keeps1.fst
      | apply Keeps1.ite | split | apply Keeps.upd | apply Keeps1.mk | dsimp only

theorem State.issueRows_keeps (s : State) (g : Nat) (env : Env) (y0 : Nat) {s₀ : State} (hk : Keeps s₀ s) : Keeps s₀
    (State.issueRows s g env y0) := by
  induction y0 generalizing s g env with
  | zero =>
    unfold State.issueRows
    with_reducible
      repeat' first
        | assumption | intro _ | apply State.arrayHalt_keeps | apply State.onCmd_keeps | apply State.issuePart_keeps
        | apply State.countLines_keeps | apply State.nextRow_keeps | apply State.presentRow_keeps | apply State.skipRow_keeps
        | apply Keeps.foldl | apply Keeps.ite | refine Keeps1.get ?_ (by assumption) | split | apply Keeps.upd
  | succ _ ih =>
    unfold State.issueRows
    with_reducible
      repeat' first
        | assumption | apply ih | intro _ | apply State.arrayHalt_keeps | apply State.onCmd_keeps
        | apply State.issuePart_keeps | apply State.countLines_keeps | apply State.nextRow_keeps
        | apply State.presentRow_keeps | apply State.skipRow_keeps | apply Keeps.foldl | apply Keeps.ite
        | refine Keeps1.get ?_ (by assumption) | split | apply Keeps.upd

theorem State.sendUpdate_keeps (s : State) (g : Nat) (env : Env) {s₀ : State} (hk : Keeps s₀ s) : Keeps s₀ (State.sendUpdate
    s g env) := by
  unfold State.sendUpdate
  with_reducible
    repeat' first
      | assumption | intro _ | apply State.sendPacket_keeps | apply State.request_keeps | apply State.noteVA_keeps
      | apply State.keyFault_keeps | apply State.present_keeps | apply State.onCmd_keeps | apply State.homeStart_keeps
      | apply State.countLines_keeps | apply Keeps.foldl | apply Keeps.ite | refine Keeps1.get ?_ (by assumption)
      | apply Keeps1.fst | apply Keeps1.ite | split | apply Keeps.upd | apply Keeps1.mk | dsimp only

theorem State.scoopStart_keeps (s : State) (g : Nat) (env : Env) {s₀ : State} (hk : Keeps s₀ s) : Keeps s₀ (State.scoopStart
    s g env) := by
  unfold State.scoopStart
  with_reducible
    repeat' first
      | assumption | intro _ | apply State.onCmd_keeps | apply State.syncScoop_keeps | apply State.issueRows_keeps
      | apply State.sendUpdate_keeps | apply Keeps.ite | split

theorem State.scoopGive_keeps (s : State) (c : ScoopCmd) (half : Option Nat) (env : Env) {s₀ : State} (hk : Keeps s₀ s) :
    Keeps s₀ (State.scoopGive s c half env) := by
  unfold State.scoopGive
  with_reducible
    repeat' first
      | assumption | apply State.setScoop_keeps | apply State.scoopStart_keeps | apply Keeps.ite | split | apply Keeps.upd

theorem State.drainScoop_keeps (s : State) (env : Env) {s₀ : State} (hk : Keeps s₀ s) : Keeps s₀ (State.drainScoop s env) := by
  unfold State.drainScoop
  with_reducible
    repeat' first
      | assumption | intro _ | apply State.scoopGive_keeps | apply Keeps.foldl | apply Keeps.upd

theorem State.scoopNext_keeps (s : State) (g : Nat) (env : Env) {s₀ : State} (hk : Keeps s₀ s) : Keeps s₀ (State.scoopNext s
    g env) := by
  unfold State.scoopNext
  with_reducible
    repeat' first
      | assumption | intro _ | apply State.setScoop_keeps | apply State.syncScoop_keeps | apply State.scoopStart_keeps
      | apply State.scoopGive_keeps | apply State.drainScoop_keeps | apply Keeps.foldl | apply Keeps.ite

theorem State.collect_keeps (s : State) (g : Nat) (c : ScoopCmd) (env : Env) {s₀ : State} (hk : Keeps s₀ s) : Keeps1 s₀
    (State.collect s g c env) := by
  unfold State.collect
  with_reducible
    repeat' first
      | assumption | intro _ | apply State.wrap_keeps | apply State.takeFails_keeps | apply State.noteRead_keeps
      | apply State.asOf_keeps | apply State.readCached_keeps | apply State.onPart_keeps | apply State.killRep_keeps
      | apply State.issuePart_keeps | apply Keeps.foldl | apply Keeps1.foldl | apply Keeps1.ite | apply Keeps.ite
      | apply Keeps1.fst | split | apply Keeps.upd | apply Keeps1.mk | dsimp only

theorem State.rowDone_keeps (s : State) (g : Nat) (env : Env) (f : ScoopCmd → ScoopCmd) {s₀ : State} (hk : Keeps s₀ s) :
    Keeps s₀ (State.rowDone s g env f) := by
  unfold State.rowDone
  with_reducible
    repeat' first
      | assumption | intro _ | apply State.endAccess_keeps | apply State.onCmd_keeps | apply State.settleReps_keeps
      | apply State.syncScoop_keeps | apply State.issueRows_keeps | apply Keeps.ite | split | apply Keeps.upd | dsimp only

theorem State.previousWrites_keeps (s : State) (g : Nat) (c : ScoopCmd) {s₀ : State} (hk : Keeps s₀ s) : Keeps1 s₀
    (State.previousWrites s g c) := by
  unfold State.previousWrites
  with_reducible
    repeat' first
      | assumption | intro _ | apply State.takeFails_keeps | apply State.keyFault_keeps | apply State.arrayHalt_keeps
      | apply State.onCmd_keeps | apply State.dropRow_keeps | apply Keeps1.ite | apply Keeps.ite | apply Keeps1.fst | split
      | apply Keeps.upd | apply Keeps1.mk | dsimp only

theorem State.writeRow_keeps (s : State) (g : Nat) (c : ScoopCmd) (dst : Nat) (d : List Byte) (units : List Nat) {s₀ :
    State} (hk : Keeps s₀ s) : Keeps1 s₀ (State.writeRow s g c dst d units) := by
  unfold State.writeRow
  with_reducible
    repeat' first
      | assumption | intro _ | apply State.asOf_keeps | apply State.writeVA_keeps | apply State.onCmd_keeps
      | apply State.keyed_keeps | apply Keeps1.ite | apply Keeps.ite | apply Keeps1.fst | split | apply Keeps.upd
      | apply Keeps1.mk | dsimp only

theorem State.deliverRow_keeps (s : State) (g : Nat) (c : ScoopCmd) (d : List Byte) (units : List Nat) (env : Env) {s₀ :
    State} (hk : Keeps s₀ s) : Keeps s₀ (State.deliverRow s g c d units env) := by
  unfold State.deliverRow
  with_reducible
    repeat' first
      | assumption | intro _ | apply State.wrap_keeps | apply State.when_keeps | apply State.asOf_keeps
      | apply State.undefineEnd_keeps | apply State.arrayHalt_keeps | apply State.laneWritten_keeps
      | apply State.rowDone_keeps | apply State.writeRow_keeps | apply Keeps.ite | apply Keeps1.fst | apply Keeps1.ite
      | split | apply Keeps.upd | apply Keeps1.mk | dsimp only

theorem execScoopRowReturn_keeps (g : Nat) (env : Env) (s : State) {s₀ : State} (hk : Keeps s₀ s) : KeepsO s₀
    (execScoopRowReturn g env s) := by
  unfold execScoopRowReturn
  with_reducible
    repeat' first
      | assumption | intro _ | apply State.clocked_keeps | apply run_keeps | apply State.wrap_keeps
      | apply State.codewords_keeps | apply State.keyFault_keeps | apply State.setProg_keeps | apply State.setScoop_keeps
      | apply State.settleReps_keeps | apply State.syncScoop_keeps | apply State.dropRow_keeps
      | apply State.scoopNext_keeps | apply State.collect_keeps | apply State.rowDone_keeps
      | apply State.previousWrites_keeps | apply State.deliverRow_keeps | apply KeepsO.next | apply KeepsO.ite
      | apply Keeps.ite | refine Keeps1.get ?_ (by assumption) | apply Keeps1.fst | apply Keeps1.ite | split
      | apply Keeps.upd | apply Keeps1.mk | dsimp only

theorem State.scoopEnd_keeps (s : State) (g : Nat) (env : Env) {s₀ : State} (hk : Keeps s₀ s) : Keeps s₀ (State.scoopEnd s g
    env) := by
  unfold State.scoopEnd
  with_reducible
    repeat' first
      | assumption | intro _ | apply State.endAccess_keeps | apply State.finishWork_keeps | apply State.setProg_keeps
      | apply State.setScoop_keeps | apply State.settleReps_keeps | apply State.scoopNext_keeps | apply Keeps.ite
      | apply Keeps1.fst | apply Keeps1.ite | split | apply Keeps.upd | apply Keeps1.mk | dsimp only

theorem execScoopCommandComplete_keeps (g : Nat) (env : Env) (s : State) {s₀ : State} (hk : Keeps s₀ s) : KeepsO s₀
    (execScoopCommandComplete g env s) := by
  unfold execScoopCommandComplete
  with_reducible
    repeat' first
      | assumption | intro _ | apply State.clocked_keeps | apply run_keeps | apply State.takeFails_keeps
      | apply State.onCmd_keeps | apply State.syncScoop_keeps | apply State.previousWrites_keeps
      | apply State.scoopEnd_keeps | apply KeepsO.next | apply KeepsO.ite | apply Keeps.ite
      | refine Keeps1.get ?_ (by assumption) | apply Keeps1.fst | apply Keeps1.ite | split | apply Keeps1.mk | dsimp only

theorem State.scoopDetach_keeps (s : State) (g : Nat) {s₀ : State} (hk : Keeps s₀ s) : Keeps s₀ (State.scoopDetach s g) :=
    by
  unfold State.scoopDetach
  with_reducible
    repeat' first
      | assumption | intro _ | apply State.dropClient_keeps | apply State.endAccess_keeps | apply State.freeEngine_keeps
      | apply State.dropRow_keeps | apply Keeps.ite | split | apply Keeps.upd | dsimp only

theorem State.scoopMove_keeps (s : State) (g : Nat) (env : Env) {s₀ : State} (hk : Keeps s₀ s) : Keeps s₀ (State.scoopMove s
    g env) := by
  unfold State.scoopMove
  with_reducible
    repeat' first
      | assumption | intro _ | apply State.setScoop_keeps | apply State.settleReps_keeps | apply State.syncScoop_keeps
      | apply State.scoopGive_keeps | apply State.scoopDetach_keeps | apply Keeps.foldl

theorem execScoopEngineFail_keeps (g : Nat) (env : Env) (s : State) {s₀ : State} (hk : Keeps s₀ s) : KeepsO s₀
    (execScoopEngineFail g env s) := by
  unfold execScoopEngineFail
  with_reducible
    repeat' first
      | assumption | intro _ | apply State.clocked_keeps | apply run_keeps | apply State.setFld_keeps
      | apply State.record_keeps | apply State.scoopMove_keeps | apply KeepsO.next | apply KeepsO.ite | apply Keeps.ite
      | split | dsimp only

theorem State.takeEntry_keeps (s : State) (op : Nat) (last : Bool) {s₀ : State} (hk : Keeps s₀ s) : KeepsP s₀
    (State.takeEntry s op last) := by
  unfold State.takeEntry
  with_reducible
    repeat' first
      | assumption | intro _ | exact KeepsP.none | apply KeepsP.some | split | apply Keeps.upd | dsimp only

theorem State.scoopEntry_keeps (s : State) (op : Nat) (fw : List Byte) (env : Env) {s₀ : State} (hk : Keeps s₀ s) : Keeps s₀
    (State.scoopEntry s op fw env) := by
  unfold State.scoopEntry
  with_reducible
    repeat' first
      | assumption | apply State.emit_keeps | apply State.scoopGive_keeps | apply State.takeEntry_keeps | apply Keeps.ite
      | refine KeepsP.get ?_ (by assumption) | split | apply Keeps.upd

theorem execGather_keeps (fw : List Byte) (env : Env) (s : State) {s₀ : State} (hk : Keeps s₀ s) : KeepsO s₀ (execGather fw
    env s) := by
  unfold execGather
  with_reducible
    repeat' first
      | assumption | intro _ | apply State.clocked_keeps | apply State.scoopEntry_keeps | apply KeepsO.next
      | apply KeepsO.ite | apply Keeps.ite | split | dsimp only

theorem execRowUpdate_keeps (fw : List Byte) (env : Env) (s : State) {s₀ : State} (hk : Keeps s₀ s) : KeepsO s₀
    (execRowUpdate fw env s) := by
  unfold execRowUpdate
  with_reducible
    repeat' first
      | assumption | intro _ | apply State.clocked_keeps | apply State.scoopEntry_keeps | apply KeepsO.next
      | apply KeepsO.ite | apply Keeps.ite | split | dsimp only

theorem State.startEmbed_keeps (s : State) (n : Nat) (d : List Byte) (env : Env) {s₀ : State} (hk : Keeps s₀ s) : Keeps s₀
    (State.startEmbed s n d env) := by
  unfold State.startEmbed
  with_reducible
    repeat' first
      | assumption | intro _ | apply State.setProg_keeps | apply State.scoopGive_keeps | apply Keeps.foldl
      | apply Keeps.ite | apply Keeps1.fst | apply Keeps1.ite | split | apply Keeps.upd | apply Keeps1.mk | dsimp only

theorem State.replayScoop_keeps (s : State) (g : Nat) (env : Env) {s₀ : State} (hk : Keeps s₀ s) : Keeps s₀
    (State.replayScoop s g env) := by
  unfold State.replayScoop
  with_reducible
    repeat' first
      | assumption | apply State.syncScoop_keeps | apply State.issueRows_keeps | apply State.sendUpdate_keeps
      | apply Keeps.ite | split

theorem State.abortScoop_keeps (s : State) (g : Nat) (env : Env) {s₀ : State} (hk : Keeps s₀ s) : Keeps s₀ (State.abortScoop
    s g env) := by
  unfold State.abortScoop
  with_reducible
    repeat' first
      | assumption | intro _ | apply State.arrayHalt_keeps | apply State.setScoop_keeps | apply State.onCmd_keeps
      | apply State.syncScoop_keeps | apply State.dropRow_keeps | apply State.scoopNext_keeps | apply Keeps.ite | split
      | apply Keeps.upd | dsimp only

theorem State.undefineRows_keeps (s : State) (g : Nat) (c : ScoopCmd) {s₀ : State} (hk : Keeps s₀ s) : Keeps s₀
    (State.undefineRows s g c) := by
  unfold State.undefineRows
  with_reducible
    repeat' first
      | assumption | intro _ | apply State.asOf_keeps | apply State.undefineEnd_keeps | apply Keeps.foldl | apply Keeps.ite
      | apply Keeps1.fst | apply Keeps1.ite | split | apply Keeps1.mk | dsimp only

theorem State.resetScoop_keeps (s : State) (g : Nat) (env : Env) {s₀ : State} (hk : Keeps s₀ s) : Keeps s₀ (State.resetScoop
    s g env) := by
  unfold State.resetScoop
  with_reducible
    repeat' first
      | assumption | intro _ | apply State.onCmd_keeps | apply State.scoopEnd_keeps | apply State.scoopDetach_keeps
      | apply State.undefineRows_keeps | apply Keeps.ite | split | apply Keeps.upd | dsimp only

theorem State.commitRepl_keeps (s : State) {s₀ : State} (hk : Keeps s₀ s) : Keeps s₀ (State.commitRepl s) := by
  unfold State.commitRepl
  with_reducible
    repeat' first
      | assumption | intro _ | apply State.beginCommit_keeps | apply State.rejectCommit_keeps | apply State.evictReps_keeps
      | apply Keeps.ite

theorem execScpReplCommit_keeps (src : Source) (s : State) {s₀ : State} (hk : Keeps s₀ s) : KeepsO s₀ (execScpReplCommit src
    s) := by
  unfold execScpReplCommit
  with_reducible
    repeat' first
      | assumption | intro _ | apply State.clocked_keeps | apply run_keeps | apply State.gated_keeps
      | apply State.commitRepl_keeps | apply KeepsO.next | apply KeepsO.ite | apply Keeps.ite | split | apply Keeps.upd
      | dsimp only

end Sys2Proof.Machine
end

