-- ==== Sys2Proof/Laws/KeepsCoherence.lean ====
section
/-!
SUPPORT. What the operations of Machine/Coherence.lean and its commands leave alone: none touches the queue of commands, and each keeps the
canonical form of memory and of the register files.
-/

namespace Sys2Proof.Machine

theorem State.setDir_keeps (s : State) (line : Nat) (e : Option DirEnt) {s₀ : State} (hk : Keeps s₀ s) : Keeps s₀
    (State.setDir s line e) := by
  unfold State.setDir
  with_reducible
    repeat' first
      | assumption | intro _ | apply State.syncDir_keeps | apply Keeps.upd

theorem State.cohRead_keeps (s : State) (line : Nat) {s₀ : State} (hk : Keeps s₀ s) : Keeps1 s₀ (State.cohRead s line) := by
  unfold State.cohRead
  with_reducible
    repeat' first
      | assumption | intro _ | apply State.wrap_keeps | apply State.when_keeps | apply State.fresh_keeps
      | apply State.tally_keeps | apply Keeps1.ite | apply Keeps.ite | refine Keeps2.get ?_ (by assumption)
      | apply Keeps2.snd | split | apply Keeps1.mk | dsimp only

theorem State.cohWrite_keeps (s : State) (line : Nat) (d : List Byte) (poison : Bool) {s₀ : State} (hk : Keeps s₀ s) : Keeps
    s₀ (State.cohWrite s line d poison) := by
  unfold State.cohWrite
  with_reducible
    repeat' first
      | assumption | intro _ | apply State.poisonLine_keeps | apply State.storeLine_keeps | apply State.tally_keeps
      | apply Keeps.ite | split | dsimp only

theorem State.cohPoison_keeps (s : State) (line : Nat) {s₀ : State} (hk : Keeps s₀ s) : Keeps s₀ (State.cohPoison s line) :=
    by
  unfold State.cohPoison
  with_reducible
    repeat' first
      | assumption | intro _ | apply State.bump_keeps | apply State.poisonLine_keeps | apply Keeps.ite | split | dsimp only

theorem State.cohSend_keeps (s : State) (like : Packet) (dst : Nat) (off : Nat) (word : Nat) (status : Nat) (d : List Byte)
    (poison : Bool) (tag : Nat) {s₀ : State} (hk : Keeps s₀ s) : Keeps s₀ (State.cohSend s like dst off word status d poison
    tag) := by
  unfold State.cohSend
  with_reducible
    repeat' first
      | assumption | apply State.sendPacket_keeps

theorem State.cohGrant_keeps (s : State) (p : Packet) (status : Nat) (grant : Nat) (src : Nat) {s₀ : State} (hk : Keeps s₀ s)
    : Keeps s₀ (State.cohGrant s p status grant src) := by
  unfold State.cohGrant
  with_reducible
    repeat' first
      | assumption | apply State.cohSend_keeps

theorem State.cohFwd_keeps (s : State) (p : Packet) (d : List Byte) (poison : Bool) {s₀ : State} (hk : Keeps s₀ s) : Keeps s₀
    (State.cohFwd s p d poison) := by
  unfold State.cohFwd
  with_reducible
    repeat' first
      | assumption | apply State.cohSend_keeps

theorem State.cohFromHome_keeps (s : State) (p : Packet) (grant : Nat) {s₀ : State} (hk : Keeps s₀ s) : Keeps s₀
    (State.cohFromHome s p grant) := by
  unfold State.cohFromHome
  with_reducible
    repeat' first
      | assumption | apply State.cohRead_keeps | apply State.cohGrant_keeps | apply State.cohFwd_keeps | apply Keeps1.fst

theorem State.cohSnoop_keeps (s : State) (like : Packet) (line : Nat) (msg : Nat) (txn : Nat) (dataTo : Nat) (slots : List
    Nat) {s₀ : State} (hk : Keeps s₀ s) : Keeps s₀ (State.cohSnoop s like line msg txn dataTo slots) := by
  unfold State.cohSnoop
  with_reducible
    repeat' first
      | assumption | intro _ | apply State.wrap_keeps | apply State.cohSend_keeps | apply Keeps.foldl

theorem State.cohBegin_keeps (s : State) (p : Packet) (slot : Nat) (msg : Nat) (owner : Option Nat) (slots : List Nat) {s₀ :
    State} (hk : Keeps s₀ s) : Keeps s₀ (State.cohBegin s p slot msg owner slots) := by
  unfold State.cohBegin
  with_reducible
    repeat' first
      | assumption | apply State.cohSnoop_keeps | apply Keeps.upd

theorem State.cohWay_keeps (s : State) (p : Packet) {s₀ : State} (hk : Keeps s₀ s) : Keeps1 s₀ (State.cohWay s p) := by
  unfold State.cohWay
  with_reducible
    repeat' first
      | assumption | intro _ | apply State.wrap_keeps | apply State.cohSnoop_keeps | apply Keeps1.ite | apply Keeps.ite
      | split | apply Keeps.upd | apply Keeps1.mk | dsimp only

theorem State.cohServe_keeps (s : State) (p : Packet) (slot : Nat) {s₀ : State} (hk : Keeps s₀ s) : Keeps s₀ (State.cohServe
    s p slot) := by
  unfold State.cohServe
  with_reducible
    repeat' first
      | assumption | apply State.wrap_keeps | apply State.setDir_keeps | apply State.cohGrant_keeps
      | apply State.cohFromHome_keeps | apply State.cohBegin_keeps | apply State.cohWay_keeps | apply Keeps.ite
      | apply Keeps1.fst | split | apply Keeps.upd

theorem State.cohCtl_keeps (s : State) (p : Packet) {s₀ : State} (hk : Keeps s₀ s) : Keeps s₀ (State.cohCtl s p) := by
  unfold State.cohCtl
  with_reducible
    repeat' first
      | assumption | intro _ | apply State.bump_keeps | apply State.cohSend_keeps | apply Keeps.ite | split | dsimp only

theorem State.cohRequest_keeps (s : State) (p : Packet) {s₀ : State} (hk : Keeps s₀ s) : Keeps s₀ (State.cohRequest s p) :=
    by
  unfold State.cohRequest
  with_reducible
    repeat' first
      | assumption | intro _ | apply State.bump_keeps | apply State.cohGrant_keeps | apply State.cohServe_keeps
      | apply State.cohCtl_keeps | apply Keeps.ite | split | apply Keeps.upd | dsimp only

theorem State.cohRetry_keeps (s : State) {s₀ : State} (hk : Keeps s₀ s) : Keeps s₀ (State.cohRetry s) := by
  unfold State.cohRetry
  with_reducible
    repeat' first
      | assumption | intro _ | apply State.bump_keeps | apply State.cohGrant_keeps | apply State.cohServe_keeps
      | apply Keeps.foldl | apply Keeps.ite | split | apply Keeps.upd

theorem State.cohAck_keeps (s : State) (p : Packet) {s₀ : State} (hk : Keeps s₀ s) : Keeps s₀ (State.cohAck s p) := by
  unfold State.cohAck
  with_reducible
    repeat' first
      | assumption | apply State.cohSend_keeps

theorem State.cohFinish_keeps (s : State) (t : CohTxn) {s₀ : State} (hk : Keeps s₀ s) : Keeps s₀ (State.cohFinish s t) := by
  unfold State.cohFinish
  with_reducible
    repeat' first
      | assumption | intro _ | apply State.bump_keeps | apply State.setDir_keeps | apply State.cohWrite_keeps
      | apply State.cohGrant_keeps | apply State.cohFwd_keeps | apply State.cohFromHome_keeps | apply State.cohRetry_keeps
      | apply State.cohAck_keeps | apply Keeps.ite | split | apply Keeps.upd

theorem State.cohStep_keeps (s : State) (t : CohTxn) {s₀ : State} (hk : Keeps s₀ s) : Keeps s₀ (State.cohStep s t) := by
  unfold State.cohStep
  with_reducible
    repeat' first
      | assumption | intro _ | apply State.cohFinish_keeps | apply Keeps.ite | apply Keeps.upd

theorem execRdown_keeps (k : Nat) (s : State) {s₀ : State} (hk : Keeps s₀ s) : KeepsO s₀ (execRdown k s) := by
  unfold execRdown
  with_reducible
    repeat' first
      | assumption | intro _ | apply State.clocked_keeps | apply State.perform_keeps | apply State.cohRequest_keeps
      | apply KeepsO.next | apply KeepsO.ite | apply Keeps.ite | split | apply Keeps.upd | dsimp only

theorem execUpgrade_keeps (k : Nat) (s : State) {s₀ : State} (hk : Keeps s₀ s) : KeepsO s₀ (execUpgrade k s) := by
  unfold execUpgrade
  with_reducible
    repeat' first
      | assumption | intro _ | apply State.clocked_keeps | apply State.perform_keeps | apply State.cohRequest_keeps
      | apply KeepsO.next | apply KeepsO.ite | apply Keeps.ite | split | apply Keeps.upd | dsimp only

theorem execWbdata_keeps (k : Nat) (s : State) {s₀ : State} (hk : Keeps s₀ s) : KeepsO s₀ (execWbdata k s) := by
  unfold execWbdata
  with_reducible
    repeat' first
      | assumption | intro _ | apply State.clocked_keeps | apply State.bump_keeps | apply State.perform_keeps
      | apply State.setDir_keeps | apply State.cohWrite_keeps | apply State.cohCtl_keeps | apply State.cohAck_keeps
      | apply State.cohStep_keeps | apply KeepsO.next | apply KeepsO.ite | apply Keeps.ite | split | apply Keeps.upd
      | dsimp only

theorem execEvictclean_keeps (k : Nat) (s : State) {s₀ : State} (hk : Keeps s₀ s) : KeepsO s₀ (execEvictclean k s) := by
  unfold execEvictclean
  with_reducible
    repeat' first
      | assumption | intro _ | apply State.clocked_keeps | apply State.perform_keeps | apply State.setDir_keeps
      | apply State.cohCtl_keeps | apply State.cohAck_keeps | apply KeepsO.next | apply KeepsO.ite | apply Keeps.ite
      | split | dsimp only

theorem execSnoopAck_keeps (k : Nat) (s : State) {s₀ : State} (hk : Keeps s₀ s) : KeepsO s₀ (execSnoopAck k s) := by
  unfold execSnoopAck
  with_reducible
    repeat' first
      | assumption | intro _ | apply State.clocked_keeps | apply State.perform_keeps | apply State.cohStep_keeps
      | apply KeepsO.next | apply KeepsO.ite | apply Keeps.ite | split | apply Keeps.upd | dsimp only

theorem execSnprespwbpending_keeps (k : Nat) (s : State) {s₀ : State} (hk : Keeps s₀ s) : KeepsO s₀ (execSnprespwbpending k
    s) := by
  unfold execSnprespwbpending
  with_reducible
    repeat' first
      | assumption | intro _ | apply State.clocked_keeps | apply State.perform_keeps | apply State.cohStep_keeps
      | apply KeepsO.next | apply KeepsO.ite | apply Keeps.ite | split | apply Keeps.upd | dsimp only

theorem execFwddata_keeps (k : Nat) (s : State) {s₀ : State} (hk : Keeps s₀ s) : KeepsO s₀ (execFwddata k s) := by
  unfold execFwddata
  with_reducible
    repeat' first
      | assumption | intro _ | apply State.clocked_keeps | apply State.perform_keeps | apply State.cohStep_keeps
      | apply KeepsO.next | apply KeepsO.ite | apply Keeps.ite | split | apply Keeps.upd | dsimp only

theorem State.collapse_keeps (s : State) (cause : Nat) (dead : Option Nat) {s₀ : State} (hk : Keeps s₀ s) : Keeps s₀
    (State.collapse s cause dead) := by
  unfold State.collapse
  with_reducible
    repeat' first
      | assumption | intro _ | apply State.setFld_keeps | apply State.setFlag_keeps | apply State.syncDir_keeps
      | apply State.record_keeps | apply State.setDir_keeps | apply State.cohWrite_keeps | apply State.cohPoison_keeps
      | apply State.cohGrant_keeps | apply State.cohAck_keeps | apply Keeps.foldl | split | apply Keeps.upd

theorem State.collapseNotice_keeps (s : State) {s₀ : State} (hk : Keeps s₀ s) : Keeps s₀ (State.collapseNotice s) := by
  unfold State.collapseNotice
  with_reducible
    repeat' first
      | assumption | intro _ | apply State.sendPacket_keeps | apply Keeps.foldl

theorem State.agentDead_keeps (s : State) (cause : Nat) (slot : Option Nat) {s₀ : State} (hk : Keeps s₀ s) : Keeps s₀
    (State.agentDead s cause slot) := by
  unfold State.agentDead
  with_reducible
    repeat' first
      | assumption | apply State.collapse_keeps | apply State.collapseNotice_keeps | apply Keeps.ite

theorem State.dirLost_keeps (s : State) (line : Nat) {s₀ : State} (hk : Keeps s₀ s) : Keeps s₀ (State.dirLost s line) := by
  unfold State.dirLost
  with_reducible
    repeat' first
      | assumption | intro _ | apply State.record_keeps | apply State.setDir_keeps | apply State.cohWrite_keeps
      | apply State.agentDead_keeps | apply Keeps.foldl | apply Keeps.ite | apply Keeps1.fst | apply Keeps1.ite | split
      | apply Keeps1.mk | dsimp only

theorem State.holderLost_keeps (s : State) (row : Nat) {s₀ : State} (hk : Keeps s₀ s) : Keeps s₀ (State.holderLost s row) :=
    by
  unfold State.holderLost
  with_reducible
    repeat' first
      | assumption | intro _ | apply State.invalidateHolders_keeps | apply Keeps.ite | apply Keeps1.fst | apply Keeps1.ite
      | split | apply Keeps.upd | apply Keeps1.mk | dsimp only

theorem State.controlWord_keeps (s : State) (w : CtlWord) (err : List Byte) {s₀ : State} (hk : Keeps s₀ s) : Keeps s₀
    (State.controlWord s w err) := by
  unfold State.controlWord
  with_reducible
    repeat' first
      | assumption | intro _ | apply State.setLook_keeps | apply State.dirLost_keeps | apply State.holderLost_keeps
      | apply Keeps.ite | split | apply Keeps.upd | dsimp only

theorem State.homeWords_keeps (s : State) (env : Env) {s₀ : State} (hk : Keeps s₀ s) : Keeps s₀ (State.homeWords s env) :=
    by
  unfold State.homeWords
  with_reducible
    repeat' first
      | assumption | intro _ | apply State.codewords_keeps | apply State.controlWord_keeps | apply Keeps.foldl
      | apply Keeps.ite | apply Keeps1.fst | apply Keeps1.ite | split | apply Keeps1.mk | dsimp only

theorem execRdshared_keeps (q : InboxRead) (s : State) {s₀ : State} (hk : Keeps s₀ s) : KeepsO s₀ (execRdshared q s) := by
  unfold execRdshared
  with_reducible
    repeat' first
      | assumption | intro _ | apply State.clocked_keeps | apply State.perform_keeps | apply State.cohRequest_keeps
      | apply State.homeWords_keeps | apply KeepsO.next | apply KeepsO.ite | apply Keeps.ite | split | apply Keeps.upd
      | dsimp only

theorem execSnoopTimeout_keeps (k : Nat) (slot : Nat) (s : State) {s₀ : State} (hk : Keeps s₀ s) : KeepsO s₀
    (execSnoopTimeout k slot s) := by
  unfold execSnoopTimeout
  with_reducible
    repeat' first
      | assumption | intro _ | apply State.clocked_keeps | apply run_keeps | apply State.agentDead_keeps
      | apply KeepsO.next | apply KeepsO.ite | apply Keeps.ite | split | dsimp only

theorem State.cohLinkDown_keeps (s : State) (node : Nat) {s₀ : State} (hk : Keeps s₀ s) : Keeps s₀ (State.cohLinkDown s node) := by
  unfold State.cohLinkDown
  with_reducible
    repeat' first
      | assumption | apply State.agentDead_keeps | split

theorem State.cohClear_keeps (s : State) {s₀ : State} (hk : Keeps s₀ s) : Keeps s₀ (State.cohClear s) := by
  unfold State.cohClear
  with_reducible
    repeat' first
      | assumption | intro _ | apply State.syncDir_keeps | apply State.cohPoison_keeps | apply Keeps.foldl | apply Keeps.upd

theorem State.cohUp_keeps (s : State) {s₀ : State} (hk : Keeps s₀ s) : Keeps s₀ (State.cohUp s) := by
  unfold State.cohUp
  with_reducible
    repeat' first
      | assumption | apply State.setFld_keeps | apply State.wrap_keeps

theorem State.domCtrl_keeps (s : State) (collapse : Bool) (reinit : Bool) {s₀ : State} (hk : Keeps s₀ s) : Keeps s₀
    (State.domCtrl s collapse reinit) := by
  unfold State.domCtrl
  with_reducible
    repeat' first
      | assumption | apply State.setFld_keeps | apply State.agentDead_keeps | apply State.cohClear_keeps | apply Keeps.ite

theorem execCollapse_keeps (src : Source) (s : State) {s₀ : State} (hk : Keeps s₀ s) : KeepsO s₀ (execCollapse src s) := by
  unfold execCollapse
  with_reducible
    repeat' first
      | assumption | intro _ | apply State.clocked_keeps | apply run_keeps | apply State.gated_keeps
      | apply State.collapse_keeps | apply State.domCtrl_keeps | apply KeepsO.next | apply KeepsO.ite | apply Keeps.ite
      | split | dsimp only

theorem execReinit_keeps (src : Source) (s : State) {s₀ : State} (hk : Keeps s₀ s) : KeepsO s₀ (execReinit src s) := by
  unfold execReinit
  with_reducible
    repeat' first
      | assumption | intro _ | apply State.clocked_keeps | apply run_keeps | apply State.gated_keeps
      | apply State.domCtrl_keeps | apply KeepsO.next | apply KeepsO.ite | apply Keeps.ite | split | dsimp only

theorem execReinitDone_keeps (s : State) {s₀ : State} (hk : Keeps s₀ s) : KeepsO s₀ (execReinitDone s) := by
  unfold execReinitDone
  with_reducible
    repeat' first
      | assumption | intro _ | apply State.clocked_keeps | apply State.cohUp_keeps | apply KeepsO.next | apply KeepsO.ite
      | apply Keeps.ite | split | dsimp only

theorem State.commitCoh_keeps (s : State) {s₀ : State} (hk : Keeps s₀ s) : Keeps s₀ (State.commitCoh s) := by
  unfold State.commitCoh
  with_reducible
    repeat' first
      | assumption | apply State.beginCommit_keeps | apply State.rejectCommit_keeps | apply Keeps.ite

theorem execCohCommit_keeps (src : Source) (s : State) {s₀ : State} (hk : Keeps s₀ s) : KeepsO s₀ (execCohCommit src s) :=
    by
  unfold execCohCommit
  with_reducible
    repeat' first
      | assumption | intro _ | apply State.clocked_keeps | apply run_keeps | apply State.gated_keeps
      | apply State.commitCoh_keeps | apply KeepsO.next | apply KeepsO.ite | apply Keeps.ite | split | apply Keeps.upd
      | dsimp only

theorem State.applyCoh_keeps (s : State) {s₀ : State} (hk : Keeps s₀ s) : Keeps s₀ (State.applyCoh s) := by
  unfold State.applyCoh
  with_reducible
    repeat' first
      | assumption | apply State.setFld_keeps | apply State.syncDir_keeps | apply State.finishCommit_keeps
      | apply State.cohClear_keeps | apply State.cohUp_keeps | apply Keeps.ite | apply Keeps.upd

theorem State.commitStage_keeps (s : State) {s₀ : State} (hk : Keeps s₀ s) : Keeps s₀ (State.commitStage s) := by
  unfold State.commitStage
  with_reducible
    repeat' first
      | assumption | apply State.beginCommit_keeps | apply State.rejectCommit_keeps | apply Keeps.ite

theorem execStageCommit_keeps (src : Source) (s : State) {s₀ : State} (hk : Keeps s₀ s) : KeepsO s₀ (execStageCommit src s)
    := by
  unfold execStageCommit
  with_reducible
    repeat' first
      | assumption | intro _ | apply State.clocked_keeps | apply run_keeps | apply State.gated_keeps
      | apply State.commitStage_keeps | apply KeepsO.next | apply KeepsO.ite | apply Keeps.ite | split | apply Keeps.upd
      | dsimp only

theorem State.applyStage_keeps (s : State) {s₀ : State} (hk : Keeps s₀ s) : Keeps s₀ (State.applyStage s) := by
  unfold State.applyStage
  with_reducible
    repeat' first
      | assumption | intro _ | apply State.undefine_keeps | apply State.finishCommit_keeps | apply State.syncFree_keeps
      | apply Keeps.foldl

theorem execMemRuntimeFail_keeps (dev : Nat) (s : State) {s₀ : State} (hk : Keeps s₀ s) : KeepsO s₀ (execMemRuntimeFail dev
    s) := by
  unfold execMemRuntimeFail
  with_reducible
    repeat' first
      | assumption | intro _ | apply State.clocked_keeps | apply run_keeps | apply State.setFld_keeps
      | apply State.record_keeps | apply State.withdrawStage_keeps | apply KeepsO.next | apply KeepsO.ite | apply Keeps.ite
      | split | dsimp only

end Sys2Proof.Machine
end

