-- ==== Sys2Proof/Laws/KeepsLife.lean ====
section
/-!
SUPPORT. What the operations of Machine/Life.lean and its commands leave alone: none touches the queue of commands, and each keeps the
canonical form of memory and of the register files.
-/

namespace Sys2Proof.Machine

theorem State.lifeSet_keeps (s : State) (idx : Nat) (sub : Nat) (v : Nat) {s₀ : State} (hk : Keeps s₀ s) : Keeps s₀
    (State.lifeSet s idx sub v) := by
  unfold State.lifeSet
  with_reducible
    repeat' first
      | assumption | apply Keeps.upd

theorem State.syncLife_keeps (s : State) {s₀ : State} (hk : Keeps s₀ s) : Keeps s₀ (State.syncLife s) := by
  unfold State.syncLife
  with_reducible
    repeat' first
      | assumption | apply State.setFld_keeps

theorem State.lifeRetire_keeps (s : State) (a : Nat) {s₀ : State} (hk : Keeps s₀ s) : Keeps s₀ (State.lifeRetire s a) := by
  unfold State.lifeRetire
  with_reducible
    repeat' first
      | assumption | apply State.lifeSet_keeps

theorem State.beginSnap_keeps (s : State) {s₀ : State} (hk : Keeps s₀ s) : Keeps s₀ (State.beginSnap s) := by
  unfold State.beginSnap
  with_reducible
    repeat' first
      | assumption | intro _ | apply State.setFlag_keeps | apply State.when_keeps | apply State.emit_keeps
      | apply State.lifeSet_keeps | apply Keeps.ite | split | apply Keeps.upd | dsimp only

theorem State.endSnap_keeps (s : State) (ok : Bool) {s₀ : State} (hk : Keeps s₀ s) : Keeps s₀ (State.endSnap s ok) := by
  unfold State.endSnap
  with_reducible
    repeat' first
      | assumption | apply State.setFld_keeps | apply State.setFlag_keeps | apply State.record_keeps
      | apply State.lifeSet_keeps | apply State.beginSnap_keeps | apply Keeps.ite | split | apply Keeps.upd

theorem State.restoreLife_keeps (s : State) {s₀ : State} (hk : Keeps s₀ s) : Keeps s₀ (State.restoreLife s) := by
  unfold State.restoreLife
  with_reducible
    repeat' first
      | assumption | intro _ | apply State.setFld_keeps | apply State.setFlag_keeps | apply State.setBit_keeps
      | apply State.syncLife_keeps | apply Keeps.foldl | apply Keeps.upd

theorem execLifeSnapshotTimer_keeps (s : State) {s₀ : State} (hk : Keeps s₀ s) : KeepsO s₀ (execLifeSnapshotTimer s) := by
  unfold execLifeSnapshotTimer
  with_reducible
    repeat' first
      | assumption | intro _ | apply State.clocked_keeps | apply State.beginSnap_keeps | apply KeepsO.next
      | apply KeepsO.ite | apply Keeps.ite | split | dsimp only

theorem execPersistNow_keeps (src : Source) (s : State) {s₀ : State} (hk : Keeps s₀ s) : KeepsO s₀ (execPersistNow src s) :=
    by
  unfold execPersistNow
  with_reducible
    repeat' first
      | assumption | intro _ | apply State.clocked_keeps | apply run_keeps | apply State.gated_keeps
      | apply State.beginSnap_keeps | apply KeepsO.next | apply KeepsO.ite | apply Keeps.ite | split | apply Keeps.upd
      | dsimp only

theorem State.addService_keeps (s : State) (v : Word) {s₀ : State} (hk : Keeps s₀ s) : Keeps s₀ (State.addService s v) := by
  unfold State.addService
  with_reducible
    repeat' first
      | assumption | apply State.lifeSet_keeps | apply State.beginSnap_keeps | apply Keeps.upd

theorem execLifeServiceAdd_keeps (src : Source) (v : Word) (s : State) {s₀ : State} (hk : Keeps s₀ s) : KeepsO s₀
    (execLifeServiceAdd src v s) := by
  unfold execLifeServiceAdd
  with_reducible
    repeat' first
      | assumption | intro _ | apply State.clocked_keeps | apply run_keeps | apply State.gated_keeps
      | apply State.addService_keeps | apply KeepsO.next | apply KeepsO.ite | apply Keeps.ite | split | dsimp only

end Sys2Proof.Machine
end

