-- ==== Sys2Proof/Laws/KeepsDrive.lean ====
section
/-!
SUPPORT. What the operations of Machine/Drive.lean and its commands leave alone: none touches the queue of commands, and each keeps the
canonical form of memory and of the register files.
-/

namespace Sys2Proof.Machine

theorem State.setDrive_keeps (s : State) (d : Nat) (st : Nat) {s₀ : State} (hk : Keeps s₀ s) : Keeps s₀ (State.setDrive s d
    st) := by
  unfold State.setDrive
  with_reducible
    repeat' first
      | assumption | apply State.setFld_keeps

theorem State.failDrive_keeps (s : State) (d : Nat) {s₀ : State} (hk : Keeps s₀ s) : Keeps s₀ (State.failDrive s d) := by
  unfold State.failDrive
  with_reducible
    repeat' first
      | assumption | apply State.record_keeps | apply State.setDrive_keeps

theorem State.failOutstanding_keeps (s : State) (d : Nat) {s₀ : State} (hk : Keeps s₀ s) : Keeps s₀ (State.failOutstanding s
    d) := by
  unfold State.failOutstanding
  with_reducible
    repeat' first
      | assumption | intro _ | apply State.t2Failed_keeps | apply Keeps.foldl

theorem State.initDrive_keeps (s : State) (d : Nat) {s₀ : State} (hk : Keeps s₀ s) : Keeps s₀ (State.initDrive s d) := by
  unfold State.initDrive
  with_reducible
    repeat' first
      | assumption | intro _ | apply State.emit_keeps | apply Keeps.ite | split | dsimp only

theorem State.createQueues_keeps (s : State) (d : Nat) {s₀ : State} (hk : Keeps s₀ s) : Keeps s₀ (State.createQueues s d) :=
    by
  unfold State.createQueues
  with_reducible
    repeat' first
      | assumption | intro _ | apply State.each_keeps | apply State.emit_keeps | apply Keeps.ite | split | dsimp only

theorem State.driveReady_keeps (s : State) (d : Nat) (i : DriveId) {s₀ : State} (hk : Keeps s₀ s) : Keeps s₀
    (State.driveReady s d i) := by
  unfold State.driveReady
  with_reducible
    repeat' first
      | assumption | intro _ | apply State.setFld_keeps | apply State.setDrive_keeps | apply State.createQueues_keeps
      | apply Keeps.ite | split | dsimp only

theorem execDriveLinkUp_keeps (d : Nat) (width : Nat) (gen : Nat) (s : State) {s₀ : State} (hk : Keeps s₀ s) : KeepsO s₀
    (execDriveLinkUp d width gen s) := by
  unfold execDriveLinkUp
  with_reducible
    repeat' first
      | assumption | intro _ | apply State.clocked_keeps | apply run_keeps | apply State.setFld_keeps
      | apply State.setDrive_keeps | apply State.initDrive_keeps | apply KeepsO.next | apply KeepsO.ite | apply Keeps.ite
      | split | dsimp only

theorem execDriveInitDone_keeps (d : Nat) (pairs : Nat) (id : Option DriveId) (s : State) {s₀ : State} (hk : Keeps s₀ s) :
    KeepsO s₀ (execDriveInitDone d pairs id s) := by
  unfold execDriveInitDone
  with_reducible
    repeat' first
      | assumption | intro _ | apply State.clocked_keeps | apply run_keeps | apply State.failDrive_keeps
      | apply State.driveReady_keeps | apply KeepsO.next | apply KeepsO.ite | apply Keeps.ite | split | dsimp only

theorem execDriveInitTimeout_keeps (d : Nat) (s : State) {s₀ : State} (hk : Keeps s₀ s) : KeepsO s₀ (execDriveInitTimeout d
    s) := by
  unfold execDriveInitTimeout
  with_reducible
    repeat' first
      | assumption | intro _ | apply State.clocked_keeps | apply run_keeps | apply State.failDrive_keeps
      | apply KeepsO.next | apply KeepsO.ite | apply Keeps.ite | split | dsimp only

theorem execNvmeCommandTimeout_keeps (d : Nat) (s : State) {s₀ : State} (hk : Keeps s₀ s) : KeepsO s₀
    (execNvmeCommandTimeout d s) := by
  unfold execNvmeCommandTimeout
  with_reducible
    repeat' first
      | assumption | intro _ | apply State.clocked_keeps | apply run_keeps | apply State.bump_keeps
      | apply State.emit_keeps | apply State.setDrive_keeps | apply State.failOutstanding_keeps
      | apply State.initDrive_keeps | apply KeepsO.next | apply KeepsO.ite | apply Keeps.ite | split | dsimp only

theorem execDriveRecoverDone_keeps (d : Nat) (id : Option (Nat × DriveId)) (s : State) {s₀ : State} (hk : Keeps s₀ s) :
    KeepsO s₀ (execDriveRecoverDone d id s) := by
  unfold execDriveRecoverDone
  with_reducible
    repeat' first
      | assumption | intro _ | apply State.clocked_keeps | apply run_keeps | apply State.failDrive_keeps
      | apply State.driveReady_keeps | apply KeepsO.next | apply KeepsO.ite | apply Keeps.ite | split | apply Keeps.upd
      | dsimp only

theorem State.driveOffline_keeps (s : State) (d : Nat) {s₀ : State} (hk : Keeps s₀ s) : Keeps s₀ (State.driveOffline s d) :=
    by
  unfold State.driveOffline
  with_reducible
    repeat' first
      | assumption | intro _ | apply State.setFlag_keeps | apply State.closeDrive_keeps | apply State.setDrive_keeps
      | apply Keeps.ite | split | apply Keeps.upd | dsimp only

theorem State.driveOnline_keeps (s : State) (d : Nat) {s₀ : State} (hk : Keeps s₀ s) : Keeps s₀ (State.driveOnline s d) :=
    by
  unfold State.driveOnline
  with_reducible
    repeat' first
      | assumption | intro _ | apply State.setFlag_keeps | apply State.setDrive_keeps | apply State.initDrive_keeps
      | apply Keeps.ite | split | apply Keeps.upd | dsimp only

theorem State.driveReset_keeps (s : State) (d : Nat) {s₀ : State} (hk : Keeps s₀ s) : Keeps s₀ (State.driveReset s d) := by
  unfold State.driveReset
  with_reducible
    repeat' first
      | assumption | intro _ | apply State.emit_keeps | apply State.setDrive_keeps | apply State.initDrive_keeps
      | apply Keeps.ite | split | dsimp only

theorem State.writeDriveCtrl_keeps (s : State) (d : Nat) (v : Word) {s₀ : State} (hk : Keeps s₀ s) : Keeps s₀
    (State.writeDriveCtrl s d v) := by
  unfold State.writeDriveCtrl
  with_reducible
    repeat' first
      | assumption | apply State.driveOffline_keeps | apply State.driveOnline_keeps | apply State.driveReset_keeps
      | apply Keeps.ite

theorem execDriveOffline_keeps (src : Source) (d : Nat) (s : State) {s₀ : State} (hk : Keeps s₀ s) : KeepsO s₀
    (execDriveOffline src d s) := by
  unfold execDriveOffline
  with_reducible
    repeat' first
      | assumption | intro _ | apply State.clocked_keeps | apply run_keeps | apply State.gated_keeps
      | apply State.driveOffline_keeps | apply KeepsO.next | apply KeepsO.ite | apply Keeps.ite | split | dsimp only

theorem execDriveOnline_keeps (src : Source) (d : Nat) (s : State) {s₀ : State} (hk : Keeps s₀ s) : KeepsO s₀
    (execDriveOnline src d s) := by
  unfold execDriveOnline
  with_reducible
    repeat' first
      | assumption | intro _ | apply State.clocked_keeps | apply run_keeps | apply State.gated_keeps
      | apply State.driveOnline_keeps | apply KeepsO.next | apply KeepsO.ite | apply Keeps.ite | split | dsimp only

theorem execDriveReset_keeps (src : Source) (d : Nat) (s : State) {s₀ : State} (hk : Keeps s₀ s) : KeepsO s₀ (execDriveReset
    src d s) := by
  unfold execDriveReset
  with_reducible
    repeat' first
      | assumption | intro _ | apply State.clocked_keeps | apply run_keeps | apply State.gated_keeps
      | apply State.driveReset_keeps | apply KeepsO.next | apply KeepsO.ite | apply Keeps.ite | split | dsimp only

theorem execDriveSurpriseDown_keeps (d : Nat) (s : State) {s₀ : State} (hk : Keeps s₀ s) : KeepsO s₀ (execDriveSurpriseDown
    d s) := by
  unfold execDriveSurpriseDown
  with_reducible
    repeat' first
      | assumption | intro _ | apply State.clocked_keeps | apply run_keeps | apply State.setFld_keeps
      | apply State.record_keeps | apply State.setDrive_keeps | apply State.failOutstanding_keeps | apply KeepsO.next
      | apply KeepsO.ite | apply Keeps.ite | split | apply Keeps.upd | dsimp only

theorem execSmartPoll_keeps (d : Nat) (warn : Nat) (used : Nat) (temp : Nat) (s : State) {s₀ : State} (hk : Keeps s₀ s) :
    KeepsO s₀ (execSmartPoll d warn used temp s) := by
  unfold execSmartPoll
  with_reducible
    repeat' first
      | assumption | intro _ | apply State.clocked_keeps | apply run_keeps | apply State.setFld_keeps
      | apply State.emit_keeps | apply State.lifeSet_keeps | apply KeepsO.next | apply KeepsO.ite | apply Keeps.ite | split
      | dsimp only

end Sys2Proof.Machine
end

