-- ==== Sys2Proof/Laws/KeepsTaster.lean ====
section
/-!
SUPPORT. What the operations of Machine/Taster.lean and its commands leave alone: none touches the queue of commands, and each keeps the
canonical form of memory and of the register files.
-/

namespace Sys2Proof.Machine

theorem State.takeSlot_keeps (s : State) (a : Nat) (opclass : Nat) (retest : Bool) {s₀ : State} (hk : Keeps s₀ s) : Keeps s₀
    (State.takeSlot s a opclass retest) := by
  unfold State.takeSlot
  with_reducible
    repeat' first
      | assumption | intro _ | apply State.setAstate_keeps | apply State.setArr_keeps | apply Keeps.ite | split
      | apply Keeps.upd

theorem State.takeRetests_keeps (s : State) (h : Nat) {s₀ : State} (hk : Keeps s₀ s) : Keeps s₀ (State.takeRetests s h) :=
    by
  unfold State.takeRetests
  with_reducible
    repeat' first
      | assumption | intro _ | apply State.takeSlot_keeps | apply Keeps.foldl | apply Keeps.ite | apply Keeps1.fst
      | apply Keeps1.ite | split | apply Keeps1.mk | dsimp only

theorem State.takePlain_keeps (s : State) (h : Nat) (y0 : Nat) {s₀ : State} (hk : Keeps s₀ s) : Keeps s₀ (State.takePlain s
    h y0) := by
  induction y0 generalizing s h with
  | zero =>
    unfold State.takePlain
    with_reducible
      repeat' first
        | assumption | intro _ | apply State.takeSlot_keeps | apply Keeps.ite | split | dsimp only
  | succ _ ih =>
    unfold State.takePlain
    with_reducible
      repeat' first
        | assumption | intro _ | apply ih | apply State.takeSlot_keeps | apply Keeps.ite | split | dsimp only

theorem State.takeSlots_keeps (s : State) (h : Nat) (k : Nat) {s₀ : State} (hk : Keeps s₀ s) : Keeps s₀ (State.takeSlots s h
    k) := by
  unfold State.takeSlots
  with_reducible
    repeat' first
      | assumption | intro _ | apply State.takeRetests_keeps | apply State.takePlain_keeps | apply Keeps.ite | split
      | dsimp only

theorem State.boundarySlots_keeps (s : State) {s₀ : State} (hk : Keeps s₀ s) : Keeps s₀ (State.boundarySlots s) := by
  unfold State.boundarySlots
  with_reducible
    repeat' first
      | assumption | apply State.takeSlots_keeps

theorem execTasterIdleSlot_keeps (s : State) {s₀ : State} (hk : Keeps s₀ s) : KeepsO s₀ (execTasterIdleSlot s) := by
  unfold execTasterIdleSlot
  with_reducible
    repeat' first
      | assumption | intro _ | apply State.clocked_keeps | apply State.takeSlots_keeps | apply KeepsO.next
      | apply KeepsO.ite | apply Keeps.ite | apply Keeps1.fst | apply Keeps1.ite | apply Keeps1.mk | split | dsimp only

theorem State.endSlot_keeps (s : State) (a : Nat) (t : TestSt) {s₀ : State} (hk : Keeps s₀ s) : Keeps s₀ (State.endSlot s a
    t) := by
  unfold State.endSlot
  with_reducible
    repeat' first
      | assumption | intro _ | apply State.wrap_keeps | apply State.setArr_keeps | apply State.releaseArray_keeps

theorem State.slotMismatch_keeps (s : State) (t : TestSt) (l : List Nat) {s₀ : State} (hk : Keeps s₀ s) : Keeps s₀
    (State.slotMismatch s t l) := by
  unfold State.slotMismatch
  with_reducible
    repeat' first
      | assumption | intro _ | apply State.bump_keeps | apply State.record_keeps | apply Keeps.foldl | apply Keeps.ite

theorem execTasterSlotDone_keeps (a : Nat) (res : Nat) (s : State) {s₀ : State} (hk : Keeps s₀ s) : KeepsO s₀
    (execTasterSlotDone a res s) := by
  unfold execTasterSlotDone
  with_reducible
    repeat' first
      | assumption | intro _ | apply State.clocked_keeps | apply run_keeps | apply State.chargeDetect_keeps
      | apply State.endSlot_keeps | apply State.slotMismatch_keeps | apply Keeps.foldl | apply Keeps1.foldl
      | apply KeepsO.next | apply KeepsO.ite | apply Keeps.ite | refine Keeps1.get ?_ (by assumption) | apply Keeps1.fst
      | apply Keeps1.ite | apply Keeps1.mk | split | dsimp only

theorem State.passRetest_keeps (s : State) (a : Nat) (e : Nat) {s₀ : State} (hk : Keeps s₀ s) : Keeps s₀ (State.passRetest s
    a e) := by
  unfold State.passRetest
  with_reducible
    repeat' first
      | assumption | intro _ | apply State.bump_keeps | apply State.record_keeps | apply State.setArr_keeps
      | apply State.retireArray_keeps | apply State.syncRetests_keeps | apply State.track_keeps | apply Keeps.ite | split

theorem execRetestSlotDone_keeps (a : Nat) (res : Nat) (s : State) {s₀ : State} (hk : Keeps s₀ s) : KeepsO s₀
    (execRetestSlotDone a res s) := by
  unfold execRetestSlotDone
  with_reducible
    repeat' first
      | assumption | intro _ | apply State.clocked_keeps | apply run_keeps | apply State.chargeArray_keeps
      | apply State.confirmRetest_keeps | apply State.chargeDetect_keeps | apply State.endSlot_keeps
      | apply State.slotMismatch_keeps | apply State.passRetest_keeps | apply Keeps.foldl | apply Keeps1.foldl
      | apply KeepsO.next | apply KeepsO.ite | apply Keeps.ite | refine Keeps1.get ?_ (by assumption) | apply Keeps1.fst
      | apply Keeps1.ite | apply Keeps1.mk | split | dsimp only

theorem execRetestTimeout_keeps (a : Nat) (s : State) {s₀ : State} (hk : Keeps s₀ s) : KeepsO s₀ (execRetestTimeout a s) :=
    by
  unfold execRetestTimeout
  with_reducible
    repeat' first
      | assumption | intro _ | apply State.clocked_keeps | apply run_keeps | apply State.passRetest_keeps
      | apply KeepsO.next | apply KeepsO.ite | apply Keeps.ite | split | dsimp only

theorem State.beginSweep_keeps (s : State) (h : Nat) (array : Option Nat) (l : List Nat) {s₀ : State} (hk : Keeps s₀ s) :
    Keeps s₀ (State.beginSweep s h array l) := by
  unfold State.beginSweep
  with_reducible
    repeat' first
      | assumption | intro _ | apply State.setFld_keeps | apply State.setAstate_keeps | apply State.setArr_keeps
      | apply Keeps.foldl | split | apply Keeps.upd | dsimp only

theorem State.sweepHalf_keeps (s : State) (h : Nat) {s₀ : State} (hk : Keeps s₀ s) : Keeps s₀ (State.sweepHalf s h) := by
  unfold State.sweepHalf
  with_reducible
    repeat' first
      | assumption | intro _ | apply State.beginSweep_keeps | apply Keeps.ite

theorem execRestore_keeps (src : Source) (a : Nat) (s : State) {s₀ : State} (hk : Keeps s₀ s) : KeepsO s₀ (execRestore src a
    s) := by
  unfold execRestore
  with_reducible
    repeat' first
      | assumption | intro _ | apply State.clocked_keeps | apply run_keeps | apply State.gated_keeps
      | apply State.beginSweep_keeps | apply KeepsO.next | apply KeepsO.ite | apply Keeps.ite | split | dsimp only

theorem State.writeSweep_keeps (s : State) (v : Word) {s₀ : State} (hk : Keeps s₀ s) : Keeps1 s₀ (State.writeSweep s v) := by
  unfold State.writeSweep
  with_reducible
    repeat' first
      | assumption | intro _ | apply State.when_keeps | apply State.sweepHalf_keeps | apply Keeps1.ite | apply Keeps1.mk

theorem execSweep_keeps (src : Source) (v : Word) (s : State) {s₀ : State} (hk : Keeps s₀ s) : KeepsO s₀ (execSweep src v s)
    := by
  unfold execSweep
  with_reducible
    repeat' first
      | assumption | intro _ | apply State.clocked_keeps | apply run_keeps | apply State.guarded_keeps
      | apply State.writeSweep_keeps | apply KeepsO.next | apply KeepsO.ite | apply Keeps.ite
      | refine Keeps1.get ?_ (by assumption) | apply Keeps1.fst | apply Keeps1.ite | apply Keeps1.mk | split | dsimp only

theorem State.endSweep_keeps (s : State) (w : SweepSt) {s₀ : State} (hk : Keeps s₀ s) : Keeps s₀ (State.endSweep s w) := by
  unfold State.endSweep
  with_reducible
    repeat' first
      | assumption | intro _ | apply State.setFld_keeps | apply State.record_keeps | apply State.releaseArray_keeps
      | apply State.retireArray_keeps | apply Keeps.foldl | apply Keeps.ite | split

theorem State.sweepCounts_keeps (s : State) (w : SweepSt) {s₀ : State} (hk : Keeps s₀ s) : Keeps s₀ (State.sweepCounts s w)
    := by
  unfold State.sweepCounts
  with_reducible
    repeat' first
      | assumption | intro _ | apply State.wrap_keeps | apply Keeps.ite | split | dsimp only

theorem execSweepStageEnd_keeps (k : Nat) (charged : List Nat) (s : State) {s₀ : State} (hk : Keeps s₀ s) : KeepsO s₀
    (execSweepStageEnd k charged s) := by
  unfold execSweepStageEnd
  with_reducible
    repeat' first
      | assumption | intro _ | apply State.clocked_keeps | apply run_keeps | apply State.setFld_keeps
      | apply State.bump_keeps | apply State.record_keeps | apply State.chargeDetect_keeps | apply State.endSweep_keeps
      | apply State.sweepCounts_keeps | apply Keeps.foldl | apply KeepsO.next | apply KeepsO.ite | apply Keeps.ite
      | apply Keeps1.fst | apply Keeps1.ite | split | apply Keeps.upd | apply Keeps1.mk | dsimp only

end Sys2Proof.Machine
end

