-- ==== Sys2Proof/Laws/KeepsMirror.lean ====
section
/-!
SUPPORT. What the operations of Machine/Mirror.lean and its commands leave alone: none touches the queue of commands, and each keeps the
canonical form of memory and of the register files.
-/

namespace Sys2Proof.Machine

theorem State.mirWrite_keeps (s : State) (c : ReqClient) (off : Nat) (d : List Byte) (poison : Bool) {s₀ : State} (hk : Keeps
    s₀ s) : Keeps s₀ (State.mirWrite s c off d poison) := by
  unfold State.mirWrite
  with_reducible
    repeat' first
      | assumption | intro _ | apply State.wrap_keeps | apply State.request_keeps | apply Keeps.foldl

theorem State.pushLines_keeps (s : State) (c : ReqClient) (n : Nat) (e : SeqSt) (va : Nat) (len : Nat) (env : Env) {s₀ :
    State} (hk : Keeps s₀ s) : Keeps s₀ (State.pushLines s c n e va len env) := by
  unfold State.pushLines
  with_reducible
    repeat' first
      | assumption | intro _ | apply State.noteVA_keeps | apply State.mirWrite_keeps | apply Keeps.foldl | apply Keeps.ite
      | apply Keeps1.fst | apply Keeps1.ite | split | apply Keeps1.mk | dsimp only

theorem State.freeCopies_keeps (s : State) (n : Nat) (f : Nat → Bool) {s₀ : State} (hk : Keeps s₀ s) : Keeps s₀
    (State.freeCopies s n f) := by
  unfold State.freeCopies
  with_reducible
    repeat' first
      | assumption | intro _ | apply State.endAccess_keeps | apply State.setChan_keeps | apply Keeps.foldl
      | apply Keeps.ite | apply Keeps1.fst | apply Keeps1.ite | split | apply Keeps1.mk | dsimp only

theorem State.startCopies_keeps (s : State) (n : Nat) (env : Env) {s₀ : State} (hk : Keeps s₀ s) : Keeps s₀
    (State.startCopies s n env) := by
  unfold State.startCopies
  with_reducible
    repeat' first
      | assumption | intro _ | apply State.setChan_keeps | apply State.setProg_keeps | apply State.pushLines_keeps
      | apply Keeps.foldl | apply Keeps.ite | apply Keeps1.fst | apply Keeps1.ite | split | apply Keeps.upd
      | apply Keeps1.mk | dsimp only

theorem State.syncMirrored_keeps (s : State) (n : Nat) {s₀ : State} (hk : Keeps s₀ s) : Keeps s₀ (State.syncMirrored s n) := by
  unfold State.syncMirrored
  with_reducible
    repeat' first
      | assumption | intro _ | apply State.setBit_keeps

theorem State.pushLayer_keeps (s : State) (n : Nat) (env : Env) {s₀ : State} (hk : Keeps s₀ s) : Keeps s₀ (State.pushLayer s
    n env) := by
  unfold State.pushLayer
  with_reducible
    repeat' first
      | assumption | intro _ | apply State.setProg_keeps | apply State.pushLines_keeps | apply Keeps.foldl | apply Keeps.ite
      | split

theorem State.queueCommit_keeps (s : State) (n : Nat) (step : Nat) (before : List Nat) {s₀ : State} (hk : Keeps s₀ s) :
    Keeps s₀ (State.queueCommit s n step before) := by
  unfold State.queueCommit
  with_reducible
    repeat' first
      | assumption | intro _ | apply State.setProg_keeps | apply State.freeCopies_keeps | apply State.syncMirrored_keeps
      | apply Keeps.ite | split | apply Keeps.upd | dsimp only

theorem State.forgetSlot_keeps (s : State) (n : Nat) (slot : Nat) {s₀ : State} (hk : Keeps s₀ s) : Keeps s₀
    (State.forgetSlot s n slot) := by
  unfold State.forgetSlot
  with_reducible
    repeat' first
      | assumption | intro _ | apply State.setProg_keeps | apply State.freeCopies_keeps | apply Keeps.ite | split
      | apply Keeps.upd | dsimp only

theorem State.mirRelease_keeps (s : State) (n : Nat) {s₀ : State} (hk : Keeps s₀ s) : Keeps s₀ (State.mirRelease s n) := by
  unfold State.mirRelease
  with_reducible
    repeat' first
      | assumption | apply State.setBit_keeps | apply State.runProg_keeps | apply Keeps.ite

theorem State.syncTaken_keeps (s : State) {s₀ : State} (hk : Keeps s₀ s) : Keeps s₀ (State.syncTaken s) := by
  unfold State.syncTaken
  with_reducible
    repeat' first
      | assumption | intro _ | apply State.setBit_keeps | apply State.each_keeps

theorem State.mirFailed_keeps (s : State) (n : Nat) (status : Nat) {s₀ : State} (hk : Keeps s₀ s) : Keeps s₀ (State.mirFailed
    s n status) := by
  unfold State.mirFailed
  with_reducible
    repeat' first
      | assumption | apply State.setProg_keeps | apply State.setPstate_keeps | apply State.syncTaken_keeps | apply Keeps.ite
      | apply Keeps.upd

theorem execSequenceCopyDone_keeps (n : Nat) (slot : Nat) (s : State) {s₀ : State} (hk : Keeps s₀ s) : KeepsO s₀
    (execSequenceCopyDone n slot s) := by
  unfold execSequenceCopyDone
  with_reducible
    repeat' first
      | assumption | intro _ | apply State.clocked_keeps | apply run_keeps | apply State.setProg_keeps
      | apply State.freeCopies_keeps | apply KeepsO.next | apply KeepsO.ite | apply Keeps.ite | split | apply Keeps.upd
      | dsimp only

theorem execMirrorPushDone_keeps (n : Nat) (s : State) {s₀ : State} (hk : Keeps s₀ s) : KeepsO s₀ (execMirrorPushDone n s)
    := by
  unfold execMirrorPushDone
  with_reducible
    repeat' first
      | assumption | intro _ | apply State.clocked_keeps | apply run_keeps | apply State.setProg_keeps
      | apply State.mirWrite_keeps | apply Keeps.foldl | apply Keeps1.foldl | apply KeepsO.next | apply KeepsO.ite
      | apply Keeps.ite | refine Keeps1.get ?_ (by assumption) | apply Keeps1.fst | apply Keeps1.ite | apply Keeps1.mk
      | split | apply Keeps.upd | dsimp only

theorem execMirrorBankWritten_keeps (n : Nat) (s : State) {s₀ : State} (hk : Keeps s₀ s) : KeepsO s₀ (execMirrorBankWritten
    n s) := by
  unfold execMirrorBankWritten
  with_reducible
    repeat' first
      | assumption | intro _ | apply State.clocked_keeps | apply run_keeps | apply State.setProg_keeps
      | apply State.mirWrite_keeps | apply KeepsO.next | apply KeepsO.ite | apply Keeps.ite | split | apply Keeps.upd
      | dsimp only

theorem execMirrorCommitted_keeps (n : Nat) (s : State) {s₀ : State} (hk : Keeps s₀ s) : KeepsO s₀ (execMirrorCommitted n s)
    := by
  unfold execMirrorCommitted
  with_reducible
    repeat' first
      | assumption | intro _ | apply State.clocked_keeps | apply run_keeps | apply State.setProg_keeps
      | apply State.syncMirrored_keeps | apply State.mirRelease_keeps | apply KeepsO.next | apply KeepsO.ite
      | apply Keeps.ite | split | apply Keeps.upd | dsimp only

theorem State.freeze_keeps (s : State) (v : Served) {s₀ : State} (hk : Keeps s₀ s) : Keeps s₀ (State.freeze s v) := by
  unfold State.freeze
  with_reducible
    repeat' first
      | assumption | intro _ | apply State.noteVA_keeps | apply State.writeVA_keeps | apply Keeps.foldl | apply Keeps.ite
      | apply Keeps1.fst | apply Keeps1.ite | split | apply Keeps.upd | apply Keeps1.mk | dsimp only

theorem State.freezeParked_keeps (s : State) (n : Nat) {s₀ : State} (hk : Keeps s₀ s) : Keeps s₀ (State.freezeParked s n) := by
  unfold State.freezeParked
  with_reducible
    repeat' first
      | assumption | intro _ | apply State.freeze_keeps | apply Keeps.foldl

theorem State.stopMirrors_keeps (s : State) {s₀ : State} (hk : Keeps s₀ s) : Keeps s₀ (State.stopMirrors s) := by
  unfold State.stopMirrors
  with_reducible
    repeat' first
      | assumption | intro _ | apply State.setBit_keeps | apply State.setProg_keeps | apply State.freeCopies_keeps
      | apply State.mirRelease_keeps | apply Keeps.foldl | apply Keeps.ite | apply Keeps1.fst | apply Keeps1.ite | split
      | apply Keeps.upd | apply Keeps1.mk | dsimp only

end Sys2Proof.Machine
end

