-- ==== Sys2Proof/Laws/KeepsCursor.lean ====
section
/-!
SUPPORT. What the operations of Machine/Cursor.lean and its commands leave alone: none touches the queue of commands, and each keeps the
canonical form of memory and of the register files.
-/

namespace Sys2Proof.Machine

theorem State.routed_keeps (s : State) (n : Nat) {s₀ : State} (hk : Keeps s₀ s) : Keeps s₀ (State.routed s n) := by
  unfold State.routed
  with_reducible
    repeat' first
      | assumption | intro _ | apply State.wrap_keeps | apply State.setProg_keeps | apply State.issueEntry_keeps
      | apply Keeps.foldl | apply Keeps.ite | apply Keeps1.fst | apply Keeps1.ite | split | apply Keeps.upd
      | apply Keeps1.mk | dsimp only

theorem State.clearPhase_keeps (s : State) (n : Nat) {s₀ : State} (hk : Keeps s₀ s) : Keeps s₀ (State.clearPhase s n) := by
  unfold State.clearPhase
  with_reducible
    repeat' first
      | assumption | apply State.setProg_keeps

theorem State.beginEmbeds_keeps (s : State) (env : Env) {s₀ : State} (hk : Keeps s₀ s) : Keeps s₀ (State.beginEmbeds s env) := by
  unfold State.beginEmbeds
  with_reducible
    repeat' first
      | assumption | intro _ | apply State.startEmbed_keeps | apply Keeps.foldl | apply Keeps.ite

theorem State.leaveLayer_keeps (s : State) (n : Nat) (l : Nat) (env : Env) {s₀ : State} (hk : Keeps s₀ s) : Keeps s₀
    (State.leaveLayer s n l env) := by
  unfold State.leaveLayer
  with_reducible
    repeat' first
      | assumption | intro _ | apply State.setProg_keeps | apply State.dropRefs_keeps | apply State.pushLayer_keeps
      | apply Keeps.ite | apply Keeps1.fst | apply Keeps1.ite | split | apply Keeps.upd | apply Keeps1.mk | dsimp only

theorem State.stepRecords_keeps (s : State) (n : Nat) (recs : List (List Byte)) {s₀ : State} (hk : Keeps s₀ s) : Keeps s₀
    (State.stepRecords s n recs) := by
  unfold State.stepRecords
  with_reducible
    repeat' first
      | assumption | apply State.setFlag_keeps | apply State.writeTokens_keeps | apply Keeps.ite | apply Keeps1.fst
      | apply Keeps.upd

theorem State.reseat_keeps (s : State) (n : Nat) {s₀ : State} (hk : Keeps s₀ s) : Keeps s₀ (State.reseat s n) := by
  unfold State.reseat
  with_reducible
    repeat' first
      | assumption | intro _ | apply State.setProg_keeps | apply State.syncProg_keeps | apply State.forgetSlot_keeps
      | apply Keeps.foldl | apply Keeps.ite

theorem State.afterStep_keeps (s : State) (n : Nat) {s₀ : State} (hk : Keeps s₀ s) : Keeps s₀ (State.afterStep s n) := by
  unfold State.afterStep
  with_reducible
    repeat' first
      | assumption | intro _ | apply State.setBit_keeps | apply State.setProg_keeps | apply State.setPstate_keeps
      | apply State.fireTriggers_keeps | apply State.startProg_keeps | apply State.freezeParked_keeps | apply Keeps.ite
      | split | apply Keeps.upd | dsimp only

theorem State.endStep_keeps (s : State) (n : Nat) (env : Env) {s₀ : State} (hk : Keeps s₀ s) : Keeps s₀ (State.endStep s n
    env) := by
  unfold State.endStep
  with_reducible
    repeat' first
      | assumption | intro _ | apply State.setProg_keeps | apply State.haltProg_keeps | apply State.setCursor_keeps
      | apply State.boundarySlots_keeps | apply State.startCopies_keeps | apply State.queueCommit_keeps
      | apply State.leaveLayer_keeps | apply State.stepRecords_keeps | apply State.reseat_keeps
      | apply State.afterStep_keeps | apply Keeps.ite | apply Keeps1.fst | apply Keeps1.ite | split | apply Keeps.upd
      | apply Keeps1.mk | dsimp only

theorem State.advance_keeps (s : State) (n : Nat) (env : Env) {s₀ : State} (hk : Keeps s₀ s) : Keeps s₀ (State.advance s n
    env) := by
  unfold State.advance
  with_reducible
    repeat' first
      | assumption | intro _ | apply State.evalProg_keeps | apply State.setCursor_keeps | apply State.fireMatch_keeps
      | apply State.fireTriggers_keeps | apply State.boundarySlots_keeps | apply State.routed_keeps
      | apply State.clearPhase_keeps | apply State.leaveLayer_keeps | apply State.endStep_keeps | apply Keeps.ite | split
      | dsimp only

theorem execPhaseComplete_keeps (n : Nat) (env : Env) (s : State) {s₀ : State} (hk : Keeps s₀ s) : KeepsO s₀
    (execPhaseComplete n env s) := by
  unfold execPhaseComplete
  with_reducible
    repeat' first
      | assumption | intro _ | apply State.clocked_keeps | apply run_keeps | apply State.beginPhases_keeps
      | apply State.beginEmbeds_keeps | apply State.advance_keeps | apply KeepsO.next | apply KeepsO.ite | apply Keeps.ite
      | split | dsimp only

theorem execSpecRoutingDone_keeps (n : Nat) (guess : List (List Nat)) (s : State) {s₀ : State} (hk : Keeps s₀ s) : KeepsO s₀
    (execSpecRoutingDone n guess s) := by
  unfold execSpecRoutingDone
  with_reducible
    repeat' first
      | assumption | intro _ | apply State.clocked_keeps | apply run_keeps | apply State.setProg_keeps
      | apply State.issueEntry_keeps | apply State.daCharge_keeps | apply Keeps.foldl | apply KeepsO.next
      | apply KeepsO.ite | apply Keeps.ite | apply Keeps1.fst | apply Keeps1.ite | split | apply Keeps.upd
      | apply Keeps1.mk | dsimp only

end Sys2Proof.Machine
end

