-- ==== Sys2Proof/Laws/KeepsCodeword.lean ====
section
/-!
SUPPORT. What the operations of Machine/Codeword.lean and its commands leave alone: none touches the queue of commands, and each keeps the
canonical form of memory and of the register files.
-/

namespace Sys2Proof.Machine

theorem State.startStream_keeps (s : State) (l : Nat) {s₀ : State} (hk : Keeps s₀ s) : Keeps s₀ (State.startStream s l) :=
    by
  unfold State.startStream
  with_reducible
    repeat' first
      | assumption | intro _ | apply State.setLink_keeps | apply Keeps.ite | split | apply Keeps.upd | dsimp only

theorem State.putFlit_keeps (s : State) (l : Nat) (b : List Byte) {s₀ : State} (hk : Keeps s₀ s) : Keeps s₀ (State.putFlit s
    l b) := by
  unfold State.putFlit
  with_reducible
    repeat' first
      | assumption | intro _ | apply State.when_keeps | apply State.emit_keeps | apply State.setLink_keeps
      | apply Keeps.ite | split | apply Keeps.upd | dsimp only

end Sys2Proof.Machine
end

