-- ==== Sys2Proof/Laws/KeepsTables.lean ====
section
/-!
SUPPORT. What the operations of Machine/Tables.lean and its commands leave alone: none touches the queue of commands, and each keeps the
canonical form of memory and of the register files.
-/

namespace Sys2Proof.Machine

theorem State.tblCommit_keeps (s : State) (c : Nat) (env : Env) {s₀ : State} (hk : Keeps s₀ s) : Keeps s₀ (State.tblCommit s
    c env) := by
  unfold State.tblCommit
  with_reducible
    repeat' first
      | assumption | apply State.setFld_keeps | apply State.beginCommit_keeps | apply State.rejectCommit_keeps
      | apply State.setCtx_keeps | split | apply Keeps.upd

theorem execTblCommit_keeps (src : Source) (c : Nat) (env : Env) (s : State) {s₀ : State} (hk : Keeps s₀ s) : KeepsO s₀
    (execTblCommit src c env s) := by
  unfold execTblCommit
  with_reducible
    repeat' first
      | assumption | intro _ | apply State.clocked_keeps | apply run_keeps | apply State.gated_keeps
      | apply State.tblCommit_keeps | apply KeepsO.next | apply KeepsO.ite | apply Keeps.ite | split | dsimp only

theorem State.retireEpoch_keeps (s : State) (c : Nat) {s₀ : State} (hk : Keeps s₀ s) : Keeps s₀ (State.retireEpoch s c) :=
    by
  unfold State.retireEpoch
  with_reducible
    repeat' first
      | assumption | intro _ | apply Keeps.ite | split | apply Keeps.upd | dsimp only

theorem State.tblActivate_keeps (s : State) (c : Nat) {s₀ : State} (hk : Keeps s₀ s) : Keeps s₀ (State.tblActivate s c) :=
    by
  unfold State.tblActivate
  with_reducible
    repeat' first
      | assumption | intro _ | apply State.setFlag_keeps | apply State.wrap_keeps | apply State.finishCommit_keeps
      | apply State.setCtx_keeps | apply State.dropLook_keeps | apply State.retireEpoch_keeps | apply Keeps.ite | split
      | apply Keeps.upd | dsimp only

theorem execTblActivate_keeps (c : Nat) (s : State) {s₀ : State} (hk : Keeps s₀ s) : KeepsO s₀ (execTblActivate c s) := by
  unfold execTblActivate
  with_reducible
    repeat' first
      | assumption | intro _ | apply State.clocked_keeps | apply run_keeps | apply State.tblActivate_keeps
      | apply KeepsO.next | apply KeepsO.ite | apply Keeps.ite | split | dsimp only

theorem execOldEpochDrained_keeps (c : Nat) (s : State) {s₀ : State} (hk : Keeps s₀ s) : KeepsO s₀ (execOldEpochDrained c s)
    := by
  unfold execOldEpochDrained
  with_reducible
    repeat' first
      | assumption | intro _ | apply State.clocked_keeps | apply run_keeps | apply State.setFlag_keeps | apply KeepsO.next
      | apply KeepsO.ite | apply Keeps.ite | split | apply Keeps.upd | dsimp only

theorem execFaultRecordVisible_keeps (c : Nat) (s : State) {s₀ : State} (hk : Keeps s₀ s) : KeepsO s₀
    (execFaultRecordVisible c s) := by
  unfold execFaultRecordVisible
  with_reducible
    repeat' first
      | assumption | intro _ | apply State.clocked_keeps | apply run_keeps | apply State.raiseVec_keeps
      | apply State.setFltq_keeps | apply KeepsO.next | apply KeepsO.ite | apply Keeps.ite | split | dsimp only

theorem execFaultRecordWriteFail_keeps (c : Nat) (s : State) {s₀ : State} (hk : Keeps s₀ s) : KeepsO s₀
    (execFaultRecordWriteFail c s) := by
  unfold execFaultRecordWriteFail
  with_reducible
    repeat' first
      | assumption | intro _ | apply State.clocked_keeps | apply run_keeps | apply State.setFlag_keeps
      | apply State.record_keeps | apply State.setEng_keeps | apply State.setFltq_keeps | apply State.setFltTail_keeps
      | apply State.countUnqueued_keeps | apply Keeps.foldl | apply KeepsO.next | apply KeepsO.ite | apply Keeps.ite
      | refine Keeps1.get ?_ (by assumption) | apply Keeps1.fst | apply Keeps1.ite | split | apply Keeps.upd
      | apply Keeps1.mk | dsimp only

theorem execDeferredFaultRecord_keeps (c : Nat) (s : State) {s₀ : State} (hk : Keeps s₀ s) : KeepsO s₀
    (execDeferredFaultRecord c s) := by
  unfold execDeferredFaultRecord
  with_reducible
    repeat' first
      | assumption | intro _ | apply State.clocked_keeps | apply run_keeps | apply State.queueFault_keeps
      | apply State.uncountUnqueued_keeps | apply KeepsO.next | apply KeepsO.ite | apply Keeps.ite | split | dsimp only

theorem State.writeFltHead_keeps (s : State) (p : Nat) (v : Nat) {s₀ : State} (hk : Keeps s₀ s) : Keeps s₀
    (State.writeFltHead s p v) := by
  unfold State.writeFltHead
  with_reducible
    repeat' first
      | assumption | apply State.setFld_keeps | apply State.setFlag_keeps | apply State.setFltq_keeps | apply Keeps.ite

theorem execFltqHeadWrite_keeps (src : Source) (p : Nat) (v : Nat) (s : State) {s₀ : State} (hk : Keeps s₀ s) : KeepsO s₀
    (execFltqHeadWrite src p v s) := by
  unfold execFltqHeadWrite
  with_reducible
    repeat' first
      | assumption | intro _ | apply State.clocked_keeps | apply run_keeps | apply State.gated_keeps
      | apply State.writeFltHead_keeps | apply KeepsO.next | apply KeepsO.ite | apply Keeps.ite | split | dsimp only

theorem State.syncMigs_keeps (s : State) (c : Nat) {s₀ : State} (hk : Keeps s₀ s) : Keeps s₀ (State.syncMigs s c) := by
  unfold State.syncMigs
  with_reducible
    repeat' first
      | assumption | apply State.setFld_keeps

theorem State.migGo_keeps (s : State) (c : Nat) (v : Word) {s₀ : State} (hk : Keeps s₀ s) : Keeps s₀ (State.migGo s c v) := by
  unfold State.migGo
  with_reducible
    repeat' first
      | assumption | apply State.setFld_keeps | apply State.setCtx_keeps | apply State.syncMigs_keeps | apply Keeps.ite

theorem execMigGo_keeps (src : Source) (p : Nat) (v : Word) (s : State) {s₀ : State} (hk : Keeps s₀ s) : KeepsO s₀
    (execMigGo src p v s) := by
  unfold execMigGo
  with_reducible
    repeat' first
      | assumption | intro _ | apply State.clocked_keeps | apply run_keeps | apply State.gated_keeps
      | apply State.migGo_keeps | apply KeepsO.next | apply KeepsO.ite | apply Keeps.ite | split | dsimp only

theorem State.migEnd_keeps (s : State) (c : Nat) (err : Nat) {s₀ : State} (hk : Keeps s₀ s) : Keeps s₀ (State.migEnd s c err) := by
  unfold State.migEnd
  with_reducible
    repeat' first
      | assumption | apply State.setFld_keeps | apply State.wrap_keeps | apply State.raiseVec_keeps
      | apply State.setCtx_keeps | apply State.syncMigs_keeps

theorem State.setHeadMig_keeps (s : State) (c : Nat) (m : MigCmd) {s₀ : State} (hk : Keeps s₀ s) : Keeps s₀ (State.setHeadMig
    s c m) := by
  unfold State.setHeadMig
  with_reducible
    repeat' first
      | assumption | apply State.setCtx_keeps

theorem State.invalidatePages_keeps (s : State) (c : Nat) (pages : List Nat) {s₀ : State} (hk : Keeps s₀ s) : Keeps s₀
    (State.invalidatePages s c pages) := by
  unfold State.invalidatePages
  with_reducible
    repeat' first
      | assumption | intro _ | apply State.invalidate_keeps | apply Keeps.foldl | apply Keeps.ite | apply Keeps1.fst
      | apply Keeps1.ite | split | apply Keeps1.mk | dsimp only

theorem State.migFail_keeps (s : State) (c : Nat) (err : Nat) (pp : Nat) {s₀ : State} (hk : Keeps s₀ s) : Keeps s₀
    (State.migFail s c err pp) := by
  unfold State.migFail
  with_reducible
    repeat' first
      | assumption | intro _ | apply State.record_keeps | apply State.setCtx_keeps | apply State.migEnd_keeps
      | apply State.invalidatePages_keeps | apply Keeps.foldl | apply Keeps.ite | apply Keeps1.fst | apply Keeps1.ite
      | split | apply Keeps.upd | apply Keeps1.mk | dsimp only

theorem State.migRead_keeps (s : State) (c : Nat) (env : Env) (y0 : List (Nat × Nat)) {s₀ : State} (hk : Keeps s₀ s) : Keeps
    s₀ (State.migRead s c env y0) := by
  induction y0 generalizing s c env with
  | nil =>
    unfold State.migRead
    with_reducible
      repeat' first
        | assumption | apply State.writeMem_keeps | apply State.setHeadMig_keeps | apply State.migFail_keeps
        | apply Keeps.ite | apply Keeps1.fst | split
  | cons _ _ ih =>
    unfold State.migRead
    with_reducible
      repeat' first
        | assumption | apply ih | apply State.writeMem_keeps | apply State.setHeadMig_keeps | apply State.migFail_keeps
        | apply Keeps.ite | apply Keeps1.fst | split

theorem execMigToHost_keeps (c : Nat) (s : State) {s₀ : State} (hk : Keeps s₀ s) : KeepsO s₀ (execMigToHost c s) := by
  unfold execMigToHost
  with_reducible
    repeat' first
      | assumption | intro _ | apply State.clocked_keeps | apply run_keeps | apply State.setCtx_keeps
      | apply State.migEnd_keeps | apply State.setHeadMig_keeps | apply KeepsO.next | apply KeepsO.ite | apply Keeps.ite
      | apply Keeps1.fst | apply Keeps1.ite | split | apply Keeps.upd | apply Keeps1.mk | dsimp only

end Sys2Proof.Machine
end

