-- ==== Sys2Proof/Laws/KeepsResume.lean ====
section
/-!
SUPPORT. What the operations of Machine/Resume.lean and its commands leave alone: none touches the queue of commands, and each keeps the
canonical form of memory and of the register files.
-/

namespace Sys2Proof.Machine

theorem State.replay_keeps (s : State) (slot : Nat) (env : Env) {s₀ : State} (hk : Keeps s₀ s) : Keeps s₀ (State.replay s
    slot env) := by
  unfold State.replay
  with_reducible
    repeat' first
      | assumption | apply State.freeEngine_keeps | apply State.presentMove_keeps | apply State.replayArray_keeps
      | apply State.replayScoop_keeps | apply Keeps.ite | split

theorem State.abort_keeps (s : State) (slot : Nat) (env : Env) {s₀ : State} (hk : Keeps s₀ s) : Keeps s₀ (State.abort s slot
    env) := by
  unfold State.abort
  with_reducible
    repeat' first
      | assumption | intro _ | apply State.emit_keeps | apply State.freeEngine_keeps | apply State.finishMove_keeps
      | apply State.abortArray_keeps | apply State.abortScoop_keeps | apply Keeps.ite
      | refine Keeps1.get ?_ (by assumption) | split | dsimp only

theorem State.resumeTag_keeps (s : State) (p : Nat) (tag : Nat) (f : Nat → State) {s₀ : State} (hk : Keeps s₀ s) (hf : ∀ (x0
    : Nat), Keeps s₀ (f x0)) : Keeps s₀ (State.resumeTag s p tag f) := by
  unfold State.resumeTag
  with_reducible
    repeat' first
      | assumption | apply State.bump_keeps | apply hf | split

theorem execFltqResumeReplay_keeps (src : Source) (p : Nat) (tag : Nat) (env : Env) (s : State) {s₀ : State} (hk : Keeps s₀
    s) : KeepsO s₀ (execFltqResumeReplay src p tag env s) := by
  unfold execFltqResumeReplay
  with_reducible
    repeat' first
      | assumption | intro _ | apply State.clocked_keeps | apply run_keeps | apply State.gated_keeps
      | apply State.replay_keeps | apply State.resumeTag_keeps | apply KeepsO.next | apply KeepsO.ite | apply Keeps.ite
      | split | dsimp only

theorem execFltqResumeAbort_keeps (src : Source) (p : Nat) (tag : Nat) (env : Env) (s : State) {s₀ : State} (hk : Keeps s₀
    s) : KeepsO s₀ (execFltqResumeAbort src p tag env s) := by
  unfold execFltqResumeAbort
  with_reducible
    repeat' first
      | assumption | intro _ | apply State.clocked_keeps | apply run_keeps | apply State.gated_keeps
      | apply State.abort_keeps | apply State.resumeTag_keeps | apply KeepsO.next | apply KeepsO.ite | apply Keeps.ite
      | split | dsimp only

theorem execMgmtFaultService_keeps (env : Env) (s : State) {s₀ : State} (hk : Keeps s₀ s) : KeepsO s₀ (execMgmtFaultService
    env s) := by
  unfold execMgmtFaultService
  with_reducible
    repeat' first
      | assumption | intro _ | apply State.clocked_keeps | apply State.record_keeps | apply State.abort_keeps
      | apply KeepsO.next | apply KeepsO.ite | apply Keeps.ite | split | apply Keeps.upd | dsimp only

theorem State.releaseWaiting_keeps (s : State) (c : Nat) (env : Env) {s₀ : State} (hk : Keeps s₀ s) : Keeps s₀
    (State.releaseWaiting s c env) := by
  unfold State.releaseWaiting
  with_reducible
    repeat' first
      | assumption | intro _ | apply State.replay_keeps | apply Keeps.foldl

theorem execMigToDevice_keeps (c : Nat) (env : Env) (s : State) {s₀ : State} (hk : Keeps s₀ s) : KeepsO s₀ (execMigToDevice
    c env s) := by
  unfold execMigToDevice
  with_reducible
    repeat' first
      | assumption | intro _ | apply State.clocked_keeps | apply run_keeps | apply State.migEnd_keeps
      | apply State.setHeadMig_keeps | apply State.migRead_keeps | apply State.releaseWaiting_keeps | apply KeepsO.next
      | apply KeepsO.ite | apply Keeps.ite | apply Keeps1.fst | apply Keeps1.ite | split | apply Keeps.upd
      | apply Keeps1.mk | dsimp only

theorem execMigDrainDone_keeps (c : Nat) (s : State) {s₀ : State} (hk : Keeps s₀ s) : KeepsO s₀ (execMigDrainDone c s) := by
  unfold execMigDrainDone
  with_reducible
    repeat' first
      | assumption | intro _ | apply State.clocked_keeps | apply run_keeps | apply State.crossIn_keeps
      | apply State.noteRead_keeps | apply State.hostData_keeps | apply State.setHeadMig_keeps | apply Keeps.foldl
      | apply KeepsO.next | apply KeepsO.ite | apply Keeps.ite | apply Keeps1.fst | apply Keeps1.ite | split
      | apply Keeps.upd | apply Keeps1.mk | dsimp only

theorem execMigTransferFail_keeps (c : Nat) (err : Nat) (k : Nat) (env : Env) (s : State) {s₀ : State} (hk : Keeps s₀ s) :
    KeepsO s₀ (execMigTransferFail c err k env s) := by
  unfold execMigTransferFail
  with_reducible
    repeat' first
      | assumption | intro _ | apply State.clocked_keeps | apply run_keeps | apply State.setHeadMig_keeps
      | apply State.migFail_keeps | apply State.releaseWaiting_keeps | apply KeepsO.next | apply KeepsO.ite
      | apply Keeps.ite | split | apply Keeps.upd | dsimp only

theorem execMigCommandDone_keeps (c : Nat) (env : Env) (s : State) {s₀ : State} (hk : Keeps s₀ s) : KeepsO s₀
    (execMigCommandDone c env s) := by
  unfold execMigCommandDone
  with_reducible
    repeat' first
      | assumption | intro _ | apply State.clocked_keeps | apply run_keeps | apply State.setCtx_keeps
      | apply State.migEnd_keeps | apply State.invalidatePages_keeps | apply State.replay_keeps
      | apply State.resumeTag_keeps | apply State.releaseWaiting_keeps | apply Keeps.foldl | apply KeepsO.next
      | apply KeepsO.ite | apply Keeps.ite | apply Keeps1.fst | apply Keeps1.ite | split | apply Keeps.upd
      | apply Keeps1.mk | dsimp only

end Sys2Proof.Machine
end

