-- ==== Sys2Proof/Laws/KeepsQueues.lean ====
section
/-!
SUPPORT. What the operations of Machine/Queues.lean and its commands leave alone: none touches the queue of commands, and each keeps the
canonical form of memory and of the register files.
-/

namespace Sys2Proof.Machine

theorem State.dispatch_keeps (s : State) (p : Nat) (q : Nat) (slot : Nat) (b : List Byte) {s₀ : State} (hk : Keeps s₀ s) :
    Keeps s₀ (State.dispatch s p q slot b) := by
  unfold State.dispatch
  with_reducible
    repeat' first
      | assumption | intro _ | apply State.queueMove_keeps | apply Keeps.ite | split | apply Keeps.upd | dsimp only

theorem State.fetch_keeps (s : State) (p : Nat) (q : Nat) (env : Env) {s₀ : State} (hk : Keeps s₀ s) : Keeps s₀ (State.fetch
    s p q env) := by
  unfold State.fetch
  with_reducible
    repeat' first
      | assumption | intro _ | apply State.setFld_keeps | apply State.noteVA_keeps | apply State.setQueue_keeps
      | apply State.syncInflight_keeps | apply State.haltQueue_keeps | apply State.ringFault_keeps
      | apply State.dispatch_keeps | apply Keeps.ite | split | apply Keeps.upd | dsimp only

theorem execQueueFetch_keeps (p : Nat) (env : Env) (s : State) {s₀ : State} (hk : Keeps s₀ s) : KeepsO s₀ (execQueueFetch p
    env s) := by
  unfold execQueueFetch
  with_reducible
    repeat' first
      | assumption | intro _ | apply State.clocked_keeps | apply run_keeps | apply State.codewords_keeps
      | apply State.setPtn_keeps | apply State.fetch_keeps | apply KeepsO.next | apply KeepsO.ite | apply Keeps.ite | split
      | dsimp only

theorem State.sqTail_keeps (s : State) (p : Nat) (q : Nat) (v : Nat) {s₀ : State} (hk : Keeps s₀ s) : Keeps s₀ (State.sqTail
    s p q v) := by
  unfold State.sqTail
  with_reducible
    repeat' first
      | assumption | apply State.setFld_keeps | apply State.setFlag_keeps | apply Keeps.ite

theorem State.writeSqTail_keeps (s : State) (p : Nat) (q : Nat) (v : Nat) {s₀ : State} (hk : Keeps s₀ s) : Keeps s₀
    (State.writeSqTail s p q v) := by
  unfold State.writeSqTail
  with_reducible
    repeat' first
      | assumption | apply State.sqTail_keeps | apply Keeps.ite

theorem execSqDoorbell_keeps (src : Source) (p : Nat) (q : Nat) (v : Nat) (s : State) {s₀ : State} (hk : Keeps s₀ s) :
    KeepsO s₀ (execSqDoorbell src p q v s) := by
  unfold execSqDoorbell
  with_reducible
    repeat' first
      | assumption | intro _ | apply State.clocked_keeps | apply run_keeps | apply State.gated_keeps
      | apply State.writeSqTail_keeps | apply KeepsO.next | apply KeepsO.ite | apply Keeps.ite | split | dsimp only

theorem State.writeSqCtrl_keeps (s : State) (p : Nat) (q : Nat) (v : Word) {s₀ : State} (hk : Keeps s₀ s) : Keeps1 s₀
    (State.writeSqCtrl s p q v) := by
  unfold State.writeSqCtrl
  with_reducible
    repeat' first
      | assumption | intro _ | apply State.setFld_keeps | apply State.setFlag_keeps | apply State.plainWrite_keeps
      | apply State.setQueue_keeps | apply State.syncInflight_keeps | apply Keeps1.ite | apply Keeps.ite | split
      | apply Keeps.upd | apply Keeps1.mk | dsimp only

theorem execSqEnable_keeps (src : Source) (p : Nat) (q : Nat) (v : Word) (s : State) {s₀ : State} (hk : Keeps s₀ s) : KeepsO
    s₀ (execSqEnable src p q v s) := by
  unfold execSqEnable
  with_reducible
    repeat' first
      | assumption | intro _ | apply State.clocked_keeps | apply run_keeps | apply State.guarded_keeps
      | apply State.writeSqCtrl_keeps | apply KeepsO.next | apply KeepsO.ite | apply Keeps.ite
      | refine Keeps1.get ?_ (by assumption) | apply Keeps1.fst | apply Keeps1.ite | apply Keeps1.mk | split | dsimp only

theorem execSqDisable_keeps (src : Source) (p : Nat) (q : Nat) (v : Word) (s : State) {s₀ : State} (hk : Keeps s₀ s) :
    KeepsO s₀ (execSqDisable src p q v s) := by
  unfold execSqDisable
  with_reducible
    repeat' first
      | assumption | intro _ | apply State.clocked_keeps | apply run_keeps | apply State.guarded_keeps
      | apply State.writeSqCtrl_keeps | apply KeepsO.next | apply KeepsO.ite | apply Keeps.ite
      | refine Keeps1.get ?_ (by assumption) | apply Keeps1.fst | apply Keeps1.ite | apply Keeps1.mk | split | dsimp only

theorem execResume_keeps (src : Source) (p : Nat) (q : Nat) (s : State) {s₀ : State} (hk : Keeps s₀ s) : KeepsO s₀
    (execResume src p q s) := by
  unfold execResume
  with_reducible
    repeat' first
      | assumption | intro _ | apply State.clocked_keeps | apply run_keeps | apply State.guarded_keeps
      | apply State.writeSqCtrl_keeps | apply KeepsO.next | apply KeepsO.ite | apply Keeps.ite
      | refine Keeps1.get ?_ (by assumption) | apply Keeps1.fst | apply Keeps1.ite | apply Keeps1.mk | split | dsimp only

theorem execResumeSkip_keeps (src : Source) (p : Nat) (q : Nat) (s : State) {s₀ : State} (hk : Keeps s₀ s) : KeepsO s₀
    (execResumeSkip src p q s) := by
  unfold execResumeSkip
  with_reducible
    repeat' first
      | assumption | intro _ | apply State.clocked_keeps | apply run_keeps | apply State.guarded_keeps
      | apply State.writeSqCtrl_keeps | apply KeepsO.next | apply KeepsO.ite | apply Keeps.ite
      | refine Keeps1.get ?_ (by assumption) | apply Keeps1.fst | apply Keeps1.ite | apply Keeps1.mk | split | dsimp only

theorem State.writeCqHead_keeps (s : State) (p : Nat) (q : Nat) (v : Nat) {s₀ : State} (hk : Keeps s₀ s) : Keeps s₀
    (State.writeCqHead s p q v) := by
  unfold State.writeCqHead
  with_reducible
    repeat' first
      | assumption | apply State.setFld_keeps | apply State.setQueue_keeps | apply Keeps.ite

theorem execCqHeadWrite_keeps (src : Source) (p : Nat) (q : Nat) (v : Nat) (s : State) {s₀ : State} (hk : Keeps s₀ s) :
    KeepsO s₀ (execCqHeadWrite src p q v s) := by
  unfold execCqHeadWrite
  with_reducible
    repeat' first
      | assumption | intro _ | apply State.clocked_keeps | apply run_keeps | apply State.gated_keeps
      | apply State.writeCqHead_keeps | apply KeepsO.next | apply KeepsO.ite | apply Keeps.ite | split | dsimp only

theorem execCompletionRecordPerformed_keeps (p : Nat) (q : Nat) (ok : Bool) (s : State) {s₀ : State} (hk : Keeps s₀ s) :
    KeepsO s₀ (execCompletionRecordPerformed p q ok s) := by
  unfold execCompletionRecordPerformed
  with_reducible
    repeat' first
      | assumption | intro _ | apply State.clocked_keeps | apply run_keeps | apply State.setFld_keeps
      | apply State.when_keeps | apply State.raiseVec_keeps | apply State.setQueue_keeps | apply State.syncInflight_keeps
      | apply State.ringFault_keeps | apply KeepsO.next | apply KeepsO.ite | apply Keeps.ite | split | apply Keeps.upd
      | dsimp only

theorem State.unmask_keeps (s : State) (fn : Nat) (vec : Nat) {s₀ : State} (hk : Keeps s₀ s) : Keeps s₀ (State.unmask s fn
    vec) := by
  unfold State.unmask
  with_reducible
    repeat' first
      | assumption | apply State.setFld_keeps | apply State.setFlag_keeps | apply State.msix_keeps | apply Keeps.ite

theorem execMsixUnmask_keeps (src : Source) (fn : Nat) (vec : Nat) (s : State) {s₀ : State} (hk : Keeps s₀ s) : KeepsO s₀
    (execMsixUnmask src fn vec s) := by
  unfold execMsixUnmask
  with_reducible
    repeat' first
      | assumption | intro _ | apply State.clocked_keeps | apply run_keeps | apply State.unmask_keeps | apply KeepsO.next
      | apply KeepsO.ite | apply Keeps.ite | split | dsimp only

theorem State.dropOrder_keeps (s : State) (o : OrdSt) {s₀ : State} (hk : Keeps s₀ s) : Keeps s₀ (State.dropOrder s o) := by
  unfold State.dropOrder
  with_reducible
    repeat' first
      | assumption | intro _ | apply Keeps.upd

theorem State.orderIn_keeps (s : State) (o : OrdSt) (phase : Nat) {s₀ : State} (hk : Keeps s₀ s) : Keeps s₀ (State.orderIn s
    o phase) := by
  unfold State.orderIn
  with_reducible
    repeat' first
      | assumption | apply State.dropOrder_keeps | apply Keeps.upd

theorem State.endOrder_keeps (s : State) (o : OrdSt) (status : Nat) (count : Nat) {s₀ : State} (hk : Keeps s₀ s) : Keeps s₀
    (State.endOrder s o status count) := by
  unfold State.endOrder
  with_reducible
    repeat' first
      | assumption | apply State.completeEntry_keeps | apply State.dropOrder_keeps

theorem State.invStart_keeps (s : State) (o : OrdSt) {s₀ : State} (hk : Keeps s₀ s) : Keeps s₀ (State.invStart s o) := by
  unfold State.invStart
  with_reducible
    repeat' first
      | assumption | apply State.orderIn_keeps | apply State.endOrder_keeps | apply Keeps.ite | split

theorem State.flagRead_keeps (s : State) (o : OrdSt) (r : ReadRes) {s₀ : State} (hk : Keeps s₀ s) : Keeps s₀ (State.flagRead
    s o r) := by
  unfold State.flagRead
  with_reducible
    repeat' first
      | assumption | apply State.orderIn_keeps | apply State.endOrder_keeps | apply State.invStart_keeps | apply Keeps.ite

theorem State.flagPoll_keeps (s : State) (o : OrdSt) (env : Env) {s₀ : State} (hk : Keeps s₀ s) : Keeps s₀ (State.flagPoll s
    o env) := by
  unfold State.flagPoll
  with_reducible
    repeat' first
      | assumption | intro _ | apply State.request_keeps | apply State.noteVA_keeps | apply State.orderIn_keeps
      | apply State.endOrder_keeps | apply State.flagRead_keeps | apply Keeps.ite | split | dsimp only

theorem State.flagFails_keeps (s : State) (o : OrdSt) {s₀ : State} (hk : Keeps s₀ s) : Keeps s₀ (State.flagFails s o) := by
  unfold State.flagFails
  with_reducible
    repeat' first
      | assumption | apply State.takeFails_keeps | apply State.endOrder_keeps | apply Keeps.ite | apply Keeps1.fst

theorem State.takeOrder_keeps (s : State) (op : Nat) {s₀ : State} (hk : Keeps s₀ s) : KeepsP s₀ (State.takeOrder s op) := by
  unfold State.takeOrder
  with_reducible
    repeat' first
      | assumption | apply State.takeEntry_keeps | refine KeepsP.get ?_ (by assumption) | exact KeepsP.none
      | apply KeepsP.some | split

theorem State.orderUnreached_keeps (s : State) (o : OrdSt) (f : State → State) {s₀ : State} (hk : Keeps s₀ s) (hf : ∀ (x0 :
    State), Keeps s₀ x0 → Keeps s₀ (f x0)) : Keeps s₀ (State.orderUnreached s o f) := by
  unfold State.orderUnreached
  with_reducible
    repeat' first
      | assumption | intro _ | apply hf | apply State.setQueue_keeps | apply State.endOrder_keeps | apply Keeps.ite | split
      | apply Keeps.upd | dsimp only

theorem execReleaseWrite_keeps (s : State) {s₀ : State} (hk : Keeps s₀ s) : KeepsO s₀ (execReleaseWrite s) := by
  unfold execReleaseWrite
  with_reducible
    repeat' first
      | assumption | intro _ | apply State.clocked_keeps | apply State.request_keeps | apply State.writeStrict_keeps
      | apply State.orderIn_keeps | apply State.endOrder_keeps | apply State.flagFails_keeps | apply State.takeOrder_keeps
      | apply State.orderUnreached_keeps | apply KeepsO.next | apply KeepsO.ite | apply Keeps.ite
      | refine KeepsP.get ?_ (by assumption) | apply Keeps1.fst | apply Keeps1.ite | split | apply Keeps1.mk | dsimp only

theorem execAcquireWait_keeps (env : Env) (s : State) {s₀ : State} (hk : Keeps s₀ s) : KeepsO s₀ (execAcquireWait env s) :=
    by
  unfold execAcquireWait
  with_reducible
    repeat' first
      | assumption | intro _ | apply State.clocked_keeps | apply State.flagPoll_keeps | apply State.flagFails_keeps
      | apply State.takeOrder_keeps | apply KeepsO.next | apply KeepsO.ite | apply Keeps.ite
      | refine KeepsP.get ?_ (by assumption) | split | dsimp only

theorem execAcquirePoll_keeps (p : Nat) (q : Nat) (env : Env) (s : State) {s₀ : State} (hk : Keeps s₀ s) : KeepsO s₀
    (execAcquirePoll p q env s) := by
  unfold execAcquirePoll
  with_reducible
    repeat' first
      | assumption | intro _ | apply State.clocked_keeps | apply run_keeps | apply State.flagPoll_keeps
      | apply State.flagFails_keeps | apply KeepsO.next | apply KeepsO.ite | apply Keeps.ite | split | dsimp only

theorem execAcquireWaitTimeout_keeps (p : Nat) (q : Nat) (s : State) {s₀ : State} (hk : Keeps s₀ s) : KeepsO s₀
    (execAcquireWaitTimeout p q s) := by
  unfold execAcquireWaitTimeout
  with_reducible
    repeat' first
      | assumption | intro _ | apply State.clocked_keeps | apply run_keeps | apply State.dropClient_keeps
      | apply State.endOrder_keeps | apply KeepsO.next | apply KeepsO.ite | apply Keeps.ite | split | dsimp only

theorem execFenceEntry_keeps (s : State) {s₀ : State} (hk : Keeps s₀ s) : KeepsO s₀ (execFenceEntry s) := by
  unfold execFenceEntry
  with_reducible
    repeat' first
      | assumption | intro _ | apply State.clocked_keeps | apply State.endOrder_keeps | apply State.takeOrder_keeps
      | apply State.orderUnreached_keeps | apply KeepsO.next | apply KeepsO.ite | apply Keeps.ite
      | refine KeepsP.get ?_ (by assumption) | split | dsimp only

theorem execInvRange_keeps (s : State) {s₀ : State} (hk : Keeps s₀ s) : KeepsO s₀ (execInvRange s) := by
  unfold execInvRange
  with_reducible
    repeat' first
      | assumption | intro _ | apply State.clocked_keeps | apply State.invStart_keeps | apply State.takeOrder_keeps
      | apply KeepsO.next | apply KeepsO.ite | apply Keeps.ite | refine KeepsP.get ?_ (by assumption) | split | dsimp only

theorem execInvComplete_keeps (p : Nat) (q : Nat) (s : State) {s₀ : State} (hk : Keeps s₀ s) : KeepsO s₀ (execInvComplete p
    q s) := by
  unfold execInvComplete
  with_reducible
    repeat' first
      | assumption | intro _ | apply State.clocked_keeps | apply run_keeps | apply State.invalidateVA_keeps
      | apply State.endOrder_keeps | apply KeepsO.next | apply KeepsO.ite | apply Keeps.ite | split | apply Keeps.upd
      | dsimp only

theorem State.flagAnswer_keeps (s : State) (p : Nat) (q : Nat) (slot : Nat) (r : ReadRes) {s₀ : State} (hk : Keeps s₀ s) :
    Keeps s₀ (State.flagAnswer s p q slot r) := by
  unfold State.flagAnswer
  with_reducible
    repeat' first
      | assumption | intro _ | apply State.endOrder_keeps | apply State.flagRead_keeps | apply Keeps.ite | split

end Sys2Proof.Machine
end

