-- ==== Sys2Proof/Laws/KeepsFlit.lean ====
section
/-!
SUPPORT. What the operations of Machine/Flit.lean and its commands leave alone: none touches the queue of commands, and each keeps the
canonical form of memory and of the register files.
-/

namespace Sys2Proof.Machine

theorem State.sendSeq_keeps (s : State) (l : Nat) (ws : List Nat) (pkts : List SwPkt) (tiles : List (Nat × Nat)) {s₀ :
    State} (hk : Keeps s₀ s) : Keeps s₀ (State.sendSeq s l ws pkts tiles) := by
  unfold State.sendSeq
  with_reducible
    repeat' first
      | assumption | intro _ | apply State.wrap_keeps | apply State.when_keeps | apply State.setLink_keeps
      | apply State.replay_keeps | apply State.putFlit_keeps | apply Keeps.ite | split | apply Keeps.upd | dsimp only

theorem State.sendIdle_keeps (s : State) (l : Nat) (ws : List Nat) {s₀ : State} (hk : Keeps s₀ s) : Keeps s₀ (State.sendIdle
    s l ws) := by
  unfold State.sendIdle
  with_reducible
    repeat' first
      | assumption | intro _ | apply State.setLink_keeps | apply State.putFlit_keeps | apply Keeps.ite | split
      | apply Keeps.upd | dsimp only

theorem State.sendControl_keeps (s : State) (l : Nat) (ws : List Nat) {s₀ : State} (hk : Keeps s₀ s) : Keeps s₀
    (State.sendControl s l ws) := by
  unfold State.sendControl
  with_reducible
    repeat' first
      | assumption | apply State.sendSeq_keeps | apply State.sendIdle_keeps | apply Keeps.ite

theorem State.sendAck_keeps (s : State) (l : Nat) {s₀ : State} (hk : Keeps s₀ s) : Keeps s₀ (State.sendAck s l) := by
  unfold State.sendAck
  with_reducible
    repeat' first
      | assumption | apply State.sendControl_keeps

theorem State.resend_keeps (s : State) (l : Nat) {s₀ : State} (hk : Keeps s₀ s) : Keeps s₀ (State.resend s l) := by
  unfold State.resend
  with_reducible
    repeat' first
      | assumption | intro _ | apply State.replay_keeps | apply State.putFlit_keeps | apply Keeps.foldl | apply Keeps.ite
      | apply Keeps1.fst | apply Keeps1.ite | split | apply Keeps1.mk | dsimp only

theorem State.flitBad_keeps (s : State) (l : Nat) (count : State → State) {s₀ : State} (hk : Keeps s₀ s) (hcount : ∀ (x0 :
    State), Keeps s₀ x0 → Keeps s₀ (count x0)) : Keeps s₀ (State.flitBad s l count) := by
  unfold State.flitBad
  with_reducible
    repeat' first
      | assumption | apply State.setLink_keeps | apply State.sendAck_keeps | apply hcount | apply Keeps.ite

theorem State.flitTaken_keeps (s : State) (l : Nat) {s₀ : State} (hk : Keeps s₀ s) : Keeps s₀ (State.flitTaken s l) := by
  unfold State.flitTaken
  with_reducible
    repeat' first
      | assumption | apply State.setLink_keeps

theorem State.ackDue_keeps (s : State) (l : Nat) {s₀ : State} (hk : Keeps s₀ s) : Keeps s₀ (State.ackDue s l) := by
  unfold State.ackDue
  with_reducible
    repeat' first
      | assumption | apply State.sendAck_keeps | apply Keeps.ite

end Sys2Proof.Machine
end

