-- ==== Sys2Proof/Laws/KeepsRequests.lean ====
section
/-!
SUPPORT. What the operations of Machine/Requests.lean and its commands leave alone: none touches the queue of commands, and each keeps the
canonical form of memory and of the register files.
-/

namespace Sys2Proof.Machine

theorem State.requestFailed_keeps (s : State) (r : Req) (status : Nat) {s₀ : State} (hk : Keeps s₀ s) : Keeps s₀
    (State.requestFailed s r status) := by
  unfold State.requestFailed
  with_reducible
    repeat' first
      | assumption | intro _ | apply State.mirror_keeps | apply State.noteUnreached_keeps | apply State.failClient_keeps
      | apply State.install_keeps | apply State.settleWrites_keeps | apply State.mirFailed_keeps | apply State.onCmd_keeps
      | apply State.setRep_keeps | apply State.partError_keeps | apply State.flagAnswer_keeps | apply Keeps.ite | split
      | apply Keeps.upd | dsimp only

theorem State.failRequests_keeps (s : State) (f : Req → Bool) (status : Nat) {s₀ : State} (hk : Keeps s₀ s) : Keeps s₀
    (State.failRequests s f status) := by
  unfold State.failRequests
  with_reducible
    repeat' first
      | assumption | intro _ | apply State.requestFailed_keeps | apply Keeps.foldl | apply Keeps.ite | apply Keeps1.fst
      | apply Keeps1.ite | split | apply Keeps.upd | apply Keeps1.mk | dsimp only

theorem State.resetStreams_keeps (s : State) (n : Nat) {s₀ : State} (hk : Keeps s₀ s) : Keeps s₀ (State.resetStreams s n) := by
  unfold State.resetStreams
  with_reducible
    repeat' first
      | assumption | intro _ | apply State.syncSwitch_keeps | apply State.failRequests_keeps | apply Keeps.upd

theorem State.sendSync_keeps (s : State) (n : Nat) {s₀ : State} (hk : Keeps s₀ s) : Keeps s₀ (State.sendSync s n) := by
  unfold State.sendSync
  with_reducible
    repeat' first
      | assumption | apply State.enterSwitch_keeps | apply State.resetStreams_keeps

end Sys2Proof.Machine
end

