-- ==== Sys2Proof/Laws/KeepsContinuity.lean ====
section
/-!
SUPPORT. What the operations of Machine/Continuity.lean and its commands leave alone: none touches the queue of commands, and each keeps the
canonical form of memory and of the register files.
-/

namespace Sys2Proof.Machine

theorem State.setCnt_keeps (s : State) (st : Nat) {s₀ : State} (hk : Keeps s₀ s) : Keeps s₀ (State.setCnt s st) := by
  unfold State.setCnt
  with_reducible
    repeat' first
      | assumption | apply State.setFld_keeps

theorem State.readBlock_keeps (s : State) (k : Nat) {s₀ : State} (hk : Keeps s₀ s) : Keeps s₀ (State.readBlock s k) := by
  unfold State.readBlock
  with_reducible
    repeat' first
      | assumption | intro _ | apply State.remoteRead_keeps | apply Keeps.ite | split | dsimp only

theorem State.readPartner_keeps (s : State) {s₀ : State} (hk : Keeps s₀ s) : Keeps s₀ (State.readPartner s) := by
  unfold State.readPartner
  with_reducible
    repeat' first
      | assumption | intro _ | apply State.readBlock_keeps | apply Keeps.ite | split | dsimp only

theorem State.commitCnt_keeps (s : State) {s₀ : State} (hk : Keeps s₀ s) : Keeps s₀ (State.commitCnt s) := by
  unfold State.commitCnt
  with_reducible
    repeat' first
      | assumption | apply State.beginCommit_keeps | apply State.rejectCommit_keeps | apply Keeps.ite

theorem execCntCommit_keeps (src : Source) (s : State) {s₀ : State} (hk : Keeps s₀ s) : KeepsO s₀ (execCntCommit src s) :=
    by
  unfold execCntCommit
  with_reducible
    repeat' first
      | assumption | intro _ | apply State.clocked_keeps | apply run_keeps | apply State.gated_keeps
      | apply State.commitCnt_keeps | apply KeepsO.next | apply KeepsO.ite | apply Keeps.ite | split | apply Keeps.upd
      | dsimp only

theorem State.applyCnt_keeps (s : State) {s₀ : State} (hk : Keeps s₀ s) : Keeps s₀ (State.applyCnt s) := by
  unfold State.applyCnt
  with_reducible
    repeat' first
      | assumption | apply State.finishCommit_keeps | apply State.setCnt_keeps | apply State.readPartner_keeps
      | apply Keeps.ite | apply Keeps.upd

theorem State.startMirrors_keeps (s : State) {s₀ : State} (hk : Keeps s₀ s) : Keeps s₀ (State.startMirrors s) := by
  unfold State.startMirrors
  with_reducible
    repeat' first
      | assumption | intro _ | apply State.each_keeps | apply State.startCopies_keeps

theorem State.beginReturn_keeps (s : State) (progs : List Nat) (halves : List Nat) {s₀ : State} (hk : Keeps s₀ s) : Keeps s₀
    (State.beginReturn s progs halves) := by
  unfold State.beginReturn
  with_reducible
    repeat' first
      | assumption | intro _ | apply State.sweepHalf_keeps | apply State.setCnt_keeps | apply State.readBlock_keeps
      | apply Keeps.foldl | apply Keeps.ite | apply Keeps1.fst | apply Keeps1.ite | split | apply Keeps.upd
      | apply Keeps1.mk | dsimp only

theorem State.pairing_keeps (s : State) (env : Env) {s₀ : State} (hk : Keeps s₀ s) : Keeps1 s₀ (State.pairing s env) := by
  unfold State.pairing
  with_reducible
    repeat' first
      | assumption | apply State.setFld_keeps | apply Keeps1.ite | split | apply Keeps1.mk

theorem execPairingReadDone_keeps (env : Env) (s : State) {s₀ : State} (hk : Keeps s₀ s) : KeepsO s₀ (execPairingReadDone
    env s) := by
  unfold execPairingReadDone
  with_reducible
    repeat' first
      | assumption | intro _ | apply State.clocked_keeps | apply State.setCnt_keeps | apply State.startMirrors_keeps
      | apply State.beginReturn_keeps | apply State.pairing_keeps | apply KeepsO.next | apply KeepsO.ite | apply Keeps.ite
      | refine Keeps1.get ?_ (by assumption) | apply Keeps1.fst | apply Keeps1.ite | apply Keeps1.mk | split
      | apply Keeps.upd | dsimp only

theorem execPairingRetry_keeps (s : State) {s₀ : State} (hk : Keeps s₀ s) : KeepsO s₀ (execPairingRetry s) := by
  unfold execPairingRetry
  with_reducible
    repeat' first
      | assumption | intro _ | apply State.clocked_keeps | apply State.readPartner_keeps | apply KeepsO.next
      | apply KeepsO.ite | apply Keeps.ite | split | dsimp only

theorem State.partnerReads_keeps (s : State) (node : Nat) {s₀ : State} (hk : Keeps s₀ s) : Keeps s₀ (State.partnerReads s
    node) := by
  unfold State.partnerReads
  with_reducible
    repeat' first
      | assumption | apply State.setCnt_keeps | apply State.readPartner_keeps | apply Keeps.ite

theorem State.admitShadow_keeps (s : State) (n : Nat) (j : Nat) (slotBytes : Nat) (b : List Byte) {s₀ : State} (hk : Keeps s₀
    s) : Keeps1 s₀ (State.admitShadow s n j slotBytes b) := by
  unfold State.admitShadow
  with_reducible
    repeat' first
      | assumption | apply State.setProg_keeps | apply State.syncProg_keeps | apply Keeps1.ite | apply Keeps1.mk

theorem State.noteRegion_keeps (s : State) (n : Nat) (slots : List Nat) {s₀ : State} (hk : Keeps s₀ s) : Keeps s₀
    (State.noteRegion s n slots) := by
  unfold State.noteRegion
  with_reducible
    repeat' first
      | assumption | intro _ | apply State.noteVA_keeps | apply Keeps.foldl | apply Keeps.ite | apply Keeps1.fst
      | apply Keeps1.ite | split | apply Keeps1.mk | dsimp only

theorem State.takeProgram_keeps (s : State) (n : Nat) {s₀ : State} (hk : Keeps s₀ s) : Keeps1 s₀ (State.takeProgram s n) :=
    by
  unfold State.takeProgram
  with_reducible
    repeat' first
      | assumption | intro _ | apply State.fresh_keeps | apply State.startProg_keeps | apply State.syncTaken_keeps
      | apply State.admitShadow_keeps | apply State.noteRegion_keeps | apply Keeps.foldl | apply Keeps1.foldl
      | apply Keeps1.ite | apply Keeps.ite | refine Keeps2.get ?_ (by assumption) | apply Keeps1.fst | apply Keeps2.snd
      | split | apply Keeps.upd | apply Keeps1.mk | dsimp only

theorem State.takeover_keeps (s : State) (progs : List Nat) {s₀ : State} (hk : Keeps s₀ s) : Keeps s₀ (State.takeover s
    progs) := by
  unfold State.takeover
  with_reducible
    repeat' first
      | assumption | intro _ | apply State.bump_keeps | apply State.record_keeps | apply State.takeProgram_keeps
      | apply Keeps1.foldl | apply Keeps.ite | apply Keeps1.fst | apply Keeps1.mk

theorem State.abandonReturn_keeps (s : State) {s₀ : State} (hk : Keeps s₀ s) : Keeps s₀ (State.abandonReturn s) := by
  unfold State.abandonReturn
  with_reducible
    repeat' first
      | assumption | intro _ | apply State.setProg_keeps | apply State.startProg_keeps | apply Keeps.foldl | apply Keeps.ite
      | apply Keeps.upd

theorem State.doubleLoss_keeps (s : State) {s₀ : State} (hk : Keeps s₀ s) : Keeps s₀ (State.doubleLoss s) := by
  unfold State.doubleLoss
  with_reducible
    repeat' first
      | assumption | intro _ | apply State.bump_keeps | apply State.record_keeps | apply Keeps.foldl | apply Keeps.upd

theorem State.partnerLost_keeps (s : State) (cause : Nat) {s₀ : State} (hk : Keeps s₀ s) : Keeps s₀ (State.partnerLost s
    cause) := by
  unfold State.partnerLost
  with_reducible
    repeat' first
      | assumption | intro _ | apply State.setFld_keeps | apply State.stopMirrors_keeps | apply State.setCnt_keeps
      | apply State.takeover_keeps | apply State.abandonReturn_keeps | apply State.doubleLoss_keeps | apply Keeps.ite
      | apply Keeps.upd

theorem execPartnerLossTimer_keeps (s : State) {s₀ : State} (hk : Keeps s₀ s) : KeepsO s₀ (execPartnerLossTimer s) := by
  unfold execPartnerLossTimer
  with_reducible
    repeat' first
      | assumption | intro _ | apply State.clocked_keeps | apply State.partnerLost_keeps | apply KeepsO.next
      | apply KeepsO.ite | apply Keeps.ite | split | dsimp only

theorem State.writeCntCtrl_keeps (s : State) (v : Word) {s₀ : State} (hk : Keeps s₀ s) : Keeps s₀ (State.writeCntCtrl s v) := by
  unfold State.writeCntCtrl
  with_reducible
    repeat' first
      | assumption | apply State.setCnt_keeps | apply State.readPartner_keeps | apply State.partnerLost_keeps
      | apply Keeps.ite

theorem execTakeover_keeps (src : Source) (confirm : Nat) (s : State) {s₀ : State} (hk : Keeps s₀ s) : KeepsO s₀
    (execTakeover src confirm s) := by
  unfold execTakeover
  with_reducible
    repeat' first
      | assumption | intro _ | apply State.clocked_keeps | apply run_keeps | apply State.gated_keeps
      | apply State.takeover_keeps | apply State.writeCntCtrl_keeps | apply KeepsO.next | apply KeepsO.ite
      | apply Keeps.ite | split | dsimp only

theorem execRestart_keeps (src : Source) (confirm : Nat) (s : State) {s₀ : State} (hk : Keeps s₀ s) : KeepsO s₀ (execRestart
    src confirm s) := by
  unfold execRestart
  with_reducible
    repeat' first
      | assumption | intro _ | apply State.clocked_keeps | apply run_keeps | apply State.gated_keeps
      | apply State.writeCntCtrl_keeps | apply KeepsO.next | apply KeepsO.ite | apply Keeps.ite | split | dsimp only

theorem State.writePeer_keeps (s : State) (cmd : Bool) (v : Nat) {s₀ : State} (hk : Keeps s₀ s) : Keeps s₀ (State.writePeer
    s cmd v) := by
  unfold State.writePeer
  with_reducible
    repeat' first
      | assumption | intro _ | apply Keeps.ite | split | apply Keeps.upd | dsimp only

theorem State.peerCmd_keeps (s : State) (op : Nat) (f : State → List Nat → State) {s₀ : State} (hk : Keeps s₀ s) (hf : ∀ (x0
    : State) (x1 : List Nat), Keeps s₀ x0 → Keeps s₀ (f x0 x1)) : Keeps s₀ (State.peerCmd s op f) := by
  unfold State.peerCmd
  with_reducible
    repeat' first
      | assumption | apply hf | apply Keeps.ite | split | apply Keeps.upd

theorem execPeerTakeover_keeps (s : State) {s₀ : State} (hk : Keeps s₀ s) : KeepsO s₀ (execPeerTakeover s) := by
  unfold execPeerTakeover
  with_reducible
    repeat' first
      | assumption | intro _ | apply State.clocked_keeps | apply State.setFld_keeps | apply State.stopMirrors_keeps
      | apply State.setCnt_keeps | apply State.takeover_keeps | apply State.peerCmd_keeps | apply KeepsO.next
      | apply KeepsO.ite | apply Keeps.ite | split | dsimp only

theorem State.askBack_keeps (s : State) (v : Served) {s₀ : State} (hk : Keeps s₀ s) : Keeps s₀ (State.askBack s v) := by
  unfold State.askBack
  with_reducible
    repeat' first
      | assumption | intro _ | apply State.setProg_keeps | apply State.freezeParked_keeps | apply Keeps.ite | apply Keeps.upd

theorem execHandbackReq_keeps (s : State) {s₀ : State} (hk : Keeps s₀ s) : KeepsO s₀ (execHandbackReq s) := by
  unfold execHandbackReq
  with_reducible
    repeat' first
      | assumption | intro _ | apply State.clocked_keeps | apply State.peerCmd_keeps | apply State.askBack_keeps
      | apply Keeps.foldl | apply Keeps1.foldl | apply KeepsO.next | apply KeepsO.ite | apply Keeps.ite
      | refine Keeps1.get ?_ (by assumption) | apply Keeps1.fst | apply Keeps1.ite | apply Keeps1.mk | split
      | apply Keeps.upd | dsimp only

theorem State.endService_keeps (s : State) (v : Served) {s₀ : State} (hk : Keeps s₀ s) : Keeps s₀ (State.endService s v) := by
  unfold State.endService
  with_reducible
    repeat' first
      | assumption | intro _ | apply State.setProg_keeps | apply State.syncProg_keeps | apply State.syncTaken_keeps
      | apply Keeps.foldl | apply Keeps.ite | apply Keeps.upd

theorem execHandbackDone_keeps (s : State) {s₀ : State} (hk : Keeps s₀ s) : KeepsO s₀ (execHandbackDone s) := by
  unfold execHandbackDone
  with_reducible
    repeat' first
      | assumption | intro _ | apply State.clocked_keeps | apply State.setCnt_keeps | apply State.startMirrors_keeps
      | apply State.peerCmd_keeps | apply State.endService_keeps | apply Keeps.foldl | apply Keeps1.foldl
      | apply KeepsO.next | apply KeepsO.ite | apply Keeps.ite | refine Keeps1.get ?_ (by assumption) | apply Keeps1.fst
      | apply Keeps1.ite | apply Keeps1.mk | split | apply Keeps.upd | dsimp only

theorem State.tellPartner_keeps (s : State) (progs : List Nat) (op : Nat) {s₀ : State} (hk : Keeps s₀ s) : Keeps s₀
    (State.tellPartner s progs op) := by
  unfold State.tellPartner
  with_reducible
    repeat' first
      | assumption | intro _ | apply State.request_keeps

theorem State.endReturn_keeps (s : State) {s₀ : State} (hk : Keeps s₀ s) : Keeps s₀ (State.endReturn s) := by
  unfold State.endReturn
  with_reducible
    repeat' first
      | assumption | apply State.setCnt_keeps | apply State.startMirrors_keeps | apply Keeps.ite | apply Keeps.upd

theorem execReturnSweepDone_keeps (env : Env) (s : State) {s₀ : State} (hk : Keeps s₀ s) : KeepsO s₀ (execReturnSweepDone
    env s) := by
  unfold execReturnSweepDone
  with_reducible
    repeat' first
      | assumption | intro _ | apply State.clocked_keeps | apply State.setCnt_keeps | apply State.doubleLoss_keeps
      | apply State.endReturn_keeps | apply KeepsO.next | apply KeepsO.ite | apply Keeps.ite | split | apply Keeps.upd
      | dsimp only

theorem State.pullRead_keeps (s : State) (part : Nat) (off : Nat) (n : Nat) {s₀ : State} (hk : Keeps s₀ s) : Keeps s₀
    (State.pullRead s part off n) := by
  unfold State.pullRead
  with_reducible
    repeat' first
      | assumption | intro _ | apply State.request_keeps | apply Keeps.foldl | apply Keeps.ite | apply Keeps1.fst
      | apply Keeps1.ite | split | apply Keeps1.mk | dsimp only

theorem State.readRegion_keeps (s : State) (n : Nat) (b : List Byte) (slots : List Nat) {s₀ : State} (hk : Keeps s₀ s) :
    Keeps s₀ (State.readRegion s n b slots) := by
  unfold State.readRegion
  with_reducible
    repeat' first
      | assumption | intro _ | apply State.pullRead_keeps | apply Keeps.foldl | apply Keeps.ite | apply Keeps1.fst
      | apply Keeps1.ite | split | apply Keeps1.mk | dsimp only

theorem State.pull_keeps (s : State) (n : Nat) (e : SeqSt) (env : Env) (x : Nat × Nat) {s₀ : State} (hk : Keeps s₀ s) :
    Keeps s₀ (State.pull s n e env x) := by
  unfold State.pull
  with_reducible
    repeat' first
      | assumption | intro _ | apply State.writeVA_keeps | apply State.invalidateEnd_keeps | apply State.pullRead_keeps
      | apply Keeps.ite | apply Keeps1.fst | apply Keeps1.ite | split | apply Keeps1.mk | dsimp only

theorem execBulkPullDone_keeps (env : Env) (s : State) {s₀ : State} (hk : Keeps s₀ s) : KeepsO s₀ (execBulkPullDone env s)
    := by
  unfold execBulkPullDone
  with_reducible
    repeat' first
      | assumption | intro _ | apply State.clocked_keeps | apply State.tellPartner_keeps | apply State.readRegion_keeps
      | apply State.pull_keeps | apply Keeps.foldl | apply KeepsO.next | apply KeepsO.ite | apply Keeps.ite
      | apply Keeps1.fst | apply Keeps1.ite | split | apply Keeps.upd | apply Keeps1.mk | dsimp only

theorem execFrozenPoll_keeps (n : Nat) (env : Env) (s : State) {s₀ : State} (hk : Keeps s₀ s) : KeepsO s₀ (execFrozenPoll n
    env s) := by
  unfold execFrozenPoll
  with_reducible
    repeat' first
      | assumption | intro _ | apply State.clocked_keeps | apply run_keeps | apply State.pullRead_keeps | apply KeepsO.next
      | apply KeepsO.ite | apply Keeps.ite | split | apply Keeps.upd | dsimp only

theorem execDeltaPullDone_keeps (n : Nat) (env : Env) (s : State) {s₀ : State} (hk : Keeps s₀ s) : KeepsO s₀
    (execDeltaPullDone n env s) := by
  unfold execDeltaPullDone
  with_reducible
    repeat' first
      | assumption | intro _ | apply State.clocked_keeps | apply run_keeps | apply State.setProg_keeps
      | apply State.syncProg_keeps | apply State.startProg_keeps | apply State.syncTaken_keeps
      | apply State.tellPartner_keeps | apply State.endReturn_keeps | apply State.readRegion_keeps | apply State.pull_keeps
      | apply Keeps.foldl | apply KeepsO.next | apply KeepsO.ite | apply Keeps.ite | apply Keeps1.fst | apply Keeps1.ite
      | split | apply Keeps.upd | apply Keeps1.mk | dsimp only

theorem State.tellHalfReset_keeps (s : State) (h : Half) (progs : List Nat) {s₀ : State} (hk : Keeps s₀ s) : Keeps s₀
    (State.tellHalfReset s h progs) := by
  unfold State.tellHalfReset
  with_reducible
    repeat' first
      | assumption | intro _ | apply State.tellPartner_keeps | apply Keeps.ite | apply Keeps.upd

theorem State.halfBack_keeps (s : State) (h : Half) {s₀ : State} (hk : Keeps s₀ s) : Keeps s₀ (State.halfBack s h) := by
  unfold State.halfBack
  with_reducible
    repeat' first
      | assumption | apply State.stopMirrors_keeps | apply State.beginReturn_keeps | apply Keeps.ite | split
      | apply Keeps.upd

theorem State.mirrorHandoff_keeps (s : State) (h : Handoff) {s₀ : State} (hk : Keeps s₀ s) : Keeps s₀ (State.mirrorHandoff s
    h) := by
  unfold State.mirrorHandoff
  with_reducible
    repeat' first
      | assumption | apply State.request_keeps

theorem execHandoffMirrorWritten_keeps (s : State) {s₀ : State} (hk : Keeps s₀ s) : KeepsO s₀ (execHandoffMirrorWritten s)
    := by
  unfold execHandoffMirrorWritten
  with_reducible
    repeat' first
      | assumption | intro _ | apply State.clocked_keeps | apply State.emit_keeps | apply State.sendPacket_keeps
      | apply State.takeFails_keeps | apply State.dropClient_keeps | apply State.mirrorHandoff_keeps
      | apply State.answer_keeps | apply KeepsO.next | apply KeepsO.ite | apply Keeps.ite
      | refine Keeps1.get ?_ (by assumption) | apply Keeps1.fst | apply Keeps1.ite | apply Keeps1.mk | split
      | apply Keeps.upd | dsimp only

end Sys2Proof.Machine
end

