-- ==== Sys2Proof/Laws/KeepsTsp.lean ====
section
/-!
SUPPORT. What the operations of Machine/Tsp.lean and its commands leave alone: none touches the queue of commands, and each keeps the
canonical form of memory and of the register files.
-/

namespace Sys2Proof.Machine

theorem State.setPort_keeps (s : State) (t : Nat) (st : Nat) {s₀ : State} (hk : Keeps s₀ s) : Keeps s₀ (State.setPort s t st) := by
  unfold State.setPort
  with_reducible
    repeat' first
      | assumption | intro _ | apply State.setFld_keeps | apply State.when_keeps | apply State.lifeAdd_keeps

theorem State.setPortCause_keeps (s : State) (t : Nat) (c : Nat) {s₀ : State} (hk : Keeps s₀ s) : Keeps s₀
    (State.setPortCause s t c) := by
  unfold State.setPortCause
  with_reducible
    repeat' first
      | assumption | apply State.setFld_keeps

theorem State.setPortLanes_keeps (s : State) (t : Nat) (tx : Nat) (rx : Nat) {s₀ : State} (hk : Keeps s₀ s) : Keeps s₀
    (State.setPortLanes s t tx rx) := by
  unfold State.setPortLanes
  with_reducible
    repeat' first
      | assumption | apply State.setFld_keeps

theorem State.setOutTiles_keeps (s : State) (t : Nat) (k : Nat) (l : List PortTile) {s₀ : State} (hk : Keeps s₀ s) : Keeps s₀
    (State.setOutTiles s t k l) := by
  unfold State.setOutTiles
  with_reducible
    repeat' first
      | assumption | apply Keeps.upd

theorem State.setInTiles_keeps (s : State) (t : Nat) (k : Nat) (l : List PortTile) {s₀ : State} (hk : Keeps s₀ s) : Keeps s₀
    (State.setInTiles s t k l) := by
  unfold State.setInTiles
  with_reducible
    repeat' first
      | assumption | apply State.setFld_keeps | apply Keeps.upd

theorem State.flushReturns_keeps (y0 : Nat) (y1 : State) (y2 : Nat) {s₀ : State} (hk : Keeps s₀ y1) : Keeps s₀
    (State.flushReturns y0 y1 y2) := by
  induction y0 generalizing y1 y2 with
  | zero =>
    unfold State.flushReturns
    with_reducible
      repeat' first
        | assumption | apply State.setLink_keeps | apply State.sendSeq_keeps | apply Keeps.ite | split
  | succ _ ih =>
    unfold State.flushReturns
    with_reducible
      repeat' first
        | assumption | apply ih | apply State.setLink_keeps | apply State.sendSeq_keeps | apply Keeps.ite | split

theorem State.returnTile_keeps (s : State) (t : Nat) (k : Nat) (n : Nat) {s₀ : State} (hk : Keeps s₀ s) : Keeps s₀
    (State.returnTile s t k n) := by
  unfold State.returnTile
  with_reducible
    repeat' first
      | assumption | apply State.setLink_keeps | apply State.flushReturns_keeps | apply Keeps.ite

theorem State.endTile_keeps (s : State) (x : PortTile) (status : Nat) {s₀ : State} (hk : Keeps s₀ s) : Keeps s₀
    (State.endTile s x status) := by
  unfold State.endTile
  with_reducible
    repeat' first
      | assumption | apply State.finishMove_keeps | apply Keeps.ite

theorem State.dropOut_keeps (s : State) (t : Nat) {s₀ : State} (hk : Keeps s₀ s) : Keeps s₀ (State.dropOut s t) := by
  unfold State.dropOut
  with_reducible
    repeat' first
      | assumption | intro _ | apply State.each_keeps | apply State.setOutTiles_keeps | apply State.endTile_keeps
      | apply Keeps.foldl

theorem State.dropWaiting_keeps (s : State) (t : Nat) {s₀ : State} (hk : Keeps s₀ s) : Keeps s₀ (State.dropWaiting s t) := by
  unfold State.dropWaiting
  with_reducible
    repeat' first
      | assumption | intro _ | apply State.each_keeps | apply State.finishMove_keeps | apply Keeps.ite

theorem State.unsend_keeps (s : State) (t : Nat) {s₀ : State} (hk : Keeps s₀ s) : Keeps s₀ (State.unsend s t) := by
  unfold State.unsend
  with_reducible
    repeat' first
      | assumption | intro _ | apply State.each_keeps | apply State.setOutTiles_keeps

theorem State.tileCovered_keeps (s : State) (t : Nat) (k : Nat) (tseq : Nat) {s₀ : State} (hk : Keeps s₀ s) : Keeps s₀
    (State.tileCovered s t k tseq) := by
  unfold State.tileCovered
  with_reducible
    repeat' first
      | assumption | intro _ | apply State.when_keeps | apply State.moveWritten_keeps | apply State.setOutTiles_keeps | split
      | apply Keeps.upd

theorem State.portFail_keeps (s : State) (t : Nat) (cause : Nat) {s₀ : State} (hk : Keeps s₀ s) : Keeps s₀ (State.portFail s
    t cause) := by
  unfold State.portFail
  with_reducible
    repeat' first
      | assumption | apply State.record_keeps | apply State.setLink_keeps | apply State.setPort_keeps
      | apply State.setPortCause_keeps | apply State.dropOut_keeps | apply Keeps.ite

theorem State.portDown_keeps (s : State) (t : Nat) (st : Nat) {s₀ : State} (hk : Keeps s₀ s) : Keeps s₀ (State.portDown s t
    st) := by
  unfold State.portDown
  with_reducible
    repeat' first
      | assumption | apply State.setLink_keeps | apply State.sendControl_keeps | apply State.setPort_keeps
      | apply State.setPortLanes_keeps | apply State.unsend_keeps | apply Keeps.ite

theorem State.portFault_keeps (s : State) (t : Nat) {s₀ : State} (hk : Keeps s₀ s) : Keeps s₀ (State.portFault s t) := by
  unfold State.portFault
  with_reducible
    repeat' first
      | assumption | apply State.bump_keeps | apply State.portDown_keeps | apply Keeps.ite

theorem State.sendPortCaps_keeps (s : State) (t : Nat) {s₀ : State} (hk : Keeps s₀ s) : Keeps s₀ (State.sendPortCaps s t) := by
  unfold State.sendPortCaps
  with_reducible
    repeat' first
      | assumption | apply State.sendSeq_keeps | apply Keeps.ite

theorem State.beginNegotiate_keeps (s : State) (t : Nat) {s₀ : State} (hk : Keeps s₀ s) : Keeps s₀ (State.beginNegotiate s
    t) := by
  unfold State.beginNegotiate
  with_reducible
    repeat' first
      | assumption | intro _ | apply State.finishCommit_keeps | apply State.setLink_keeps | apply State.replay_keeps
      | apply State.startStream_keeps | apply Keeps.ite | split | apply Keeps.upd | dsimp only

theorem State.portUp_keeps (s : State) (t : Nat) (c : Caps) (lanes : Nat) (fresh : Bool) {s₀ : State} (hk : Keeps s₀ s) :
    Keeps s₀ (State.portUp s t c lanes fresh) := by
  unfold State.portUp
  with_reducible
    repeat' first
      | assumption | intro _ | apply State.setFld_keeps | apply State.bump_keeps | apply State.each_keeps
      | apply State.setLink_keeps | apply State.setPort_keeps | apply State.setPortCause_keeps
      | apply State.setPortLanes_keeps | apply State.setOutTiles_keeps | apply Keeps.ite | apply Keeps.upd

theorem State.tryPortUp_keeps (s : State) (t : Nat) {s₀ : State} (hk : Keeps s₀ s) : Keeps s₀ (State.tryPortUp s t) := by
  unfold State.tryPortUp
  with_reducible
    repeat' first
      | assumption | apply State.portFail_keeps | apply State.portUp_keeps | apply Keeps.ite | split | apply Keeps.upd

theorem State.takePortCaps_keeps (s : State) (t : Nat) (c : Caps) {s₀ : State} (hk : Keeps s₀ s) : Keeps s₀
    (State.takePortCaps s t c) := by
  unfold State.takePortCaps
  with_reducible
    repeat' first
      | assumption | apply State.setLink_keeps | apply State.sendPortCaps_keeps | apply State.tryPortUp_keeps

theorem State.portLaneDrop_keeps (s : State) (t : Nat) (lane : Nat) {s₀ : State} (hk : Keeps s₀ s) : Keeps s₀
    (State.portLaneDrop s t lane) := by
  unfold State.portLaneDrop
  with_reducible
    repeat' first
      | assumption | intro _ | apply State.setFld_keeps | apply State.bump_keeps | apply State.startStream_keeps
      | apply State.resend_keeps | apply State.setPort_keeps | apply Keeps.ite | split | dsimp only

theorem State.portWide_keeps (s : State) (t : Nat) {s₀ : State} (hk : Keeps s₀ s) : Keeps s₀ (State.portWide s t) := by
  unfold State.portWide
  with_reducible
    repeat' first
      | assumption | apply State.setPort_keeps | apply Keeps.ite

theorem State.portLaneRestore_keeps (s : State) (t : Nat) {s₀ : State} (hk : Keeps s₀ s) : Keeps s₀ (State.portLaneRestore s
    t) := by
  unfold State.portLaneRestore
  with_reducible
    repeat' first
      | assumption | intro _ | apply State.setFld_keeps | apply State.startStream_keeps | apply State.resend_keeps
      | apply State.portWide_keeps | apply Keeps.ite | split | dsimp only

theorem State.tspUnitError_keeps (s : State) (t : Nat) {s₀ : State} (hk : Keeps s₀ s) : Keeps s₀ (State.tspUnitError s t) := by
  unfold State.tspUnitError
  with_reducible
    repeat' first
      | assumption | apply State.bump_keeps

theorem State.takeTcw_keeps (s : State) (t : Nat) (w : Nat) {s₀ : State} (hk : Keeps s₀ s) : Keeps s₀ (State.takeTcw s t w) := by
  unfold State.takeTcw
  with_reducible
    repeat' first
      | assumption | intro _ | apply State.wrap_keeps | apply State.setLink_keeps | apply State.resend_keeps
      | apply State.flushReturns_keeps | apply State.tileCovered_keeps | apply State.portFault_keeps
      | apply State.tryPortUp_keeps | apply State.portLaneDrop_keeps | apply State.portLaneRestore_keeps | apply Keeps.foldl
      | split

theorem State.takeTspUnits_keeps (y0 : Nat) (y1 : State) (y2 : Nat) (y3 : List Nat) {s₀ : State} (hk : Keeps s₀ y1) : Keeps
    s₀ (State.takeTspUnits y0 y1 y2 y3) := by
  induction y0 generalizing y1 y3 with
  | zero => exact hk
  | succ k ih =>
    cases y3 with
    | nil => exact hk
    | cons w rest =>
      unfold State.takeTspUnits
      with_reducible apply Keeps.ite
      · exact hk
      with_reducible apply Keeps.ite
      · with_reducible apply Keeps.ite
        · exact ih _ _ (State.setLink_keeps _ _ _ hk)
        · with_reducible apply ih
          repeat' first | with_reducible assumption | with_reducible apply State.setLink_keeps | with_reducible apply State.takeTcw_keeps | with_reducible apply State.takePortCaps_keeps | with_reducible apply State.tspUnitError_keeps | with_reducible apply Keeps.ite
      with_reducible apply Keeps.ite
      · with_reducible apply ih
        repeat' first | with_reducible assumption | with_reducible apply State.setLink_keeps | with_reducible apply State.takeTcw_keeps | with_reducible apply State.takePortCaps_keeps | with_reducible apply State.tspUnitError_keeps | with_reducible apply Keeps.ite
      with_reducible apply Keeps.ite
      · with_reducible apply ih
        repeat' first | with_reducible assumption | with_reducible apply State.setLink_keeps | with_reducible apply State.takeTcw_keeps | with_reducible apply State.takePortCaps_keeps | with_reducible apply State.tspUnitError_keeps | with_reducible apply Keeps.ite
      with_reducible apply Keeps.ite
      · with_reducible apply Keeps.ite
        · exact State.tspUnitError_keeps _ _ hk
        · split
          · with_reducible apply ih
            repeat' first | with_reducible assumption | with_reducible apply State.setLink_keeps | with_reducible apply State.takeTcw_keeps | with_reducible apply State.takePortCaps_keeps | with_reducible apply State.tspUnitError_keeps | with_reducible apply Keeps.ite
          · exact ih _ _ (State.tspUnitError_keeps _ _ hk)
      · exact ih _ _ (State.tspUnitError_keeps _ _ hk)

theorem execTspFlitReceive_keeps (t : Nat) (b : List Byte) (uncorrectable : Bool) (s : State) {s₀ : State} (hk : Keeps s₀ s)
    : KeepsO s₀ (execTspFlitReceive t b uncorrectable s) := by
  unfold execTspFlitReceive
  with_reducible
    repeat' first
      | assumption | intro _ | apply State.clocked_keeps | apply run_keeps | apply State.bump_keeps
      | apply State.flitBad_keeps | apply State.flitTaken_keeps | apply State.ackDue_keeps | apply State.tspUnitError_keeps
      | apply State.takeTcw_keeps | apply State.takeTspUnits_keeps | apply Keeps.foldl | apply Keeps1.foldl
      | apply KeepsO.next | apply KeepsO.ite | apply Keeps.ite | refine Keeps1.get ?_ (by assumption) | apply Keeps1.fst
      | apply Keeps1.ite | apply Keeps1.mk | split | apply Keeps.upd | dsimp only

theorem execTileUnit_keeps (t : Nat) (s : State) {s₀ : State} (hk : Keeps s₀ s) : KeepsO s₀ (execTileUnit t s) := by
  unfold execTileUnit
  with_reducible
    repeat' first
      | assumption | intro _ | apply State.clocked_keeps | apply run_keeps | apply State.bump_keeps
      | apply State.wrap_keeps | apply State.setLink_keeps | apply State.setInTiles_keeps | apply State.returnTile_keeps
      | apply State.tspUnitError_keeps | apply KeepsO.next | apply KeepsO.ite | apply Keeps.ite | apply Keeps1.fst
      | apply Keeps1.ite | apply Keeps1.mk | split | apply Keeps.upd | dsimp only

theorem State.dropTooBig_keeps (s : State) (t : Nat) {s₀ : State} (hk : Keeps s₀ s) : Keeps s₀ (State.dropTooBig s t) := by
  unfold State.dropTooBig
  with_reducible
    repeat' first
      | assumption | intro _ | apply State.setFlag_keeps | apply State.each_keeps | apply State.setOutTiles_keeps
      | apply State.endTile_keeps | apply Keeps.foldl

theorem State.sendTile_keeps (s : State) (t : Nat) (k : Nat) (x : PortTile) {s₀ : State} (hk : Keeps s₀ s) : Keeps s₀
    (State.sendTile s t k x) := by
  unfold State.sendTile
  with_reducible
    repeat' first
      | assumption | intro _ | apply State.wrap_keeps | apply State.less_keeps | apply State.each_keeps
      | apply State.setLink_keeps | apply State.sendSeq_keeps | apply State.setOutTiles_keeps | apply Keeps.ite | split
      | apply Keeps.upd | dsimp only

theorem execTspTileSend_keeps (t : Nat) (s : State) {s₀ : State} (hk : Keeps s₀ s) : KeepsO s₀ (execTspTileSend t s) := by
  unfold execTspTileSend
  with_reducible
    repeat' first
      | assumption | intro _ | apply State.clocked_keeps | apply run_keeps | apply State.dropTooBig_keeps
      | apply State.sendTile_keeps | apply KeepsO.next | apply KeepsO.ite | apply Keeps.ite | split | dsimp only

theorem execTspInboundTileTaken_keeps (ch : Nat) (s : State) {s₀ : State} (hk : Keeps s₀ s) : KeepsO s₀
    (execTspInboundTileTaken ch s) := by
  unfold execTspInboundTileTaken
  with_reducible
    repeat' first
      | assumption | intro _ | apply State.clocked_keeps | apply run_keeps | apply State.cross_keeps
      | apply State.setChan_keeps | apply State.finishMove_keeps | apply State.acceptHeader_keeps
      | apply State.setInTiles_keeps | apply State.returnTile_keeps | apply KeepsO.next | apply KeepsO.ite
      | apply Keeps.ite | apply Keeps1.fst | apply Keeps1.ite | split | apply Keeps.upd | apply Keeps1.mk | dsimp only

theorem State.discardIn_keeps (s : State) (t : Nat) (k : Nat) {s₀ : State} (hk : Keeps s₀ s) : Keeps s₀ (State.discardIn s t
    k) := by
  unfold State.discardIn
  with_reducible
    repeat' first
      | assumption | intro _ | apply State.setInTiles_keeps | apply State.returnTile_keeps | apply Keeps.foldl

theorem State.orphanOut_keeps (s : State) (ch : Nat) {s₀ : State} (hk : Keeps s₀ s) : Keeps s₀ (State.orphanOut s ch) := by
  unfold State.orphanOut
  with_reducible
    repeat' first
      | assumption | intro _ | apply State.setOutTiles_keeps | apply Keeps.ite | apply Keeps1.fst | apply Keeps1.ite
      | split | apply Keeps.upd | apply Keeps1.mk | dsimp only

theorem State.abandonOut_keeps (s : State) (ch : Nat) {s₀ : State} (hk : Keeps s₀ s) : Keeps s₀ (State.abandonOut s ch) :=
    by
  unfold State.abandonOut
  with_reducible
    repeat' first
      | assumption | intro _ | apply State.finishMove_keeps | apply State.orphanOut_keeps | apply Keeps.ite | split
      | dsimp only

theorem State.writePortCtrl_keeps (s : State) (t : Nat) (v : Word) {s₀ : State} (hk : Keeps s₀ s) : Keeps s₀
    (State.writePortCtrl s t v) := by
  unfold State.writePortCtrl
  with_reducible
    repeat' first
      | assumption | apply State.plainWrite_keeps | apply State.setPort_keeps | apply State.dropOut_keeps
      | apply State.dropWaiting_keeps | apply State.portDown_keeps | apply State.portFault_keeps | apply Keeps.ite

theorem execTspDisableClear_keeps (src : Source) (t : Nat) (s : State) {s₀ : State} (hk : Keeps s₀ s) : KeepsO s₀
    (execTspDisableClear src t s) := by
  unfold execTspDisableClear
  with_reducible
    repeat' first
      | assumption | intro _ | apply State.clocked_keeps | apply run_keeps | apply State.gated_keeps
      | apply State.writePortCtrl_keeps | apply KeepsO.next | apply KeepsO.ite | apply Keeps.ite | split | dsimp only

theorem execTspDisable_keeps (src : Source) (t : Nat) (s : State) {s₀ : State} (hk : Keeps s₀ s) : KeepsO s₀ (execTspDisable
    src t s) := by
  unfold execTspDisable
  with_reducible
    repeat' first
      | assumption | intro _ | apply State.clocked_keeps | apply run_keeps | apply State.gated_keeps
      | apply State.writePortCtrl_keeps | apply KeepsO.next | apply KeepsO.ite | apply Keeps.ite | split | dsimp only

theorem execTspTrainDone_keeps (t : Nat) (lanes : Nat) (s : State) {s₀ : State} (hk : Keeps s₀ s) : KeepsO s₀
    (execTspTrainDone t lanes s) := by
  unfold execTspTrainDone
  with_reducible
    repeat' first
      | assumption | intro _ | apply State.clocked_keeps | apply run_keeps | apply State.setPort_keeps
      | apply State.setPortLanes_keeps | apply State.sendPortCaps_keeps | apply State.beginNegotiate_keeps
      | apply KeepsO.next | apply KeepsO.ite | apply Keeps.ite | split | dsimp only

theorem execTspTrainTimeout_keeps (t : Nat) (lock : Bool) (s : State) {s₀ : State} (hk : Keeps s₀ s) : KeepsO s₀
    (execTspTrainTimeout t lock s) := by
  unfold execTspTrainTimeout
  with_reducible
    repeat' first
      | assumption | intro _ | apply State.clocked_keeps | apply run_keeps | apply State.portFail_keeps | apply KeepsO.next
      | apply KeepsO.ite | apply Keeps.ite | split | dsimp only

theorem execTspNegotiateTimeout_keeps (t : Nat) (s : State) {s₀ : State} (hk : Keeps s₀ s) : KeepsO s₀
    (execTspNegotiateTimeout t s) := by
  unfold execTspNegotiateTimeout
  with_reducible
    repeat' first
      | assumption | intro _ | apply State.clocked_keeps | apply run_keeps | apply State.portFail_keeps | apply KeepsO.next
      | apply KeepsO.ite | apply Keeps.ite | split | dsimp only

theorem execTspLaneLoss_keeps (t : Nat) (mask : Nat) (s : State) {s₀ : State} (hk : Keeps s₀ s) : KeepsO s₀ (execTspLaneLoss
    t mask s) := by
  unfold execTspLaneLoss
  with_reducible
    repeat' first
      | assumption | intro _ | apply State.clocked_keeps | apply run_keeps | apply State.setFld_keeps
      | apply State.bump_keeps | apply State.setLink_keeps | apply State.sendControl_keeps | apply State.setPort_keeps
      | apply State.portFault_keeps | apply KeepsO.next | apply KeepsO.ite | apply Keeps.ite | split | apply Keeps.upd
      | dsimp only

theorem execTspRecoverDone_keeps (t : Nat) (ok : Bool) (caps : List Nat) (lanes : Nat) (s : State) {s₀ : State} (hk : Keeps
    s₀ s) : KeepsO s₀ (execTspRecoverDone t ok caps lanes s) := by
  unfold execTspRecoverDone
  with_reducible
    repeat' first
      | assumption | intro _ | apply State.clocked_keeps | apply run_keeps | apply State.portFail_keeps
      | apply State.sendPortCaps_keeps | apply State.beginNegotiate_keeps | apply State.portUp_keeps | apply KeepsO.next
      | apply KeepsO.ite | apply Keeps.ite | split | dsimp only

theorem execTspRetry_keeps (src : Option Source) (t : Nat) (s : State) {s₀ : State} (hk : Keeps s₀ s) : KeepsO s₀
    (execTspRetry src t s) := by
  unfold execTspRetry
  with_reducible
    repeat' first
      | assumption | intro _ | apply State.clocked_keeps | apply run_keeps | apply State.gated_keeps
      | apply State.setPort_keeps | apply State.writePortCtrl_keeps | apply KeepsO.next | apply KeepsO.ite
      | apply Keeps.ite | split | dsimp only

theorem execTspRefclkLoss_keeps (k : Nat) (s : State) {s₀ : State} (hk : Keeps s₀ s) : KeepsO s₀ (execTspRefclkLoss k s) :=
    by
  unfold execTspRefclkLoss
  with_reducible
    repeat' first
      | assumption | intro _ | apply State.clocked_keeps | apply run_keeps | apply State.setBit_keeps
      | apply State.each_keeps | apply State.record_keeps | apply State.setPortCause_keeps | apply State.portDown_keeps
      | apply KeepsO.next | apply KeepsO.ite | apply Keeps.ite | split | dsimp only

theorem execTspRefclkReturn_keeps (k : Nat) (s : State) {s₀ : State} (hk : Keeps s₀ s) : KeepsO s₀ (execTspRefclkReturn k s)
    := by
  unfold execTspRefclkReturn
  with_reducible
    repeat' first
      | assumption | intro _ | apply State.clocked_keeps | apply run_keeps | apply State.setBit_keeps | apply KeepsO.next
      | apply KeepsO.ite | apply Keeps.ite | split | dsimp only

theorem State.commitTsp_keeps (s : State) (t : Nat) {s₀ : State} (hk : Keeps s₀ s) : Keeps s₀ (State.commitTsp s t) := by
  unfold State.commitTsp
  with_reducible
    repeat' first
      | assumption | intro _ | apply State.beginCommit_keeps | apply State.rejectCommit_keeps | apply Keeps.ite

theorem execTspPortCommit_keeps (src : Source) (t : Nat) (s : State) {s₀ : State} (hk : Keeps s₀ s) : KeepsO s₀
    (execTspPortCommit src t s) := by
  unfold execTspPortCommit
  with_reducible
    repeat' first
      | assumption | intro _ | apply State.clocked_keeps | apply run_keeps | apply State.gated_keeps
      | apply State.commitTsp_keeps | apply KeepsO.next | apply KeepsO.ite | apply Keeps.ite | split | dsimp only

theorem State.portAckTimer_keeps (s : State) (t : Nat) {s₀ : State} (hk : Keeps s₀ s) : Keeps s₀ (State.portAckTimer s t) := by
  unfold State.portAckTimer
  with_reducible
    repeat' first
      | assumption | apply State.sendAck_keeps | apply Keeps.ite

theorem State.portNakRepeat_keeps (s : State) (t : Nat) {s₀ : State} (hk : Keeps s₀ s) : Keeps s₀ (State.portNakRepeat s t) := by
  unfold State.portNakRepeat
  with_reducible
    repeat' first
      | assumption | apply State.bump_keeps | apply State.setLink_keeps | apply State.sendAck_keeps
      | apply State.portFault_keeps | apply Keeps.ite

theorem State.portMarker_keeps (s : State) (t : Nat) (ok : Bool) {s₀ : State} (hk : Keeps s₀ s) : Keeps s₀ (State.portMarker
    s t ok) := by
  unfold State.portMarker
  with_reducible
    repeat' first
      | assumption | apply State.setLink_keeps | apply State.portFault_keeps | apply Keeps.ite

theorem State.portLaneTest_keeps (s : State) (t : Nat) (hold : Bool) (ser : Nat) {s₀ : State} (hk : Keeps s₀ s) : Keeps s₀
    (State.portLaneTest s t hold ser) := by
  unfold State.portLaneTest
  with_reducible
    repeat' first
      | assumption | apply State.setFld_keeps | apply State.setLink_keeps | apply State.sendControl_keeps
      | apply State.portWide_keeps | apply Keeps.ite | split | apply Keeps.upd

end Sys2Proof.Machine
end

