-- ==== Sys2Proof/Laws/KeepsLinks.lean ====
section
/-!
SUPPORT. What the operations of Machine/Links.lean and its commands leave alone: none touches the queue of commands, and each keeps the
canonical form of memory and of the register files.
-/

namespace Sys2Proof.Machine

theorem State.setLstate_keeps (s : State) (l : Nat) (st : Nat) {s₀ : State} (hk : Keeps s₀ s) : Keeps s₀ (State.setLstate s l
    st) := by
  unfold State.setLstate
  with_reducible
    repeat' first
      | assumption | apply State.setFld_keeps | apply State.setBit_keeps

theorem State.setTxLanes_keeps (s : State) (l : Nat) (l0 : Bool) (l1 : Bool) {s₀ : State} (hk : Keeps s₀ s) : Keeps s₀
    (State.setTxLanes s l l0 l1) := by
  unfold State.setTxLanes
  with_reducible
    repeat' first
      | assumption | apply State.setFlag_keeps

theorem State.setRxLanes_keeps (s : State) (l : Nat) (l0 : Bool) (l1 : Bool) {s₀ : State} (hk : Keeps s₀ s) : Keeps s₀
    (State.setRxLanes s l l0 l1) := by
  unfold State.setRxLanes
  with_reducible
    repeat' first
      | assumption | apply State.setFlag_keeps

theorem State.setLock_keeps (s : State) (l : Nat) (l0 : Bool) (l1 : Bool) {s₀ : State} (hk : Keeps s₀ s) : Keeps s₀
    (State.setLock s l l0 l1) := by
  unfold State.setLock
  with_reducible
    repeat' first
      | assumption | apply State.setFlag_keeps

theorem State.sendReach_keeps (s : State) (l : Nat) {s₀ : State} (hk : Keeps s₀ s) : Keeps s₀ (State.sendReach s l) := by
  unfold State.sendReach
  with_reducible
    repeat' first
      | assumption | apply State.setLink_keeps | apply State.sendSeq_keeps | apply Keeps.ite

theorem State.syncReach_keeps (s : State) {s₀ : State} (hk : Keeps s₀ s) : Keeps s₀ (State.syncReach s) := by
  unfold State.syncReach
  with_reducible
    repeat' first
      | assumption | intro _ | apply State.wr_keeps | apply State.setBit_keeps | apply State.sendSync_keeps
      | apply State.sendReach_keeps | apply Keeps.foldl | apply Keeps.ite | apply Keeps.upd

theorem State.linkFail_keeps (s : State) (l : Nat) (cause : Nat) {s₀ : State} (hk : Keeps s₀ s) : Keeps s₀ (State.linkFail s
    l cause) := by
  unfold State.linkFail
  with_reducible
    repeat' first
      | assumption | apply State.setFld_keeps | apply State.record_keeps | apply State.setLink_keeps
      | apply State.cohLinkDown_keeps | apply State.setLstate_keeps | apply Keeps.ite | split | apply Keeps.upd

theorem State.handBack_keeps (s : State) (l : Nat) {s₀ : State} (hk : Keeps s₀ s) : Keeps s₀ (State.handBack s l) := by
  unfold State.handBack
  with_reducible
    repeat' first
      | assumption | intro _ | apply State.setLink_keeps | apply State.enterSwitch_keeps | apply Keeps.foldl

theorem State.abortCut_keeps (s : State) (l : Nat) {s₀ : State} (hk : Keeps s₀ s) : Keeps s₀ (State.abortCut s l) := by
  unfold State.abortCut
  with_reducible
    repeat' first
      | assumption | intro _ | apply State.wrap_keeps | apply State.less_keeps | apply State.each_keeps
      | apply State.sendSeq_keeps | apply Keeps.ite | split | apply Keeps.upd | dsimp only

theorem State.leaveUp_keeps (s : State) (l : Nat) (st : Nat) {s₀ : State} (hk : Keeps s₀ s) : Keeps s₀ (State.leaveUp s l st) := by
  unfold State.leaveUp
  with_reducible
    repeat' first
      | assumption | apply State.setLink_keeps | apply State.sendControl_keeps | apply State.setLstate_keeps
      | apply State.setTxLanes_keeps | apply State.setRxLanes_keeps | apply State.syncReach_keeps
      | apply State.handBack_keeps

theorem State.linkFault_keeps (s : State) (l : Nat) {s₀ : State} (hk : Keeps s₀ s) : Keeps s₀ (State.linkFault s l) := by
  unfold State.linkFault
  with_reducible
    repeat' first
      | assumption | intro _ | apply State.bump_keeps | apply State.abortCut_keeps | apply State.leaveUp_keeps
      | apply Keeps.ite | split | dsimp only

theorem State.loadCredits_keeps (s : State) (l : Nat) (c : Caps) {s₀ : State} (hk : Keeps s₀ s) : Keeps s₀ (State.loadCredits
    s l c) := by
  unfold State.loadCredits
  with_reducible
    repeat' first
      | assumption | intro _ | apply State.setFld_keeps | apply State.each_keeps

theorem State.linkNegotiated_keeps (s : State) (l : Nat) (c : Caps) {s₀ : State} (hk : Keeps s₀ s) : Keeps s₀
    (State.linkNegotiated s l c) := by
  unfold State.linkNegotiated
  with_reducible
    repeat' first
      | assumption | apply State.setFld_keeps | apply State.bump_keeps | apply State.setLink_keeps
      | apply State.sendSync_keeps | apply State.setLstate_keeps | apply State.setTxLanes_keeps
      | apply State.setRxLanes_keeps | apply State.loadCredits_keeps | apply Keeps.ite | split

theorem State.tryUp_keeps (s : State) (l : Nat) {s₀ : State} (hk : Keeps s₀ s) : Keeps s₀ (State.tryUp s l) := by
  unfold State.tryUp
  with_reducible
    repeat' first
      | assumption | apply State.linkFail_keeps | apply State.linkNegotiated_keeps | apply Keeps.ite | split
      | apply Keeps.upd

theorem State.sendCaps_keeps (s : State) (l : Nat) {s₀ : State} (hk : Keeps s₀ s) : Keeps s₀ (State.sendCaps s l) := by
  unfold State.sendCaps
  with_reducible
    repeat' first
      | assumption | apply State.sendSeq_keeps | apply Keeps.ite

theorem State.negotiate_keeps (s : State) (l : Nat) {s₀ : State} (hk : Keeps s₀ s) : Keeps s₀ (State.negotiate s l) := by
  unfold State.negotiate
  with_reducible
    repeat' first
      | assumption | intro _ | apply State.setLink_keeps | apply State.replay_keeps | apply State.startStream_keeps
      | apply State.setLstate_keeps | apply State.sendCaps_keeps | apply Keeps.ite | split | apply Keeps.upd | dsimp only

theorem State.unitError_keeps (s : State) (l : Nat) {s₀ : State} (hk : Keeps s₀ s) : Keeps s₀ (State.unitError s l) := by
  unfold State.unitError
  with_reducible
    repeat' first
      | assumption | apply State.bump_keeps

theorem State.addCredits_keeps (s : State) (l : Nat) (pool : Nat) (n : Nat) {s₀ : State} (hk : Keeps s₀ s) : Keeps s₀
    (State.addCredits s l pool n) := by
  unfold State.addCredits
  with_reducible
    repeat' first
      | assumption | apply State.wrap_keeps

theorem State.laneDrop_keeps (s : State) (l : Nat) (lane : Nat) {s₀ : State} (hk : Keeps s₀ s) : Keeps s₀ (State.laneDrop s
    l lane) := by
  unfold State.laneDrop
  with_reducible
    repeat' first
      | assumption | intro _ | apply State.bump_keeps | apply State.startStream_keeps | apply State.resend_keeps
      | apply State.setLstate_keeps | apply State.setTxLanes_keeps | apply Keeps.ite | split | dsimp only

theorem State.laneRestore_keeps (s : State) (l : Nat) {s₀ : State} (hk : Keeps s₀ s) : Keeps s₀ (State.laneRestore s l) :=
    by
  unfold State.laneRestore
  with_reducible
    repeat' first
      | assumption | intro _ | apply State.startStream_keeps | apply State.resend_keeps | apply State.setLstate_keeps
      | apply State.setTxLanes_keeps | apply Keeps.ite | split | dsimp only

theorem State.takeLcw_keeps (s : State) (l : Nat) (w : Nat) {s₀ : State} (hk : Keeps s₀ s) : Keeps s₀ (State.takeLcw s l w) := by
  unfold State.takeLcw
  with_reducible
    repeat' first
      | assumption | apply State.setLink_keeps | apply State.resend_keeps | apply State.linkFault_keeps
      | apply State.tryUp_keeps | apply State.addCredits_keeps | apply State.laneDrop_keeps | apply State.laneRestore_keeps
      | split

theorem State.takeCaps_keeps (s : State) (l : Nat) (c : Caps) {s₀ : State} (hk : Keeps s₀ s) : Keeps s₀ (State.takeCaps s l
    c) := by
  unfold State.takeCaps
  with_reducible
    repeat' first
      | assumption | apply State.setLink_keeps | apply State.tryUp_keeps | apply State.sendCaps_keeps

theorem State.takeReach_keeps (s : State) (l : Nat) (w : Nat) (map : Nat) {s₀ : State} (hk : Keeps s₀ s) : Keeps s₀
    (State.takeReach s l w map) := by
  unfold State.takeReach
  with_reducible
    repeat' first
      | assumption | intro _ | apply State.setLink_keeps | apply Keeps.ite

theorem State.takeUnits_keeps (y0 : Nat) (y1 : State) (y2 : Nat) (y3 : List Nat) {s₀ : State} (hk : Keeps s₀ y1) : Keeps s₀
    (State.takeUnits y0 y1 y2 y3) := by
  induction y0 generalizing y1 y3 with
  | zero => exact hk
  | succ k ih =>
    cases y3 with
    | nil => exact hk
    | cons w rest =>
      unfold State.takeUnits
      with_reducible apply Keeps.ite
      · exact hk
      with_reducible apply Keeps.ite
      · with_reducible apply ih
        repeat' first | with_reducible assumption | with_reducible apply State.setLink_keeps | with_reducible apply State.unitError_keeps | with_reducible apply Keeps.ite
      with_reducible apply Keeps.ite
      · with_reducible apply ih
        repeat' first | with_reducible assumption | with_reducible apply State.setLink_keeps | with_reducible apply State.unitError_keeps | with_reducible apply Keeps.ite
      with_reducible apply Keeps.ite
      · with_reducible apply ih
        repeat' first | with_reducible assumption | with_reducible apply State.setLink_keeps | with_reducible apply State.unitError_keeps | with_reducible apply Keeps.ite
      with_reducible apply Keeps.ite
      · with_reducible apply ih
        repeat' first | with_reducible assumption | with_reducible apply State.setLink_keeps | with_reducible apply State.takeLcw_keeps | with_reducible apply State.unitError_keeps | with_reducible apply Keeps.ite
      with_reducible apply Keeps.ite
      · cases rest with
        | nil => exact State.unitError_keeps _ _ hk
        | cons m r =>
          dsimp only
          with_reducible apply ih
          repeat' first | with_reducible assumption | with_reducible apply State.takeReach_keeps | with_reducible apply State.unitError_keeps | with_reducible apply Keeps.ite
      with_reducible apply Keeps.ite
      · with_reducible apply ih
        repeat' first | with_reducible assumption | with_reducible apply State.setLink_keeps | with_reducible apply State.unitError_keeps | with_reducible apply Keeps.ite
      with_reducible apply Keeps.ite
      · with_reducible apply Keeps.ite
        · exact State.unitError_keeps _ _ hk
        · split
          · with_reducible apply ih
            repeat' first | with_reducible assumption | with_reducible apply State.takeCaps_keeps | with_reducible apply State.unitError_keeps | with_reducible apply Keeps.ite
          · exact ih _ _ (State.unitError_keeps _ _ hk)
      · exact ih _ _ (State.unitError_keeps _ _ hk)

theorem execFlitReceive_keeps (l : Nat) (b : List Byte) (uncorrectable : Bool) (cw : Nat) (s0 : Nat) (s1 : Nat) (s : State)
    {s₀ : State} (hk : Keeps s₀ s) : KeepsO s₀ (execFlitReceive l b uncorrectable cw s0 s1 s) := by
  unfold execFlitReceive
  with_reducible
    repeat' first
      | assumption | intro _ | apply State.clocked_keeps | apply run_keeps | apply State.bump_keeps
      | apply State.wrap_keeps | apply State.flitBad_keeps | apply State.flitTaken_keeps | apply State.ackDue_keeps
      | apply State.unitError_keeps | apply State.takeLcw_keeps | apply State.takeUnits_keeps | apply Keeps.foldl
      | apply Keeps1.foldl | apply KeepsO.next | apply KeepsO.ite | apply Keeps.ite | refine Keeps1.get ?_ (by assumption)
      | apply Keeps1.fst | apply Keeps1.ite | apply Keeps1.mk | split | apply Keeps.upd | dsimp only

theorem execAckTimer_keeps (l : Nat) (s : State) {s₀ : State} (hk : Keeps s₀ s) : KeepsO s₀ (execAckTimer l s) := by
  unfold execAckTimer
  with_reducible
    repeat' first
      | assumption | intro _ | apply State.clocked_keeps | apply run_keeps | apply State.sendAck_keeps
      | apply State.portAckTimer_keeps | apply KeepsO.next | apply KeepsO.ite | apply Keeps.ite | split | dsimp only

theorem execNakRepeat_keeps (l : Nat) (s : State) {s₀ : State} (hk : Keeps s₀ s) : KeepsO s₀ (execNakRepeat l s) := by
  unfold execNakRepeat
  with_reducible
    repeat' first
      | assumption | intro _ | apply State.clocked_keeps | apply run_keeps | apply State.bump_keeps
      | apply State.setLink_keeps | apply State.sendAck_keeps | apply State.portNakRepeat_keeps
      | apply State.linkFault_keeps | apply KeepsO.next | apply KeepsO.ite | apply Keeps.ite | split | apply Keeps.upd
      | dsimp only

theorem execDetectSignal_keeps (l : Nat) (s : State) {s₀ : State} (hk : Keeps s₀ s) : KeepsO s₀ (execDetectSignal l s) := by
  unfold execDetectSignal
  with_reducible
    repeat' first
      | assumption | intro _ | apply State.clocked_keeps | apply run_keeps | apply State.setLink_keeps
      | apply State.setLstate_keeps | apply KeepsO.next | apply KeepsO.ite | apply Keeps.ite | split | apply Keeps.upd
      | dsimp only

theorem execDetectOneLaneTimeout_keeps (l : Nat) (lane : Nat) (s : State) {s₀ : State} (hk : Keeps s₀ s) : KeepsO s₀
    (execDetectOneLaneTimeout l lane s) := by
  unfold execDetectOneLaneTimeout
  with_reducible
    repeat' first
      | assumption | intro _ | apply State.clocked_keeps | apply run_keeps | apply State.setLink_keeps
      | apply State.setLstate_keeps | apply KeepsO.next | apply KeepsO.ite | apply Keeps.ite | split | apply Keeps.upd
      | dsimp only

theorem execEqualizeConverged_keeps (l : Nat) (s : State) {s₀ : State} (hk : Keeps s₀ s) : KeepsO s₀ (execEqualizeConverged
    l s) := by
  unfold execEqualizeConverged
  with_reducible
    repeat' first
      | assumption | intro _ | apply State.clocked_keeps | apply run_keeps | apply State.setLstate_keeps
      | apply KeepsO.next | apply KeepsO.ite | apply Keeps.ite | split | dsimp only

theorem execEqualizeTimeout_keeps (l : Nat) (s : State) {s₀ : State} (hk : Keeps s₀ s) : KeepsO s₀ (execEqualizeTimeout l s)
    := by
  unfold execEqualizeTimeout
  with_reducible
    repeat' first
      | assumption | intro _ | apply State.clocked_keeps | apply run_keeps | apply State.linkFail_keeps | apply KeepsO.next
      | apply KeepsO.ite | apply Keeps.ite | split | dsimp only

theorem execLockAchieved_keeps (l : Nat) (s : State) {s₀ : State} (hk : Keeps s₀ s) : KeepsO s₀ (execLockAchieved l s) := by
  unfold execLockAchieved
  with_reducible
    repeat' first
      | assumption | intro _ | apply State.clocked_keeps | apply run_keeps | apply State.setLock_keeps
      | apply State.negotiate_keeps | apply KeepsO.next | apply KeepsO.ite | apply Keeps.ite | split | dsimp only

theorem execLockTimeout_keeps (l : Nat) (s : State) {s₀ : State} (hk : Keeps s₀ s) : KeepsO s₀ (execLockTimeout l s) := by
  unfold execLockTimeout
  with_reducible
    repeat' first
      | assumption | intro _ | apply State.clocked_keeps | apply run_keeps | apply State.linkFail_keeps | apply KeepsO.next
      | apply KeepsO.ite | apply Keeps.ite | split | dsimp only

theorem execNegotiateTimeout_keeps (l : Nat) (s : State) {s₀ : State} (hk : Keeps s₀ s) : KeepsO s₀ (execNegotiateTimeout l
    s) := by
  unfold execNegotiateTimeout
  with_reducible
    repeat' first
      | assumption | intro _ | apply State.clocked_keeps | apply run_keeps | apply State.linkFail_keeps | apply KeepsO.next
      | apply KeepsO.ite | apply Keeps.ite | split | dsimp only

theorem execFastRetrainDone_keeps (l : Nat) (ok : Bool) (caps : List Nat) (lane : Nat) (s : State) {s₀ : State} (hk : Keeps
    s₀ s) : KeepsO s₀ (execFastRetrainDone l ok caps lane s) := by
  unfold execFastRetrainDone
  with_reducible
    repeat' first
      | assumption | intro _ | apply State.clocked_keeps | apply run_keeps | apply State.bump_keeps
      | apply State.lifeAdd_keeps | apply State.setLink_keeps | apply State.startStream_keeps | apply State.setLstate_keeps
      | apply State.linkNegotiated_keeps | apply State.sendCaps_keeps | apply KeepsO.next | apply KeepsO.ite
      | apply Keeps.ite | split | apply Keeps.upd | dsimp only

theorem execFailedRetry_keeps (l : Nat) (s : State) {s₀ : State} (hk : Keeps s₀ s) : KeepsO s₀ (execFailedRetry l s) := by
  unfold execFailedRetry
  with_reducible
    repeat' first
      | assumption | intro _ | apply State.clocked_keeps | apply run_keeps | apply State.setLstate_keeps
      | apply KeepsO.next | apply KeepsO.ite | apply Keeps.ite | split | dsimp only

theorem State.writeLinkCtrl_keeps (s : State) (l : Nat) (v : Word) {s₀ : State} (hk : Keeps s₀ s) : Keeps s₀
    (State.writeLinkCtrl s l v) := by
  unfold State.writeLinkCtrl
  with_reducible
    repeat' first
      | assumption | apply State.plainWrite_keeps | apply State.setLink_keeps | apply State.setLstate_keeps
      | apply State.leaveUp_keeps | apply State.linkFault_keeps | apply Keeps.ite

theorem execRetrain_keeps (src : Source) (l : Nat) (s : State) {s₀ : State} (hk : Keeps s₀ s) : KeepsO s₀ (execRetrain src l
    s) := by
  unfold execRetrain
  with_reducible
    repeat' first
      | assumption | intro _ | apply State.clocked_keeps | apply run_keeps | apply State.gated_keeps
      | apply State.writeLinkCtrl_keeps | apply KeepsO.next | apply KeepsO.ite | apply Keeps.ite | split | dsimp only

theorem execLinkDisable_keeps (src : Source) (l : Nat) (s : State) {s₀ : State} (hk : Keeps s₀ s) : KeepsO s₀
    (execLinkDisable src l s) := by
  unfold execLinkDisable
  with_reducible
    repeat' first
      | assumption | intro _ | apply State.clocked_keeps | apply run_keeps | apply State.gated_keeps
      | apply State.writeLinkCtrl_keeps | apply KeepsO.next | apply KeepsO.ite | apply Keeps.ite | split | dsimp only

theorem execLinkDisableClear_keeps (src : Source) (l : Nat) (s : State) {s₀ : State} (hk : Keeps s₀ s) : KeepsO s₀
    (execLinkDisableClear src l s) := by
  unfold execLinkDisableClear
  with_reducible
    repeat' first
      | assumption | intro _ | apply State.clocked_keeps | apply run_keeps | apply State.gated_keeps
      | apply State.writeLinkCtrl_keeps | apply KeepsO.next | apply KeepsO.ite | apply Keeps.ite | split | dsimp only

theorem execReceiveLaneLoss_keeps (l : Nat) (mask : Nat) (s : State) {s₀ : State} (hk : Keeps s₀ s) : KeepsO s₀
    (execReceiveLaneLoss l mask s) := by
  unfold execReceiveLaneLoss
  with_reducible
    repeat' first
      | assumption | intro _ | apply State.clocked_keeps | apply run_keeps | apply State.setFlag_keeps
      | apply State.bump_keeps | apply State.setLink_keeps | apply State.sendControl_keeps | apply State.setLstate_keeps
      | apply State.setRxLanes_keeps | apply State.linkFault_keeps | apply KeepsO.next | apply KeepsO.ite | apply Keeps.ite
      | split | apply Keeps.upd | dsimp only

theorem execFlitAcceptTimeout_keeps (l : Nat) (s : State) {s₀ : State} (hk : Keeps s₀ s) : KeepsO s₀ (execFlitAcceptTimeout
    l s) := by
  unfold execFlitAcceptTimeout
  with_reducible
    repeat' first
      | assumption | intro _ | apply State.clocked_keeps | apply run_keeps | apply State.portFault_keeps
      | apply State.linkFault_keeps | apply KeepsO.next | apply KeepsO.ite | apply Keeps.ite | split | dsimp only

theorem execReplayAckTimeout_keeps (l : Nat) (s : State) {s₀ : State} (hk : Keeps s₀ s) : KeepsO s₀ (execReplayAckTimeout l
    s) := by
  unfold execReplayAckTimeout
  with_reducible
    repeat' first
      | assumption | intro _ | apply State.clocked_keeps | apply run_keeps | apply State.replay_keeps
      | apply State.portFault_keeps | apply State.linkFault_keeps | apply KeepsO.next | apply KeepsO.ite | apply Keeps.ite
      | split | dsimp only

theorem execOneLaneMarker_keeps (l : Nat) (ok : Bool) (s : State) {s₀ : State} (hk : Keeps s₀ s) : KeepsO s₀
    (execOneLaneMarker l ok s) := by
  unfold execOneLaneMarker
  with_reducible
    repeat' first
      | assumption | intro _ | apply State.clocked_keeps | apply run_keeps | apply State.setLink_keeps
      | apply State.portMarker_keeps | apply State.linkFault_keeps | apply KeepsO.next | apply KeepsO.ite | apply Keeps.ite
      | split | apply Keeps.upd | dsimp only

theorem execLaneDropLockTimeout_keeps (l : Nat) (s : State) {s₀ : State} (hk : Keeps s₀ s) : KeepsO s₀
    (execLaneDropLockTimeout l s) := by
  unfold execLaneDropLockTimeout
  with_reducible
    repeat' first
      | assumption | intro _ | apply State.clocked_keeps | apply run_keeps | apply State.portFault_keeps
      | apply State.linkFault_keeps | apply KeepsO.next | apply KeepsO.ite | apply Keeps.ite | split | dsimp only

theorem execLaneTest_keeps (l : Nat) (hold : Bool) (ser0 : Nat) (ser1 : Nat) (s : State) {s₀ : State} (hk : Keeps s₀ s) :
    KeepsO s₀ (execLaneTest l hold ser0 ser1 s) := by
  unfold execLaneTest
  with_reducible
    repeat' first
      | assumption | intro _ | apply State.clocked_keeps | apply run_keeps | apply State.setFld_keeps
      | apply State.setLink_keeps | apply State.sendControl_keeps | apply State.portLaneTest_keeps
      | apply State.setLstate_keeps | apply State.setRxLanes_keeps | apply State.setLock_keeps | apply KeepsO.next
      | apply KeepsO.ite | apply Keeps.ite | split | apply Keeps.upd | dsimp only

theorem execReachPeriodic_keeps (l : Nat) (s : State) {s₀ : State} (hk : Keeps s₀ s) : KeepsO s₀ (execReachPeriodic l s) :=
    by
  unfold execReachPeriodic
  with_reducible
    repeat' first
      | assumption | intro _ | apply State.clocked_keeps | apply run_keeps | apply State.sendReach_keeps
      | apply KeepsO.next | apply KeepsO.ite | apply Keeps.ite | split | dsimp only

theorem execReachStale_keeps (l : Nat) (s : State) {s₀ : State} (hk : Keeps s₀ s) : KeepsO s₀ (execReachStale l s) := by
  unfold execReachStale
  with_reducible
    repeat' first
      | assumption | intro _ | apply State.clocked_keeps | apply run_keeps | apply State.setLink_keeps | apply KeepsO.next
      | apply KeepsO.ite | apply Keeps.ite | split | apply Keeps.upd | dsimp only

theorem execReachHold_keeps (l : Nat) (s : State) {s₀ : State} (hk : Keeps s₀ s) : KeepsO s₀ (execReachHold l s) := by
  unfold execReachHold
  with_reducible
    repeat' first
      | assumption | intro _ | apply State.clocked_keeps | apply run_keeps | apply State.setLink_keeps
      | apply State.syncReach_keeps | apply KeepsO.next | apply KeepsO.ite | apply Keeps.ite | split | apply Keeps.upd
      | dsimp only

theorem State.commitYl_keeps (s : State) {s₀ : State} (hk : Keeps s₀ s) : Keeps s₀ (State.commitYl s) := by
  unfold State.commitYl
  with_reducible
    repeat' first
      | assumption | apply State.setFld_keeps | apply State.beginCommit_keeps | apply State.rejectCommit_keeps
      | apply Keeps.ite | split

theorem execYlCfgCommit_keeps (src : Source) (s : State) {s₀ : State} (hk : Keeps s₀ s) : KeepsO s₀ (execYlCfgCommit src s)
    := by
  unfold execYlCfgCommit
  with_reducible
    repeat' first
      | assumption | intro _ | apply State.clocked_keeps | apply run_keeps | apply State.gated_keeps
      | apply State.commitYl_keeps | apply KeepsO.next | apply KeepsO.ite | apply Keeps.ite | split | apply Keeps.upd
      | dsimp only

theorem State.enableLinks_keeps (s : State) {s₀ : State} (hk : Keeps s₀ s) : Keeps s₀ (State.enableLinks s) := by
  unfold State.enableLinks
  with_reducible
    repeat' first
      | assumption | intro _ | apply State.each_keeps | apply State.setLstate_keeps | apply Keeps.ite

theorem State.applyYl_keeps (s : State) {s₀ : State} (hk : Keeps s₀ s) : Keeps s₀ (State.applyYl s) := by
  unfold State.applyYl
  with_reducible
    repeat' first
      | assumption | apply State.finishCommit_keeps | apply State.enableLinks_keeps | apply Keeps.upd

end Sys2Proof.Machine
end

