-- ==== Sys2Proof/Laws/KeepsSwitch.lean ====
section
/-!
SUPPORT. What the operations of Machine/Switch.lean and its commands leave alone: none touches the queue of commands, and each keeps the
canonical form of memory and of the register files.
-/

namespace Sys2Proof.Machine

theorem State.flushCredits_keeps (s : State) (l : Nat) {s₀ : State} (hk : Keeps s₀ s) : Keeps s₀ (State.flushCredits s l) := by
  unfold State.flushCredits
  with_reducible
    repeat' first
      | assumption | intro _ | apply State.setLink_keeps | apply State.sendSeq_keeps | apply Keeps.ite

theorem State.freeIngress_keeps (s : State) (l : Nat) (pool : Nat) (n : Nat) {s₀ : State} (hk : Keeps s₀ s) : Keeps s₀
    (State.freeIngress s l pool n) := by
  unfold State.freeIngress
  with_reducible
    repeat' first
      | assumption | apply State.setLink_keeps | apply State.flushCredits_keeps | apply Keeps.ite

theorem State.sendSack_keeps (s : State) (n : Nat) (vc : Nat) {s₀ : State} (hk : Keeps s₀ s) : Keeps s₀ (State.sendSack s n
    vc) := by
  unfold State.sendSack
  with_reducible
    repeat' first
      | assumption | apply State.setRx_keeps | apply State.enterSwitch_keeps

theorem State.deliver_keeps (s : State) (p : Packet) {s₀ : State} (hk : Keeps s₀ s) : Keeps s₀ (State.deliver s p) := by
  unfold State.deliver
  with_reducible
    repeat' first
      | assumption | apply State.mirror_keeps | apply Keeps.upd

theorem State.reseq_keeps (s : State) (n : Nat) (p : Packet) (f : State → Packet → State) {s₀ : State} (hk : Keeps s₀ s) (hf
    : ∀ (x0 : State) (x1 : Packet), Keeps s₀ x0 → Keeps s₀ (f x0 x1)) : Keeps s₀ (State.reseq s n p f) := by
  unfold State.reseq
  with_reducible
    repeat' first
      | assumption | intro _ | apply State.bump_keeps | apply State.setRx_keeps | apply State.sendSack_keeps | apply hf
      | apply Keeps.foldl | apply Keeps.ite

theorem State.answer_keeps (s : State) (p : Packet) (status : Nat) {s₀ : State} (hk : Keeps s₀ s) : Keeps s₀ (State.answer s
    p status) := by
  unfold State.answer
  with_reducible
    repeat' first
      | assumption | apply State.sendPacket_keeps | split

theorem State.crossPacket_keeps (s : State) (p : Packet) (l : Nat) (sending : Bool) {s₀ : State} (hk : Keeps s₀ s) : Keeps
    s₀ (State.crossPacket s p l sending) := by
  unfold State.crossPacket
  with_reducible
    repeat' first
      | assumption | intro _ | apply State.cross_keeps | apply Keeps.ite | split | dsimp only

theorem State.passOn_keeps (s : State) (l : Nat) (p : Packet) (transit : Bool) {s₀ : State} (hk : Keeps s₀ s) : Keeps s₀
    (State.passOn s l p transit) := by
  unfold State.passOn
  with_reducible
    repeat' first
      | assumption | intro _ | apply State.enterSwitch_keeps | apply State.freeIngress_keeps | apply State.answer_keeps
      | apply Keeps.ite | split | apply Keeps.upd | dsimp only

theorem State.arrive_keeps (s : State) (l : Nat) (p : Packet) (good : Bool) (transit : Bool) {s₀ : State} (hk : Keeps s₀ s)
    : Keeps s₀ (State.arrive s l p good transit) := by
  unfold State.arrive
  with_reducible
    repeat' first
      | assumption | intro _ | apply State.bump_keeps | apply State.sequence_keeps | apply State.freeIngress_keeps
      | apply State.deliver_keeps | apply State.reseq_keeps | apply State.answer_keeps | apply State.crossPacket_keeps
      | apply State.passOn_keeps | apply Keeps.ite | split | apply Keeps.upd | dsimp only

theorem execPacketIngress_keeps (l : Nat) (s : State) {s₀ : State} (hk : Keeps s₀ s) : KeepsO s₀ (execPacketIngress l s) :=
    by
  unfold execPacketIngress
  with_reducible
    repeat' first
      | assumption | intro _ | apply State.clocked_keeps | apply run_keeps | apply State.wrap_keeps
      | apply State.setLink_keeps | apply State.mirror_keeps | apply State.arrive_keeps | apply KeepsO.next
      | apply KeepsO.ite | apply Keeps.ite | split | apply Keeps.upd | dsimp only

theorem execDetourPacket_keeps (l : Nat) (s : State) {s₀ : State} (hk : Keeps s₀ s) : KeepsO s₀ (execDetourPacket l s) := by
  unfold execDetourPacket
  with_reducible
    repeat' first
      | assumption | intro _ | apply State.clocked_keeps | apply run_keeps | apply State.bump_keeps
      | apply State.wrap_keeps | apply State.setLink_keeps | apply State.mirror_keeps | apply State.enterSwitch_keeps
      | apply State.unitError_keeps | apply State.freeIngress_keeps | apply State.arrive_keeps | apply KeepsO.next
      | apply KeepsO.ite | apply Keeps.ite | split | apply Keeps.upd | dsimp only

theorem State.sendOver_keeps (s : State) (l : Nat) (w : SwPkt) (target : Option Nat) {s₀ : State} (hk : Keeps s₀ s) : Keeps
    s₀ (State.sendOver s l w target) := by
  unfold State.sendOver
  with_reducible
    repeat' first
      | assumption | intro _ | apply State.wrap_keeps | apply State.less_keeps | apply State.setBit_keeps
      | apply State.each_keeps | apply State.cross_keeps | apply State.syncSwitch_keeps | apply State.mirror_keeps
      | apply State.sendSeq_keeps | apply State.freeIngress_keeps | apply State.crossPacket_keeps | apply Keeps.ite | split
      | apply Keeps.upd | dsimp only

theorem execPacketEgress_keeps (l : Nat) (s : State) {s₀ : State} (hk : Keeps s₀ s) : KeepsO s₀ (execPacketEgress l s) := by
  unfold execPacketEgress
  with_reducible
    repeat' first
      | assumption | intro _ | apply State.clocked_keeps | apply run_keeps | apply State.setLink_keeps
      | apply State.sendOver_keeps | apply KeepsO.next | apply KeepsO.ite | apply Keeps.ite | apply Keeps1.fst
      | apply Keeps1.ite | apply Keeps1.mk | split | dsimp only

theorem State.creditStall_keeps (s : State) {s₀ : State} (hk : Keeps s₀ s) : Keeps s₀ (State.creditStall s) := by
  unfold State.creditStall
  with_reducible
    repeat' first
      | assumption | intro _ | apply State.wrap_keeps | apply State.each_keeps | apply Keeps.ite

theorem execMirrorRecordPerformed_keeps (s : State) {s₀ : State} (hk : Keeps s₀ s) : KeepsO s₀ (execMirrorRecordPerformed s)
    := by
  unfold execMirrorRecordPerformed
  with_reducible
    repeat' first
      | assumption | intro _ | apply State.clocked_keeps | apply State.wrap_keeps | apply State.writeMem_keeps
      | apply KeepsO.next | apply KeepsO.ite | apply Keeps.ite | refine Keeps1.get ?_ (by assumption) | apply Keeps1.fst
      | apply Keeps1.ite | apply Keeps1.mk | split | apply Keeps.upd | dsimp only

theorem execSack_keeps (k : Nat) (s : State) {s₀ : State} (hk : Keeps s₀ s) : KeepsO s₀ (execSack k s) := by
  unfold execSack
  with_reducible
    repeat' first
      | assumption | intro _ | apply State.clocked_keeps | apply State.setTx_keeps | apply State.perform_keeps
      | apply KeepsO.next | apply KeepsO.ite | apply Keeps.ite | split | apply Keeps.upd | dsimp only

theorem execSackTimer_keeps (n : Nat) (vc : Nat) (s : State) {s₀ : State} (hk : Keeps s₀ s) : KeepsO s₀ (execSackTimer n vc
    s) := by
  unfold execSackTimer
  with_reducible
    repeat' first
      | assumption | intro _ | apply State.clocked_keeps | apply run_keeps | apply State.sendSack_keeps | apply KeepsO.next
      | apply KeepsO.ite | apply Keeps.ite | split | dsimp only

theorem execRetxTimeout_keeps (n : Nat) (vc : Nat) (s : State) {s₀ : State} (hk : Keeps s₀ s) : KeepsO s₀ (execRetxTimeout n
    vc s) := by
  unfold execRetxTimeout
  with_reducible
    repeat' first
      | assumption | intro _ | apply State.clocked_keeps | apply run_keeps | apply State.bump_keeps
      | apply State.wrap_keeps | apply State.record_keeps | apply State.setTx_keeps | apply State.enterSwitch_keeps
      | apply State.failRequests_keeps | apply State.partnerLost_keeps | apply Keeps.foldl | apply Keeps1.foldl
      | apply KeepsO.next | apply KeepsO.ite | apply Keeps.ite | refine Keeps1.get ?_ (by assumption) | apply Keeps1.fst
      | apply Keeps1.ite | apply Keeps1.mk | split | apply Keeps.upd | dsimp only

theorem execMgmtSync_keeps (k : Nat) (s : State) {s₀ : State} (hk : Keeps s₀ s) : KeepsO s₀ (execMgmtSync k s) := by
  unfold execMgmtSync
  with_reducible
    repeat' first
      | assumption | intro _ | apply State.clocked_keeps | apply State.perform_keeps | apply State.resetStreams_keeps
      | apply KeepsO.next | apply KeepsO.ite | apply Keeps.ite | split | dsimp only

theorem execMgmtCollapse_keeps (k : Nat) (s : State) {s₀ : State} (hk : Keeps s₀ s) : KeepsO s₀ (execMgmtCollapse k s) := by
  unfold execMgmtCollapse
  with_reducible
    repeat' first
      | assumption | intro _ | apply State.clocked_keeps | apply State.perform_keeps | apply State.collapse_keeps
      | apply KeepsO.next | apply KeepsO.ite | apply Keeps.ite | split | dsimp only

theorem execMgmtTelemetry_keeps (k : Nat) (s : State) {s₀ : State} (hk : Keeps s₀ s) : KeepsO s₀ (execMgmtTelemetry k s) :=
    by
  unfold execMgmtTelemetry
  with_reducible
    repeat' first
      | assumption | intro _ | apply State.clocked_keeps | apply State.emit_keeps | apply State.perform_keeps
      | apply KeepsO.next | apply KeepsO.ite | apply Keeps.ite | split | dsimp only

end Sys2Proof.Machine
end

