-- ==== Sys2Proof/Laws/KeepsHome.lean ====
section
/-!
SUPPORT. What the operations of Machine/Home.lean and its commands leave alone: none touches the queue of commands, and each keeps the
canonical form of memory and of the register files.
-/

namespace Sys2Proof.Machine

theorem State.keyed_keeps (s : State) (p : Packet) (perm : Fld) (ext : Option (Nat × Nat)) (f : Nat → State) {s₀ : State} (hk
    : Keeps s₀ s) (hf : ∀ (x0 : Nat), Keeps s₀ (f x0)) : Keeps s₀ (State.keyed s p perm ext f) := by
  unfold State.keyed
  with_reducible
    repeat' first
      | assumption | apply State.bump_keeps | apply State.answer_keeps | apply hf | split

theorem State.offsetRefusal_keeps (s : State) (o : Nat) (n : Nat) {s₀ : State} (hk : Keeps s₀ s) : KeepsP s₀
    (State.offsetRefusal s o n) := by
  unfold State.offsetRefusal
  with_reducible
    repeat' first
      | assumption | intro _ | apply State.bump_keeps | apply KeepsP.ite | exact KeepsP.none | apply KeepsP.some

theorem execFenceRequest_keeps (k : Nat) (s : State) {s₀ : State} (hk : Keeps s₀ s) : KeepsO s₀ (execFenceRequest k s) := by
  unfold execFenceRequest
  with_reducible
    repeat' first
      | assumption | intro _ | apply State.clocked_keeps | apply State.perform_keeps | apply State.answer_keeps
      | apply State.keyed_keeps | apply KeepsO.next | apply KeepsO.ite | apply Keeps.ite | split | dsimp only

theorem execSrd_keeps (k : Nat) (stamp : Nat) (len : Nat) (s : State) {s₀ : State} (hk : Keeps s₀ s) : KeepsO s₀ (execSrd k
    stamp len s) := by
  unfold execSrd
  with_reducible
    repeat' first
      | assumption | intro _ | apply State.clocked_keeps | apply run_keeps | apply State.perform_keeps
      | apply State.homeStart_keeps | apply State.answer_keeps | apply State.keyed_keeps | apply State.offsetRefusal_keeps
      | apply KeepsO.next | apply KeepsO.ite | apply Keeps.ite | refine KeepsP.get ?_ (by assumption) | apply Keeps1.fst
      | apply Keeps1.ite | apply Keeps1.mk | split | dsimp only

theorem execSupd_keeps (k : Nat) (stamp : Nat) (s : State) {s₀ : State} (hk : Keeps s₀ s) : KeepsO s₀ (execSupd k stamp s)
    := by
  unfold execSupd
  with_reducible
    repeat' first
      | assumption | intro _ | apply State.clocked_keeps | apply State.bump_keeps | apply State.perform_keeps
      | apply State.homeStart_keeps | apply State.answer_keeps | apply State.keyed_keeps | apply State.offsetRefusal_keeps
      | apply Keeps.foldl | apply Keeps1.foldl | apply KeepsO.next | apply KeepsO.ite | apply Keeps.ite
      | refine Keeps1.get ?_ (by assumption) | refine KeepsP.get ?_ (by assumption) | apply Keeps1.fst | apply Keeps1.ite
      | apply Keeps1.mk | split | apply Keeps.upd | dsimp only

theorem State.ctlRefuse_keeps (s : State) (p : Packet) (status : Nat) {s₀ : State} (hk : Keeps s₀ s) : Keeps s₀
    (State.ctlRefuse s p status) := by
  unfold State.ctlRefuse
  with_reducible
    repeat' first
      | assumption | intro _ | apply State.bump_keeps | apply State.answer_keeps | apply Keeps.ite | split | dsimp only

theorem execRinv_keeps (k : Nat) (s : State) {s₀ : State} (hk : Keeps s₀ s) : KeepsO s₀ (execRinv k s) := by
  unfold execRinv
  with_reducible
    repeat' first
      | assumption | intro _ | apply State.clocked_keeps | apply State.perform_keeps | apply State.setRep_keeps
      | apply State.freeRep_keeps | apply State.answer_keeps | apply State.ctlRefuse_keeps | apply Keeps.foldl
      | apply KeepsO.next | apply KeepsO.ite | apply Keeps.ite | apply Keeps1.fst | apply Keeps1.ite | split
      | apply Keeps.upd | apply Keeps1.mk | dsimp only

theorem execRdereg_keeps (k : Nat) (s : State) {s₀ : State} (hk : Keeps s₀ s) : KeepsO s₀ (execRdereg k s) := by
  unfold execRdereg
  with_reducible
    repeat' first
      | assumption | intro _ | apply State.clocked_keeps | apply State.perform_keeps | apply State.dropHolder_keeps
      | apply State.answer_keeps | apply State.keyed_keeps | apply State.offsetRefusal_keeps | apply KeepsO.next
      | apply KeepsO.ite | apply Keeps.ite | refine KeepsP.get ?_ (by assumption) | apply Keeps1.fst | apply Keeps1.ite
      | split | apply Keeps1.mk | dsimp only

theorem State.setMring_keeps (s : State) (p : Nat) (r : Nat) (x : MringSt) {s₀ : State} (hk : Keeps s₀ s) : Keeps s₀
    (State.setMring s p r x) := by
  unfold State.setMring
  with_reducible
    repeat' first
      | assumption | apply Keeps.upd

theorem State.mrFault_keeps (s : State) (p : Nat) (r : Nat) {s₀ : State} (hk : Keeps s₀ s) : Keeps s₀ (State.mrFault s p r) := by
  unfold State.mrFault
  with_reducible
    repeat' first
      | assumption | apply State.setFlag_keeps | apply State.record_keeps

theorem State.mrRefuse_keeps (s : State) (p : Nat) (r : Nat) (m : Packet) {s₀ : State} (hk : Keeps s₀ s) : Keeps s₀
    (State.mrRefuse s p r m) := by
  unfold State.mrRefuse
  with_reducible
    repeat' first
      | assumption | apply State.bump_keeps | apply State.answer_keeps | apply Keeps.ite

theorem execMsg_keeps (k : Nat) (s : State) {s₀ : State} (hk : Keeps s₀ s) : KeepsO s₀ (execMsg k s) := by
  unfold execMsg
  with_reducible
    repeat' first
      | assumption | intro _ | apply State.clocked_keeps | apply State.perform_keeps | apply State.writeVA_keeps
      | apply State.answer_keeps | apply State.keyed_keeps | apply State.setMring_keeps | apply State.mrFault_keeps
      | apply State.mrRefuse_keeps | apply KeepsO.next | apply KeepsO.ite | apply Keeps.ite | apply Keeps1.fst
      | apply Keeps1.ite | split | apply Keeps.upd | apply Keeps1.mk | dsimp only

theorem execMrRecordPerformed_keeps (p : Nat) (r : Nat) (s : State) {s₀ : State} (hk : Keeps s₀ s) : KeepsO s₀
    (execMrRecordPerformed p r s) := by
  unfold execMrRecordPerformed
  with_reducible
    repeat' first
      | assumption | intro _ | apply State.clocked_keeps | apply run_keeps | apply State.setFld_keeps
      | apply State.raiseVec_keeps | apply State.answer_keeps | apply State.setMring_keeps | apply KeepsO.next
      | apply KeepsO.ite | apply Keeps.ite | split | dsimp only

theorem State.writeMrCtrl_keeps (s : State) (p : Nat) (r : Nat) (v : Word) {s₀ : State} (hk : Keeps s₀ s) : Keeps1 s₀
    (State.writeMrCtrl s p r v) := by
  unfold State.writeMrCtrl
  with_reducible
    repeat' first
      | assumption | apply State.setFld_keeps | apply State.setFlag_keeps | apply State.plainWrite_keeps
      | apply State.setMring_keeps | apply Keeps1.ite | apply Keeps1.mk

theorem execMrEnable_keeps (src : Source) (p : Nat) (r : Nat) (v : Word) (s : State) {s₀ : State} (hk : Keeps s₀ s) : KeepsO
    s₀ (execMrEnable src p r v s) := by
  unfold execMrEnable
  with_reducible
    repeat' first
      | assumption | intro _ | apply State.clocked_keeps | apply run_keeps | apply State.guarded_keeps
      | apply State.writeMrCtrl_keeps | apply KeepsO.next | apply KeepsO.ite | apply Keeps.ite
      | refine Keeps1.get ?_ (by assumption) | apply Keeps1.fst | apply Keeps1.ite | apply Keeps1.mk | split | dsimp only

theorem State.writeMrHead_keeps (s : State) (p : Nat) (r : Nat) (v : Nat) {s₀ : State} (hk : Keeps s₀ s) : Keeps s₀
    (State.writeMrHead s p r v) := by
  unfold State.writeMrHead
  with_reducible
    repeat' first
      | assumption | apply State.setFld_keeps | apply State.setMring_keeps | apply Keeps.ite

theorem execMrHeadWrite_keeps (src : Source) (p : Nat) (r : Nat) (v : Nat) (s : State) {s₀ : State} (hk : Keeps s₀ s) :
    KeepsO s₀ (execMrHeadWrite src p r v s) := by
  unfold execMrHeadWrite
  with_reducible
    repeat' first
      | assumption | intro _ | apply State.clocked_keeps | apply run_keeps | apply State.gated_keeps
      | apply State.writeMrHead_keeps | apply KeepsO.next | apply KeepsO.ite | apply Keeps.ite | split | dsimp only

theorem State.takeReq_keeps (s : State) (p : Packet) (op : Nat) {s₀ : State} (hk : Keeps s₀ s) : KeepsP s₀ (State.takeReq s p
    op) := by
  unfold State.takeReq
  with_reducible
    repeat' first
      | assumption | intro _ | exact KeepsP.none | apply KeepsP.some | split | apply Keeps.upd

theorem State.respond_keeps (s : State) (p : Packet) (op : Nat) (f : State → ReqClient → State) {s₀ : State} (hk : Keeps s₀
    s) (hf : ∀ (x0 : State) (x1 : ReqClient), Keeps s₀ x0 → Keeps s₀ (f x0 x1)) : Keeps s₀ (State.respond s p op f) := by
  unfold State.respond
  with_reducible
    repeat' first
      | assumption | intro _ | apply hf | apply State.requestFailed_keeps | apply State.takeReq_keeps | apply Keeps.ite
      | refine KeepsP.get ?_ (by assumption) | split | dsimp only

theorem execRdData_keeps (k : Nat) (s : State) {s₀ : State} (hk : Keeps s₀ s) : KeepsO s₀ (execRdData k s) := by
  unfold execRdData
  with_reducible
    repeat' first
      | assumption | intro _ | apply State.clocked_keeps | apply State.perform_keeps | apply State.flagAnswer_keeps
      | apply State.respond_keeps | apply KeepsO.next | apply KeepsO.ite | apply Keeps.ite | split | dsimp only

theorem execWrAck_keeps (k : Nat) (s : State) {s₀ : State} (hk : Keeps s₀ s) : KeepsO s₀ (execWrAck k s) := by
  unfold execWrAck
  with_reducible
    repeat' first
      | assumption | intro _ | apply State.clocked_keeps | apply State.perform_keeps | apply State.settleWrites_keeps
      | apply State.flagAnswer_keeps | apply State.requestFailed_keeps | apply State.takeReq_keeps
      | apply State.respond_keeps | apply KeepsO.next | apply KeepsO.ite | apply Keeps.ite
      | refine KeepsP.get ?_ (by assumption) | split | dsimp only

theorem execAtomData_keeps (k : Nat) (s : State) {s₀ : State} (hk : Keeps s₀ s) : KeepsO s₀ (execAtomData k s) := by
  unfold execAtomData
  with_reducible
    repeat' first
      | assumption | intro _ | apply State.clocked_keeps | apply State.perform_keeps | apply State.respond_keeps
      | apply KeepsO.next | apply KeepsO.ite | apply Keeps.ite | split | dsimp only

theorem execFenceAck_keeps (k : Nat) (s : State) {s₀ : State} (hk : Keeps s₀ s) : KeepsO s₀ (execFenceAck k s) := by
  unfold execFenceAck
  with_reducible
    repeat' first
      | assumption | intro _ | apply State.clocked_keeps | apply State.perform_keeps | apply State.respond_keeps
      | apply KeepsO.next | apply KeepsO.ite | apply Keeps.ite | split | dsimp only

theorem State.resendRow_keeps (s : State) (g : Nat) (k : Nat) {s₀ : State} (hk : Keeps s₀ s) : Keeps s₀ (State.resendRow s g
    k) := by
  unfold State.resendRow
  with_reducible
    repeat' first
      | assumption | apply State.request_keeps | apply State.partError_keeps | split

theorem State.rowWhole_keeps (s : State) (g : Nat) (k : Nat) (s1 : Nat) (s2 : Nat) (d : List Byte) (units : List Nat) {s₀ :
    State} (hk : Keeps s₀ s) : Keeps s₀ (State.rowWhole s g k s1 s2 d units) := by
  unfold State.rowWhole
  with_reducible
    repeat' first
      | assumption | intro _ | apply State.bump_keeps | apply State.wrap_keeps | apply State.when_keeps
      | apply State.onPart_keeps | apply State.partAnswer_keeps | apply State.resendRow_keeps | apply Keeps.ite | split

theorem execSrdData_keeps (k : Nat) (s : State) {s₀ : State} (hk : Keeps s₀ s) : KeepsO s₀ (execSrdData k s) := by
  unfold execSrdData
  with_reducible
    repeat' first
      | assumption | intro _ | apply State.clocked_keeps | apply State.perform_keeps | apply State.install_keeps
      | apply State.onPart_keeps | apply State.setRep_keeps | apply State.respond_keeps | apply State.rowWhole_keeps
      | apply KeepsO.next | apply KeepsO.ite | apply Keeps.ite | split | apply Keeps.upd | dsimp only

theorem execSupdAck_keeps (k : Nat) (s : State) {s₀ : State} (hk : Keeps s₀ s) : KeepsO s₀ (execSupdAck k s) := by
  unfold execSupdAck
  with_reducible
    repeat' first
      | assumption | intro _ | apply State.clocked_keeps | apply State.perform_keeps | apply State.onCmd_keeps
      | apply State.respond_keeps | apply KeepsO.next | apply KeepsO.ite | apply Keeps.ite | split | apply Keeps.upd
      | dsimp only

theorem execRinvAck_keeps (k : Nat) (s : State) {s₀ : State} (hk : Keeps s₀ s) : KeepsO s₀ (execRinvAck k s) := by
  unfold execRinvAck
  with_reducible
    repeat' first
      | assumption | intro _ | apply State.clocked_keeps | apply State.perform_keeps | apply State.setHomeOp_keeps
      | apply State.dropHolder_keeps | apply State.respond_keeps | apply KeepsO.next | apply KeepsO.ite | apply Keeps.ite
      | apply Keeps1.fst | apply Keeps1.ite | apply Keeps1.mk | split | apply Keeps.upd | dsimp only

theorem execMsgAck_keeps (k : Nat) (s : State) {s₀ : State} (hk : Keeps s₀ s) : KeepsO s₀ (execMsgAck k s) := by
  unfold execMsgAck
  with_reducible
    repeat' first
      | assumption | intro _ | apply State.clocked_keeps | apply State.perform_keeps | apply State.respond_keeps
      | apply KeepsO.next | apply KeepsO.ite | apply Keeps.ite | split | dsimp only

theorem execMsgAckTimeout_keeps (tag : Nat) (s : State) {s₀ : State} (hk : Keeps s₀ s) : KeepsO s₀ (execMsgAckTimeout tag s)
    := by
  unfold execMsgAckTimeout
  with_reducible
    repeat' first
      | assumption | intro _ | apply State.clocked_keeps | apply State.failRequests_keeps | apply KeepsO.next
      | apply KeepsO.ite | apply Keeps.ite | split | dsimp only

end Sys2Proof.Machine
end

