-- ==== Sys2Proof/Laws/KeepsPartitions.lean ====
section
/-!
SUPPORT. What the operations of Machine/Partitions.lean and its commands leave alone: none touches the queue of commands, and each keeps the
canonical form of memory and of the register files.
-/

namespace Sys2Proof.Machine

theorem State.setPart_keeps (s : State) (p : Nat) (st : Nat) {s₀ : State} (hk : Keeps s₀ s) : Keeps s₀ (State.setPart s p st) := by
  unfold State.setPart
  with_reducible
    repeat' first
      | assumption | apply State.setFld_keeps | apply State.setBit_keeps

theorem State.abortFaults_keeps (s : State) (p : Nat) (env : Env) {s₀ : State} (hk : Keeps s₀ s) : Keeps s₀
    (State.abortFaults s p env) := by
  unfold State.abortFaults
  with_reducible
    repeat' first
      | assumption | intro _ | apply run_keeps | apply State.freeEngine_keeps | apply State.finishMove_keeps
      | apply State.haltProg_keeps | apply State.releaseArray_keeps | apply State.resetScoop_keeps | apply Keeps.foldl
      | apply Keeps.ite | refine Keeps1.get ?_ (by assumption) | apply Keeps1.fst | apply Keeps1.ite | split
      | apply Keeps1.mk | dsimp only

theorem State.abortMoves_keeps (s : State) (p : Nat) {s₀ : State} (hk : Keeps s₀ s) : Keeps s₀ (State.abortMoves s p) := by
  unfold State.abortMoves
  with_reducible
    repeat' first
      | assumption | intro _ | apply State.bump_keeps | apply State.wrap_keeps | apply State.each_keeps
      | apply State.finishWork_keeps | apply State.abortMove_keeps | apply Keeps.foldl | apply Keeps.ite | apply Keeps.upd

theorem State.dropScoopCmd_keeps (s : State) (c : ScoopCmd) {s₀ : State} (hk : Keeps s₀ s) : Keeps s₀ (State.dropScoopCmd s
    c) := by
  unfold State.dropScoopCmd
  with_reducible
    repeat' first
      | assumption | apply State.finishWork_keeps | apply State.haltProg_keeps | apply Keeps.ite

theorem State.abortScoops_keeps (s : State) (p : Nat) (env : Env) {s₀ : State} (hk : Keeps s₀ s) : Keeps s₀
    (State.abortScoops s p env) := by
  unfold State.abortScoops
  with_reducible
    repeat' first
      | assumption | intro _ | apply State.each_keeps | apply State.haltProg_keeps | apply State.setScoop_keeps
      | apply State.scoopNext_keeps | apply State.scoopDetach_keeps | apply State.resetScoop_keeps
      | apply State.dropScoopCmd_keeps | apply Keeps.foldl | apply Keeps.ite | split | apply Keeps.upd

theorem State.dropWaitingCmds_keeps (s : State) (p : Nat) {s₀ : State} (hk : Keeps s₀ s) : Keeps s₀ (State.dropWaitingCmds s
    p) := by
  unfold State.dropWaitingCmds
  with_reducible
    repeat' first
      | assumption | intro _ | apply State.finishWork_keeps | apply Keeps.foldl | apply Keeps.upd

theorem State.abortOrders_keeps (s : State) (p : Nat) (all : Bool) {s₀ : State} (hk : Keeps s₀ s) : Keeps s₀
    (State.abortOrders s p all) := by
  unfold State.abortOrders
  with_reducible
    repeat' first
      | assumption | intro _ | apply State.dropClient_keeps | apply State.endOrder_keeps | apply Keeps.foldl

theorem State.abortMigs_keeps (s : State) (p : Nat) {s₀ : State} (hk : Keeps s₀ s) : Keeps s₀ (State.abortMigs s p) := by
  unfold State.abortMigs
  with_reducible
    repeat' first
      | assumption | intro _ | apply State.setCtx_keeps | apply State.syncMigs_keeps | apply State.migEnd_keeps
      | apply Keeps.ite | split

theorem State.abortStreams_keeps (s : State) (p : Nat) {s₀ : State} (hk : Keeps s₀ s) : Keeps s₀ (State.abortStreams s p) := by
  unfold State.abortStreams
  with_reducible
    repeat' first
      | assumption | intro _ | apply State.each_keeps | apply State.finishMove_keeps | apply State.discardIn_keeps
      | apply Keeps.ite

theorem State.drainPrograms_keeps (s : State) (p : Nat) {s₀ : State} (hk : Keeps s₀ s) : Keeps s₀ (State.drainPrograms s p) := by
  unfold State.drainPrograms
  with_reducible
    repeat' first
      | assumption | intro _ | apply State.drainHalt_keeps | apply Keeps.foldl | split | dsimp only

theorem State.enterDraining_keeps (s : State) (p : Nat) (env : Env) {s₀ : State} (hk : Keeps s₀ s) : Keeps s₀
    (State.enterDraining s p env) := by
  unfold State.enterDraining
  with_reducible
    repeat' first
      | assumption | apply State.setFlag_keeps | apply State.bump_keeps | apply State.setPtn_keeps
      | apply State.setPart_keeps | apply State.abortFaults_keeps | apply State.abortMoves_keeps
      | apply State.abortScoops_keeps | apply State.dropWaitingCmds_keeps | apply State.abortOrders_keeps
      | apply State.abortMigs_keeps | apply State.abortStreams_keeps | apply State.drainPrograms_keeps

theorem State.requestReset_keeps (s : State) (p : Nat) (env : Env) {s₀ : State} (hk : Keeps s₀ s) : Keeps s₀
    (State.requestReset s p env) := by
  unfold State.requestReset
  with_reducible
    repeat' first
      | assumption | apply State.setPtn_keeps | apply State.enterDraining_keeps | apply Keeps.ite

theorem execPartitionReset_keeps (src : Source) (p : Nat) (env : Env) (s : State) {s₀ : State} (hk : Keeps s₀ s) : KeepsO s₀
    (execPartitionReset src p env s) := by
  unfold execPartitionReset
  with_reducible
    repeat' first
      | assumption | intro _ | apply State.clocked_keeps | apply run_keeps | apply State.gated_keeps
      | apply State.requestReset_keeps | apply KeepsO.next | apply KeepsO.ite | apply Keeps.ite | split | dsimp only

theorem State.enterClearing_keeps (s : State) (p : Nat) {s₀ : State} (hk : Keeps s₀ s) : Keeps s₀ (State.enterClearing s p) := by
  unfold State.enterClearing
  with_reducible
    repeat' first
      | assumption | intro _ | apply State.setFld_keeps | apply State.each_keeps | apply State.setQueue_keeps
      | apply State.setMring_keeps | apply State.setPart_keeps

theorem execPartitionDrained_keeps (p : Nat) (s : State) {s₀ : State} (hk : Keeps s₀ s) : KeepsO s₀ (execPartitionDrained p
    s) := by
  unfold execPartitionDrained
  with_reducible
    repeat' first
      | assumption | intro _ | apply State.clocked_keeps | apply run_keeps | apply State.enterClearing_keeps
      | apply KeepsO.next | apply KeepsO.ite | apply Keeps.ite | split | dsimp only

theorem State.endWork_keeps (s : State) (p : Nat) (env : Env) {s₀ : State} (hk : Keeps s₀ s) : Keeps s₀ (State.endWork s p
    env) := by
  unfold State.endWork
  with_reducible
    repeat' first
      | assumption | intro _ | apply State.each_keeps | apply State.setCtx_keeps | apply State.freeEngine_keeps
      | apply State.setQueue_keeps | apply State.syncInflight_keeps | apply State.finishMove_keeps
      | apply State.abortMove_keeps | apply State.haltProg_keeps | apply State.releaseArray_keeps
      | apply State.abandonOut_keeps | apply State.setMring_keeps | apply State.mrRefuse_keeps
      | apply State.abortScoops_keeps | apply State.dropWaitingCmds_keeps | apply State.abortOrders_keeps
      | apply Keeps.foldl | apply Keeps.ite | apply Keeps1.fst | apply Keeps1.ite | split | apply Keeps.upd
      | apply Keeps1.mk | dsimp only

theorem execPartitionDrainTimeout_keeps (p : Nat) (env : Env) (s : State) {s₀ : State} (hk : Keeps s₀ s) : KeepsO s₀
    (execPartitionDrainTimeout p env s) := by
  unfold execPartitionDrainTimeout
  with_reducible
    repeat' first
      | assumption | intro _ | apply State.clocked_keeps | apply run_keeps | apply State.setFlag_keeps
      | apply State.bump_keeps | apply State.record_keeps | apply State.enterClearing_keeps | apply State.endWork_keeps
      | apply KeepsO.next | apply KeepsO.ite | apply Keeps.ite | split | dsimp only

theorem State.resetPage_keeps (s : State) (p : Nat) {s₀ : State} (hk : Keeps s₀ s) : Keeps s₀ (State.resetPage s p) := by
  unfold State.resetPage
  with_reducible
    repeat' first
      | assumption | intro _ | apply State.resetReg_keeps | apply State.each_keeps | apply State.setQueue_keeps
      | apply State.setMring_keeps | apply Keeps.foldl | apply Keeps.upd

theorem execPartitionCleared_keeps (p : Nat) (env : Env) (s : State) {s₀ : State} (hk : Keeps s₀ s) : KeepsO s₀
    (execPartitionCleared p env s) := by
  unfold execPartitionCleared
  with_reducible
    repeat' first
      | assumption | intro _ | apply State.clocked_keeps | apply run_keeps | apply State.wr_keeps
      | apply State.setFld_keeps | apply State.when_keeps | apply State.raisePf_keeps | apply State.setPtn_keeps
      | apply State.setPart_keeps | apply State.enterDraining_keeps | apply State.resetPage_keeps | apply Keeps.foldl
      | apply KeepsO.next | apply KeepsO.ite | apply Keeps.ite | apply Keeps1.fst | apply Keeps1.ite | split
      | apply Keeps1.mk | dsimp only

theorem State.commitQos_keeps (s : State) {s₀ : State} (hk : Keeps s₀ s) : Keeps s₀ (State.commitQos s) := by
  unfold State.commitQos
  with_reducible
    repeat' first
      | assumption | apply State.setFld_keeps | apply State.beginCommit_keeps | apply State.rejectCommit_keeps | split
      | apply Keeps.upd

theorem execQosCommit_keeps (src : Source) (s : State) {s₀ : State} (hk : Keeps s₀ s) : KeepsO s₀ (execQosCommit src s) :=
    by
  unfold execQosCommit
  with_reducible
    repeat' first
      | assumption | intro _ | apply State.clocked_keeps | apply run_keeps | apply State.gated_keeps
      | apply State.commitQos_keeps | apply KeepsO.next | apply KeepsO.ite | apply Keeps.ite | split | apply Keeps.upd
      | dsimp only

theorem State.applyQos_keeps (s : State) {s₀ : State} (hk : Keeps s₀ s) : Keeps s₀ (State.applyQos s) := by
  unfold State.applyQos
  with_reducible
    repeat' first
      | assumption | intro _ | apply State.wr_keeps | apply State.finishCommit_keeps | apply State.setPtn_keeps
      | apply Keeps.foldl

theorem State.reissueArray_keeps (s : State) (a : Nat) {s₀ : State} (hk : Keeps s₀ s) : Keeps s₀ (State.reissueArray s a) :=
    by
  unfold State.reissueArray
  with_reducible
    repeat' first
      | assumption | intro _ | apply State.dropClient_keeps | apply State.freeEngine_keeps | apply State.setProg_keeps
      | apply State.setArr_keeps | apply State.releaseArray_keeps | apply State.setItem_keeps | apply Keeps.ite | split
      | apply Keeps.upd | dsimp only

theorem State.beginEngReset_keeps (s : State) (cls : Nat) (inst : Nat) (env : Env) {s₀ : State} (hk : Keeps s₀ s) : Keeps s₀
    (State.beginEngReset s cls inst env) := by
  unfold State.beginEngReset
  with_reducible
    repeat' first
      | assumption | intro _ | apply State.setFlag_keeps | apply State.emit_keeps | apply State.freeEngine_keeps
      | apply State.restartMove_keeps | apply State.releaseArray_keeps | apply State.scoopMove_keeps
      | apply State.orphanOut_keeps | apply State.reissueArray_keeps | apply Keeps.foldl | apply Keeps.ite
      | apply Keeps1.fst | apply Keeps1.ite | split | apply Keeps.upd | apply Keeps1.mk | dsimp only

theorem execEngineReset_keeps (src : Source) (cls : Nat) (inst : Nat) (env : Env) (s : State) {s₀ : State} (hk : Keeps s₀ s)
    : KeepsO s₀ (execEngineReset src cls inst env s) := by
  unfold execEngineReset
  with_reducible
    repeat' first
      | assumption | intro _ | apply State.clocked_keeps | apply run_keeps | apply State.guarded_keeps
      | apply State.beginEngReset_keeps | apply KeepsO.next | apply KeepsO.ite | apply Keeps.ite | split | apply Keeps1.ite
      | apply Keeps1.mk | dsimp only

theorem execEngineFailure_keeps (cls : Nat) (inst : Nat) (env : Env) (s : State) {s₀ : State} (hk : Keeps s₀ s) : KeepsO s₀
    (execEngineFailure cls inst env s) := by
  unfold execEngineFailure
  with_reducible
    repeat' first
      | assumption | intro _ | apply State.clocked_keeps | apply run_keeps | apply State.beginEngReset_keeps
      | apply KeepsO.next | apply KeepsO.ite | apply Keeps.ite | split | dsimp only

theorem execEngineResetDone_keeps (cls : Nat) (inst : Nat) (env : Env) (s : State) {s₀ : State} (hk : Keeps s₀ s) : KeepsO
    s₀ (execEngineResetDone cls inst env s) := by
  unfold execEngineResetDone
  with_reducible
    repeat' first
      | assumption | intro _ | apply State.clocked_keeps | apply run_keeps | apply State.setFlag_keeps
      | apply State.releaseArray_keeps | apply State.retryWrites_keeps | apply State.drainScoop_keeps | apply KeepsO.next
      | apply KeepsO.ite | apply Keeps.ite | split | apply Keeps.upd | dsimp only

end Sys2Proof.Machine
end

