-- ==== Sys2Proof/Laws/KeepsHostIf.lean ====
section
/-!
SUPPORT. What the operations of Machine/HostIf.lean and its commands leave alone: none touches the queue of commands, and each keeps the
canonical form of memory and of the register files.
-/

namespace Sys2Proof.Machine

theorem State.resetAllParts_keeps (s : State) (env : Env) {s₀ : State} (hk : Keeps s₀ s) : Keeps s₀ (State.resetAllParts s
    env) := by
  unfold State.resetAllParts
  with_reducible
    repeat' first
      | assumption | intro _ | apply State.resetReg_keeps | apply State.each_keeps | apply State.requestReset_keeps

theorem State.hostDown_keeps (s : State) {s₀ : State} (hk : Keeps s₀ s) : Keeps s₀ (State.hostDown s) := by
  unfold State.hostDown
  with_reducible
    repeat' first
      | assumption | apply State.setFld_keeps | apply State.setFlag_keeps

theorem State.setVfs_keeps (s : State) (n : Nat) {s₀ : State} (hk : Keeps s₀ s) : Keeps s₀ (State.setVfs s n) := by
  unfold State.setVfs
  with_reducible
    repeat' first
      | assumption | intro _ | apply State.setFld_keeps | apply State.setFlag_keeps | apply State.each_keeps

theorem execPerstAssert_keeps (env : Env) (s : State) {s₀ : State} (hk : Keeps s₀ s) : KeepsO s₀ (execPerstAssert env s) :=
    by
  unfold execPerstAssert
  with_reducible
    repeat' first
      | assumption | intro _ | apply State.clocked_keeps | apply State.resetAllParts_keeps | apply State.hostDown_keeps
      | apply State.setVfs_keeps | apply KeepsO.next | apply KeepsO.ite | apply Keeps.ite | split | apply Keeps.upd
      | dsimp only

theorem execPerstRelease_keeps (gen : Nat) (width : Nat) (s : State) {s₀ : State} (hk : Keeps s₀ s) : KeepsO s₀
    (execPerstRelease gen width s) := by
  unfold execPerstRelease
  with_reducible
    repeat' first
      | assumption | intro _ | apply run_keeps | apply State.setFld_keeps | apply State.setFlag_keeps | apply KeepsO.next
      | apply KeepsO.ite | apply Keeps.ite | split | apply Keeps.upd | dsimp only

theorem execHostLinkLoss_keeps (env : Env) (s : State) {s₀ : State} (hk : Keeps s₀ s) : KeepsO s₀ (execHostLinkLoss env s)
    := by
  unfold execHostLinkLoss
  with_reducible
    repeat' first
      | assumption | intro _ | apply State.clocked_keeps | apply State.resetAllParts_keeps | apply State.hostDown_keeps
      | apply KeepsO.next | apply KeepsO.ite | apply Keeps.ite | split | dsimp only

theorem execPfFlr_keeps (env : Env) (s : State) {s₀ : State} (hk : Keeps s₀ s) : KeepsO s₀ (execPfFlr env s) := by
  unfold execPfFlr
  with_reducible
    repeat' first
      | assumption | intro _ | apply State.clocked_keeps | apply State.resetAllParts_keeps | apply KeepsO.next
      | apply KeepsO.ite | apply Keeps.ite | split | dsimp only

theorem execVfFlr_keeps (p : Nat) (env : Env) (s : State) {s₀ : State} (hk : Keeps s₀ s) : KeepsO s₀ (execVfFlr p env s) :=
    by
  unfold execVfFlr
  with_reducible
    repeat' first
      | assumption | intro _ | apply State.clocked_keeps | apply run_keeps | apply State.requestReset_keeps
      | apply KeepsO.next | apply KeepsO.ite | apply Keeps.ite | split | dsimp only

theorem execConfigRequest_keeps (relaxed : Option Bool) (s : State) {s₀ : State} (hk : Keeps s₀ s) : KeepsO s₀
    (execConfigRequest relaxed s) := by
  unfold execConfigRequest
  with_reducible
    repeat' first
      | assumption | intro _ | apply State.clocked_keeps | apply State.emit_keeps | apply KeepsO.next | apply KeepsO.ite
      | apply Keeps.ite | split | apply Keeps.upd | dsimp only

theorem execVfEnable_keeps (n : Nat) (s : State) {s₀ : State} (hk : Keeps s₀ s) : KeepsO s₀ (execVfEnable n s) := by
  unfold execVfEnable
  with_reducible
    repeat' first
      | assumption | intro _ | apply State.clocked_keeps | apply run_keeps | apply State.emit_keeps
      | apply State.setVfs_keeps | apply KeepsO.next | apply KeepsO.ite | apply Keeps.ite | split | apply Keeps.upd
      | dsimp only

theorem execVecCfgLockTimeout_keeps (s : State) {s₀ : State} (hk : Keeps s₀ s) : KeepsO s₀ (execVecCfgLockTimeout s) := by
  unfold execVecCfgLockTimeout
  with_reducible
    repeat' first
      | assumption | intro _ | apply State.clocked_keeps | apply KeepsO.next | apply KeepsO.ite | apply Keeps.ite | split
      | apply Keeps.upd | dsimp only

theorem execPcieCplTimeout_keeps (ch : Option Nat) (row : Option (Nat × Nat)) (s : State) {s₀ : State} (hk : Keeps s₀ s) :
    KeepsO s₀ (execPcieCplTimeout ch row s) := by
  unfold execPcieCplTimeout
  with_reducible
    repeat' first
      | assumption | intro _ | apply State.clocked_keeps | apply run_keeps | apply State.bump_keeps
      | apply State.finishMove_keeps | apply State.partError_keeps | apply KeepsO.next | apply KeepsO.ite | apply Keeps.ite
      | split | dsimp only

theorem execErrRingWriteDone_keeps (ok : Bool) (s : State) {s₀ : State} (hk : Keeps s₀ s) : KeepsO s₀ (execErrRingWriteDone
    ok s) := by
  unfold execErrRingWriteDone
  with_reducible
    repeat' first
      | assumption | intro _ | apply State.clocked_keeps | apply State.setFld_keeps | apply State.setFlag_keeps
      | apply State.bump_keeps | apply State.raisePf_keeps | apply KeepsO.next | apply KeepsO.ite | apply Keeps.ite | split
      | apply Keeps.upd | dsimp only

theorem State.writeErrHead_keeps (s : State) (v : Nat) {s₀ : State} (hk : Keeps s₀ s) : Keeps s₀ (State.writeErrHead s v) := by
  unfold State.writeErrHead
  with_reducible
    repeat' first
      | assumption | apply State.setFld_keeps | apply Keeps.ite | apply Keeps.upd

theorem execErrRingHeadWrite_keeps (src : Source) (v : Nat) (s : State) {s₀ : State} (hk : Keeps s₀ s) : KeepsO s₀
    (execErrRingHeadWrite src v s) := by
  unfold execErrRingHeadWrite
  with_reducible
    repeat' first
      | assumption | intro _ | apply State.clocked_keeps | apply run_keeps | apply State.gated_keeps
      | apply State.writeErrHead_keeps | apply KeepsO.next | apply KeepsO.ite | apply Keeps.ite | split | dsimp only

end Sys2Proof.Machine
end

