-- ==== Sys2Proof/Laws/KeepsScale.lean ====
section
/-!
SUPPORT. What the operations of Machine/Scale.lean and its commands leave alone: none touches the queue of commands, and each keeps the
canonical form of memory and of the register files.
-/

namespace Sys2Proof.Machine

theorem State.sclHold_keeps (s : State) {s₀ : State} (hk : Keeps s₀ s) : Keeps s₀ (State.sclHold s) := by
  unfold State.sclHold
  with_reducible
    repeat' first
      | assumption | intro _ | apply Keeps.upd

theorem State.cutRecord_keeps (s : State) (reason : Nat) (endTick : Nat) (chg : Option (Nat × Nat)) {s₀ : State} (hk : Keeps
    s₀ s) : Keeps s₀ (State.cutRecord s reason endTick chg) := by
  unfold State.cutRecord
  with_reducible
    repeat' first
      | assumption | apply Keeps.upd

theorem State.sclAdd_keeps (s : State) (p : Nat) (c : Nat) (v : Nat) {s₀ : State} (hk : Keeps s₀ s) : Keeps s₀ (State.sclAdd
    s p c v) := by
  unfold State.sclAdd
  with_reducible
    repeat' first
      | assumption | apply State.setFlag_keeps | apply Keeps.ite | apply Keeps.upd

theorem State.sclChange_keeps (s : State) (t : Nat) {s₀ : State} (hk : Keeps s₀ s) : Keeps s₀ (State.sclChange s t) := by
  unfold State.sclChange
  with_reducible
    repeat' first
      | assumption | apply State.cutRecord_keeps | apply Keeps.ite | split | apply Keeps.upd

theorem execTick_keeps (s : State) {s₀ : State} (hk : Keeps s₀ s) : KeepsO s₀ (execTick s) := by
  unfold execTick
  with_reducible
    repeat' first
      | assumption | intro _ | apply State.clocked_keeps | apply State.setFld_keeps | apply State.when_keeps
      | apply State.sclHold_keeps | apply State.cutRecord_keeps | apply State.sclAdd_keeps | apply State.sclChange_keeps
      | apply Keeps.foldl | apply Keeps1.foldl | apply KeepsO.next | apply KeepsO.ite | apply Keeps.ite
      | refine Keeps1.get ?_ (by assumption) | apply Keeps1.fst | apply Keeps1.ite | apply Keeps1.mk | split
      | apply Keeps.upd | dsimp only

theorem execCompMsg_keeps (p : Nat) (c : Nat) (s : State) {s₀ : State} (hk : Keeps s₀ s) : KeepsO s₀ (execCompMsg p c s) :=
    by
  unfold execCompMsg
  with_reducible
    repeat' first
      | assumption | intro _ | apply State.clocked_keeps | apply run_keeps | apply State.bump_keeps | apply KeepsO.next
      | apply KeepsO.ite | apply Keeps.ite | split | apply Keeps.upd | dsimp only

theorem execTokensMsg_keeps (p : Nat) (s : State) {s₀ : State} (hk : Keeps s₀ s) : KeepsO s₀ (execTokensMsg p s) := by
  unfold execTokensMsg
  with_reducible
    repeat' first
      | assumption | intro _ | apply State.clocked_keeps | apply run_keeps | apply State.when_keeps | apply KeepsO.next
      | apply KeepsO.ite | apply Keeps.ite | split | apply Keeps.upd | dsimp only

theorem execTimeMsg_keeps (resid : Nat) (want : Int) (s : State) {s₀ : State} (hk : Keeps s₀ s) : KeepsO s₀ (execTimeMsg
    resid want s) := by
  unfold execTimeMsg
  with_reducible
    repeat' first
      | assumption | intro _ | apply State.clocked_keeps | apply State.setFld_keeps | apply State.setFlag_keeps
      | apply KeepsO.next | apply KeepsO.ite | apply Keeps.ite | split | apply Keeps.upd | dsimp only

theorem execScaleTimeTimeout_keeps (s : State) {s₀ : State} (hk : Keeps s₀ s) : KeepsO s₀ (execScaleTimeTimeout s) := by
  unfold execScaleTimeTimeout
  with_reducible
    repeat' first
      | assumption | intro _ | apply State.clocked_keeps | apply State.setFlag_keeps | apply KeepsO.next | apply KeepsO.ite
      | apply Keeps.ite | split | dsimp only

theorem State.sclRestore_keeps (s : State) {s₀ : State} (hk : Keeps s₀ s) : Keeps s₀ (State.sclRestore s) := by
  unfold State.sclRestore
  with_reducible
    repeat' first
      | assumption | intro _ | apply State.setFld_keeps | apply State.setFlag_keeps | apply Keeps.upd

theorem execScaleLoadDone_keeps (ok : Bool) (s : State) {s₀ : State} (hk : Keeps s₀ s) : KeepsO s₀ (execScaleLoadDone ok s)
    := by
  unfold execScaleLoadDone
  with_reducible
    repeat' first
      | assumption | intro _ | apply State.clocked_keeps | apply State.setFld_keeps | apply State.record_keeps
      | apply State.sclHold_keeps | apply State.cutRecord_keeps | apply State.sclRestore_keeps | apply KeepsO.next
      | apply KeepsO.ite | apply Keeps.ite | split | apply Keeps.upd | dsimp only

theorem execScaleSramUncorr_keeps (s : State) {s₀ : State} (hk : Keeps s₀ s) : KeepsO s₀ (execScaleSramUncorr s) := by
  unfold execScaleSramUncorr
  with_reducible
    repeat' first
      | assumption | intro _ | apply State.clocked_keeps | apply State.setFld_keeps | apply State.sclRestore_keeps
      | apply KeepsO.next | apply KeepsO.ite | apply Keeps.ite | split | apply Keeps.upd | dsimp only

theorem State.sclClosed_keeps (s : State) {s₀ : State} (hk : Keeps s₀ s) : Keeps s₀ (State.sclClosed s) := by
  unfold State.sclClosed
  with_reducible
    repeat' first
      | assumption | apply State.setFlag_keeps | apply Keeps.upd

theorem execRecordPersisted_keeps (s : State) {s₀ : State} (hk : Keeps s₀ s) : KeepsO s₀ (execRecordPersisted s) := by
  unfold execRecordPersisted
  with_reducible
    repeat' first
      | assumption | intro _ | apply State.clocked_keeps | apply State.setFld_keeps | apply State.mirror_keeps
      | apply State.sclClosed_keeps | apply KeepsO.next | apply KeepsO.ite | apply Keeps.ite | split | apply Keeps.upd
      | dsimp only

theorem State.sclShutdown_keeps (s : State) {s₀ : State} (hk : Keeps s₀ s) : Keeps s₀ (State.sclShutdown s) := by
  unfold State.sclShutdown
  with_reducible
    repeat' first
      | assumption | apply State.cutRecord_keeps | apply State.sclClosed_keeps | apply Keeps.ite

theorem State.entryWrite_keeps (s : State) (src : Source) (idx : Nat) (sub : Nat) (f : State → State × Nat) {s₀ : State} (hk
    : Keeps s₀ s) (hf : ∀ (x0 : State), Keeps s₀ x0 → Keeps1 s₀ (f x0)) : Keeps1 s₀ (State.entryWrite s src idx sub f) := by
  unfold State.entryWrite
  with_reducible
    repeat' first
      | assumption | apply State.refuseEntry_keeps | apply hf | apply Keeps1.ite | apply Keeps1.mk

theorem State.sclChunk_keeps (s : State) (off : Nat) (tot : Nat) (data : List Byte) {s₀ : State} (hk : Keeps s₀ s) : Keeps1
    s₀ (State.sclChunk s off tot data) := by
  unfold State.sclChunk
  with_reducible
    repeat' first
      | assumption | apply State.setFld_keeps | apply Keeps1.ite | apply Keeps1.mk | apply Keeps.upd

theorem execSclOffer_keeps (src : Source) (off : Nat) (tot : Nat) (data : List Byte) (s : State) {s₀ : State} (hk : Keeps s₀
    s) : KeepsO s₀ (execSclOffer src off tot data s) := by
  unfold execSclOffer
  with_reducible
    repeat' first
      | assumption | intro _ | apply State.clocked_keeps | apply run_keeps | apply State.entryWrite_keeps
      | apply State.sclChunk_keeps | apply KeepsO.next | apply KeepsO.ite | apply Keeps.ite
      | refine Keeps1.get ?_ (by assumption) | apply Keeps1.fst | apply Keeps1.ite | apply Keeps1.mk | split | dsimp only

theorem execOfferVerifyDone_keeps (sigOk : Bool) (kind : Nat) (version : Nat) (meter : List Byte) (classes : Nat) (s :
    State) {s₀ : State} (hk : Keeps s₀ s) : KeepsO s₀ (execOfferVerifyDone sigOk kind version meter classes s) := by
  unfold execOfferVerifyDone
  with_reducible
    repeat' first
      | assumption | intro _ | apply State.clocked_keeps | apply run_keeps | apply State.setFld_keeps
      | apply State.cutRecord_keeps | apply KeepsO.next | apply KeepsO.ite | apply Keeps.ite | split | apply Keeps.upd
      | dsimp only

theorem execOfferFlashDone_keeps (ok : Bool) (s : State) {s₀ : State} (hk : Keeps s₀ s) : KeepsO s₀ (execOfferFlashDone ok
    s) := by
  unfold execOfferFlashDone
  with_reducible
    repeat' first
      | assumption | intro _ | apply State.clocked_keeps | apply State.setFld_keeps | apply State.wrap_keeps
      | apply State.record_keeps | apply KeepsO.next | apply KeepsO.ite | apply Keeps.ite | split | apply Keeps.upd
      | dsimp only

end Sys2Proof.Machine
end

