-- ==== Sys2Proof/Laws/KeepsBoot.lean ====
section
/-!
SUPPORT. What the operations of Machine/Boot.lean and its commands leave alone: none touches the queue of commands, and each keeps the
canonical form of memory and of the register files.
-/

namespace Sys2Proof.Machine

theorem State.setStage_keeps (s : State) (h : Half) (n : Nat) {s₀ : State} (hk : Keeps s₀ s) : Keeps s₀ (State.setStage s h
    n) := by
  unfold State.setStage
  with_reducible
    repeat' first
      | assumption | apply State.setFld_keeps

theorem State.halfFail_keeps (s : State) (h : Half) {s₀ : State} (hk : Keeps s₀ s) : Keeps s₀ (State.halfFail s h) := by
  unfold State.halfFail
  with_reducible
    repeat' first
      | assumption | apply State.setHalf_keeps | apply State.record_keeps | apply State.setStage_keeps

theorem State.grantLease_keeps (s : State) (h : Half) {s₀ : State} (hk : Keeps s₀ s) : Keeps s₀ (State.grantLease s h) := by
  unfold State.grantLease
  with_reducible
    repeat' first
      | assumption | apply State.setFld_keeps | apply State.wrap_keeps | apply State.setHalf_keeps | apply Keeps.ite
      | apply Keeps.upd

theorem State.fence_keeps (s : State) (h : Half) {s₀ : State} (hk : Keeps s₀ s) : Keeps s₀ (State.fence s h) := by
  unfold State.fence
  with_reducible
    repeat' first
      | assumption | apply State.setHalf_keeps | apply State.record_keeps | apply Keeps.ite

theorem execLeaseRenew_keeps (h : Half) (epoch : Nat) (s : State) {s₀ : State} (hk : Keeps s₀ s) : KeepsO s₀ (execLeaseRenew
    h epoch s) := by
  unfold execLeaseRenew
  with_reducible
    repeat' first
      | assumption | intro _ | apply State.clocked_keeps | apply run_keeps | apply State.setFld_keeps
      | apply State.bump_keeps | apply State.fence_keeps | apply KeepsO.next | apply KeepsO.ite | apply Keeps.ite | split
      | dsimp only

theorem State.setMeas_keeps (s : State) (h : Half) (k : Nat) (d : List Byte) {s₀ : State} (hk : Keeps s₀ s) : Keeps s₀
    (State.setMeas s h k d) := by
  unfold State.setMeas
  with_reducible
    repeat' first
      | assumption | apply Keeps.upd

theorem State.extend_keeps (s : State) (h : Half) (k : Nat) (d : List Byte) {s₀ : State} (hk : Keeps s₀ s) : Keeps s₀
    (State.extend s h k d) := by
  unfold State.extend
  with_reducible
    repeat' first
      | assumption | apply State.setMeas_keeps

theorem State.beginMeas_keeps (s : State) (h : Half) {s₀ : State} (hk : Keeps s₀ s) : Keeps s₀ (State.beginMeas s h) := by
  unfold State.beginMeas
  with_reducible
    repeat' first
      | assumption | intro _ | apply State.each_keeps | apply State.setMeas_keeps | apply State.extend_keeps

theorem execRomStageDone_keeps (h : Half) (uds : Bool) (s : State) {s₀ : State} (hk : Keeps s₀ s) : KeepsO s₀
    (execRomStageDone h uds s) := by
  unfold execRomStageDone
  with_reducible
    repeat' first
      | assumption | intro _ | apply State.clocked_keeps | apply State.setFlag_keeps | apply State.record_keeps
      | apply State.setStage_keeps | apply State.grantLease_keeps | apply KeepsO.next | apply KeepsO.ite | apply Keeps.ite
      | split | dsimp only

theorem State.verifyFail_keeps (s : State) (h : Half) (event : Nat) (aux : Nat) {s₀ : State} (hk : Keeps s₀ s) : Keeps s₀
    (State.verifyFail s h event aux) := by
  unfold State.verifyFail
  with_reducible
    repeat' first
      | assumption | apply State.record_keeps

theorem execImageReadDone_keeps (h : Half) (a : Option Img) (b : Option Img) (s : State) {s₀ : State} (hk : Keeps s₀ s) :
    KeepsO s₀ (execImageReadDone h a b s) := by
  unfold execImageReadDone
  with_reducible
    repeat' first
      | assumption | intro _ | apply State.clocked_keeps | apply State.setFld_keeps | apply State.setStage_keeps
      | apply State.halfFail_keeps | apply State.verifyFail_keeps | apply KeepsO.next | apply KeepsO.ite | apply Keeps.ite
      | split | apply Keeps.upd | dsimp only

theorem State.verified_keeps (s : State) (h : Half) (i : Img) {s₀ : State} (hk : Keeps s₀ s) : Keeps s₀ (State.verified s h
    i) := by
  unfold State.verified
  with_reducible
    repeat' first
      | assumption | apply State.setFld_keeps | apply State.setStage_keeps | apply State.setMeas_keeps
      | apply State.extend_keeps | apply Keeps.ite

theorem execVerifyDone_keeps (h : Half) (rpmc : Bool) (s : State) {s₀ : State} (hk : Keeps s₀ s) : KeepsO s₀ (execVerifyDone
    h rpmc s) := by
  unfold execVerifyDone
  with_reducible
    repeat' first
      | assumption | intro _ | apply State.clocked_keeps | apply State.setFld_keeps | apply State.setStage_keeps
      | apply State.halfFail_keeps | apply State.verifyFail_keeps | apply State.verified_keeps | apply KeepsO.next
      | apply KeepsO.ite | apply Keeps.ite | split | apply Keeps.upd | dsimp only

theorem State.enterRunning_keeps (s : State) (h : Half) {s₀ : State} (hk : Keeps s₀ s) : Keeps s₀ (State.enterRunning s h) := by
  unfold State.enterRunning
  with_reducible
    repeat' first
      | assumption | apply State.enableLinks_keeps | apply State.setStage_keeps

theorem execSerdesDone_keeps (h : Half) (failed : Nat) (s : State) {s₀ : State} (hk : Keeps s₀ s) : KeepsO s₀
    (execSerdesDone h failed s) := by
  unfold execSerdesDone
  with_reducible
    repeat' first
      | assumption | intro _ | apply State.clocked_keeps | apply run_keeps | apply State.record_keeps
      | apply State.setStage_keeps | apply State.enterRunning_keeps | apply Keeps.foldl | apply Keeps1.foldl
      | apply KeepsO.next | apply KeepsO.ite | apply Keeps.ite | refine Keeps1.get ?_ (by assumption) | apply Keeps1.fst
      | apply Keeps1.ite | apply Keeps1.mk | split | apply Keeps.upd | dsimp only

theorem State.svnCommit_keeps (s : State) (v : Word) {s₀ : State} (hk : Keeps s₀ s) : Keeps s₀ (State.svnCommit s v) := by
  unfold State.svnCommit
  with_reducible
    repeat' first
      | assumption | apply State.setFld_keeps | apply Keeps.ite | apply Keeps.upd

theorem execBootSvnCommit_keeps (src : Source) (v : Word) (s : State) {s₀ : State} (hk : Keeps s₀ s) : KeepsO s₀
    (execBootSvnCommit src v s) := by
  unfold execBootSvnCommit
  with_reducible
    repeat' first
      | assumption | intro _ | apply State.clocked_keeps | apply run_keeps | apply State.gated_keeps
      | apply State.svnCommit_keeps | apply KeepsO.next | apply KeepsO.ite | apply Keeps.ite | split | dsimp only

theorem State.fwChunk_keeps (s : State) (off : Nat) (tot : Nat) (data : List Byte) {s₀ : State} (hk : Keeps s₀ s) : Keeps1 s₀
    (State.fwChunk s off tot data) := by
  unfold State.fwChunk
  with_reducible
    repeat' first
      | assumption | apply State.setFld_keeps | apply State.emit_keeps | apply Keeps1.ite | apply Keeps1.mk | apply Keeps.upd

theorem execFwOffer_keeps (src : Source) (off : Nat) (tot : Nat) (data : List Byte) (s : State) {s₀ : State} (hk : Keeps s₀
    s) : KeepsO s₀ (execFwOffer src off tot data s) := by
  unfold execFwOffer
  with_reducible
    repeat' first
      | assumption | intro _ | apply State.clocked_keeps | apply run_keeps | apply State.entryWrite_keeps
      | apply State.fwChunk_keeps | apply KeepsO.next | apply KeepsO.ite | apply Keeps.ite
      | refine Keeps1.get ?_ (by assumption) | apply Keeps1.fst | apply Keeps1.ite | apply Keeps1.mk | split | dsimp only

theorem execFwOfferVerifyDone_keeps (written : Bool) (img : Option Img) (s : State) {s₀ : State} (hk : Keeps s₀ s) : KeepsO
    s₀ (execFwOfferVerifyDone written img s) := by
  unfold execFwOfferVerifyDone
  with_reducible
    repeat' first
      | assumption | intro _ | apply State.clocked_keeps | apply State.setFld_keeps | apply KeepsO.next | apply KeepsO.ite
      | apply Keeps.ite | split | dsimp only

theorem State.attest_keeps (s : State) (host : Bool) (nonce : List Byte) {s₀ : State} (hk : Keeps s₀ s) : Keeps1 s₀
    (State.attest s host nonce) := by
  unfold State.attest
  with_reducible
    repeat' first
      | assumption | apply Keeps1.ite | apply Keeps1.mk | apply Keeps.upd

theorem execAttestNonce_keeps (src : Source) (host : Bool) (nonce : List Byte) (s : State) {s₀ : State} (hk : Keeps s₀ s) :
    KeepsO s₀ (execAttestNonce src host nonce s) := by
  unfold execAttestNonce
  with_reducible
    repeat' first
      | assumption | intro _ | apply State.clocked_keeps | apply run_keeps | apply State.entryWrite_keeps
      | apply State.attest_keeps | apply KeepsO.next | apply KeepsO.ite | apply Keeps.ite
      | refine Keeps1.get ?_ (by assumption) | apply Keeps1.fst | apply Keeps1.ite | apply Keeps1.mk | split | dsimp only

theorem execAttestReportReady_keeps (host : Bool) (s : State) {s₀ : State} (hk : Keeps s₀ s) : KeepsO s₀
    (execAttestReportReady host s) := by
  unfold execAttestReportReady
  with_reducible
    repeat' first
      | assumption | intro _ | apply State.clocked_keeps | apply KeepsO.next | apply KeepsO.ite | apply Keeps.ite | split
      | apply Keeps.upd | dsimp only

theorem State.restoreCalendar_keeps (s : State) (u : Nat) (t2 : Nat) {s₀ : State} (hk : Keeps s₀ s) : Keeps s₀
    (State.restoreCalendar s u t2) := by
  unfold State.restoreCalendar
  with_reducible
    repeat' first
      | assumption | apply State.setFld_keeps | apply State.setFlag_keeps | apply State.lifeAdd_keeps
      | apply State.lifeSet_keeps | apply State.beginSnap_keeps | apply Keeps.ite

theorem State.acceptSample_keeps (s : State) (net : Bool) {s₀ : State} (hk : Keeps s₀ s) : Keeps s₀ (State.acceptSample s
    net) := by
  unfold State.acceptSample
  with_reducible
    repeat' first
      | assumption | apply State.setFld_keeps | apply State.setFlag_keeps | apply Keeps.upd

theorem State.sample_keeps (s : State) (u : Nat) (t2 : Nat) (net : Bool) {s₀ : State} (hk : Keeps s₀ s) : Keeps s₀
    (State.sample s u t2 net) := by
  unfold State.sample
  with_reducible
    repeat' first
      | assumption | intro _ | apply State.bump_keeps | apply State.restoreCalendar_keeps | apply State.acceptSample_keeps
      | apply Keeps.ite

theorem execBootTimeSync_keeps (src : Source) (n : Nat) (s : State) {s₀ : State} (hk : Keeps s₀ s) : KeepsO s₀
    (execBootTimeSync src n s) := by
  unfold execBootTimeSync
  with_reducible
    repeat' first
      | assumption | intro _ | apply State.clocked_keeps | apply run_keeps | apply State.entryWrite_keeps
      | apply KeepsO.next | apply KeepsO.ite | apply Keeps.ite | refine Keeps1.get ?_ (by assumption) | apply Keeps1.fst
      | apply Keeps1.ite | apply Keeps1.mk | split | apply Keeps.upd | dsimp only

theorem State.follow_keeps (s : State) (n : Nat) (t1 : Nat) {s₀ : State} (hk : Keeps s₀ s) : Keeps s₀ (State.follow s n t1) := by
  unfold State.follow
  with_reducible
    repeat' first
      | assumption | apply State.sample_keeps | apply Keeps.ite | split

theorem execBootTimeFollow_keeps (src : Source) (n : Nat) (t1 : Nat) (s : State) {s₀ : State} (hk : Keeps s₀ s) : KeepsO s₀
    (execBootTimeFollow src n t1 s) := by
  unfold execBootTimeFollow
  with_reducible
    repeat' first
      | assumption | intro _ | apply State.clocked_keeps | apply run_keeps | apply State.entryWrite_keeps
      | apply State.follow_keeps | apply KeepsO.next | apply KeepsO.ite | apply Keeps.ite
      | refine Keeps1.get ?_ (by assumption) | apply Keeps1.fst | apply Keeps1.ite | apply Keeps1.mk | split | dsimp only

theorem execBootTimeHost_keeps (src : Source) (u : Word) (s : State) {s₀ : State} (hk : Keeps s₀ s) : KeepsO s₀
    (execBootTimeHost src u s) := by
  unfold execBootTimeHost
  with_reducible
    repeat' first
      | assumption | intro _ | apply State.clocked_keeps | apply run_keeps | apply State.gated_keeps
      | apply State.sample_keeps | apply KeepsO.next | apply KeepsO.ite | apply Keeps.ite | split | dsimp only

theorem execDeviceTimeUndisciplined_keeps (s : State) {s₀ : State} (hk : Keeps s₀ s) : KeepsO s₀
    (execDeviceTimeUndisciplined s) := by
  unfold execDeviceTimeUndisciplined
  with_reducible
    repeat' first
      | assumption | intro _ | apply State.clocked_keeps | apply State.setFlag_keeps | apply KeepsO.next | apply KeepsO.ite
      | apply Keeps.ite | split | dsimp only

theorem State.advanceShutdown_keeps (s : State) {s₀ : State} (hk : Keeps s₀ s) : Keeps s₀ (State.advanceShutdown s) := by
  unfold State.advanceShutdown
  with_reducible
    repeat' first
      | assumption | apply State.beginSnap_keeps | apply Keeps.ite | apply Keeps.upd

theorem State.lifeCtrl_keeps (s : State) (v : Word) {s₀ : State} (hk : Keeps s₀ s) : Keeps s₀ (State.lifeCtrl s v) := by
  unfold State.lifeCtrl
  with_reducible
    repeat' first
      | assumption | intro _ | apply State.each_keeps | apply State.setProg_keeps | apply State.beginSnap_keeps
      | apply State.advanceShutdown_keeps | apply Keeps.ite | apply Keeps.upd

theorem execShutdown_keeps (src : Source) (confirm : Nat) (s : State) {s₀ : State} (hk : Keeps s₀ s) : KeepsO s₀
    (execShutdown src confirm s) := by
  unfold execShutdown
  with_reducible
    repeat' first
      | assumption | intro _ | apply State.clocked_keeps | apply run_keeps | apply State.gated_keeps
      | apply State.lifeCtrl_keeps | apply KeepsO.next | apply KeepsO.ite | apply Keeps.ite | split | dsimp only

theorem execSnapshotWriteDone_keeps (ok : Bool) (s : State) {s₀ : State} (hk : Keeps s₀ s) : KeepsO s₀
    (execSnapshotWriteDone ok s) := by
  unfold execSnapshotWriteDone
  with_reducible
    repeat' first
      | assumption | intro _ | apply State.clocked_keeps | apply State.beginSnap_keeps | apply State.endSnap_keeps
      | apply State.sclShutdown_keeps | apply KeepsO.next | apply KeepsO.ite | apply Keeps.ite | split | apply Keeps.upd
      | dsimp only

end Sys2Proof.Machine
end

