-- ==== Sys2Proof/Laws/KeepsMgmt.lean ====
section
/-!
SUPPORT. What the operations of Machine/Mgmt.lean and its commands leave alone: none touches the queue of commands, and each keeps the
canonical form of memory and of the register files.
-/

namespace Sys2Proof.Machine

theorem State.syncMg_keeps (s : State) {s₀ : State} (hk : Keeps s₀ s) : Keeps s₀ (State.syncMg s) := by
  unfold State.syncMg
  with_reducible
    repeat' first
      | assumption | apply State.setFld_keeps | apply State.setFlag_keeps

theorem State.setSession_keeps (s : State) (k : Nat) (x : Option Session) {s₀ : State} (hk : Keeps s₀ s) : Keeps s₀
    (State.setSession s k x) := by
  unfold State.setSession
  with_reducible
    repeat' first
      | assumption | apply State.syncMg_keeps | apply Keeps.upd

theorem State.setShake_keeps (s : State) (k : Nat) (x : Option Session) {s₀ : State} (hk : Keeps s₀ s) : Keeps s₀
    (State.setShake s k x) := by
  unfold State.setShake
  with_reducible
    repeat' first
      | assumption | apply State.syncMg_keeps | apply Keeps.upd

theorem State.forget_keeps (s : State) (who : Nat) (slot : Option Nat) {s₀ : State} (hk : Keeps s₀ s) : Keeps s₀
    (State.forget s who slot) := by
  unfold State.forget
  with_reducible
    repeat' first
      | assumption | intro _ | apply Keeps.upd

theorem State.closeSession_keeps (s : State) (k : Nat) {s₀ : State} (hk : Keeps s₀ s) : Keeps s₀ (State.closeSession s k) := by
  unfold State.closeSession
  with_reducible
    repeat' first
      | assumption | apply State.setSession_keeps | apply State.forget_keeps

theorem State.dropShake_keeps (s : State) (k : Nat) {s₀ : State} (hk : Keeps s₀ s) : Keeps s₀ (State.dropShake s k) := by
  unfold State.dropShake
  with_reducible
    repeat' first
      | assumption | intro _ | apply State.setShake_keeps | apply Keeps.upd

theorem State.closeNet_keeps (s : State) {s₀ : State} (hk : Keeps s₀ s) : Keeps s₀ (State.closeNet s) := by
  unfold State.closeNet
  with_reducible
    repeat' first
      | assumption | intro _ | apply State.each_keeps | apply State.closeSession_keeps | split | dsimp only

theorem State.commitNet_keeps (s : State) {s₀ : State} (hk : Keeps s₀ s) : Keeps s₀ (State.commitNet s) := by
  unfold State.commitNet
  with_reducible
    repeat' first
      | assumption | apply State.beginCommit_keeps | apply State.rejectCommit_keeps | apply Keeps.ite

theorem State.applyNet_keeps (s : State) {s₀ : State} (hk : Keeps s₀ s) : Keeps s₀ (State.applyNet s) := by
  unfold State.applyNet
  with_reducible
    repeat' first
      | assumption | apply State.setFlag_keeps | apply State.finishCommit_keeps | apply State.closeNet_keeps

theorem State.commitAnchor_keeps (s : State) {s₀ : State} (hk : Keeps s₀ s) : Keeps s₀ (State.commitAnchor s) := by
  unfold State.commitAnchor
  with_reducible
    repeat' first
      | assumption | intro _ | apply State.beginCommit_keeps | apply State.rejectCommit_keeps | apply Keeps.ite
      | apply Keeps.upd

theorem State.extendMgmt_keeps (s : State) (b : List Byte) {s₀ : State} (hk : Keeps s₀ s) : Keeps s₀ (State.extendMgmt s b) := by
  unfold State.extendMgmt
  with_reducible
    repeat' first
      | assumption | apply State.extend_keeps

theorem State.applyAnchor_keeps (s : State) {s₀ : State} (hk : Keeps s₀ s) : Keeps s₀ (State.applyAnchor s) := by
  unfold State.applyAnchor
  with_reducible
    repeat' first
      | assumption | intro _ | apply State.when_keeps | apply State.finishCommit_keeps | apply State.closeSession_keeps
      | apply State.extendMgmt_keeps | apply Keeps.foldl | apply Keeps.upd

theorem State.commitDeleg_keeps (s : State) {s₀ : State} (hk : Keeps s₀ s) : Keeps s₀ (State.commitDeleg s) := by
  unfold State.commitDeleg
  with_reducible
    repeat' first
      | assumption | intro _ | apply State.beginCommit_keeps | apply State.rejectCommit_keeps | apply Keeps.ite

theorem State.applyDeleg_keeps (s : State) {s₀ : State} (hk : Keeps s₀ s) : Keeps s₀ (State.applyDeleg s) := by
  unfold State.applyDeleg
  with_reducible
    repeat' first
      | assumption | intro _ | apply State.finishCommit_keeps | apply State.extendMgmt_keeps

theorem execMgtNetCommit_keeps (src : Source) (s : State) {s₀ : State} (hk : Keeps s₀ s) : KeepsO s₀ (execMgtNetCommit src
    s) := by
  unfold execMgtNetCommit
  with_reducible
    repeat' first
      | assumption | intro _ | apply State.clocked_keeps | apply run_keeps | apply State.gated_keeps
      | apply State.commitNet_keeps | apply KeepsO.next | apply KeepsO.ite | apply Keeps.ite | split | apply Keeps.upd
      | dsimp only

theorem execMgtAnchorCommit_keeps (src : Source) (s : State) {s₀ : State} (hk : Keeps s₀ s) : KeepsO s₀ (execMgtAnchorCommit
    src s) := by
  unfold execMgtAnchorCommit
  with_reducible
    repeat' first
      | assumption | intro _ | apply State.clocked_keeps | apply run_keeps | apply State.gated_keeps
      | apply State.commitAnchor_keeps | apply KeepsO.next | apply KeepsO.ite | apply Keeps.ite | split | apply Keeps.upd
      | dsimp only

theorem execMgtDelegCommit_keeps (src : Source) (s : State) {s₀ : State} (hk : Keeps s₀ s) : KeepsO s₀ (execMgtDelegCommit
    src s) := by
  unfold execMgtDelegCommit
  with_reducible
    repeat' first
      | assumption | intro _ | apply State.clocked_keeps | apply run_keeps | apply State.gated_keeps
      | apply State.commitDeleg_keeps | apply KeepsO.next | apply KeepsO.ite | apply Keeps.ite | split | apply Keeps.upd
      | dsimp only

theorem execLeaseExpiry_keeps (s : State) {s₀ : State} (hk : Keeps s₀ s) : KeepsO s₀ (execLeaseExpiry s) := by
  unfold execLeaseExpiry
  with_reducible
    repeat' first
      | assumption | intro _ | apply State.clocked_keeps | apply State.setFld_keeps | apply State.grantLease_keeps
      | apply State.dropShake_keeps | apply State.closeNet_keeps | apply KeepsO.next | apply KeepsO.ite | apply Keeps.ite
      | split | dsimp only

theorem execBeaconLoss_keeps (s : State) {s₀ : State} (hk : Keeps s₀ s) : KeepsO s₀ (execBeaconLoss s) := by
  unfold execBeaconLoss
  with_reducible
    repeat' first
      | assumption | intro _ | apply State.clocked_keeps | apply State.setFlag_keeps | apply State.bump_keeps
      | apply KeepsO.next | apply KeepsO.ite | apply Keeps.ite | split | apply Keeps.upd | dsimp only

theorem execBeaconSeen_keeps (s : State) {s₀ : State} (hk : Keeps s₀ s) : KeepsO s₀ (execBeaconSeen s) := by
  unfold execBeaconSeen
  with_reducible
    repeat' first
      | assumption | intro _ | apply State.clocked_keeps | apply State.setFlag_keeps | apply KeepsO.next | apply KeepsO.ite
      | apply Keeps.ite | split | apply Keeps.upd | dsimp only

theorem State.rxFrame_keeps (s : State) {s₀ : State} (hk : Keeps s₀ s) : Keeps s₀ (State.rxFrame s) := by
  unfold State.rxFrame
  with_reducible
    repeat' first
      | assumption | apply State.wrap_keeps

theorem State.txFrame_keeps (s : State) {s₀ : State} (hk : Keeps s₀ s) : Keeps s₀ (State.txFrame s) := by
  unfold State.txFrame
  with_reducible
    repeat' first
      | assumption | apply State.wrap_keeps

theorem execNeighborSolicitation_keeps (target : List Byte) (toMac : Bool) (s : State) {s₀ : State} (hk : Keeps s₀ s) :
    KeepsO s₀ (execNeighborSolicitation target toMac s) := by
  unfold execNeighborSolicitation
  with_reducible
    repeat' first
      | assumption | intro _ | apply State.clocked_keeps | apply State.bump_keeps | apply State.emit_keeps
      | apply State.rxFrame_keeps | apply State.txFrame_keeps | apply KeepsO.next | apply KeepsO.ite | apply Keeps.ite
      | split | dsimp only

theorem execEchoRequest_keeps (target : List Byte) (data : List Byte) (toMac : Bool) (s : State) {s₀ : State} (hk : Keeps s₀
    s) : KeepsO s₀ (execEchoRequest target data toMac s) := by
  unfold execEchoRequest
  with_reducible
    repeat' first
      | assumption | intro _ | apply State.clocked_keeps | apply State.bump_keeps | apply State.emit_keeps
      | apply State.rxFrame_keeps | apply State.txFrame_keeps | apply KeepsO.next | apply KeepsO.ite | apply Keeps.ite
      | split | dsimp only

theorem execDadComplete_keeps (duplicate : Bool) (s : State) {s₀ : State} (hk : Keeps s₀ s) : KeepsO s₀ (execDadComplete
    duplicate s) := by
  unfold execDadComplete
  with_reducible
    repeat' first
      | assumption | intro _ | apply State.clocked_keeps | apply State.setFlag_keeps | apply KeepsO.next | apply KeepsO.ite
      | apply Keeps.ite | split | dsimp only

theorem execDroppedFrame_keeps (why : Nat) (s : State) {s₀ : State} (hk : Keeps s₀ s) : KeepsO s₀ (execDroppedFrame why s)
    := by
  unfold execDroppedFrame
  with_reducible
    repeat' first
      | assumption | intro _ | apply State.clocked_keeps | apply run_keeps | apply State.bump_keeps
      | apply State.rxFrame_keeps | apply KeepsO.next | apply KeepsO.ite | apply Keeps.ite | split | dsimp only

end Sys2Proof.Machine
end

