-- ==== Sys2Proof/Laws/KeepsResets.lean ====
section
/-!
SUPPORT. What the operations of Machine/Resets.lean and its commands leave alone: none touches the queue of commands, and each keeps the
canonical form of memory and of the register files.
-/

namespace Sys2Proof.Machine

theorem State.copyRegs_keeps (s : State) (t : State) (rs : List Reg) {s₀ : State} (hk : Keeps s₀ s) : Keeps s₀
    (State.copyRegs s t rs) := by
  unfold State.copyRegs
  with_reducible
    repeat' first
      | assumption | intro _ | apply State.wr_keeps | apply Keeps.foldl

theorem State.outside_keeps (s : State) {s₀ : State} (hk : Keeps s₀ s) : Keeps s₀ (State.outside s) := ⟨hk.pending, fun _ => rfl⟩

theorem State.losetiers_keeps (s : State) (t : State) {s₀ : State} (hk : Keeps s₀ s) : Keeps s₀ (State.losetiers s t) := by
  unfold State.losetiers
  with_reducible
    repeat' first
      | assumption | apply State.undefine_keeps

theorem State.coldReset_keeps (s : State) (cause : Nat) {s₀ : State} (hk : Keeps s₀ s) : Keeps s₀ (State.coldReset s cause) := by
  unfold State.coldReset
  with_reducible
    repeat' first
      | assumption | apply State.setFld_keeps | apply State.emit_keeps | apply State.copyRegs_keeps
      | apply State.outside_keeps | apply State.losetiers_keeps | apply Keeps.ite | apply Keeps.upd

theorem State.startStarters_keeps (s : State) {s₀ : State} (hk : Keeps s₀ s) : Keeps s₀ (State.startStarters s) := by
  unfold State.startStarters
  with_reducible
    repeat' first
      | assumption | apply State.wr_keeps | apply State.setFld_keeps | apply State.setHalf_keeps
      | apply State.restoreLife_keeps | apply State.setStage_keeps | apply State.beginMeas_keeps

theorem State.coldStart_keeps (s : State) {s₀ : State} (hk : Keeps s₀ s) : Keeps s₀ (State.coldStart s) := by
  unfold State.coldStart
  with_reducible
    repeat' first
      | assumption | intro _ | apply State.setFld_keeps | apply State.lifeAdd_keeps | apply State.startStarters_keeps | split
      | apply Keeps.upd | dsimp only

theorem execColdResetRelease_keeps (straps : Nat) (s : State) {s₀ : State} (hk : Keeps s₀ s) : KeepsO s₀
    (execColdResetRelease straps s) := by
  unfold execColdResetRelease
  with_reducible
    repeat' first
      | assumption | intro _ | apply run_keeps | apply State.setFld_keeps | apply State.emit_keeps
      | apply State.coldStart_keeps | apply KeepsO.next | apply KeepsO.ite | apply Keeps.ite | split | apply Keeps.upd
      | dsimp only

theorem execColdResetAssert_keeps (s : State) {s₀ : State} (hk : Keeps s₀ s) : KeepsO s₀ (execColdResetAssert s) := by
  unfold execColdResetAssert
  with_reducible
    repeat' first
      | assumption | intro _ | apply State.emit_keeps | apply State.coldReset_keeps | apply KeepsO.next | apply KeepsO.ite
      | apply Keeps.ite | split | apply Keeps.upd | dsimp only

theorem execSysrefLoss_keeps (s : State) {s₀ : State} (hk : Keeps s₀ s) : KeepsO s₀ (execSysrefLoss s) := by
  unfold execSysrefLoss
  with_reducible
    repeat' first
      | assumption | apply State.coldReset_keeps | apply Keeps.ite | apply KeepsO.next | apply Keeps.upd

theorem execSysrefReturn_keeps (s : State) {s₀ : State} (hk : Keeps s₀ s) : KeepsO s₀ (execSysrefReturn s) := by
  unfold execSysrefReturn
  with_reducible
    repeat' first
      | assumption | apply State.coldStart_keeps | apply Keeps.ite | apply KeepsO.next | apply Keeps.upd

theorem State.warmReset_keeps (s : State) (cause : Nat) {s₀ : State} (hk : Keeps s₀ s) : Keeps s₀ (State.warmReset s cause)
    := by
  unfold State.warmReset
  with_reducible
    repeat' first
      | assumption | intro _ | apply State.setFld_keeps | apply State.setFlag_keeps | apply State.emit_keeps
      | apply State.copyRegs_keeps | apply State.outside_keeps | apply State.losetiers_keeps
      | apply State.startStarters_keeps | apply Keeps.ite | split | apply Keeps.upd | dsimp only

theorem State.halfArrays_keeps (s : State) (h : Half) {s₀ : State} (hk : Keeps s₀ s) : Keeps s₀ (State.halfArrays s h) := by
  unfold State.halfArrays
  with_reducible
    repeat' first
      | assumption | intro _ | apply State.each_keeps | apply State.freeEngine_keeps | apply State.setAstate_keeps
      | apply State.setArr_keeps | apply Keeps.ite | split | apply Keeps.upd | dsimp only

theorem State.halfEngines_keeps (s : State) (h : Half) (env : Env) {s₀ : State} (hk : Keeps s₀ s) : Keeps s₀
    (State.halfEngines s h env) := by
  unfold State.halfEngines
  with_reducible
    repeat' first
      | assumption | intro _ | apply State.setFlag_keeps | apply State.freeEngine_keeps | apply State.restartMove_keeps
      | apply State.evictReps_keeps | apply State.scoopMove_keeps | apply Keeps.foldl | split | apply Keeps.upd

theorem State.linkOff_keeps (s : State) (l : Nat) {s₀ : State} (hk : Keeps s₀ s) : Keeps s₀ (State.linkOff s l) := by
  unfold State.linkOff
  with_reducible
    repeat' first
      | assumption | apply State.setLink_keeps | apply State.setLstate_keeps | apply State.leaveUp_keeps | apply Keeps.ite

theorem State.halfReset_keeps (s : State) (h : Half) (keep : Bool) (env : Env) {s₀ : State} (hk : Keeps s₀ s) : Keeps s₀
    (State.halfReset s h keep env) := by
  unfold State.halfReset
  with_reducible
    repeat' first
      | assumption | intro _ | apply State.each_keeps | apply State.setHalf_keeps | apply State.undefine_keeps
      | apply State.haltProg_keeps | apply State.agentDead_keeps | apply State.setStage_keeps | apply State.beginMeas_keeps
      | apply State.tellHalfReset_keeps | apply State.halfArrays_keeps | apply State.halfEngines_keeps
      | apply State.linkOff_keeps | apply Keeps.foldl | apply Keeps.ite | split

theorem State.writeRst_keeps (s : State) (src : Source) (v : Word) (env : Env) {s₀ : State} (hk : Keeps s₀ s) : Keeps s₀
    (State.writeRst s src v env) := by
  unfold State.writeRst
  with_reducible
    repeat' first
      | assumption | apply State.warmReset_keeps | apply State.halfReset_keeps | apply Keeps.ite | split

theorem execChipWarmReset_keeps (src : Source) (confirm : Nat) (s : State) {s₀ : State} (hk : Keeps s₀ s) : KeepsO s₀
    (execChipWarmReset src confirm s) := by
  unfold execChipWarmReset
  with_reducible
    repeat' first
      | assumption | intro _ | apply State.clocked_keeps | apply run_keeps | apply State.gated_keeps
      | apply State.writeRst_keeps | apply KeepsO.next | apply KeepsO.ite | apply Keeps.ite | split | dsimp only

theorem execHalfReset_keeps (src : Source) (h : Half) (confirm : Nat) (env : Env) (s : State) {s₀ : State} (hk : Keeps s₀ s)
    : KeepsO s₀ (execHalfReset src h confirm env s) := by
  unfold execHalfReset
  with_reducible
    repeat' first
      | assumption | intro _ | apply State.clocked_keeps | apply run_keeps | apply State.gated_keeps
      | apply State.halfReset_keeps | apply State.writeRst_keeps | apply KeepsO.next | apply KeepsO.ite | apply Keeps.ite
      | split | dsimp only

theorem execHalfResetTimeout_keeps (h : Half) (s : State) {s₀ : State} (hk : Keeps s₀ s) : KeepsO s₀ (execHalfResetTimeout h
    s) := by
  unfold execHalfResetTimeout
  with_reducible
    repeat' first
      | assumption | intro _ | apply State.clocked_keeps | apply State.halfFail_keeps | apply KeepsO.next
      | apply KeepsO.ite | apply Keeps.ite | split | dsimp only

theorem State.bridgeReset_keeps (s : State) {s₀ : State} (hk : Keeps s₀ s) : Keeps s₀ (State.bridgeReset s) := by
  unfold State.bridgeReset
  with_reducible
    repeat' first
      | assumption | apply State.record_keeps | apply State.warmReset_keeps | apply Keeps.ite

theorem execBridgeLaneFail_keeps (dir : Nat) (g : Nat) (s : State) {s₀ : State} (hk : Keeps s₀ s) : KeepsO s₀
    (execBridgeLaneFail dir g s) := by
  unfold execBridgeLaneFail
  with_reducible
    repeat' first
      | assumption | intro _ | apply State.clocked_keeps | apply run_keeps | apply State.wrap_keeps
      | apply State.record_keeps | apply KeepsO.next | apply KeepsO.ite | apply Keeps.ite | split | apply Keeps.upd
      | dsimp only

theorem execBridgeSecondLaneFail_keeps (dir : Nat) (g : Nat) (s : State) {s₀ : State} (hk : Keeps s₀ s) : KeepsO s₀
    (execBridgeSecondLaneFail dir g s) := by
  unfold execBridgeSecondLaneFail
  with_reducible
    repeat' first
      | assumption | intro _ | apply State.clocked_keeps | apply run_keeps | apply State.setFld_keeps
      | apply State.wrap_keeps | apply State.record_keeps | apply State.bridgeReset_keeps | apply KeepsO.next
      | apply KeepsO.ite | apply Keeps.ite | split | dsimp only

theorem execBridgeEndpointLost_keeps (east : Bool) (west : Bool) (env : Env) (s : State) {s₀ : State} (hk : Keeps s₀ s) :
    KeepsO s₀ (execBridgeEndpointLost east west env s) := by
  unfold execBridgeEndpointLost
  with_reducible
    repeat' first
      | assumption | intro _ | apply State.clocked_keeps | apply run_keeps | apply State.wr_keeps
      | apply State.record_keeps | apply State.halfReset_keeps | apply State.bridgeReset_keeps | apply KeepsO.next
      | apply KeepsO.ite | apply Keeps.ite | split | apply Keeps.upd | dsimp only

theorem State.poolArrays_keeps (s : State) (h : Half) {s₀ : State} (hk : Keeps s₀ s) : Keeps s₀ (State.poolArrays s h) := by
  unfold State.poolArrays
  with_reducible
    repeat' first
      | assumption | intro _ | apply State.each_keeps | apply State.setAstate_keeps | apply Keeps.ite

theorem State.trainT1_keeps (s : State) (h : Half) (bad : Nat) (rate : Nat) (dimm : Nat) (same : Bool) {s₀ : State} (hk :
    Keeps s₀ s) : Keeps s₀ (State.trainT1 s h bad rate dimm same) := by
  unfold State.trainT1
  with_reducible
    repeat' first
      | assumption | intro _ | apply State.setFld_keeps | apply State.setFlag_keeps | apply State.each_keeps
      | apply State.record_keeps | apply Keeps.foldl | apply Keeps.ite | apply Keeps.upd

theorem State.trainT0_keeps (s : State) (h : Half) (bad : Nat) {s₀ : State} (hk : Keeps s₀ s) : Keeps s₀ (State.trainT0 s h
    bad) := by
  unfold State.trainT0
  with_reducible
    repeat' first
      | assumption | intro _ | apply State.setFld_keeps | apply State.setFlag_keeps | apply State.each_keeps
      | apply State.record_keeps | apply State.syncFree_keeps | apply State.withdrawStage_keeps | apply Keeps.foldl
      | apply Keeps.ite | apply Keeps1.fst | apply Keeps1.ite | split | apply Keeps1.mk | dsimp only

theorem State.resyncHalf_keeps (s : State) (h : Half) {s₀ : State} (hk : Keeps s₀ s) : Keeps s₀ (State.resyncHalf s h) := by
  unfold State.resyncHalf
  with_reducible
    repeat' first
      | assumption | intro _ | apply State.each_keeps | apply State.syncChan_keeps | apply State.syncScoop_keeps
      | apply Keeps.ite | split | dsimp only

theorem execMemoryTrained_keeps (h : Half) (badCh : Nat) (badSt : Nat) (rate : Nat) (dimm : Nat) (same : Bool) (ew : Nat)
    (we : Nat) (s : State) {s₀ : State} (hk : Keeps s₀ s) : KeepsO s₀ (execMemoryTrained h badCh badSt rate dimm same ew we
    s) := by
  unfold execMemoryTrained
  with_reducible
    repeat' first
      | assumption | intro _ | apply State.clocked_keeps | apply run_keeps | apply State.setFld_keeps
      | apply State.setHalf_keeps | apply State.setStage_keeps | apply State.halfBack_keeps | apply State.bridgeReset_keeps
      | apply State.poolArrays_keeps | apply State.trainT1_keeps | apply State.trainT0_keeps | apply State.resyncHalf_keeps
      | apply KeepsO.next | apply KeepsO.ite | apply Keeps.ite | split | dsimp only

theorem execMemoryTimeout_keeps (h : Half) (s : State) {s₀ : State} (hk : Keeps s₀ s) : KeepsO s₀ (execMemoryTimeout h s) :=
    by
  unfold execMemoryTimeout
  with_reducible
    repeat' first
      | assumption | intro _ | apply State.clocked_keeps | apply State.record_keeps | apply State.halfFail_keeps
      | apply KeepsO.next | apply KeepsO.ite | apply Keeps.ite | split | dsimp only

end Sys2Proof.Machine
end

