-- ==== Sys2Proof/Laws/KeepsThermal.lean ====
section
/-!
SUPPORT. What the operations of Machine/Thermal.lean and its commands leave alone: none touches the queue of commands, and each keeps the
canonical form of memory and of the register files.
-/

namespace Sys2Proof.Machine

theorem State.syncCauses_keeps (s : State) {s₀ : State} (hk : Keeps s₀ s) : Keeps s₀ (State.syncCauses s) := by
  unfold State.syncCauses
  with_reducible
    repeat' first
      | assumption | apply State.setFlag_keeps

theorem State.throttled_keeps (s : State) (f : State → State) {s₀ : State} (hk : Keeps s₀ s) (hf : ∀ (x0 : State), Keeps s₀
    x0 → Keeps s₀ (f x0)) : Keeps s₀ (State.throttled s f) := by
  unfold State.throttled
  with_reducible
    repeat' first
      | assumption | apply State.emit_keeps | apply hf | apply Keeps.ite

theorem State.beginThrottle_keeps (s : State) (hard : Bool) {s₀ : State} (hk : Keeps s₀ s) : Keeps s₀ (State.beginThrottle s
    hard) := by
  unfold State.beginThrottle
  with_reducible
    repeat' first
      | assumption | intro _ | apply State.setFld_keeps | apply State.each_keeps | apply State.syncCauses_keeps
      | apply State.throttled_keeps | apply Keeps.ite

theorem State.trip_keeps (s : State) {s₀ : State} (hk : Keeps s₀ s) : Keeps s₀ (State.trip s) := by
  unfold State.trip
  with_reducible
    repeat' first
      | assumption | intro _ | apply State.setFld_keeps | apply State.emit_keeps | apply State.throttled_keeps
      | apply Keeps.ite | apply Keeps.upd

theorem State.noteTj_keeps (s : State) {s₀ : State} (hk : Keeps s₀ s) : Keeps s₀ (State.noteTj s) := by
  unfold State.noteTj
  with_reducible
    repeat' first
      | assumption | apply Keeps.ite | apply Keeps.upd

theorem State.noteCycle_keeps (s : State) {s₀ : State} (hk : Keeps s₀ s) : Keeps s₀ (State.noteCycle s) := by
  unfold State.noteCycle
  with_reducible
    repeat' first
      | assumption | apply State.lifeAdd_keeps | apply Keeps.ite | apply Keeps.upd

theorem execSensorRead_keeps (dies : List Int) (s : State) {s₀ : State} (hk : Keeps s₀ s) : KeepsO s₀ (execSensorRead dies
    s) := by
  unfold execSensorRead
  with_reducible
    repeat' first
      | assumption | intro _ | apply State.clocked_keeps | apply run_keeps | apply State.beginThrottle_keeps
      | apply State.trip_keeps | apply State.noteTj_keeps | apply State.noteCycle_keeps | apply KeepsO.next
      | apply KeepsO.ite | apply Keeps.ite | split | apply Keeps.upd | dsimp only

theorem State.pollRail_keeps (s : State) (i : Nat) (r : Option (Nat × Nat)) {s₀ : State} (hk : Keeps s₀ s) : Keeps s₀
    (State.pollRail s i r) := by
  unfold State.pollRail
  with_reducible
    repeat' first
      | assumption | split | apply Keeps.upd

theorem execPmbusPoll_keeps (rails : List (Option (Nat × Nat))) (s : State) {s₀ : State} (hk : Keeps s₀ s) : KeepsO s₀
    (execPmbusPoll rails s) := by
  unfold execPmbusPoll
  with_reducible
    repeat' first
      | assumption | intro _ | apply State.clocked_keeps | apply run_keeps | apply State.each_keeps
      | apply State.beginThrottle_keeps | apply State.pollRail_keeps | apply Keeps.foldl | apply Keeps1.foldl
      | apply KeepsO.next | apply KeepsO.ite | apply Keeps.ite | refine Keeps1.get ?_ (by assumption) | apply Keeps1.fst
      | apply Keeps1.ite | apply Keeps1.mk | split | apply Keeps.upd | dsimp only

theorem execAvsAdjust_keeps (east : Nat) (west : Nat) (s : State) {s₀ : State} (hk : Keeps s₀ s) : KeepsO s₀ (execAvsAdjust
    east west s) := by
  unfold execAvsAdjust
  with_reducible
    repeat' first
      | assumption | intro _ | apply State.clocked_keeps | apply State.setFld_keeps | apply State.emit_keeps
      | apply KeepsO.next | apply KeepsO.ite | apply Keeps.ite | split | apply Keeps.upd | dsimp only

theorem execThrottleStep_keeps (s : State) {s₀ : State} (hk : Keeps s₀ s) : KeepsO s₀ (execThrottleStep s) := by
  unfold execThrottleStep
  with_reducible
    repeat' first
      | assumption | intro _ | apply State.clocked_keeps | apply State.setFld_keeps | apply State.each_keeps
      | apply State.throttled_keeps | apply KeepsO.next | apply KeepsO.ite | apply Keeps.ite | split | dsimp only

theorem execProchot_keeps (low : Bool) (s : State) {s₀ : State} (hk : Keeps s₀ s) : KeepsO s₀ (execProchot low s) := by
  unfold execProchot
  with_reducible
    repeat' first
      | assumption | intro _ | apply State.clocked_keeps | apply State.setFlag_keeps | apply State.beginThrottle_keeps
      | apply KeepsO.next | apply KeepsO.ite | apply Keeps.ite | split | dsimp only

theorem State.loseReference_keeps (s : State) (l : Nat) {s₀ : State} (hk : Keeps s₀ s) : Keeps s₀ (State.loseReference s l) := by
  unfold State.loseReference
  with_reducible
    repeat' first
      | assumption | apply State.linkFail_keeps | apply State.linkFault_keeps | apply Keeps.ite

theorem execQuadRefclkLoss_keeps (io : Nat) (q : Nat) (s : State) {s₀ : State} (hk : Keeps s₀ s) : KeepsO s₀
    (execQuadRefclkLoss io q s) := by
  unfold execQuadRefclkLoss
  with_reducible
    repeat' first
      | assumption | intro _ | apply State.clocked_keeps | apply run_keeps | apply State.loseReference_keeps
      | apply KeepsO.next | apply KeepsO.ite | apply Keeps.ite | split | dsimp only

end Sys2Proof.Machine
end

