-- ==== Sys2Proof/Laws/KeepsRegHooks.lean ====
section
/-!
SUPPORT. What the operations of Machine/RegHooks.lean and its commands leave alone: none touches the queue of commands, and each keeps the
canonical form of memory and of the register files.
-/

namespace Sys2Proof.Machine

theorem State.commitGo_keeps (s : State) (g : Group) (n : Nat) (env : Env) {s₀ : State} (hk : Keeps s₀ s) : Keeps s₀
    (State.commitGo s g n env) := by
  unfold State.commitGo
  with_reducible
    repeat' first
      | assumption | apply State.commitRepl_keeps | apply State.tblCommit_keeps | apply State.commitCoh_keeps
      | apply State.commitStage_keeps | apply State.commitTsp_keeps | apply State.commitYl_keeps
      | apply State.commitNet_keeps | apply State.commitAnchor_keeps | apply State.commitDeleg_keeps
      | apply State.commitCnt_keeps | apply State.commitQos_keeps | split

theorem State.commitApply_keeps (s : State) (g : Group) (_n : Nat) {s₀ : State} (hk : Keeps s₀ s) : Keeps s₀
    (State.commitApply s g _n) := by
  unfold State.commitApply
  with_reducible
    repeat' first
      | assumption | apply State.finishCommit_keeps | apply State.applyCoh_keeps | apply State.applyStage_keeps
      | apply State.applyYl_keeps | apply State.applyNet_keeps | apply State.applyAnchor_keeps | apply State.applyDeleg_keeps
      | apply State.applyCnt_keeps | apply State.applyQos_keeps | split

theorem State.writeArrCtrl_keeps (s : State) (a : Nat) (v : Word) {s₀ : State} (hk : Keeps s₀ s) : Keeps s₀
    (State.writeArrCtrl s a v) := by
  unfold State.writeArrCtrl
  with_reducible
    repeat' first
      | assumption | apply State.setFlag_keeps | apply State.setAstate_keeps | apply State.beginSweep_keeps | apply Keeps.ite

theorem State.writeMirCtrl_keeps (s : State) (v : Word) {s₀ : State} (hk : Keeps s₀ s) : Keeps s₀ (State.writeMirCtrl s v) := by
  unfold State.writeMirCtrl
  with_reducible
    repeat' first
      | assumption | apply State.setFld_keeps | apply State.plainWrite_keeps | apply Keeps.ite | apply Keeps.upd

theorem State.writeMirHead_keeps (s : State) (v : Nat) {s₀ : State} (hk : Keeps s₀ s) : Keeps s₀ (State.writeMirHead s v) := by
  unfold State.writeMirHead
  with_reducible
    repeat' first
      | assumption | apply State.setFld_keeps | apply Keeps.ite

theorem State.writeErrRing_keeps (s : State) (v : Word) {s₀ : State} (hk : Keeps s₀ s) : Keeps s₀ (State.writeErrRing s v) := by
  unfold State.writeErrRing
  with_reducible
    repeat' first
      | assumption | apply State.setFld_keeps | apply State.plainWrite_keeps | apply Keeps.ite | apply Keeps.upd

theorem State.ringMailbox_keeps (s : State) (v : Word) {s₀ : State} (hk : Keeps s₀ s) : Keeps s₀ (State.ringMailbox s v) := by
  unfold State.ringMailbox
  with_reducible
    repeat' first
      | assumption | apply State.setFlag_keeps | apply Keeps.upd

theorem State.resumeFault_keeps (s : State) (p : Nat) (v : Word) (env : Env) {s₀ : State} (hk : Keeps s₀ s) : Keeps s₀
    (State.resumeFault s p v env) := by
  unfold State.resumeFault
  with_reducible
    repeat' first
      | assumption | intro _ | apply State.replay_keeps | apply State.abort_keeps | apply State.resumeTag_keeps
      | apply Keeps.ite

theorem State.regEffect_keeps (s : State) (src : Source) (r : Reg) (k : Nat) (v : Word) (env : Env) {s₀ : State} (hk : Keeps
    s₀ s) : Keeps1 s₀ (State.regEffect s src r k v env) := by
  unfold State.regEffect
  with_reducible
    repeat' first
      | assumption | intro _ | apply State.wr_keeps | apply State.plainWrite_keeps | apply State.fireMatch_keeps
      | apply State.daCmd_keeps | apply State.writeRingHead_keeps | apply State.addService_keeps
      | apply State.writeSweep_keeps | apply State.scpCmd_keeps | apply State.syncScoop_keeps
      | apply State.writeFltHead_keeps | apply State.migGo_keeps | apply State.writeSqTail_keeps
      | apply State.writeSqCtrl_keeps | apply State.writeCqHead_keeps | apply State.domCtrl_keeps
      | apply State.writePortCtrl_keeps | apply State.writeLinkCtrl_keeps | apply State.svnCommit_keeps
      | apply State.sample_keeps | apply State.lifeCtrl_keeps | apply State.writeCntCtrl_keeps
      | apply State.writeMrCtrl_keeps | apply State.writeMrHead_keeps | apply State.requestReset_keeps
      | apply State.beginEngReset_keeps | apply State.writeRst_keeps | apply State.writeErrHead_keeps
      | apply State.writeDriveCtrl_keeps | apply State.commitGo_keeps | apply State.writeArrCtrl_keeps
      | apply State.writeMirCtrl_keeps | apply State.writeMirHead_keeps | apply State.writeErrRing_keeps
      | apply State.ringMailbox_keeps | apply State.resumeFault_keeps | apply Keeps1.ite | apply Keeps.ite
      | apply Keeps1.fst | split | apply Keeps.upd | apply Keeps1.mk | dsimp only

theorem State.regWrite_keeps (s : State) (src : Source) (r : Reg) (k : Nat) (v : Word) (env : Env) {s₀ : State} (hk : Keeps
    s₀ s) : Keeps1 s₀ (State.regWrite s src r k v env) := by
  unfold State.regWrite
  with_reducible
    repeat' first
      | assumption | intro _ | apply State.refuse_keeps | apply State.admitted_keeps | apply State.regEffect_keeps
      | apply Keeps1.ite | apply Keeps1.mk

end Sys2Proof.Machine
end

