-- ==== Sys2Proof/Laws/KeepsBar0.lean ====
section
/-!
SUPPORT. What the operations of Machine/Bar0.lean and its commands leave alone: none touches the queue of commands, and each keeps the
canonical form of memory and of the register files.
-/

namespace Sys2Proof.Machine

theorem State.latchRead_keeps (s : State) (src : Source) (o : Nat) {s₀ : State} (hk : Keeps s₀ s) : Keeps2 s₀
    (State.latchRead s src o) := by
  unfold State.latchRead
  with_reducible
    repeat' first
      | assumption | intro _ | apply Keeps2.ite | apply Keeps2.snd | split | apply Keeps2.mk | apply Keeps.upd

theorem execRegisterRead_keeps (src : Source) (off : Nat) (size : Nat) (s : State) {s₀ : State} (hk : Keeps s₀ s) : KeepsO
    s₀ (execRegisterRead src off size s) := by
  unfold execRegisterRead
  with_reducible
    repeat' first
      | assumption | intro _ | apply State.clocked_keeps | apply run_keeps | apply State.bump_keeps
      | apply State.emit_keeps | apply State.answer_keeps | apply State.latchRead_keeps | apply KeepsO.next
      | apply KeepsO.ite | apply Keeps.ite | refine Keeps2.get ?_ (by assumption) | apply Keeps1.fst | apply Keeps1.ite
      | apply Keeps2.snd | split | apply Keeps.upd | apply Keeps1.mk | dsimp only

theorem State.msixWrite_keeps (s : State) (k : Nat) (j : Nat) (v : Nat) {s₀ : State} (hk : Keeps s₀ s) : Keeps s₀
    (State.msixWrite s k j v) := by
  unfold State.msixWrite
  with_reducible
    repeat' first
      | assumption | apply State.wr_keeps | apply State.setFlag_keeps | apply State.unmask_keeps | apply Keeps.ite

theorem State.regStore_keeps (s : State) (src : Source) (x : Reg × Nat) (v : Nat) (env : Env) {s₀ : State} (hk : Keeps s₀ s)
    : Keeps s₀ (State.regStore s src x v env) := by
  unfold State.regStore
  with_reducible
    repeat' first
      | assumption | intro _ | apply State.regWrite_keeps | apply Keeps.ite | refine Keeps1.get ?_ (by assumption)
      | apply Keeps1.fst | apply Keeps1.ite | apply Keeps1.mk | split | dsimp only

theorem State.wordWrite_keeps (s : State) (src : Source) (o : Nat) (v : Nat) (env : Env) {s₀ : State} (hk : Keeps s₀ s) :
    Keeps s₀ (State.wordWrite s src o v env) := by
  unfold State.wordWrite
  with_reducible
    repeat' first
      | assumption | intro _ | apply State.msixWrite_keeps | apply State.regStore_keeps | apply Keeps.ite | split
      | apply Keeps.upd

theorem State.bar0Store_keeps (s : State) (src : Source) (o : Nat) (size : Nat) (v : Nat) (counted : Bool) (env : Env) {s₀ :
    State} (hk : Keeps s₀ s) : Keeps s₀ (State.bar0Store s src o size v counted env) := by
  unfold State.bar0Store
  with_reducible
    repeat' first
      | assumption | intro _ | apply State.bump_keeps | apply State.regStore_keeps | apply State.wordWrite_keeps
      | apply Keeps.ite | apply Keeps1.fst | apply Keeps1.ite | apply Keeps1.mk | split | dsimp only

theorem State.bar0Write_keeps (s : State) (src : Source) (off : Nat) (size : Nat) (v : Word) (lease : Option (Half × Nat))
    (env : Env) {s₀ : State} (hk : Keeps s₀ s) : Keeps s₀ (State.bar0Write s src off size v lease env) := by
  unfold State.bar0Write
  with_reducible
    repeat' first
      | assumption | intro _ | apply State.bump_keeps | apply State.refuse_keeps | apply State.fence_keeps
      | apply State.bar0Store_keeps | apply Keeps.ite | apply Keeps1.fst | apply Keeps1.ite | apply Keeps1.mk | split
      | dsimp only

end Sys2Proof.Machine
end

