-- ==== Sys2Proof/Laws/KeepsEntries.lean ====
section
/-!
SUPPORT. What the operations of Machine/Entries.lean and its commands leave alone: none touches the queue of commands, and each keeps the
canonical form of memory and of the register files.
-/

namespace Sys2Proof.Machine

theorem State.otherWrite_keeps (s : State) (idx : Nat) (sub : Nat) (b : List Byte) {s₀ : State} (hk : Keeps s₀ s) : Keeps1
    s₀ (State.otherWrite s idx sub b) := by
  unfold State.otherWrite
  with_reducible
    repeat' first
      | assumption | intro _ | apply State.sclChunk_keeps | apply State.fwChunk_keeps | apply State.attest_keeps
      | apply State.follow_keeps | apply Keeps1.ite | apply Keeps.ite | apply Keeps1.fst | split | apply Keeps.upd
      | apply Keeps1.mk | dsimp only

theorem State.entrySet_keeps (s : State) (src : Source) (idx : Nat) (sub : Nat) (type : Nat) (b : List Byte) (env : Env) {s₀
    : State} (hk : Keeps s₀ s) : Keeps1 s₀ (State.entrySet s src idx sub type b env) := by
  unfold State.entrySet
  with_reducible
    repeat' first
      | assumption | intro _ | apply State.refuseEntry_keeps | apply State.entryWrite_keeps | apply State.regWrite_keeps
      | apply State.otherWrite_keeps | apply Keeps1.ite | split | apply Keeps1.mk

end Sys2Proof.Machine
end

