-- ==== Sys2Proof/Laws/KeepsJxvm.lean ====
section
/-!
SUPPORT. What the operations of Machine/Jxvm.lean and its commands leave alone: none touches the queue of commands, and each keeps the
canonical form of memory and of the register files.
-/

namespace Sys2Proof.Machine

theorem State.sendMsg_keeps (s : State) (isSealed : Bool) (type : Nat) (session : Nat) (seq : Nat) (reqId : Nat) (body : List
    Byte) {s₀ : State} (hk : Keeps s₀ s) : Keeps s₀ (State.sendMsg s isSealed type session seq reqId body) := by
  unfold State.sendMsg
  with_reducible
    repeat' first
      | assumption | intro _ | apply State.emit_keeps | apply State.txFrame_keeps | apply Keeps.foldl

theorem State.sendIn_keeps (s : State) (k : Nat) (type : Nat) (reqId : Nat) (body : List Byte) {s₀ : State} (hk : Keeps s₀ s)
    : Keeps s₀ (State.sendIn s k type reqId body) := by
  unfold State.sendIn
  with_reducible
    repeat' first
      | assumption | apply State.setSession_keeps | apply State.sendMsg_keeps | split

theorem State.answerIn_keeps (s : State) (k : Nat) (type : Nat) (reqId : Nat) (body : List Byte) {s₀ : State} (hk : Keeps s₀
    s) : Keeps s₀ (State.answerIn s k type reqId body) := by
  unfold State.answerIn
  with_reducible
    repeat' first
      | assumption | apply State.setSession_keeps | apply State.sendIn_keeps | split

theorem State.assemble_keeps (s : State) (who : Nat) (type : Nat) (d : Dgram) {s₀ : State} (hk : Keeps s₀ s) : Keeps1 s₀
    (State.assemble s who type d) := by
  unfold State.assemble
  with_reducible
    repeat' first
      | assumption | intro _ | apply Keeps1.ite | split | apply Keeps1.mk | apply Keeps.upd

theorem execFragmentTimeout_keeps (k : Nat) (s : State) {s₀ : State} (hk : Keeps s₀ s) : KeepsO s₀ (execFragmentTimeout k s)
    := by
  unfold execFragmentTimeout
  with_reducible
    repeat' first
      | assumption | intro _ | apply State.clocked_keeps | apply KeepsO.next | apply KeepsO.ite | apply Keeps.ite | split
      | apply Keeps.upd | dsimp only

theorem State.writeItems_keeps (s : State) (src : Source) (role : Nat) (l : List ListItem) (env : Env) {s₀ : State} (hk :
    Keeps s₀ s) : Keeps1 s₀ (State.writeItems s src role l env) := by
  unfold State.writeItems
  with_reducible
    repeat' first
      | assumption | intro _ | apply State.refuseEntry_keeps | apply State.entrySet_keeps | apply Keeps1.foldl
      | apply Keeps1.fst | split | apply Keeps1.mk | dsimp only

theorem State.beginSave_keeps (s : State) {s₀ : State} (hk : Keeps s₀ s) : Keeps s₀ (State.beginSave s) := by
  unfold State.beginSave
  with_reducible
    repeat' first
      | assumption | intro _ | apply State.setFlag_keeps | apply State.emit_keeps | apply Keeps.upd

theorem State.owe_keeps (s : State) (slot : Option Nat) (id : Nat) (type : Nat) (reqId : Nat) (commit : Option Nat) {s₀ :
    State} (hk : Keeps s₀ s) : Keeps s₀ (State.owe s slot id type reqId commit) := by
  unfold State.owe
  with_reducible
    repeat' first
      | assumption | apply Keeps.upd

theorem State.msgCommit_keeps (s : State) (slot : Option Nat) (id : Nat) (role : Nat) (reqId : Nat) (b : List Byte) (env :
    Env) {s₀ : State} (hk : Keeps s₀ s) : Keeps1 s₀ (State.msgCommit s slot id role reqId b env) := by
  unfold State.msgCommit
  with_reducible
    repeat' first
      | assumption | intro _ | apply State.refuseEntry_keeps | apply State.regWrite_keeps | apply State.owe_keeps
      | apply Keeps1.ite | apply Keeps1.fst | split | apply Keeps1.mk

theorem State.msgDiscard_keeps (s : State) (slot : Option Nat) (role : Nat) (b : List Byte) {s₀ : State} (hk : Keeps s₀ s) :
    Keeps1 s₀ (State.msgDiscard s slot role b) := by
  unfold State.msgDiscard
  with_reducible
    repeat' first
      | assumption | intro _ | apply State.discardStaged_keeps | apply State.refuseEntry_keeps | apply Keeps1.ite | split
      | apply Keeps1.mk | apply Keeps.upd

theorem State.msgSave_keeps (s : State) (slot : Option Nat) (id : Nat) (role : Nat) (reqId : Nat) {s₀ : State} (hk : Keeps s₀
    s) : Keeps1 s₀ (State.msgSave s slot id role reqId) := by
  unfold State.msgSave
  with_reducible
    repeat' first
      | assumption | intro _ | apply State.beginSave_keeps | apply State.owe_keeps | apply Keeps1.ite | apply Keeps1.mk

theorem State.serve_keeps (s : State) (slot : Option Nat) (id : Nat) (role : Nat) (type : Nat) (reqId : Nat) (b : List Byte)
    (env : Env) {s₀ : State} (hk : Keeps s₀ s) : Keeps1 s₀ (State.serve s slot id role type reqId b env) := by
  unfold State.serve
  with_reducible
    repeat' first
      | assumption | intro _ | apply State.writeItems_keeps | apply State.msgCommit_keeps | apply State.msgDiscard_keeps
      | apply State.msgSave_keeps | apply Keeps1.ite | apply Keeps1.fst | split | apply Keeps1.mk | dsimp only

theorem State.mbxAnswer_keeps (s : State) (type : Nat) (session : Nat) (reqId : Nat) (body : List Byte) {s₀ : State} (hk :
    Keeps s₀ s) : Keeps s₀ (State.mbxAnswer s type session reqId body) := by
  unfold State.mbxAnswer
  with_reducible
    repeat' first
      | assumption | apply State.setFld_keeps | apply State.setFlag_keeps | apply State.raisePf_keeps | apply Keeps.upd

theorem State.mbxReply_keeps (s : State) (type : Nat) (session : Nat) (reqId : Nat) (body : List Byte) {s₀ : State} (hk :
    Keeps s₀ s) : Keeps s₀ (State.mbxReply s type session reqId body) := by
  unfold State.mbxReply
  with_reducible
    repeat' first
      | assumption | intro _ | apply State.mbxAnswer_keeps | apply Keeps.upd

theorem State.mbxOpen_keeps (s : State) (reqId : Nat) {s₀ : State} (hk : Keeps s₀ s) : Keeps s₀ (State.mbxOpen s reqId) := by
  unfold State.mbxOpen
  with_reducible
    repeat' first
      | assumption | apply State.syncMg_keeps | apply State.mbxReply_keeps | apply Keeps.upd

theorem State.discoverRsp_keeps (s : State) {s₀ : State} (hk : Keeps s₀ s) : Keeps1 s₀ (State.discoverRsp s) := by
  unfold State.discoverRsp
  with_reducible
    repeat' first
      | assumption | apply Keeps1.mk | apply Keeps.upd

theorem State.serveMailbox_keeps (s : State) (env : Env) {s₀ : State} (hk : Keeps s₀ s) : Keeps s₀ (State.serveMailbox s
    env) := by
  unfold State.serveMailbox
  with_reducible
    repeat' first
      | assumption | intro _ | apply State.syncMg_keeps | apply State.serve_keeps | apply State.mbxAnswer_keeps
      | apply State.mbxReply_keeps | apply State.mbxOpen_keeps | apply State.discoverRsp_keeps | apply Keeps.ite
      | refine Keeps1.get ?_ (by assumption) | apply Keeps1.fst | apply Keeps1.ite | split | apply Keeps.upd
      | apply Keeps1.mk | dsimp only

theorem execMbxDoorbell_keeps (src : Source) (v : Word) (env : Env) (s : State) {s₀ : State} (hk : Keeps s₀ s) : KeepsO s₀
    (execMbxDoorbell src v env s) := by
  unfold execMbxDoorbell
  with_reducible
    repeat' first
      | assumption | intro _ | apply State.clocked_keeps | apply run_keeps | apply State.regWrite_keeps
      | apply State.serveMailbox_keeps | apply KeepsO.next | apply KeepsO.ite | apply Keeps.ite
      | refine Keeps1.get ?_ (by assumption) | apply Keeps1.fst | apply Keeps1.ite | apply Keeps1.mk | split | dsimp only

theorem execOpenSession_keeps (reqId : Nat) (s : State) {s₀ : State} (hk : Keeps s₀ s) : KeepsO s₀ (execOpenSession reqId s)
    := by
  unfold execOpenSession
  with_reducible
    repeat' first
      | assumption | intro _ | apply State.clocked_keeps | apply run_keeps | apply State.regWrite_keeps
      | apply State.serveMailbox_keeps | apply Keeps.foldl | apply Keeps1.foldl | apply KeepsO.next | apply KeepsO.ite
      | apply Keeps.ite | refine Keeps1.get ?_ (by assumption) | apply Keeps1.fst | apply Keeps1.ite | apply Keeps1.mk
      | split | apply Keeps.upd | dsimp only

theorem State.payRsp_keeps (s : State) (o : Owed) (type : Nat) (body : List Byte) {s₀ : State} (hk : Keeps s₀ s) : Keeps s₀
    (State.payRsp s o type body) := by
  unfold State.payRsp
  with_reducible
    repeat' first
      | assumption | intro _ | apply State.answerIn_keeps | apply State.mbxReply_keeps | apply Keeps.ite | split

theorem State.flushOwed_keeps (s : State) {s₀ : State} (hk : Keeps s₀ s) : Keeps s₀ (State.flushOwed s) := by
  unfold State.flushOwed
  with_reducible
    repeat' first
      | assumption | intro _ | apply State.payRsp_keeps | apply Keeps.foldl | split | apply Keeps.upd

theorem execCommitSafePoint_keeps (idx : Nat) (sub : Nat) (s : State) {s₀ : State} (hk : Keeps s₀ s) : KeepsO s₀
    (execCommitSafePoint idx sub s) := by
  unfold execCommitSafePoint
  with_reducible
    repeat' first
      | assumption | intro _ | apply State.clocked_keeps | apply State.commitApply_keeps | apply State.flushOwed_keeps
      | apply KeepsO.next | apply KeepsO.ite | apply Keeps.ite | split | dsimp only

theorem execSaveFlashDone_keeps (ok : Bool) (s : State) {s₀ : State} (hk : Keeps s₀ s) : KeepsO s₀ (execSaveFlashDone ok s)
    := by
  unfold execSaveFlashDone
  with_reducible
    repeat' first
      | assumption | intro _ | apply State.clocked_keeps | apply State.setFld_keeps | apply State.setFlag_keeps
      | apply State.payRsp_keeps | apply Keeps.foldl | apply Keeps1.foldl | apply KeepsO.next | apply KeepsO.ite
      | apply Keeps.ite | refine Keeps1.get ?_ (by assumption) | apply Keeps1.fst | apply Keeps1.ite | apply Keeps1.mk
      | split | apply Keeps.upd | dsimp only

theorem State.unauth_keeps (s : State) {s₀ : State} (hk : Keeps s₀ s) : Keeps s₀ (State.unauth s) := by
  unfold State.unauth
  with_reducible
    repeat' first
      | assumption | apply State.bump_keeps

theorem State.onSession_keeps (s : State) (type : Nat) (d : Dgram) (env : Env) {s₀ : State} (hk : Keeps s₀ s) : Keeps s₀
    (State.onSession s type d env) := by
  unfold State.onSession
  with_reducible
    repeat' first
      | assumption | intro _ | apply State.setSession_keeps | apply State.closeSession_keeps | apply State.rxFrame_keeps
      | apply State.sendIn_keeps | apply State.answerIn_keeps | apply State.assemble_keeps | apply State.serve_keeps
      | apply State.unauth_keeps | apply Keeps.ite | refine Keeps1.get ?_ (by assumption) | split

theorem execReadEntries_keeps (d : Dgram) (env : Env) (s : State) {s₀ : State} (hk : Keeps s₀ s) : KeepsO s₀
    (execReadEntries d env s) := by
  unfold execReadEntries
  with_reducible
    repeat' first
      | assumption | intro _ | apply State.clocked_keeps | apply State.onSession_keeps | apply KeepsO.next
      | apply KeepsO.ite | apply Keeps.ite | split | dsimp only

theorem execWriteEntries_keeps (d : Dgram) (env : Env) (s : State) {s₀ : State} (hk : Keeps s₀ s) : KeepsO s₀
    (execWriteEntries d env s) := by
  unfold execWriteEntries
  with_reducible
    repeat' first
      | assumption | intro _ | apply State.clocked_keeps | apply State.serveMailbox_keeps | apply State.onSession_keeps
      | apply KeepsO.next | apply KeepsO.ite | apply Keeps.ite | split | dsimp only

theorem execCommitGroup_keeps (d : Dgram) (env : Env) (s : State) {s₀ : State} (hk : Keeps s₀ s) : KeepsO s₀
    (execCommitGroup d env s) := by
  unfold execCommitGroup
  with_reducible
    repeat' first
      | assumption | intro _ | apply State.clocked_keeps | apply State.onSession_keeps | apply KeepsO.next
      | apply KeepsO.ite | apply Keeps.ite | split | dsimp only

theorem execDiscardGroup_keeps (d : Dgram) (env : Env) (s : State) {s₀ : State} (hk : Keeps s₀ s) : KeepsO s₀
    (execDiscardGroup d env s) := by
  unfold execDiscardGroup
  with_reducible
    repeat' first
      | assumption | intro _ | apply State.clocked_keeps | apply State.onSession_keeps | apply KeepsO.next
      | apply KeepsO.ite | apply Keeps.ite | split | dsimp only

theorem execDescribeEntries_keeps (d : Dgram) (env : Env) (s : State) {s₀ : State} (hk : Keeps s₀ s) : KeepsO s₀
    (execDescribeEntries d env s) := by
  unfold execDescribeEntries
  with_reducible
    repeat' first
      | assumption | intro _ | apply State.clocked_keeps | apply State.onSession_keeps | apply KeepsO.next
      | apply KeepsO.ite | apply Keeps.ite | split | dsimp only

theorem execSaveConfig_keeps (d : Dgram) (env : Env) (s : State) {s₀ : State} (hk : Keeps s₀ s) : KeepsO s₀ (execSaveConfig
    d env s) := by
  unfold execSaveConfig
  with_reducible
    repeat' first
      | assumption | intro _ | apply State.clocked_keeps | apply State.onSession_keeps | apply KeepsO.next
      | apply KeepsO.ite | apply Keeps.ite | split | dsimp only

theorem execKeepalive_keeps (d : Dgram) (env : Env) (s : State) {s₀ : State} (hk : Keeps s₀ s) : KeepsO s₀ (execKeepalive d
    env s) := by
  unfold execKeepalive
  with_reducible
    repeat' first
      | assumption | intro _ | apply State.clocked_keeps | apply State.onSession_keeps | apply KeepsO.next
      | apply KeepsO.ite | apply Keeps.ite | split | dsimp only

theorem execCloseSession_keeps (d : Dgram) (env : Env) (s : State) {s₀ : State} (hk : Keeps s₀ s) : KeepsO s₀
    (execCloseSession d env s) := by
  unfold execCloseSession
  with_reducible
    repeat' first
      | assumption | intro _ | apply State.clocked_keeps | apply State.onSession_keeps | apply KeepsO.next
      | apply KeepsO.ite | apply Keeps.ite | split | dsimp only

theorem execSessionIdleTimeout_keeps (k : Nat) (s : State) {s₀ : State} (hk : Keeps s₀ s) : KeepsO s₀
    (execSessionIdleTimeout k s) := by
  unfold execSessionIdleTimeout
  with_reducible
    repeat' first
      | assumption | intro _ | apply State.clocked_keeps | apply run_keeps | apply State.closeSession_keeps
      | apply KeepsO.next | apply KeepsO.ite | apply Keeps.ite | split | dsimp only

theorem execHandshakeTimeout_keeps (k : Nat) (s : State) {s₀ : State} (hk : Keeps s₀ s) : KeepsO s₀ (execHandshakeTimeout k
    s) := by
  unfold execHandshakeTimeout
  with_reducible
    repeat' first
      | assumption | intro _ | apply State.clocked_keeps | apply run_keeps | apply State.dropShake_keeps
      | apply KeepsO.next | apply KeepsO.ite | apply Keeps.ite | split | dsimp only

theorem State.onOpen_keeps (s : State) (type : Nat) (d : Dgram) (f : State → List Byte → State) {s₀ : State} (hk : Keeps s₀
    s) (hf : ∀ (x0 : State) (x1 : List Byte), Keeps s₀ x0 → Keeps s₀ (f x0 x1)) : Keeps s₀ (State.onOpen s type d f) := by
  unfold State.onOpen
  with_reducible
    repeat' first
      | assumption | apply State.rxFrame_keeps | apply State.sendMsg_keeps | apply State.assemble_keeps
      | apply State.unauth_keeps | apply hf | apply Keeps.ite | refine Keeps1.get ?_ (by assumption) | split

theorem execDiscover_keeps (d : Dgram) (s : State) {s₀ : State} (hk : Keeps s₀ s) : KeepsO s₀ (execDiscover d s) := by
  unfold execDiscover
  with_reducible
    repeat' first
      | assumption | intro _ | apply State.clocked_keeps | apply State.bump_keeps | apply State.sendMsg_keeps
      | apply State.discoverRsp_keeps | apply State.onOpen_keeps | apply KeepsO.next | apply KeepsO.ite | apply Keeps.ite
      | refine Keeps1.get ?_ (by assumption) | apply Keeps1.fst | apply Keeps1.ite | apply Keeps1.mk | split
      | apply Keeps.upd | dsimp only

theorem execHelloMsg_keeps (d : Dgram) (s : State) {s₀ : State} (hk : Keeps s₀ s) : KeepsO s₀ (execHelloMsg d s) := by
  unfold execHelloMsg
  with_reducible
    repeat' first
      | assumption | intro _ | apply State.clocked_keeps | apply State.bump_keeps | apply State.setShake_keeps
      | apply State.sendMsg_keeps | apply State.onOpen_keeps | apply KeepsO.next | apply KeepsO.ite | apply Keeps.ite
      | split | apply Keeps.upd | dsimp only

theorem State.authFail_keeps (s : State) {s₀ : State} (hk : Keeps s₀ s) : Keeps s₀ (State.authFail s) := by
  unfold State.authFail
  with_reducible
    repeat' first
      | assumption | intro _ | apply State.record_keeps | apply Keeps.ite | apply Keeps.upd

theorem execAuthMsg_keeps (d : Dgram) (sigOk : Bool) (prov : Bool) (s : State) {s₀ : State} (hk : Keeps s₀ s) : KeepsO s₀
    (execAuthMsg d sigOk prov s) := by
  unfold execAuthMsg
  with_reducible
    repeat' first
      | assumption | intro _ | apply State.clocked_keeps | apply State.setSession_keeps | apply State.setShake_keeps
      | apply State.dropShake_keeps | apply State.rxFrame_keeps | apply State.sendMsg_keeps | apply State.answerIn_keeps
      | apply State.assemble_keeps | apply State.unauth_keeps | apply State.authFail_keeps | apply KeepsO.next
      | apply KeepsO.ite | apply Keeps.ite | refine Keeps1.get ?_ (by assumption) | apply Keeps1.fst | apply Keeps1.ite
      | apply Keeps1.mk | split | apply Keeps.upd | dsimp only

end Sys2Proof.Machine
end

