-- ==== Sys2Proof/Laws/KeepsConfigLoad.lean ====
section
/-!
SUPPORT. What the operations of Machine/ConfigLoad.lean and its commands leave alone: none touches the queue of commands, and each keeps the
canonical form of memory and of the register files.
-/

namespace Sys2Proof.Machine

theorem State.applyRecs_keeps (s : State) (y0 : Nat) (y1 : List (Option CfgRec)) {s₀ : State} (hk : Keeps s₀ s) : Keeps1 s₀
    (State.applyRecs s y0 y1) := by
  induction y1 generalizing s y0 with
  | nil => exact Keeps1.mk hk
  | cons a l ih =>
    cases a with
    | none => exact Keeps1.mk hk
    | some r =>
      unfold State.applyRecs
      have he := Keeps1.fst (State.entrySet_keeps s .load r.idx r.sub r.type r.val [] hk)
      exact Keeps1.ite (Keeps1.mk hk) (Keeps1.ite (Keeps1.mk he) (ih _ _ he))

theorem State.commitAll_keeps (s : State) (y0 : List (Group × Nat)) {s₀ : State} (hk : Keeps s₀ s) : Keeps1 s₀
    (State.commitAll s y0) := by
  induction y0 generalizing s with
  | nil =>
    unfold State.commitAll
    with_reducible
      repeat' first
        | assumption | apply State.commitGo_keeps | apply State.commitApply_keeps | apply Keeps1.ite | split
        | apply Keeps1.mk
  | cons _ _ ih =>
    unfold State.commitAll
    with_reducible
      repeat' first
        | assumption | apply ih | apply State.commitGo_keeps | apply State.commitApply_keeps | apply Keeps1.ite | split
        | apply Keeps1.mk

theorem State.resetConfig_keeps (s : State) {s₀ : State} (hk : Keeps s₀ s) : Keeps s₀ (State.resetConfig s) := by
  unfold State.resetConfig
  with_reducible
    repeat' first
      | assumption | intro _ | apply State.resetReg_keeps | apply State.each_keeps | apply Keeps.foldl | apply Keeps.ite
      | apply Keeps.upd

theorem State.tryCopy_keeps (s : State) (c : CfgCopy) {s₀ : State} (hk : Keeps s₀ s) : Keeps1 s₀ (State.tryCopy s c) := by
  unfold State.tryCopy
  with_reducible
    repeat' first
      | assumption | apply State.applyRecs_keeps | apply State.commitAll_keeps | refine Keeps1.get ?_ (by assumption)
      | apply Keeps1.fst | split | apply Keeps1.mk

theorem State.tryCopies_keeps (s : State) (y0 : List CfgCopy) {s₀ : State} (hk : Keeps s₀ s) : Keeps1 s₀ (State.tryCopies s
    y0) := by
  induction y0 generalizing s with
  | nil =>
    unfold State.tryCopies
    with_reducible
      repeat' first
        | assumption | apply State.setFld_keeps | apply State.copyRegs_keeps | apply State.resetConfig_keeps
        | apply State.tryCopy_keeps | refine Keeps1.get ?_ (by assumption) | split | apply Keeps1.mk
  | cons _ _ ih =>
    unfold State.tryCopies
    with_reducible
      repeat' first
        | assumption | apply ih | apply State.setFld_keeps | apply State.copyRegs_keeps | apply State.resetConfig_keeps
        | apply State.tryCopy_keeps | refine Keeps1.get ?_ (by assumption) | split | apply Keeps1.mk

theorem State.configDone_keeps (s : State) (digest : List Byte) {s₀ : State} (hk : Keeps s₀ s) : Keeps s₀ (State.configDone s
    digest) := by
  unfold State.configDone
  with_reducible
    repeat' first
      | assumption | apply State.setFld_keeps | apply State.emit_keeps | apply State.extend_keeps
      | apply State.enterRunning_keeps | apply Keeps.ite | apply Keeps.upd

theorem execConfigLoad_keeps (env : Env) (s : State) {s₀ : State} (hk : Keeps s₀ s) : KeepsO s₀ (execConfigLoad env s) := by
  unfold execConfigLoad
  with_reducible
    repeat' first
      | assumption | intro _ | apply State.clocked_keeps | apply State.setFld_keeps | apply State.setFlag_keeps
      | apply State.record_keeps | apply State.resetConfig_keeps | apply State.tryCopies_keeps
      | apply State.configDone_keeps | apply KeepsO.next | apply KeepsO.ite | apply Keeps.ite
      | refine Keeps1.get ?_ (by assumption) | apply Keeps1.fst | apply Keeps1.ite | apply Keeps1.mk | split
      | apply Keeps.upd | dsimp only

end Sys2Proof.Machine
end

