-- ==== Sys2Proof/Laws/KeepsFabric.lean ====
section
/-!
SUPPORT. What the operations of Machine/Fabric.lean and its commands leave alone: none touches the queue of commands, and each keeps the
canonical form of memory and of the register files.
-/

namespace Sys2Proof.Machine

theorem State.memWrite_keeps (s : State) (o : Nat) (d : List Byte) (poison : List Nat) {s₀ : State} (hk : Keeps s₀ s) :
    Keeps1 s₀ (State.memWrite s o d poison) := by
  unfold State.memWrite
  with_reducible
    repeat' first
      | assumption | intro _ | apply State.writeMem_keeps | apply Keeps1.ite | apply Keeps1.fst | apply Keeps1.mk

theorem State.mirrorWrite_keeps (s : State) (src : Option Nat) (o : Nat) (d : List Byte) (poison : List Nat) {s₀ : State} (hk
    : Keeps s₀ s) : Keeps1 s₀ (State.mirrorWrite s src o d poison) := by
  unfold State.mirrorWrite
  with_reducible
    repeat' first
      | assumption | apply State.bump_keeps | apply State.memWrite_keeps | apply Keeps1.ite | apply Keeps1.mk

theorem State.storeAt_keeps (s : State) (src : Option Nat) (o : Nat) (d : List Byte) (poison : List Nat) {s₀ : State} (hk :
    Keeps s₀ s) : Keeps1 s₀ (State.storeAt s src o d poison) := by
  unfold State.storeAt
  with_reducible
    repeat' first
      | assumption | apply State.memWrite_keeps | apply State.mirrorWrite_keeps | apply Keeps1.ite | apply Keeps1.mk

theorem State.memAtom_keeps (s : State) (o : Nat) (atop : Nat) (d : List Byte) (allow : List Byte → List Byte → Option Bool)
    {s₀ : State} (hk : Keeps s₀ s) : Keeps1 s₀ (State.memAtom s o atop d allow) := by
  unfold State.memAtom
  with_reducible
    repeat' first
      | assumption | apply State.snoopWrite_keeps | apply State.noteRead_keeps | apply State.writeMem_keeps
      | apply Keeps1.ite | apply Keeps1.fst | split | apply Keeps1.mk

theorem State.homeAtom_keeps (s : State) (o : Nat) (atop : Nat) (d : List Byte) {s₀ : State} (hk : Keeps s₀ s) : Keeps1 s₀
    (State.homeAtom s o atop d) := by
  unfold State.homeAtom
  with_reducible
    repeat' first
      | assumption | intro _ | apply State.bump_keeps | apply State.memAtom_keeps | apply Keeps1.ite | apply Keeps1.fst
      | apply Keeps1.mk

theorem State.pushHandoff_keeps (s : State) (o : Nat) (answer : Packet) (host : Bool) (new : List Byte) {s₀ : State} (hk :
    Keeps s₀ s) : Keeps s₀ (State.pushHandoff s o answer host new) := by
  unfold State.pushHandoff
  with_reducible
    repeat' first
      | assumption | apply State.mirrorHandoff_keeps | apply Keeps.upd

theorem State.memDoorbell_keeps (s : State) (o : Nat) {s₀ : State} (hk : Keeps s₀ s) : Keeps s₀ (State.memDoorbell s o) :=
    by
  unfold State.memDoorbell
  with_reducible
    repeat' first
      | assumption | intro _ | apply State.each_keeps | apply State.sqTail_keeps | apply Keeps.ite | split | dsimp only

theorem State.ctlRead_keeps (s : State) (p : Packet) {s₀ : State} (hk : Keeps s₀ s) : Keeps s₀ (State.ctlRead s p) := by
  unfold State.ctlRead
  with_reducible
    repeat' first
      | assumption | intro _ | apply State.sendPacket_keeps | apply State.partnerReads_keeps | apply Keeps.ite | split

theorem State.ctlWrite_keeps (s : State) (p : Packet) (env : Env) {s₀ : State} (hk : Keeps s₀ s) : Keeps s₀ (State.ctlWrite
    s p env) := by
  unfold State.ctlWrite
  with_reducible
    repeat' first
      | assumption | intro _ | apply State.writePeer_keeps | apply State.answer_keeps | apply State.bar0Store_keeps
      | apply State.serveMailbox_keeps | apply Keeps.ite | apply Keeps1.fst | apply Keeps1.ite | apply Keeps1.mk | split
      | apply Keeps.upd | dsimp only

theorem execRd_keeps (q : InboxRead) (s : State) {s₀ : State} (hk : Keeps s₀ s) : KeepsO s₀ (execRd q s) := by
  unfold execRd
  with_reducible
    repeat' first
      | assumption | intro _ | apply State.clocked_keeps | apply State.sendPacket_keeps | apply State.perform_keeps
      | apply State.noteRead_keeps | apply State.homeWords_keeps | apply State.answer_keeps | apply State.keyed_keeps
      | apply State.offsetRefusal_keeps | apply State.ctlRefuse_keeps | apply State.ctlRead_keeps | apply KeepsO.next
      | apply KeepsO.ite | apply Keeps.ite | refine KeepsP.get ?_ (by assumption) | apply Keeps1.fst | apply Keeps1.ite
      | split | apply Keeps.upd | apply Keeps1.mk | dsimp only

theorem execWr_keeps (k : Nat) (env : Env) (s : State) {s₀ : State} (hk : Keeps s₀ s) : KeepsO s₀ (execWr k env s) := by
  unfold execWr
  with_reducible
    repeat' first
      | assumption | intro _ | apply State.clocked_keeps | apply State.perform_keeps | apply State.answer_keeps
      | apply State.keyed_keeps | apply State.offsetRefusal_keeps | apply State.storeAt_keeps
      | apply State.memDoorbell_keeps | apply State.ctlRefuse_keeps | apply State.ctlWrite_keeps | apply KeepsO.next
      | apply KeepsO.ite | apply Keeps.ite | refine Keeps1.get ?_ (by assumption) | refine KeepsP.get ?_ (by assumption)
      | apply Keeps1.fst | apply Keeps1.ite | apply Keeps1.mk | split | dsimp only

theorem execAtom_keeps (k : Nat) (s : State) {s₀ : State} (hk : Keeps s₀ s) : KeepsO s₀ (execAtom k s) := by
  unfold execAtom
  with_reducible
    repeat' first
      | assumption | intro _ | apply State.clocked_keeps | apply State.bump_keeps | apply State.sendPacket_keeps
      | apply State.perform_keeps | apply State.answer_keeps | apply State.keyed_keeps | apply State.offsetRefusal_keeps
      | apply State.homeAtom_keeps | apply State.pushHandoff_keeps | apply State.memDoorbell_keeps
      | apply State.ctlRefuse_keeps | apply KeepsO.next | apply KeepsO.ite | apply Keeps.ite
      | refine Keeps1.get ?_ (by assumption) | refine KeepsP.get ?_ (by assumption) | apply Keeps1.fst | apply Keeps1.ite
      | apply Keeps1.mk | split | apply Keeps.upd | dsimp only

theorem execBar2Write_keeps (x : Nat) (d : List Byte) (poisoned : Bool) (s : State) {s₀ : State} (hk : Keeps s₀ s) : KeepsO
    s₀ (execBar2Write x d poisoned s) := by
  unfold execBar2Write
  with_reducible
    repeat' first
      | assumption | intro _ | apply State.clocked_keeps | apply run_keeps | apply State.bump_keeps
      | apply State.crossOut_keeps | apply State.storeAt_keeps | apply KeepsO.next | apply KeepsO.ite | apply Keeps.ite
      | refine Keeps1.get ?_ (by assumption) | apply Keeps1.fst | apply Keeps1.ite | apply Keeps1.mk | split | dsimp only

theorem execBar2Read_keeps (x : Nat) (n : Nat) (s : State) {s₀ : State} (hk : Keeps s₀ s) : KeepsO s₀ (execBar2Read x n s)
    := by
  unfold execBar2Read
  with_reducible
    repeat' first
      | assumption | intro _ | apply State.clocked_keeps | apply run_keeps | apply State.bump_keeps
      | apply State.emit_keeps | apply State.crossIn_keeps | apply State.noteRead_keeps | apply KeepsO.next
      | apply KeepsO.ite | apply Keeps.ite | split | dsimp only

theorem execBar2Atomic_keeps (x : Nat) (atop : Nat) (d : List Byte) (s : State) {s₀ : State} (hk : Keeps s₀ s) : KeepsO s₀
    (execBar2Atomic x atop d s) := by
  unfold execBar2Atomic
  with_reducible
    repeat' first
      | assumption | intro _ | apply State.clocked_keeps | apply run_keeps | apply State.bump_keeps
      | apply State.emit_keeps | apply State.crossIn_keeps | apply State.crossOut_keeps | apply State.homeAtom_keeps
      | apply State.pushHandoff_keeps | apply KeepsO.next | apply KeepsO.ite | apply Keeps.ite
      | refine Keeps1.get ?_ (by assumption) | apply Keeps1.fst | apply Keeps1.ite | apply Keeps1.mk | split | dsimp only

theorem execRegisterWrite_keeps (src : Source) (off : Nat) (size : Nat) (v : Word) (lease : Option (Half × Nat)) (env : Env)
    (s : State) {s₀ : State} (hk : Keeps s₀ s) : KeepsO s₀ (execRegisterWrite src off size v lease env s) := by
  unfold execRegisterWrite
  with_reducible
    repeat' first
      | assumption | intro _ | apply State.clocked_keeps | apply run_keeps | apply State.bar0Write_keeps
      | apply State.serveMailbox_keeps | apply KeepsO.next | apply KeepsO.ite | apply Keeps.ite | split | dsimp only

end Sys2Proof.Machine
end

