-- ==== Sys2Proof/Laws/KeepsTick.lean ====
section
/-!
SUPPORT. What the operations of Machine/Tick.lean and its commands leave alone: none touches the queue of commands, and each keeps the
canonical form of memory and of the register files.
-/

namespace Sys2Proof.Machine

theorem State.busyTick_keeps (s : State) {s₀ : State} (hk : Keeps s₀ s) : Keeps s₀ (State.busyTick s) := by
  unfold State.busyTick
  with_reducible
    repeat' first
      | assumption | intro _ | apply State.wrap_keeps | apply Keeps.ite

theorem State.throttleTick_keeps (s : State) {s₀ : State} (hk : Keeps s₀ s) : Keeps s₀ (State.throttleTick s) := by
  unfold State.throttleTick
  with_reducible
    repeat' first
      | assumption | intro _ | apply State.wrap_keeps | apply Keeps.ite

theorem State.leaseTick_keeps (s : State) {s₀ : State} (hk : Keeps s₀ s) : Keeps s₀ (State.leaseTick s) := by
  unfold State.leaseTick
  with_reducible
    repeat' first
      | assumption | apply State.bump_keeps | apply Keeps.ite

theorem State.secondTick_keeps (s : State) {s₀ : State} (hk : Keeps s₀ s) : Keeps s₀ (State.secondTick s) := by
  unfold State.secondTick
  with_reducible
    repeat' first
      | assumption | apply State.bump_keeps | apply State.lifeAdd_keeps | apply State.syncLife_keeps | apply Keeps.ite

theorem State.copyTick_keeps (s : State) {s₀ : State} (hk : Keeps s₀ s) : Keeps s₀ (State.copyTick s) := by
  unfold State.copyTick
  with_reducible
    repeat' first
      | assumption | intro _ | apply State.startMirrors_keeps | apply Keeps.ite | split | dsimp only

theorem State.ctlTick_keeps (s : State) {s₀ : State} (hk : Keeps s₀ s) : Keeps s₀ (State.ctlTick s) := by
  unfold State.ctlTick
  with_reducible
    repeat' first
      | assumption | intro _ | apply State.bar0Store_keeps | apply Keeps.ite | refine Keeps1.get ?_ (by assumption) | split
      | apply Keeps.upd | dsimp only

theorem State.tick_keeps (s : State) {s₀ : State} (hk : Keeps s₀ s) : Keeps s₀ (State.tick s) := by
  unfold State.tick
  with_reducible
    repeat' first
      | assumption | intro _ | apply State.each_keeps | apply State.stallTick_keeps | apply State.beginPhases_keeps
      | apply State.beginEmbeds_keeps | apply State.advanceShutdown_keeps | apply State.creditStall_keeps
      | apply State.serveMailbox_keeps | apply State.flushOwed_keeps | apply State.busyTick_keeps
      | apply State.throttleTick_keeps | apply State.leaseTick_keeps | apply State.secondTick_keeps
      | apply State.copyTick_keeps | apply State.ctlTick_keeps | apply Keeps.ite | split | apply Keeps.upd | dsimp only

end Sys2Proof.Machine
end

