-- ==== Sys2Proof/Laws/PerInstr.lean ====
section
/-!
SUPPORT. Every command completes where its operands name existing instances, and is no command of the block elsewhere: one lemma
per constructor.
-/

namespace Sys2Proof.Laws

open Sys2Proof.Machine

/-- A well-formed command completes in every state; an ill-formed one is no command of the block. -/
def Completes.Statement (i : Instr) : Prop :=
  ∀ s : State, (i.wf = true → ∃ t, exec i s = .next t) ∧ (i.wf = false → exec i s = .fault .illFormed)

theorem completes_of_run {i : Instr} {s t : State} (h : exec i s = run i t) :
    (i.wf = true → ∃ t, exec i s = .next t) ∧ (i.wf = false → exec i s = .fault .illFormed) := by
  refine ⟨fun w => ⟨t, ?_⟩, fun w => ?_⟩ <;> rw [h, run, w] <;> rfl

theorem completes_of_next {i : Instr} {s t : State} (h : exec i s = .next t) (w : i.wf = true) :
    (i.wf = true → ∃ t, exec i s = .next t) ∧ (i.wf = false → exec i s = .fault .illFormed) :=
  ⟨fun _ => ⟨t, h⟩, fun e => by rw [w] at e; cases e⟩

theorem Completes.coldResetRelease : ∀ straps, Completes.Statement (.coldResetRelease straps) := by
  intros; exact fun _ => completes_of_run rfl
theorem Completes.bridgeLaneFail : ∀ dir g, Completes.Statement (.bridgeLaneFail dir g) := by
  intros; exact fun _ => completes_of_run rfl
theorem Completes.bridgeSecondLaneFail : ∀ dir g, Completes.Statement (.bridgeSecondLaneFail dir g) := by
  intros; exact fun _ => completes_of_run rfl
theorem Completes.bridgeEndpointLost : ∀ east west env, Completes.Statement (.bridgeEndpointLost east west env) := by
  intros; exact fun _ => completes_of_run rfl
theorem Completes.chipWarmReset : ∀ src confirm, Completes.Statement (.chipWarmReset src confirm) := by
  intros; exact fun _ => completes_of_run rfl
theorem Completes.halfReset : ∀ src h confirm env, Completes.Statement (.halfReset src h confirm env) := by
  intros; exact fun _ => completes_of_run rfl
theorem Completes.registerWrite : ∀ src off size v lease env, Completes.Statement (.registerWrite src off size v lease env) := by
  intros; exact fun _ => completes_of_run rfl
theorem Completes.tblCommit : ∀ src c env, Completes.Statement (.tblCommit src c env) := by
  intros; exact fun _ => completes_of_run rfl
theorem Completes.tblActivate : ∀ c, Completes.Statement (.tblActivate c) := by
  intros; exact fun _ => completes_of_run rfl
theorem Completes.oldEpochDrained : ∀ c, Completes.Statement (.oldEpochDrained c) := by
  intros; exact fun _ => completes_of_run rfl
theorem Completes.faultRecordVisible : ∀ c, Completes.Statement (.faultRecordVisible c) := by
  intros; exact fun _ => completes_of_run rfl
theorem Completes.faultRecordWriteFail : ∀ c, Completes.Statement (.faultRecordWriteFail c) := by
  intros; exact fun _ => completes_of_run rfl
theorem Completes.deferredFaultRecord : ∀ c, Completes.Statement (.deferredFaultRecord c) := by
  intros; exact fun _ => completes_of_run rfl
theorem Completes.fltqHeadWrite : ∀ src p v, Completes.Statement (.fltqHeadWrite src p v) := by
  intros; exact fun _ => completes_of_run rfl
theorem Completes.fltqResumeReplay : ∀ src p tag env, Completes.Statement (.fltqResumeReplay src p tag env) := by
  intros; exact fun _ => completes_of_run rfl
theorem Completes.fltqResumeAbort : ∀ src p tag env, Completes.Statement (.fltqResumeAbort src p tag env) := by
  intros; exact fun _ => completes_of_run rfl
theorem Completes.migGo : ∀ src p v, Completes.Statement (.migGo src p v) := by
  intros; exact fun _ => completes_of_run rfl
theorem Completes.migToDevice : ∀ c env, Completes.Statement (.migToDevice c env) := by
  intros; exact fun _ => completes_of_run rfl
theorem Completes.migToHost : ∀ c, Completes.Statement (.migToHost c) := by
  intros; exact fun _ => completes_of_run rfl
theorem Completes.migDrainDone : ∀ c, Completes.Statement (.migDrainDone c) := by
  intros; exact fun _ => completes_of_run rfl
theorem Completes.migTransferFail : ∀ c err k env, Completes.Statement (.migTransferFail c err k env) := by
  intros; exact fun _ => completes_of_run rfl
theorem Completes.migCommandDone : ∀ c env, Completes.Statement (.migCommandDone c env) := by
  intros; exact fun _ => completes_of_run rfl
theorem Completes.stageCommit : ∀ src, Completes.Statement (.stageCommit src) := by
  intros; exact fun _ => completes_of_run rfl
theorem Completes.memRuntimeFail : ∀ dev, Completes.Statement (.memRuntimeFail dev) := by
  intros; exact fun _ => completes_of_run rfl
theorem Completes.driveLinkUp : ∀ d width gen, Completes.Statement (.driveLinkUp d width gen) := by
  intros; exact fun _ => completes_of_run rfl
theorem Completes.driveInitDone : ∀ d pairs id, Completes.Statement (.driveInitDone d pairs id) := by
  intros; exact fun _ => completes_of_run rfl
theorem Completes.driveInitTimeout : ∀ d, Completes.Statement (.driveInitTimeout d) := by
  intros; exact fun _ => completes_of_run rfl
theorem Completes.nvmeCommandTimeout : ∀ d, Completes.Statement (.nvmeCommandTimeout d) := by
  intros; exact fun _ => completes_of_run rfl
theorem Completes.driveRecoverDone : ∀ d id, Completes.Statement (.driveRecoverDone d id) := by
  intros; exact fun _ => completes_of_run rfl
theorem Completes.driveOffline : ∀ src d, Completes.Statement (.driveOffline src d) := by
  intros; exact fun _ => completes_of_run rfl
theorem Completes.driveOnline : ∀ src d, Completes.Statement (.driveOnline src d) := by
  intros; exact fun _ => completes_of_run rfl
theorem Completes.driveReset : ∀ src d, Completes.Statement (.driveReset src d) := by
  intros; exact fun _ => completes_of_run rfl
theorem Completes.driveSurpriseDown : ∀ d, Completes.Statement (.driveSurpriseDown d) := by
  intros; exact fun _ => completes_of_run rfl
theorem Completes.smartPoll : ∀ d warn used temp, Completes.Statement (.smartPoll d warn used temp) := by
  intros; exact fun _ => completes_of_run rfl
theorem Completes.nvmeCompletion : ∀ ch ok env, Completes.Statement (.nvmeCompletion ch ok env) := by
  intros; exact fun _ => completes_of_run rfl
theorem Completes.tileSourceReadDone : ∀ ch env, Completes.Statement (.tileSourceReadDone ch env) := by
  intros; exact fun _ => completes_of_run rfl
theorem Completes.tileWritesAcked : ∀ ch ok, Completes.Statement (.tileWritesAcked ch ok) := by
  intros; exact fun _ => completes_of_run rfl
theorem Completes.t2BodyWriteDone : ∀ ch, Completes.Statement (.t2BodyWriteDone ch) := by
  intros; exact fun _ => completes_of_run rfl
theorem Completes.tileHeaderWritten : ∀ ch ok, Completes.Statement (.tileHeaderWritten ch ok) := by
  intros; exact fun _ => completes_of_run rfl
theorem Completes.tspInboundTileTaken : ∀ ch, Completes.Statement (.tspInboundTileTaken ch) := by
  intros; exact fun _ => completes_of_run rfl
theorem Completes.completionRecordPerformed : ∀ p q ok, Completes.Statement (.completionRecordPerformed p q ok) := by
  intros; exact fun _ => completes_of_run rfl
theorem Completes.phaseComplete : ∀ n env, Completes.Statement (.phaseComplete n env) := by
  intros; exact fun _ => completes_of_run rfl
theorem Completes.specRoutingDone : ∀ n experts, Completes.Statement (.specRoutingDone n experts) := by
  intros; exact fun _ => completes_of_run rfl
theorem Completes.curMatchArm : ∀ src n vec, Completes.Statement (.curMatchArm src n vec) := by
  intros; exact fun _ => completes_of_run rfl
theorem Completes.loadProgram : ∀ src n part env, Completes.Statement (.loadProgram src n part env) := by
  intros; exact fun _ => completes_of_run rfl
theorem Completes.startProgram : ∀ src n part, Completes.Statement (.startProgram src n part) := by
  intros; exact fun _ => completes_of_run rfl
theorem Completes.parkProgram : ∀ src n part, Completes.Statement (.parkProgram src n part) := by
  intros; exact fun _ => completes_of_run rfl
theorem Completes.unloadProgram : ∀ src n part, Completes.Statement (.unloadProgram src n part) := by
  intros; exact fun _ => completes_of_run rfl
theorem Completes.admitSeq : ∀ src n part slot env, Completes.Statement (.admitSeq src n part slot env) := by
  intros; exact fun _ => completes_of_run rfl
theorem Completes.remove : ∀ src n part slot, Completes.Statement (.remove src n part slot) := by
  intros; exact fun _ => completes_of_run rfl
theorem Completes.daCmdReservedOp : ∀ src op, Completes.Statement (.daCmdReservedOp src op) := by
  intros; exact fun _ => completes_of_run rfl
theorem Completes.arrayGrant : ∀ a env, Completes.Statement (.arrayGrant a env) := by
  intros; exact fun _ => completes_of_run rfl
theorem Completes.itemComplete : ∀ a hw, Completes.Statement (.itemComplete a hw) := by
  intros; exact fun _ => completes_of_run rfl
theorem Completes.itemOvertime : ∀ a env, Completes.Statement (.itemOvertime a env) := by
  intros; exact fun _ => completes_of_run rfl
theorem Completes.restore : ∀ src a, Completes.Statement (.restore src a) := by
  intros; exact fun _ => completes_of_run rfl
theorem Completes.arrayOffline : ∀ src a, Completes.Statement (.arrayOffline src a) := by
  intros; exact fun _ => completes_of_run rfl
theorem Completes.arrayOnline : ∀ src a, Completes.Statement (.arrayOnline src a) := by
  intros; exact fun _ => completes_of_run rfl
theorem Completes.ringHeadWrite : ∀ src n v, Completes.Statement (.ringHeadWrite src n v) := by
  intros; exact fun _ => completes_of_run rfl
theorem Completes.scoopRowReturn : ∀ g env, Completes.Statement (.scoopRowReturn g env) := by
  intros; exact fun _ => completes_of_run rfl
theorem Completes.scoopCommandComplete : ∀ g env, Completes.Statement (.scoopCommandComplete g env) := by
  intros; exact fun _ => completes_of_run rfl
theorem Completes.define : ∀ src t part env, Completes.Statement (.define src t part env) := by
  intros; exact fun _ => completes_of_run rfl
theorem Completes.flip : ∀ src t part inv, Completes.Statement (.flip src t part inv) := by
  intros; exact fun _ => completes_of_run rfl
theorem Completes.retire : ∀ src t part, Completes.Statement (.retire src t part) := by
  intros; exact fun _ => completes_of_run rfl
theorem Completes.scpCmdReservedOp : ∀ src op, Completes.Statement (.scpCmdReservedOp src op) := by
  intros; exact fun _ => completes_of_run rfl
theorem Completes.tableOldDrained : ∀ t, Completes.Statement (.tableOldDrained t) := by
  intros; exact fun _ => completes_of_run rfl
theorem Completes.replicaInstallDone : ∀ h j, Completes.Statement (.replicaInstallDone h j) := by
  intros; exact fun _ => completes_of_run rfl
theorem Completes.scoopEngineFail : ∀ g env, Completes.Statement (.scoopEngineFail g env) := by
  intros; exact fun _ => completes_of_run rfl
theorem Completes.scpReplCommit : ∀ src, Completes.Statement (.scpReplCommit src) := by
  intros; exact fun _ => completes_of_run rfl
theorem Completes.acquirePoll : ∀ p q env, Completes.Statement (.acquirePoll p q env) := by
  intros; exact fun _ => completes_of_run rfl
theorem Completes.acquireWaitTimeout : ∀ p q, Completes.Statement (.acquireWaitTimeout p q) := by
  intros; exact fun _ => completes_of_run rfl
theorem Completes.invComplete : ∀ p q, Completes.Statement (.invComplete p q) := by
  intros; exact fun _ => completes_of_run rfl
theorem Completes.bar2Write : ∀ x d poisoned, Completes.Statement (.bar2Write x d poisoned) := by
  intros; exact fun _ => completes_of_run rfl
theorem Completes.bar2Read : ∀ x n, Completes.Statement (.bar2Read x n) := by
  intros; exact fun _ => completes_of_run rfl
theorem Completes.bar2Atomic : ∀ x atop d, Completes.Statement (.bar2Atomic x atop d) := by
  intros; exact fun _ => completes_of_run rfl
theorem Completes.snoopTimeout : ∀ k slot, Completes.Statement (.snoopTimeout k slot) := by
  intros; exact fun _ => completes_of_run rfl
theorem Completes.collapse : ∀ src, Completes.Statement (.collapse src) := by
  intros; exact fun _ => completes_of_run rfl
theorem Completes.reinit : ∀ src, Completes.Statement (.reinit src) := by
  intros; exact fun _ => completes_of_run rfl
theorem Completes.cohCommit : ∀ src, Completes.Statement (.cohCommit src) := by
  intros; exact fun _ => completes_of_run rfl
theorem Completes.ylCfgCommit : ∀ src, Completes.Statement (.ylCfgCommit src) := by
  intros; exact fun _ => completes_of_run rfl
theorem Completes.detectSignal : ∀ l, Completes.Statement (.detectSignal l) := by
  intros; exact fun _ => completes_of_run rfl
theorem Completes.detectOneLaneTimeout : ∀ l lane, Completes.Statement (.detectOneLaneTimeout l lane) := by
  intros; exact fun _ => completes_of_run rfl
theorem Completes.equalizeConverged : ∀ l, Completes.Statement (.equalizeConverged l) := by
  intros; exact fun _ => completes_of_run rfl
theorem Completes.equalizeTimeout : ∀ l, Completes.Statement (.equalizeTimeout l) := by
  intros; exact fun _ => completes_of_run rfl
theorem Completes.lockAchieved : ∀ l, Completes.Statement (.lockAchieved l) := by
  intros; exact fun _ => completes_of_run rfl
theorem Completes.lockTimeout : ∀ l, Completes.Statement (.lockTimeout l) := by
  intros; exact fun _ => completes_of_run rfl
theorem Completes.negotiateTimeout : ∀ l, Completes.Statement (.negotiateTimeout l) := by
  intros; exact fun _ => completes_of_run rfl
theorem Completes.flitReceive : ∀ l b uncorrectable cw s0 s1, Completes.Statement (.flitReceive l b uncorrectable cw s0 s1) := by
  intros; exact fun _ => completes_of_run rfl
theorem Completes.ackTimer : ∀ l, Completes.Statement (.ackTimer l) := by
  intros; exact fun _ => completes_of_run rfl
theorem Completes.nakRepeat : ∀ l, Completes.Statement (.nakRepeat l) := by
  intros; exact fun _ => completes_of_run rfl
theorem Completes.receiveLaneLoss : ∀ l mask, Completes.Statement (.receiveLaneLoss l mask) := by
  intros; exact fun _ => completes_of_run rfl
theorem Completes.flitAcceptTimeout : ∀ l, Completes.Statement (.flitAcceptTimeout l) := by
  intros; exact fun _ => completes_of_run rfl
theorem Completes.replayAckTimeout : ∀ l, Completes.Statement (.replayAckTimeout l) := by
  intros; exact fun _ => completes_of_run rfl
theorem Completes.retrain : ∀ src l, Completes.Statement (.retrain src l) := by
  intros; exact fun _ => completes_of_run rfl
theorem Completes.fastRetrainDone : ∀ l ok caps lane, Completes.Statement (.fastRetrainDone l ok caps lane) := by
  intros; exact fun _ => completes_of_run rfl
theorem Completes.failedRetry : ∀ l, Completes.Statement (.failedRetry l) := by
  intros; exact fun _ => completes_of_run rfl
theorem Completes.linkDisable : ∀ src l, Completes.Statement (.linkDisable src l) := by
  intros; exact fun _ => completes_of_run rfl
theorem Completes.linkDisableClear : ∀ src l, Completes.Statement (.linkDisableClear src l) := by
  intros; exact fun _ => completes_of_run rfl
theorem Completes.oneLaneMarker : ∀ l ok, Completes.Statement (.oneLaneMarker l ok) := by
  intros; exact fun _ => completes_of_run rfl
theorem Completes.laneDropLockTimeout : ∀ l, Completes.Statement (.laneDropLockTimeout l) := by
  intros; exact fun _ => completes_of_run rfl
theorem Completes.laneTest : ∀ l hold ser0 ser1, Completes.Statement (.laneTest l hold ser0 ser1) := by
  intros; exact fun _ => completes_of_run rfl
theorem Completes.reachPeriodic : ∀ l, Completes.Statement (.reachPeriodic l) := by
  intros; exact fun _ => completes_of_run rfl
theorem Completes.reachStale : ∀ l, Completes.Statement (.reachStale l) := by
  intros; exact fun _ => completes_of_run rfl
theorem Completes.reachHold : ∀ l, Completes.Statement (.reachHold l) := by
  intros; exact fun _ => completes_of_run rfl
theorem Completes.detourPacket : ∀ l, Completes.Statement (.detourPacket l) := by
  intros; exact fun _ => completes_of_run rfl
theorem Completes.packetIngress : ∀ l, Completes.Statement (.packetIngress l) := by
  intros; exact fun _ => completes_of_run rfl
theorem Completes.packetEgress : ∀ l, Completes.Statement (.packetEgress l) := by
  intros; exact fun _ => completes_of_run rfl
theorem Completes.srd : ∀ k stamp len, Completes.Statement (.srd k stamp len) := by
  intros; exact fun _ => completes_of_run rfl
theorem Completes.retxTimeout : ∀ n vc, Completes.Statement (.retxTimeout n vc) := by
  intros; exact fun _ => completes_of_run rfl
theorem Completes.sackTimer : ∀ n vc, Completes.Statement (.sackTimer n vc) := by
  intros; exact fun _ => completes_of_run rfl
theorem Completes.tspDisableClear : ∀ src t, Completes.Statement (.tspDisableClear src t) := by
  intros; exact fun _ => completes_of_run rfl
theorem Completes.tspDisable : ∀ src t, Completes.Statement (.tspDisable src t) := by
  intros; exact fun _ => completes_of_run rfl
theorem Completes.tspTrainDone : ∀ t lanes, Completes.Statement (.tspTrainDone t lanes) := by
  intros; exact fun _ => completes_of_run rfl
theorem Completes.tspTrainTimeout : ∀ t lock, Completes.Statement (.tspTrainTimeout t lock) := by
  intros; exact fun _ => completes_of_run rfl
theorem Completes.tspNegotiateTimeout : ∀ t, Completes.Statement (.tspNegotiateTimeout t) := by
  intros; exact fun _ => completes_of_run rfl
theorem Completes.tspFlitReceive : ∀ t b uncorrectable, Completes.Statement (.tspFlitReceive t b uncorrectable) := by
  intros; exact fun _ => completes_of_run rfl
theorem Completes.tileUnit : ∀ t, Completes.Statement (.tileUnit t) := by
  intros; exact fun _ => completes_of_run rfl
theorem Completes.tspTileSend : ∀ t, Completes.Statement (.tspTileSend t) := by
  intros; exact fun _ => completes_of_run rfl
theorem Completes.tspLaneLoss : ∀ t mask, Completes.Statement (.tspLaneLoss t mask) := by
  intros; exact fun _ => completes_of_run rfl
theorem Completes.tspRecoverDone : ∀ t ok caps lanes, Completes.Statement (.tspRecoverDone t ok caps lanes) := by
  intros; exact fun _ => completes_of_run rfl
theorem Completes.tspRetry : ∀ src t, Completes.Statement (.tspRetry src t) := by
  intros; exact fun _ => completes_of_run rfl
theorem Completes.tspRefclkLoss : ∀ k, Completes.Statement (.tspRefclkLoss k) := by
  intros; exact fun _ => completes_of_run rfl
theorem Completes.tspRefclkReturn : ∀ k, Completes.Statement (.tspRefclkReturn k) := by
  intros; exact fun _ => completes_of_run rfl
theorem Completes.tspPortCommit : ∀ src t, Completes.Statement (.tspPortCommit src t) := by
  intros; exact fun _ => completes_of_run rfl
theorem Completes.perstRelease : ∀ gen width, Completes.Statement (.perstRelease gen width) := by
  intros; exact fun _ => completes_of_run rfl
theorem Completes.vfFlr : ∀ p env, Completes.Statement (.vfFlr p env) := by
  intros; exact fun _ => completes_of_run rfl
theorem Completes.vfEnable : ∀ n, Completes.Statement (.vfEnable n) := by
  intros; exact fun _ => completes_of_run rfl
theorem Completes.pcieCplTimeout : ∀ ch row, Completes.Statement (.pcieCplTimeout ch row) := by
  intros; exact fun _ => completes_of_run rfl
theorem Completes.sqDoorbell : ∀ src p q v, Completes.Statement (.sqDoorbell src p q v) := by
  intros; exact fun _ => completes_of_run rfl
theorem Completes.queueFetch : ∀ p env, Completes.Statement (.queueFetch p env) := by
  intros; exact fun _ => completes_of_run rfl
theorem Completes.sqEnable : ∀ src p q v, Completes.Statement (.sqEnable src p q v) := by
  intros; exact fun _ => completes_of_run rfl
theorem Completes.sqDisable : ∀ src p q v, Completes.Statement (.sqDisable src p q v) := by
  intros; exact fun _ => completes_of_run rfl
theorem Completes.resume : ∀ src p q, Completes.Statement (.resume src p q) := by
  intros; exact fun _ => completes_of_run rfl
theorem Completes.resumeSkip : ∀ src p q, Completes.Statement (.resumeSkip src p q) := by
  intros; exact fun _ => completes_of_run rfl
theorem Completes.cqHeadWrite : ∀ src p q v, Completes.Statement (.cqHeadWrite src p q v) := by
  intros; exact fun _ => completes_of_run rfl
theorem Completes.msixUnmask : ∀ src fn vec, Completes.Statement (.msixUnmask src fn vec) := by
  intros; exact fun _ => completes_of_run rfl
theorem Completes.partitionReset : ∀ src p env, Completes.Statement (.partitionReset src p env) := by
  intros; exact fun _ => completes_of_run rfl
theorem Completes.partitionDrained : ∀ p, Completes.Statement (.partitionDrained p) := by
  intros; exact fun _ => completes_of_run rfl
theorem Completes.partitionDrainTimeout : ∀ p env, Completes.Statement (.partitionDrainTimeout p env) := by
  intros; exact fun _ => completes_of_run rfl
theorem Completes.partitionCleared : ∀ p env, Completes.Statement (.partitionCleared p env) := by
  intros; exact fun _ => completes_of_run rfl
theorem Completes.qosCommit : ∀ src, Completes.Statement (.qosCommit src) := by
  intros; exact fun _ => completes_of_run rfl
theorem Completes.mrEnable : ∀ src p r v, Completes.Statement (.mrEnable src p r v) := by
  intros; exact fun _ => completes_of_run rfl
theorem Completes.mrHeadWrite : ∀ src p r v, Completes.Statement (.mrHeadWrite src p r v) := by
  intros; exact fun _ => completes_of_run rfl
theorem Completes.mrRecordPerformed : ∀ p r, Completes.Statement (.mrRecordPerformed p r) := by
  intros; exact fun _ => completes_of_run rfl
theorem Completes.engineReset : ∀ src cls inst env, Completes.Statement (.engineReset src cls inst env) := by
  intros; exact fun _ => completes_of_run rfl
theorem Completes.engineFailure : ∀ cls inst env, Completes.Statement (.engineFailure cls inst env) := by
  intros; exact fun _ => completes_of_run rfl
theorem Completes.engineResetDone : ∀ cls inst env, Completes.Statement (.engineResetDone cls inst env) := by
  intros; exact fun _ => completes_of_run rfl
theorem Completes.arbitrationRunDone : ∀ a hw, Completes.Statement (.arbitrationRunDone a hw) := by
  intros; exact fun _ => completes_of_run rfl
theorem Completes.uncomparedTimeout : ∀ a, Completes.Statement (.uncomparedTimeout a) := by
  intros; exact fun _ => completes_of_run rfl
theorem Completes.tasterSlotDone : ∀ a res, Completes.Statement (.tasterSlotDone a res) := by
  intros; exact fun _ => completes_of_run rfl
theorem Completes.retestSlotDone : ∀ a res, Completes.Statement (.retestSlotDone a res) := by
  intros; exact fun _ => completes_of_run rfl
theorem Completes.retestTimeout : ∀ a, Completes.Statement (.retestTimeout a) := by
  intros; exact fun _ => completes_of_run rfl
theorem Completes.sweep : ∀ src v, Completes.Statement (.sweep src v) := by
  intros; exact fun _ => completes_of_run rfl
theorem Completes.sweepStageEnd : ∀ k charged, Completes.Statement (.sweepStageEnd k charged) := by
  intros; exact fun _ => completes_of_run rfl
theorem Completes.errRingHeadWrite : ∀ src v, Completes.Statement (.errRingHeadWrite src v) := by
  intros; exact fun _ => completes_of_run rfl
theorem Completes.cntCommit : ∀ src, Completes.Statement (.cntCommit src) := by
  intros; exact fun _ => completes_of_run rfl
theorem Completes.mirrorPushDone : ∀ n, Completes.Statement (.mirrorPushDone n) := by
  intros; exact fun _ => completes_of_run rfl
theorem Completes.mirrorBankWritten : ∀ n, Completes.Statement (.mirrorBankWritten n) := by
  intros; exact fun _ => completes_of_run rfl
theorem Completes.mirrorCommitted : ∀ n, Completes.Statement (.mirrorCommitted n) := by
  intros; exact fun _ => completes_of_run rfl
theorem Completes.sequenceCopyDone : ∀ n slot, Completes.Statement (.sequenceCopyDone n slot) := by
  intros; exact fun _ => completes_of_run rfl
theorem Completes.takeover : ∀ src confirm, Completes.Statement (.takeover src confirm) := by
  intros; exact fun _ => completes_of_run rfl
theorem Completes.restart : ∀ src confirm, Completes.Statement (.restart src confirm) := by
  intros; exact fun _ => completes_of_run rfl
theorem Completes.frozenPoll : ∀ n env, Completes.Statement (.frozenPoll n env) := by
  intros; exact fun _ => completes_of_run rfl
theorem Completes.deltaPullDone : ∀ n env, Completes.Statement (.deltaPullDone n env) := by
  intros; exact fun _ => completes_of_run rfl
theorem Completes.leaseRenew : ∀ h epoch, Completes.Statement (.leaseRenew h epoch) := by
  intros; exact fun _ => completes_of_run rfl
theorem Completes.openSession : ∀ reqId, Completes.Statement (.openSession reqId) := by
  intros; exact fun _ => completes_of_run rfl
theorem Completes.handshakeTimeout : ∀ k, Completes.Statement (.handshakeTimeout k) := by
  intros; exact fun _ => completes_of_run rfl
theorem Completes.sessionIdleTimeout : ∀ k, Completes.Statement (.sessionIdleTimeout k) := by
  intros; exact fun _ => completes_of_run rfl
theorem Completes.mbxDoorbell : ∀ src v env, Completes.Statement (.mbxDoorbell src v env) := by
  intros; exact fun _ => completes_of_run rfl
theorem Completes.mgtNetCommit : ∀ src, Completes.Statement (.mgtNetCommit src) := by
  intros; exact fun _ => completes_of_run rfl
theorem Completes.mgtAnchorCommit : ∀ src, Completes.Statement (.mgtAnchorCommit src) := by
  intros; exact fun _ => completes_of_run rfl
theorem Completes.mgtDelegCommit : ∀ src, Completes.Statement (.mgtDelegCommit src) := by
  intros; exact fun _ => completes_of_run rfl
theorem Completes.compMsg : ∀ p c, Completes.Statement (.compMsg p c) := by
  intros; exact fun _ => completes_of_run rfl
theorem Completes.tokensMsg : ∀ p, Completes.Statement (.tokensMsg p) := by
  intros; exact fun _ => completes_of_run rfl
theorem Completes.sclOffer : ∀ src off tot data, Completes.Statement (.sclOffer src off tot data) := by
  intros; exact fun _ => completes_of_run rfl
theorem Completes.offerVerifyDone : ∀ sigOk kind version meter classes, Completes.Statement (.offerVerifyDone sigOk kind version meter classes) := by
  intros; exact fun _ => completes_of_run rfl
theorem Completes.memoryTrained : ∀ h badCh badSt rate dimm same ew we, Completes.Statement (.memoryTrained h badCh badSt rate dimm same ew we) := by
  intros; exact fun _ => completes_of_run rfl
theorem Completes.serdesDone : ∀ h failed, Completes.Statement (.serdesDone h failed) := by
  intros; exact fun _ => completes_of_run rfl
theorem Completes.bootSvnCommit : ∀ src v, Completes.Statement (.bootSvnCommit src v) := by
  intros; exact fun _ => completes_of_run rfl
theorem Completes.fwOffer : ∀ src off tot data, Completes.Statement (.fwOffer src off tot data) := by
  intros; exact fun _ => completes_of_run rfl
theorem Completes.bootTimeSync : ∀ src n, Completes.Statement (.bootTimeSync src n) := by
  intros; exact fun _ => completes_of_run rfl
theorem Completes.bootTimeFollow : ∀ src n t1, Completes.Statement (.bootTimeFollow src n t1) := by
  intros; exact fun _ => completes_of_run rfl
theorem Completes.bootTimeHost : ∀ src u, Completes.Statement (.bootTimeHost src u) := by
  intros; exact fun _ => completes_of_run rfl
theorem Completes.attestNonce : ∀ src host nonce, Completes.Statement (.attestNonce src host nonce) := by
  intros; exact fun _ => completes_of_run rfl
theorem Completes.persistNow : ∀ src, Completes.Statement (.persistNow src) := by
  intros; exact fun _ => completes_of_run rfl
theorem Completes.shutdown : ∀ src confirm, Completes.Statement (.shutdown src confirm) := by
  intros; exact fun _ => completes_of_run rfl
theorem Completes.lifeServiceAdd : ∀ src v, Completes.Statement (.lifeServiceAdd src v) := by
  intros; exact fun _ => completes_of_run rfl
theorem Completes.pmbusPoll : ∀ rails, Completes.Statement (.pmbusPoll rails) := by
  intros; exact fun _ => completes_of_run rfl
theorem Completes.sensorRead : ∀ dies, Completes.Statement (.sensorRead dies) := by
  intros; exact fun _ => completes_of_run rfl
theorem Completes.quadRefclkLoss : ∀ io q, Completes.Statement (.quadRefclkLoss io q) := by
  intros; exact fun _ => completes_of_run rfl
theorem Completes.registerRead : ∀ src off size, Completes.Statement (.registerRead src off size) := by
  intros; exact fun _ => completes_of_run rfl
theorem Completes.droppedFrame : ∀ why, Completes.Statement (.droppedFrame why) := by
  intros; exact fun _ => completes_of_run rfl
theorem Completes.coldResetAssert : Completes.Statement .coldResetAssert := fun _ => completes_of_next rfl rfl
theorem Completes.sysrefLoss : Completes.Statement .sysrefLoss := fun _ => completes_of_next rfl rfl
theorem Completes.sysrefReturn : Completes.Statement .sysrefReturn := fun _ => completes_of_next rfl rfl
theorem Completes.halfResetTimeout : ∀ h, Completes.Statement (.halfResetTimeout h) := by
  intros; exact fun _ => completes_of_next rfl rfl
theorem Completes.cursorDelivery : ∀ h, Completes.Statement (.cursorDelivery h) := by
  intros; exact fun _ => completes_of_next rfl rfl
theorem Completes.mgmtFaultService : ∀ env, Completes.Statement (.mgmtFaultService env) := by
  intros; exact fun _ => completes_of_next rfl rfl
theorem Completes.scrubRead : ∀ off err, Completes.Statement (.scrubRead off err) := by
  intros; exact fun _ => completes_of_next rfl rfl
theorem Completes.copyTile : ∀ fw env, Completes.Statement (.copyTile fw env) := by
  intros; exact fun _ => completes_of_next rfl rfl
theorem Completes.copyRaw : ∀ fw env, Completes.Statement (.copyRaw fw env) := by
  intros; exact fun _ => completes_of_next rfl rfl
theorem Completes.prooferMoveComplete : Completes.Statement .prooferMoveComplete := fun _ => completes_of_next rfl rfl
theorem Completes.stagingSpaceRelease : Completes.Statement .stagingSpaceRelease := fun _ => completes_of_next rfl rfl
theorem Completes.partialsArrive : ∀ h, Completes.Statement (.partialsArrive h) := by
  intros; exact fun _ => completes_of_next rfl rfl
theorem Completes.gather : ∀ fw env, Completes.Statement (.gather fw env) := by
  intros; exact fun _ => completes_of_next rfl rfl
theorem Completes.rowUpdate : ∀ fw env, Completes.Statement (.rowUpdate fw env) := by
  intros; exact fun _ => completes_of_next rfl rfl
theorem Completes.attemptReadReturn : ∀ id, Completes.Statement (.attemptReadReturn id) := by
  intros; exact fun _ => completes_of_next rfl rfl
theorem Completes.waitingReadRelease : ∀ id, Completes.Statement (.waitingReadRelease id) := by
  intros; exact fun _ => completes_of_next rfl rfl
theorem Completes.updateStampAcked : ∀ id ok, Completes.Statement (.updateStampAcked id ok) := by
  intros; exact fun _ => completes_of_next rfl rfl
theorem Completes.updateInvalidatesAcked : ∀ id, Completes.Statement (.updateInvalidatesAcked id) := by
  intros; exact fun _ => completes_of_next rfl rfl
theorem Completes.updateRowAcked : ∀ id ok, Completes.Statement (.updateRowAcked id ok) := by
  intros; exact fun _ => completes_of_next rfl rfl
theorem Completes.updateFinalStampAcked : ∀ id ok, Completes.Statement (.updateFinalStampAcked id ok) := by
  intros; exact fun _ => completes_of_next rfl rfl
theorem Completes.hotCountDecay : ∀ h, Completes.Statement (.hotCountDecay h) := by
  intros; exact fun _ => completes_of_next rfl rfl
theorem Completes.releaseWrite : Completes.Statement .releaseWrite := fun _ => completes_of_next rfl rfl
theorem Completes.acquireWait : ∀ env, Completes.Statement (.acquireWait env) := by
  intros; exact fun _ => completes_of_next rfl rfl
theorem Completes.fenceEntry : Completes.Statement .fenceEntry := fun _ => completes_of_next rfl rfl
theorem Completes.invRange : Completes.Statement .invRange := fun _ => completes_of_next rfl rfl
theorem Completes.rdshared : ∀ q, Completes.Statement (.rdshared q) := by
  intros; exact fun _ => completes_of_next rfl rfl
theorem Completes.rdown : ∀ k, Completes.Statement (.rdown k) := by
  intros; exact fun _ => completes_of_next rfl rfl
theorem Completes.upgrade : ∀ k, Completes.Statement (.upgrade k) := by
  intros; exact fun _ => completes_of_next rfl rfl
theorem Completes.wbdata : ∀ k, Completes.Statement (.wbdata k) := by
  intros; exact fun _ => completes_of_next rfl rfl
theorem Completes.evictclean : ∀ k, Completes.Statement (.evictclean k) := by
  intros; exact fun _ => completes_of_next rfl rfl
theorem Completes.snoopAck : ∀ k, Completes.Statement (.snoopAck k) := by
  intros; exact fun _ => completes_of_next rfl rfl
theorem Completes.snprespwbpending : ∀ k, Completes.Statement (.snprespwbpending k) := by
  intros; exact fun _ => completes_of_next rfl rfl
theorem Completes.fwddata : ∀ k, Completes.Statement (.fwddata k) := by
  intros; exact fun _ => completes_of_next rfl rfl
theorem Completes.reinitDone : Completes.Statement .reinitDone := fun _ => completes_of_next rfl rfl
theorem Completes.mirrorRecordPerformed : Completes.Statement .mirrorRecordPerformed := fun _ => completes_of_next rfl rfl
theorem Completes.rd : ∀ q, Completes.Statement (.rd q) := by
  intros; exact fun _ => completes_of_next rfl rfl
theorem Completes.wr : ∀ k env, Completes.Statement (.wr k env) := by
  intros; exact fun _ => completes_of_next rfl rfl
theorem Completes.atom : ∀ k, Completes.Statement (.atom k) := by
  intros; exact fun _ => completes_of_next rfl rfl
theorem Completes.fenceRequest : ∀ k, Completes.Statement (.fenceRequest k) := by
  intros; exact fun _ => completes_of_next rfl rfl
theorem Completes.supd : ∀ k stamp, Completes.Statement (.supd k stamp) := by
  intros; exact fun _ => completes_of_next rfl rfl
theorem Completes.rinv : ∀ k, Completes.Statement (.rinv k) := by
  intros; exact fun _ => completes_of_next rfl rfl
theorem Completes.rdereg : ∀ k, Completes.Statement (.rdereg k) := by
  intros; exact fun _ => completes_of_next rfl rfl
theorem Completes.msg : ∀ k, Completes.Statement (.msg k) := by
  intros; exact fun _ => completes_of_next rfl rfl
theorem Completes.mgmtSync : ∀ k, Completes.Statement (.mgmtSync k) := by
  intros; exact fun _ => completes_of_next rfl rfl
theorem Completes.mgmtCollapse : ∀ k, Completes.Statement (.mgmtCollapse k) := by
  intros; exact fun _ => completes_of_next rfl rfl
theorem Completes.mgmtTelemetry : ∀ k, Completes.Statement (.mgmtTelemetry k) := by
  intros; exact fun _ => completes_of_next rfl rfl
theorem Completes.sack : ∀ k, Completes.Statement (.sack k) := by
  intros; exact fun _ => completes_of_next rfl rfl
theorem Completes.rdData : ∀ k, Completes.Statement (.rdData k) := by
  intros; exact fun _ => completes_of_next rfl rfl
theorem Completes.wrAck : ∀ k, Completes.Statement (.wrAck k) := by
  intros; exact fun _ => completes_of_next rfl rfl
theorem Completes.atomData : ∀ k, Completes.Statement (.atomData k) := by
  intros; exact fun _ => completes_of_next rfl rfl
theorem Completes.fenceAck : ∀ k, Completes.Statement (.fenceAck k) := by
  intros; exact fun _ => completes_of_next rfl rfl
theorem Completes.srdData : ∀ k, Completes.Statement (.srdData k) := by
  intros; exact fun _ => completes_of_next rfl rfl
theorem Completes.supdAck : ∀ k, Completes.Statement (.supdAck k) := by
  intros; exact fun _ => completes_of_next rfl rfl
theorem Completes.rinvAck : ∀ k, Completes.Statement (.rinvAck k) := by
  intros; exact fun _ => completes_of_next rfl rfl
theorem Completes.msgAck : ∀ k, Completes.Statement (.msgAck k) := by
  intros; exact fun _ => completes_of_next rfl rfl
theorem Completes.msgAckTimeout : ∀ tag, Completes.Statement (.msgAckTimeout tag) := by
  intros; exact fun _ => completes_of_next rfl rfl
theorem Completes.perstAssert : ∀ env, Completes.Statement (.perstAssert env) := by
  intros; exact fun _ => completes_of_next rfl rfl
theorem Completes.hostLinkLoss : ∀ env, Completes.Statement (.hostLinkLoss env) := by
  intros; exact fun _ => completes_of_next rfl rfl
theorem Completes.pfFlr : ∀ env, Completes.Statement (.pfFlr env) := by
  intros; exact fun _ => completes_of_next rfl rfl
theorem Completes.configRequest : ∀ relaxed, Completes.Statement (.configRequest relaxed) := by
  intros; exact fun _ => completes_of_next rfl rfl
theorem Completes.vecCfgLockTimeout : Completes.Statement .vecCfgLockTimeout := fun _ => completes_of_next rfl rfl
theorem Completes.csumRecomputeDone : Completes.Statement .csumRecomputeDone := fun _ => completes_of_next rfl rfl
theorem Completes.tasterIdleSlot : Completes.Statement .tasterIdleSlot := fun _ => completes_of_next rfl rfl
theorem Completes.errRingWriteDone : ∀ ok, Completes.Statement (.errRingWriteDone ok) := by
  intros; exact fun _ => completes_of_next rfl rfl
theorem Completes.corrHourRollover : Completes.Statement .corrHourRollover := fun _ => completes_of_next rfl rfl
theorem Completes.pairingReadDone : ∀ env, Completes.Statement (.pairingReadDone env) := by
  intros; exact fun _ => completes_of_next rfl rfl
theorem Completes.pairingRetry : Completes.Statement .pairingRetry := fun _ => completes_of_next rfl rfl
theorem Completes.partnerLossTimer : Completes.Statement .partnerLossTimer := fun _ => completes_of_next rfl rfl
theorem Completes.peerTakeover : Completes.Statement .peerTakeover := fun _ => completes_of_next rfl rfl
theorem Completes.handbackReq : Completes.Statement .handbackReq := fun _ => completes_of_next rfl rfl
theorem Completes.handbackDone : Completes.Statement .handbackDone := fun _ => completes_of_next rfl rfl
theorem Completes.returnSweepDone : ∀ env, Completes.Statement (.returnSweepDone env) := by
  intros; exact fun _ => completes_of_next rfl rfl
theorem Completes.bulkPullDone : ∀ env, Completes.Statement (.bulkPullDone env) := by
  intros; exact fun _ => completes_of_next rfl rfl
theorem Completes.handoffMirrorWritten : Completes.Statement .handoffMirrorWritten := fun _ => completes_of_next rfl rfl
theorem Completes.leaseExpiry : Completes.Statement .leaseExpiry := fun _ => completes_of_next rfl rfl
theorem Completes.discover : ∀ d, Completes.Statement (.discover d) := by
  intros; exact fun _ => completes_of_next rfl rfl
theorem Completes.helloMsg : ∀ d, Completes.Statement (.helloMsg d) := by
  intros; exact fun _ => completes_of_next rfl rfl
theorem Completes.authMsg : ∀ d sigOk prov, Completes.Statement (.authMsg d sigOk prov) := by
  intros; exact fun _ => completes_of_next rfl rfl
theorem Completes.readEntries : ∀ d env, Completes.Statement (.readEntries d env) := by
  intros; exact fun _ => completes_of_next rfl rfl
theorem Completes.writeEntries : ∀ d env, Completes.Statement (.writeEntries d env) := by
  intros; exact fun _ => completes_of_next rfl rfl
theorem Completes.commitGroup : ∀ d env, Completes.Statement (.commitGroup d env) := by
  intros; exact fun _ => completes_of_next rfl rfl
theorem Completes.discardGroup : ∀ d env, Completes.Statement (.discardGroup d env) := by
  intros; exact fun _ => completes_of_next rfl rfl
theorem Completes.describeEntries : ∀ d env, Completes.Statement (.describeEntries d env) := by
  intros; exact fun _ => completes_of_next rfl rfl
theorem Completes.saveConfig : ∀ d env, Completes.Statement (.saveConfig d env) := by
  intros; exact fun _ => completes_of_next rfl rfl
theorem Completes.saveFlashDone : ∀ ok, Completes.Statement (.saveFlashDone ok) := by
  intros; exact fun _ => completes_of_next rfl rfl
theorem Completes.keepalive : ∀ d env, Completes.Statement (.keepalive d env) := by
  intros; exact fun _ => completes_of_next rfl rfl
theorem Completes.closeSession : ∀ d env, Completes.Statement (.closeSession d env) := by
  intros; exact fun _ => completes_of_next rfl rfl
theorem Completes.fragmentTimeout : ∀ k, Completes.Statement (.fragmentTimeout k) := by
  intros; exact fun _ => completes_of_next rfl rfl
theorem Completes.neighborSolicitation : ∀ target toMac, Completes.Statement (.neighborSolicitation target toMac) := by
  intros; exact fun _ => completes_of_next rfl rfl
theorem Completes.echoRequest : ∀ target data toMac, Completes.Statement (.echoRequest target data toMac) := by
  intros; exact fun _ => completes_of_next rfl rfl
theorem Completes.dadComplete : ∀ duplicate, Completes.Statement (.dadComplete duplicate) := by
  intros; exact fun _ => completes_of_next rfl rfl
theorem Completes.beaconLoss : Completes.Statement .beaconLoss := fun _ => completes_of_next rfl rfl
theorem Completes.beaconSeen : Completes.Statement .beaconSeen := fun _ => completes_of_next rfl rfl
theorem Completes.commitSafePoint : ∀ idx sub, Completes.Statement (.commitSafePoint idx sub) := by
  intros; exact fun _ => completes_of_next rfl rfl
theorem Completes.tick : Completes.Statement .tick := fun _ => completes_of_next rfl rfl
theorem Completes.recordPersisted : Completes.Statement .recordPersisted := fun _ => completes_of_next rfl rfl
theorem Completes.timeMsg : ∀ resid want, Completes.Statement (.timeMsg resid want) := by
  intros; exact fun _ => completes_of_next rfl rfl
theorem Completes.scaleTimeTimeout : Completes.Statement .scaleTimeTimeout := fun _ => completes_of_next rfl rfl
theorem Completes.offerFlashDone : ∀ ok, Completes.Statement (.offerFlashDone ok) := by
  intros; exact fun _ => completes_of_next rfl rfl
theorem Completes.scaleLoadDone : ∀ ok, Completes.Statement (.scaleLoadDone ok) := by
  intros; exact fun _ => completes_of_next rfl rfl
theorem Completes.scaleSramUncorr : Completes.Statement .scaleSramUncorr := fun _ => completes_of_next rfl rfl
theorem Completes.romStageDone : ∀ h uds, Completes.Statement (.romStageDone h uds) := by
  intros; exact fun _ => completes_of_next rfl rfl
theorem Completes.imageReadDone : ∀ h a b, Completes.Statement (.imageReadDone h a b) := by
  intros; exact fun _ => completes_of_next rfl rfl
theorem Completes.verifyDone : ∀ h rpmc, Completes.Statement (.verifyDone h rpmc) := by
  intros; exact fun _ => completes_of_next rfl rfl
theorem Completes.memoryTimeout : ∀ h, Completes.Statement (.memoryTimeout h) := by
  intros; exact fun _ => completes_of_next rfl rfl
theorem Completes.configLoad : ∀ env, Completes.Statement (.configLoad env) := by
  intros; exact fun _ => completes_of_next rfl rfl
theorem Completes.fwOfferVerifyDone : ∀ written img, Completes.Statement (.fwOfferVerifyDone written img) := by
  intros; exact fun _ => completes_of_next rfl rfl
theorem Completes.attestReportReady : ∀ host, Completes.Statement (.attestReportReady host) := by
  intros; exact fun _ => completes_of_next rfl rfl
theorem Completes.lifeSnapshotTimer : Completes.Statement .lifeSnapshotTimer := fun _ => completes_of_next rfl rfl
theorem Completes.snapshotWriteDone : ∀ ok, Completes.Statement (.snapshotWriteDone ok) := by
  intros; exact fun _ => completes_of_next rfl rfl
theorem Completes.throttleStep : Completes.Statement .throttleStep := fun _ => completes_of_next rfl rfl
theorem Completes.prochot : ∀ low, Completes.Statement (.prochot low) := by
  intros; exact fun _ => completes_of_next rfl rfl
theorem Completes.avsAdjust : ∀ east west, Completes.Statement (.avsAdjust east west) := by
  intros; exact fun _ => completes_of_next rfl rfl
theorem Completes.deviceTimeUndisciplined : Completes.Statement .deviceTimeUndisciplined := fun _ => completes_of_next rfl rfl

end Sys2Proof.Laws
end

