-- ==== Sys2Proof/Laws/State.lean ====
section
/-!
SUPPORT. What the primitive updates of the state leave of each of its fields: a register write changes the register file alone, a
staged write the staged file alone, and a wire the output alone.
-/

namespace Sys2Proof.Machine

variable (s : State)

/-! ## Register writes -/

@[simp] theorem State.wr_pending (r : Reg) (k : Nat) (v : Word) : (s.wr r k v).pending = s.pending := rfl
@[simp] theorem State.wr_staged (r : Reg) (k : Nat) (v : Word) : (s.wr r k v).staged = s.staged := rfl
@[simp] theorem State.wr_mem (r : Reg) (k : Nat) (v : Word) : (s.wr r k v).mem = s.mem := rfl
@[simp] theorem State.wr_out (r : Reg) (k : Nat) (v : Word) : (s.wr r k v).out = s.out := rfl
@[simp] theorem State.wr_free (r : Reg) (k : Nat) (v : Word) : (s.wr r k v).free = s.free := rfl
@[simp] theorem State.wr_time (r : Reg) (k : Nat) (v : Word) : (s.wr r k v).time = s.time := rfl
@[simp] theorem State.wr_spares (r : Reg) (k : Nat) (v : Word) : (s.wr r k v).spares = s.spares := rfl
@[simp] theorem State.wr_coldHeld (r : Reg) (k : Nat) (v : Word) : (s.wr r k v).coldHeld = s.coldHeld := rfl
@[simp] theorem State.wr_sysrefLost (r : Reg) (k : Nat) (v : Word) : (s.wr r k v).sysrefLost = s.sysrefLost := rfl
@[simp] theorem State.wr_lowWrites (r : Reg) (k : Nat) (v : Word) : (s.wr r k v).lowWrites = s.lowWrites := rfl
@[simp] theorem State.wr_highReads (r : Reg) (k : Nat) (v : Word) : (s.wr r k v).highReads = s.highReads := rfl
@[simp] theorem State.wr_commits (r : Reg) (k : Nat) (v : Word) : (s.wr r k v).commits = s.commits := rfl
@[simp] theorem State.wr_ylLocked (r : Reg) (k : Nat) (v : Word) : (s.wr r k v).ylLocked = s.ylLocked := rfl
@[simp] theorem State.wr_cntLocked (r : Reg) (k : Nat) (v : Word) : (s.wr r k v).cntLocked = s.cntLocked := rfl
@[simp] theorem State.wr_ctxs (r : Reg) (k : Nat) (v : Word) : (s.wr r k v).ctxs = s.ctxs := rfl
@[simp] theorem State.wr_engs (r : Reg) (k : Nat) (v : Word) : (s.wr r k v).engs = s.engs := rfl
@[simp] theorem State.wr_fltqs (r : Reg) (k : Nat) (v : Word) : (s.wr r k v).fltqs = s.fltqs := rfl
@[simp] theorem State.wr_oldEpochs (r : Reg) (k : Nat) (v : Word) : (s.wr r k v).oldEpochs = s.oldEpochs := rfl
@[simp] theorem State.wr_lookE (r : Reg) (k : Nat) (v : Word) : (s.wr r k v).lookE = s.lookE := rfl
@[simp] theorem State.wr_lookW (r : Reg) (k : Nat) (v : Word) : (s.wr r k v).lookW = s.lookW := rfl
@[simp] theorem State.wr_mgmtTail (r : Reg) (k : Nat) (v : Word) : (s.wr r k v).mgmtTail = s.mgmtTail := rfl
@[simp] theorem State.wr_mgmtHead (r : Reg) (k : Nat) (v : Word) : (s.wr r k v).mgmtHead = s.mgmtHead := rfl
@[simp] theorem State.wr_mgmtRecs (r : Reg) (k : Nat) (v : Word) : (s.wr r k v).mgmtRecs = s.mgmtRecs := rfl
@[simp] theorem State.wr_ctlWrites (r : Reg) (k : Nat) (v : Word) : (s.wr r k v).ctlWrites = s.ctlWrites := rfl
@[simp] theorem State.wr_chans (r : Reg) (k : Nat) (v : Word) : (s.wr r k v).chans = s.chans := rfl
@[simp] theorem State.wr_drvs (r : Reg) (k : Nat) (v : Word) : (s.wr r k v).drvs = s.drvs := rfl
@[simp] theorem State.wr_waitingMoves (r : Reg) (k : Nat) (v : Word) : (s.wr r k v).waitingMoves = s.waitingMoves := rfl
@[simp] theorem State.wr_scrub0 (r : Reg) (k : Nat) (v : Word) : (s.wr r k v).scrub0 = s.scrub0 := rfl
@[simp] theorem State.wr_scrub1 (r : Reg) (k : Nat) (v : Word) : (s.wr r k v).scrub1 = s.scrub1 := rfl
@[simp] theorem State.wr_corrHour (r : Reg) (k : Nat) (v : Word) : (s.wr r k v).corrHour = s.corrHour := rfl
@[simp] theorem State.wr_cacheE (r : Reg) (k : Nat) (v : Word) : (s.wr r k v).cacheE = s.cacheE := rfl
@[simp] theorem State.wr_cacheW (r : Reg) (k : Nat) (v : Word) : (s.wr r k v).cacheW = s.cacheW := rfl
@[simp] theorem State.wr_prfDone (r : Reg) (k : Nat) (v : Word) : (s.wr r k v).prfDone = s.prfDone := rfl
@[simp] theorem State.wr_progs (r : Reg) (k : Nat) (v : Word) : (s.wr r k v).progs = s.progs := rfl
@[simp] theorem State.wr_stage (r : Reg) (k : Nat) (v : Word) : (s.wr r k v).stage = s.stage := rfl
@[simp] theorem State.wr_stageNum (r : Reg) (k : Nat) (v : Word) : (s.wr r k v).stageNum = s.stageNum := rfl
@[simp] theorem State.wr_cursorOut (r : Reg) (k : Nat) (v : Word) : (s.wr r k v).cursorOut = s.cursorOut := rfl
@[simp] theorem State.wr_cursorSeen (r : Reg) (k : Nat) (v : Word) : (s.wr r k v).cursorSeen = s.cursorSeen := rfl
@[simp] theorem State.wr_ringWait (r : Reg) (k : Nat) (v : Word) : (s.wr r k v).ringWait = s.ringWait := rfl
@[simp] theorem State.wr_arrs (r : Reg) (k : Nat) (v : Word) : (s.wr r k v).arrs = s.arrs := rfl
@[simp] theorem State.wr_bridge (r : Reg) (k : Nat) (v : Word) : (s.wr r k v).bridge = s.bridge := rfl
@[simp] theorem State.wr_itemNum (r : Reg) (k : Nat) (v : Word) : (s.wr r k v).itemNum = s.itemNum := rfl
@[simp] theorem State.wr_daGrants (r : Reg) (k : Nat) (v : Word) : (s.wr r k v).daGrants = s.daGrants := rfl
@[simp] theorem State.wr_retired (r : Reg) (k : Nat) (v : Word) : (s.wr r k v).retired = s.retired := rfl
@[simp] theorem State.wr_thermtrip (r : Reg) (k : Nat) (v : Word) : (s.wr r k v).thermtrip = s.thermtrip := rfl
@[simp] theorem State.wr_links (r : Reg) (k : Nat) (v : Word) : (s.wr r k v).links = s.links := rfl
@[simp] theorem State.wr_switch (r : Reg) (k : Nat) (v : Word) : (s.wr r k v).switch = s.switch := rfl
@[simp] theorem State.wr_swNum (r : Reg) (k : Nat) (v : Word) : (s.wr r k v).swNum = s.swNum := rfl
@[simp] theorem State.wr_txs (r : Reg) (k : Nat) (v : Word) : (s.wr r k v).txs = s.txs := rfl
@[simp] theorem State.wr_rxs (r : Reg) (k : Nat) (v : Word) : (s.wr r k v).rxs = s.rxs := rfl
@[simp] theorem State.wr_reqs (r : Reg) (k : Nat) (v : Word) : (s.wr r k v).reqs = s.reqs := rfl
@[simp] theorem State.wr_reqTag (r : Reg) (k : Nat) (v : Word) : (s.wr r k v).reqTag = s.reqTag := rfl
@[simp] theorem State.wr_reqFails (r : Reg) (k : Nat) (v : Word) : (s.wr r k v).reqFails = s.reqFails := rfl
@[simp] theorem State.wr_inbox (r : Reg) (k : Nat) (v : Word) : (s.wr r k v).inbox = s.inbox := rfl
@[simp] theorem State.wr_detourTurn (r : Reg) (k : Nat) (v : Word) : (s.wr r k v).detourTurn = s.detourTurn := rfl
@[simp] theorem State.wr_synced (r : Reg) (k : Nat) (v : Word) : (s.wr r k v).synced = s.synced := rfl
@[simp] theorem State.wr_captures (r : Reg) (k : Nat) (v : Word) : (s.wr r k v).captures = s.captures := rfl
@[simp] theorem State.wr_mirSeen (r : Reg) (k : Nat) (v : Word) : (s.wr r k v).mirSeen = s.mirSeen := rfl
@[simp] theorem State.wr_dir (r : Reg) (k : Nat) (v : Word) : (s.wr r k v).dir = s.dir := rfl
@[simp] theorem State.wr_cohTxns (r : Reg) (k : Nat) (v : Word) : (s.wr r k v).cohTxns = s.cohTxns := rfl
@[simp] theorem State.wr_cohWait (r : Reg) (k : Nat) (v : Word) : (s.wr r k v).cohWait = s.cohWait := rfl
@[simp] theorem State.wr_cohNum (r : Reg) (k : Nat) (v : Word) : (s.wr r k v).cohNum = s.cohNum := rfl
@[simp] theorem State.wr_tbls (r : Reg) (k : Nat) (v : Word) : (s.wr r k v).tbls = s.tbls := rfl
@[simp] theorem State.wr_scoops (r : Reg) (k : Nat) (v : Word) : (s.wr r k v).scoops = s.scoops := rfl
@[simp] theorem State.wr_scoopWait (r : Reg) (k : Nat) (v : Word) : (s.wr r k v).scoopWait = s.scoopWait := rfl
@[simp] theorem State.wr_scoopNum (r : Reg) (k : Nat) (v : Word) : (s.wr r k v).scoopNum = s.scoopNum := rfl
@[simp] theorem State.wr_homeOps (r : Reg) (k : Nat) (v : Word) : (s.wr r k v).homeOps = s.homeOps := rfl
@[simp] theorem State.wr_homeFifo (r : Reg) (k : Nat) (v : Word) : (s.wr r k v).homeFifo = s.homeFifo := rfl
@[simp] theorem State.wr_homeNum (r : Reg) (k : Nat) (v : Word) : (s.wr r k v).homeNum = s.homeNum := rfl
@[simp] theorem State.wr_holders (r : Reg) (k : Nat) (v : Word) : (s.wr r k v).holders = s.holders := rfl
@[simp] theorem State.wr_replicas (r : Reg) (k : Nat) (v : Word) : (s.wr r k v).replicas = s.replicas := rfl
@[simp] theorem State.wr_repUse (r : Reg) (k : Nat) (v : Word) : (s.wr r k v).repUse = s.repUse := rfl
@[simp] theorem State.wr_hot (r : Reg) (k : Nat) (v : Word) : (s.wr r k v).hot = s.hot := rfl
@[simp] theorem State.wr_waitingCmds (r : Reg) (k : Nat) (v : Word) : (s.wr r k v).waitingCmds = s.waitingCmds := rfl
@[simp] theorem State.wr_supds (r : Reg) (k : Nat) (v : Word) : (s.wr r k v).supds = s.supds := rfl
@[simp] theorem State.wr_tspOut (r : Reg) (k : Nat) (v : Word) : (s.wr r k v).tspOut = s.tspOut := rfl
@[simp] theorem State.wr_tspIn (r : Reg) (k : Nat) (v : Word) : (s.wr r k v).tspIn = s.tspIn := rfl
@[simp] theorem State.wr_tspSeq (r : Reg) (k : Nat) (v : Word) : (s.wr r k v).tspSeq = s.tspSeq := rfl
@[simp] theorem State.wr_orders (r : Reg) (k : Nat) (v : Word) : (s.wr r k v).orders = s.orders := rfl
@[simp] theorem State.wr_queues (r : Reg) (k : Nat) (v : Word) : (s.wr r k v).queues = s.queues := rfl
@[simp] theorem State.wr_mrings (r : Reg) (k : Nat) (v : Word) : (s.wr r k v).mrings = s.mrings := rfl
@[simp] theorem State.wr_parts (r : Reg) (k : Nat) (v : Word) : (s.wr r k v).parts = s.parts := rfl
@[simp] theorem State.wr_engResets (r : Reg) (k : Nat) (v : Word) : (s.wr r k v).engResets = s.engResets := rfl
@[simp] theorem State.wr_vecLocked (r : Reg) (k : Nat) (v : Word) : (s.wr r k v).vecLocked = s.vecLocked := rfl
@[simp] theorem State.wr_vfAccepted (r : Reg) (k : Nat) (v : Word) : (s.wr r k v).vfAccepted = s.vfAccepted := rfl
@[simp] theorem State.wr_perst (r : Reg) (k : Nat) (v : Word) : (s.wr r k v).perst = s.perst := rfl
@[simp] theorem State.wr_relaxed (r : Reg) (k : Nat) (v : Word) : (s.wr r k v).relaxed = s.relaxed := rfl
@[simp] theorem State.wr_errLog (r : Reg) (k : Nat) (v : Word) : (s.wr r k v).errLog = s.errLog := rfl
@[simp] theorem State.wr_errWrites (r : Reg) (k : Nat) (v : Word) : (s.wr r k v).errWrites = s.errWrites := rfl
@[simp] theorem State.wr_errRaised (r : Reg) (k : Nat) (v : Word) : (s.wr r k v).errRaised = s.errRaised := rfl
@[simp] theorem State.wr_errEpisode (r : Reg) (k : Nat) (v : Word) : (s.wr r k v).errEpisode = s.errEpisode := rfl
@[simp] theorem State.wr_tempE (r : Reg) (k : Nat) (v : Word) : (s.wr r k v).tempE = s.tempE := rfl
@[simp] theorem State.wr_tempW (r : Reg) (k : Nat) (v : Word) : (s.wr r k v).tempW = s.tempW := rfl
@[simp] theorem State.wr_voltE (r : Reg) (k : Nat) (v : Word) : (s.wr r k v).voltE = s.voltE := rfl
@[simp] theorem State.wr_voltW (r : Reg) (k : Nat) (v : Word) : (s.wr r k v).voltW = s.voltW := rfl
@[simp] theorem State.wr_tstUsed (r : Reg) (k : Nat) (v : Word) : (s.wr r k v).tstUsed = s.tstUsed := rfl
@[simp] theorem State.wr_sweeps (r : Reg) (k : Nat) (v : Word) : (s.wr r k v).sweeps = s.sweeps := rfl
@[simp] theorem State.wr_partnerBase (r : Reg) (k : Nat) (v : Word) : (s.wr r k v).partnerBase = s.partnerBase := rfl
@[simp] theorem State.wr_partnerSize (r : Reg) (k : Nat) (v : Word) : (s.wr r k v).partnerSize = s.partnerSize := rfl
@[simp] theorem State.wr_served (r : Reg) (k : Nat) (v : Word) : (s.wr r k v).served = s.served := rfl
@[simp] theorem State.wr_takenOwn (r : Reg) (k : Nat) (v : Word) : (s.wr r k v).takenOwn = s.takenOwn := rfl
@[simp] theorem State.wr_peerMask (r : Reg) (k : Nat) (v : Word) : (s.wr r k v).peerMask = s.peerMask := rfl
@[simp] theorem State.wr_peerCmds (r : Reg) (k : Nat) (v : Word) : (s.wr r k v).peerCmds = s.peerCmds := rfl
@[simp] theorem State.wr_ret (r : Reg) (k : Nat) (v : Word) : (s.wr r k v).ret = s.ret := rfl
@[simp] theorem State.wr_retHalves (r : Reg) (k : Nat) (v : Word) : (s.wr r k v).retHalves = s.retHalves := rfl
@[simp] theorem State.wr_retSwept (r : Reg) (k : Nat) (v : Word) : (s.wr r k v).retSwept = s.retSwept := rfl
@[simp] theorem State.wr_cntHalf (r : Reg) (k : Nat) (v : Word) : (s.wr r k v).cntHalf = s.cntHalf := rfl
@[simp] theorem State.wr_handoffs (r : Reg) (k : Nat) (v : Word) : (s.wr r k v).handoffs = s.handoffs := rfl
@[simp] theorem State.wr_handNum (r : Reg) (k : Nat) (v : Word) : (s.wr r k v).handNum = s.handNum := rfl
@[simp] theorem State.wr_mg (r : Reg) (k : Nat) (v : Word) : (s.wr r k v).mg = s.mg := rfl
@[simp] theorem State.wr_scale (r : Reg) (k : Nat) (v : Word) : (s.wr r k v).scale = s.scale := rfl
@[simp] theorem State.wr_tokPend (r : Reg) (k : Nat) (v : Word) : (s.wr r k v).tokPend = s.tokPend := rfl
@[simp] theorem State.wr_life (r : Reg) (k : Nat) (v : Word) : (s.wr r k v).life = s.life := rfl
@[simp] theorem State.wr_boot (r : Reg) (k : Nat) (v : Word) : (s.wr r k v).boot = s.boot := rfl
@[simp] theorem State.wr_cal (r : Reg) (k : Nat) (v : Word) : (s.wr r k v).cal = s.cal := rfl
@[simp] theorem State.wr_snaps (r : Reg) (k : Nat) (v : Word) : (s.wr r k v).snaps = s.snaps := rfl
@[simp] theorem State.wr_attestNet (r : Reg) (k : Nat) (v : Word) : (s.wr r k v).attestNet = s.attestNet := rfl
@[simp] theorem State.wr_attestHost (r : Reg) (k : Nat) (v : Word) : (s.wr r k v).attestHost = s.attestHost := rfl
@[simp] theorem State.wr_sensors (r : Reg) (k : Nat) (v : Word) : (s.wr r k v).sensors = s.sensors := rfl
@[simp] theorem State.wr_railV (r : Reg) (k : Nat) (v : Word) : (s.wr r k v).railV = s.railV := rfl
@[simp] theorem State.wr_railI (r : Reg) (k : Nat) (v : Word) : (s.wr r k v).railI = s.railI := rfl
@[simp] theorem State.wr_railMiss (r : Reg) (k : Nat) (v : Word) : (s.wr r k v).railMiss = s.railMiss := rfl
@[simp] theorem State.wr_power (r : Reg) (k : Nat) (v : Word) : (s.wr r k v).power = s.power := rfl
@[simp] theorem State.wr_cycleHot (r : Reg) (k : Nat) (v : Word) : (s.wr r k v).cycleHot = s.cycleHot := rfl

/-! ## Staged writes -/

@[simp] theorem State.wrStaged_pending (r : Reg) (k : Nat) (v : Word) : (s.wrStaged r k v).pending = s.pending := rfl
@[simp] theorem State.wrStaged_regs (r : Reg) (k : Nat) (v : Word) : (s.wrStaged r k v).regs = s.regs := rfl
@[simp] theorem State.wrStaged_mem (r : Reg) (k : Nat) (v : Word) : (s.wrStaged r k v).mem = s.mem := rfl
@[simp] theorem State.wrStaged_out (r : Reg) (k : Nat) (v : Word) : (s.wrStaged r k v).out = s.out := rfl
@[simp] theorem State.wrStaged_free (r : Reg) (k : Nat) (v : Word) : (s.wrStaged r k v).free = s.free := rfl
@[simp] theorem State.wrStaged_time (r : Reg) (k : Nat) (v : Word) : (s.wrStaged r k v).time = s.time := rfl
@[simp] theorem State.wrStaged_spares (r : Reg) (k : Nat) (v : Word) : (s.wrStaged r k v).spares = s.spares := rfl
@[simp] theorem State.wrStaged_coldHeld (r : Reg) (k : Nat) (v : Word) : (s.wrStaged r k v).coldHeld = s.coldHeld := rfl
@[simp] theorem State.wrStaged_sysrefLost (r : Reg) (k : Nat) (v : Word) : (s.wrStaged r k v).sysrefLost = s.sysrefLost := rfl
@[simp] theorem State.wrStaged_lowWrites (r : Reg) (k : Nat) (v : Word) : (s.wrStaged r k v).lowWrites = s.lowWrites := rfl
@[simp] theorem State.wrStaged_highReads (r : Reg) (k : Nat) (v : Word) : (s.wrStaged r k v).highReads = s.highReads := rfl
@[simp] theorem State.wrStaged_commits (r : Reg) (k : Nat) (v : Word) : (s.wrStaged r k v).commits = s.commits := rfl
@[simp] theorem State.wrStaged_ylLocked (r : Reg) (k : Nat) (v : Word) : (s.wrStaged r k v).ylLocked = s.ylLocked := rfl
@[simp] theorem State.wrStaged_cntLocked (r : Reg) (k : Nat) (v : Word) : (s.wrStaged r k v).cntLocked = s.cntLocked := rfl
@[simp] theorem State.wrStaged_ctxs (r : Reg) (k : Nat) (v : Word) : (s.wrStaged r k v).ctxs = s.ctxs := rfl
@[simp] theorem State.wrStaged_engs (r : Reg) (k : Nat) (v : Word) : (s.wrStaged r k v).engs = s.engs := rfl
@[simp] theorem State.wrStaged_fltqs (r : Reg) (k : Nat) (v : Word) : (s.wrStaged r k v).fltqs = s.fltqs := rfl
@[simp] theorem State.wrStaged_oldEpochs (r : Reg) (k : Nat) (v : Word) : (s.wrStaged r k v).oldEpochs = s.oldEpochs := rfl
@[simp] theorem State.wrStaged_lookE (r : Reg) (k : Nat) (v : Word) : (s.wrStaged r k v).lookE = s.lookE := rfl
@[simp] theorem State.wrStaged_lookW (r : Reg) (k : Nat) (v : Word) : (s.wrStaged r k v).lookW = s.lookW := rfl
@[simp] theorem State.wrStaged_mgmtTail (r : Reg) (k : Nat) (v : Word) : (s.wrStaged r k v).mgmtTail = s.mgmtTail := rfl
@[simp] theorem State.wrStaged_mgmtHead (r : Reg) (k : Nat) (v : Word) : (s.wrStaged r k v).mgmtHead = s.mgmtHead := rfl
@[simp] theorem State.wrStaged_mgmtRecs (r : Reg) (k : Nat) (v : Word) : (s.wrStaged r k v).mgmtRecs = s.mgmtRecs := rfl
@[simp] theorem State.wrStaged_ctlWrites (r : Reg) (k : Nat) (v : Word) : (s.wrStaged r k v).ctlWrites = s.ctlWrites := rfl
@[simp] theorem State.wrStaged_chans (r : Reg) (k : Nat) (v : Word) : (s.wrStaged r k v).chans = s.chans := rfl
@[simp] theorem State.wrStaged_drvs (r : Reg) (k : Nat) (v : Word) : (s.wrStaged r k v).drvs = s.drvs := rfl
@[simp] theorem State.wrStaged_waitingMoves (r : Reg) (k : Nat) (v : Word) : (s.wrStaged r k v).waitingMoves = s.waitingMoves := rfl
@[simp] theorem State.wrStaged_scrub0 (r : Reg) (k : Nat) (v : Word) : (s.wrStaged r k v).scrub0 = s.scrub0 := rfl
@[simp] theorem State.wrStaged_scrub1 (r : Reg) (k : Nat) (v : Word) : (s.wrStaged r k v).scrub1 = s.scrub1 := rfl
@[simp] theorem State.wrStaged_corrHour (r : Reg) (k : Nat) (v : Word) : (s.wrStaged r k v).corrHour = s.corrHour := rfl
@[simp] theorem State.wrStaged_cacheE (r : Reg) (k : Nat) (v : Word) : (s.wrStaged r k v).cacheE = s.cacheE := rfl
@[simp] theorem State.wrStaged_cacheW (r : Reg) (k : Nat) (v : Word) : (s.wrStaged r k v).cacheW = s.cacheW := rfl
@[simp] theorem State.wrStaged_prfDone (r : Reg) (k : Nat) (v : Word) : (s.wrStaged r k v).prfDone = s.prfDone := rfl
@[simp] theorem State.wrStaged_progs (r : Reg) (k : Nat) (v : Word) : (s.wrStaged r k v).progs = s.progs := rfl
@[simp] theorem State.wrStaged_stage (r : Reg) (k : Nat) (v : Word) : (s.wrStaged r k v).stage = s.stage := rfl
@[simp] theorem State.wrStaged_stageNum (r : Reg) (k : Nat) (v : Word) : (s.wrStaged r k v).stageNum = s.stageNum := rfl
@[simp] theorem State.wrStaged_cursorOut (r : Reg) (k : Nat) (v : Word) : (s.wrStaged r k v).cursorOut = s.cursorOut := rfl
@[simp] theorem State.wrStaged_cursorSeen (r : Reg) (k : Nat) (v : Word) : (s.wrStaged r k v).cursorSeen = s.cursorSeen := rfl
@[simp] theorem State.wrStaged_ringWait (r : Reg) (k : Nat) (v : Word) : (s.wrStaged r k v).ringWait = s.ringWait := rfl
@[simp] theorem State.wrStaged_arrs (r : Reg) (k : Nat) (v : Word) : (s.wrStaged r k v).arrs = s.arrs := rfl
@[simp] theorem State.wrStaged_bridge (r : Reg) (k : Nat) (v : Word) : (s.wrStaged r k v).bridge = s.bridge := rfl
@[simp] theorem State.wrStaged_itemNum (r : Reg) (k : Nat) (v : Word) : (s.wrStaged r k v).itemNum = s.itemNum := rfl
@[simp] theorem State.wrStaged_daGrants (r : Reg) (k : Nat) (v : Word) : (s.wrStaged r k v).daGrants = s.daGrants := rfl
@[simp] theorem State.wrStaged_retired (r : Reg) (k : Nat) (v : Word) : (s.wrStaged r k v).retired = s.retired := rfl
@[simp] theorem State.wrStaged_thermtrip (r : Reg) (k : Nat) (v : Word) : (s.wrStaged r k v).thermtrip = s.thermtrip := rfl
@[simp] theorem State.wrStaged_links (r : Reg) (k : Nat) (v : Word) : (s.wrStaged r k v).links = s.links := rfl
@[simp] theorem State.wrStaged_switch (r : Reg) (k : Nat) (v : Word) : (s.wrStaged r k v).switch = s.switch := rfl
@[simp] theorem State.wrStaged_swNum (r : Reg) (k : Nat) (v : Word) : (s.wrStaged r k v).swNum = s.swNum := rfl
@[simp] theorem State.wrStaged_txs (r : Reg) (k : Nat) (v : Word) : (s.wrStaged r k v).txs = s.txs := rfl
@[simp] theorem State.wrStaged_rxs (r : Reg) (k : Nat) (v : Word) : (s.wrStaged r k v).rxs = s.rxs := rfl
@[simp] theorem State.wrStaged_reqs (r : Reg) (k : Nat) (v : Word) : (s.wrStaged r k v).reqs = s.reqs := rfl
@[simp] theorem State.wrStaged_reqTag (r : Reg) (k : Nat) (v : Word) : (s.wrStaged r k v).reqTag = s.reqTag := rfl
@[simp] theorem State.wrStaged_reqFails (r : Reg) (k : Nat) (v : Word) : (s.wrStaged r k v).reqFails = s.reqFails := rfl
@[simp] theorem State.wrStaged_inbox (r : Reg) (k : Nat) (v : Word) : (s.wrStaged r k v).inbox = s.inbox := rfl
@[simp] theorem State.wrStaged_detourTurn (r : Reg) (k : Nat) (v : Word) : (s.wrStaged r k v).detourTurn = s.detourTurn := rfl
@[simp] theorem State.wrStaged_synced (r : Reg) (k : Nat) (v : Word) : (s.wrStaged r k v).synced = s.synced := rfl
@[simp] theorem State.wrStaged_captures (r : Reg) (k : Nat) (v : Word) : (s.wrStaged r k v).captures = s.captures := rfl
@[simp] theorem State.wrStaged_mirSeen (r : Reg) (k : Nat) (v : Word) : (s.wrStaged r k v).mirSeen = s.mirSeen := rfl
@[simp] theorem State.wrStaged_dir (r : Reg) (k : Nat) (v : Word) : (s.wrStaged r k v).dir = s.dir := rfl
@[simp] theorem State.wrStaged_cohTxns (r : Reg) (k : Nat) (v : Word) : (s.wrStaged r k v).cohTxns = s.cohTxns := rfl
@[simp] theorem State.wrStaged_cohWait (r : Reg) (k : Nat) (v : Word) : (s.wrStaged r k v).cohWait = s.cohWait := rfl
@[simp] theorem State.wrStaged_cohNum (r : Reg) (k : Nat) (v : Word) : (s.wrStaged r k v).cohNum = s.cohNum := rfl
@[simp] theorem State.wrStaged_tbls (r : Reg) (k : Nat) (v : Word) : (s.wrStaged r k v).tbls = s.tbls := rfl
@[simp] theorem State.wrStaged_scoops (r : Reg) (k : Nat) (v : Word) : (s.wrStaged r k v).scoops = s.scoops := rfl
@[simp] theorem State.wrStaged_scoopWait (r : Reg) (k : Nat) (v : Word) : (s.wrStaged r k v).scoopWait = s.scoopWait := rfl
@[simp] theorem State.wrStaged_scoopNum (r : Reg) (k : Nat) (v : Word) : (s.wrStaged r k v).scoopNum = s.scoopNum := rfl
@[simp] theorem State.wrStaged_homeOps (r : Reg) (k : Nat) (v : Word) : (s.wrStaged r k v).homeOps = s.homeOps := rfl
@[simp] theorem State.wrStaged_homeFifo (r : Reg) (k : Nat) (v : Word) : (s.wrStaged r k v).homeFifo = s.homeFifo := rfl
@[simp] theorem State.wrStaged_homeNum (r : Reg) (k : Nat) (v : Word) : (s.wrStaged r k v).homeNum = s.homeNum := rfl
@[simp] theorem State.wrStaged_holders (r : Reg) (k : Nat) (v : Word) : (s.wrStaged r k v).holders = s.holders := rfl
@[simp] theorem State.wrStaged_replicas (r : Reg) (k : Nat) (v : Word) : (s.wrStaged r k v).replicas = s.replicas := rfl
@[simp] theorem State.wrStaged_repUse (r : Reg) (k : Nat) (v : Word) : (s.wrStaged r k v).repUse = s.repUse := rfl
@[simp] theorem State.wrStaged_hot (r : Reg) (k : Nat) (v : Word) : (s.wrStaged r k v).hot = s.hot := rfl
@[simp] theorem State.wrStaged_waitingCmds (r : Reg) (k : Nat) (v : Word) : (s.wrStaged r k v).waitingCmds = s.waitingCmds := rfl
@[simp] theorem State.wrStaged_supds (r : Reg) (k : Nat) (v : Word) : (s.wrStaged r k v).supds = s.supds := rfl
@[simp] theorem State.wrStaged_tspOut (r : Reg) (k : Nat) (v : Word) : (s.wrStaged r k v).tspOut = s.tspOut := rfl
@[simp] theorem State.wrStaged_tspIn (r : Reg) (k : Nat) (v : Word) : (s.wrStaged r k v).tspIn = s.tspIn := rfl
@[simp] theorem State.wrStaged_tspSeq (r : Reg) (k : Nat) (v : Word) : (s.wrStaged r k v).tspSeq = s.tspSeq := rfl
@[simp] theorem State.wrStaged_orders (r : Reg) (k : Nat) (v : Word) : (s.wrStaged r k v).orders = s.orders := rfl
@[simp] theorem State.wrStaged_queues (r : Reg) (k : Nat) (v : Word) : (s.wrStaged r k v).queues = s.queues := rfl
@[simp] theorem State.wrStaged_mrings (r : Reg) (k : Nat) (v : Word) : (s.wrStaged r k v).mrings = s.mrings := rfl
@[simp] theorem State.wrStaged_parts (r : Reg) (k : Nat) (v : Word) : (s.wrStaged r k v).parts = s.parts := rfl
@[simp] theorem State.wrStaged_engResets (r : Reg) (k : Nat) (v : Word) : (s.wrStaged r k v).engResets = s.engResets := rfl
@[simp] theorem State.wrStaged_vecLocked (r : Reg) (k : Nat) (v : Word) : (s.wrStaged r k v).vecLocked = s.vecLocked := rfl
@[simp] theorem State.wrStaged_vfAccepted (r : Reg) (k : Nat) (v : Word) : (s.wrStaged r k v).vfAccepted = s.vfAccepted := rfl
@[simp] theorem State.wrStaged_perst (r : Reg) (k : Nat) (v : Word) : (s.wrStaged r k v).perst = s.perst := rfl
@[simp] theorem State.wrStaged_relaxed (r : Reg) (k : Nat) (v : Word) : (s.wrStaged r k v).relaxed = s.relaxed := rfl
@[simp] theorem State.wrStaged_errLog (r : Reg) (k : Nat) (v : Word) : (s.wrStaged r k v).errLog = s.errLog := rfl
@[simp] theorem State.wrStaged_errWrites (r : Reg) (k : Nat) (v : Word) : (s.wrStaged r k v).errWrites = s.errWrites := rfl
@[simp] theorem State.wrStaged_errRaised (r : Reg) (k : Nat) (v : Word) : (s.wrStaged r k v).errRaised = s.errRaised := rfl
@[simp] theorem State.wrStaged_errEpisode (r : Reg) (k : Nat) (v : Word) : (s.wrStaged r k v).errEpisode = s.errEpisode := rfl
@[simp] theorem State.wrStaged_tempE (r : Reg) (k : Nat) (v : Word) : (s.wrStaged r k v).tempE = s.tempE := rfl
@[simp] theorem State.wrStaged_tempW (r : Reg) (k : Nat) (v : Word) : (s.wrStaged r k v).tempW = s.tempW := rfl
@[simp] theorem State.wrStaged_voltE (r : Reg) (k : Nat) (v : Word) : (s.wrStaged r k v).voltE = s.voltE := rfl
@[simp] theorem State.wrStaged_voltW (r : Reg) (k : Nat) (v : Word) : (s.wrStaged r k v).voltW = s.voltW := rfl
@[simp] theorem State.wrStaged_tstUsed (r : Reg) (k : Nat) (v : Word) : (s.wrStaged r k v).tstUsed = s.tstUsed := rfl
@[simp] theorem State.wrStaged_sweeps (r : Reg) (k : Nat) (v : Word) : (s.wrStaged r k v).sweeps = s.sweeps := rfl
@[simp] theorem State.wrStaged_partnerBase (r : Reg) (k : Nat) (v : Word) : (s.wrStaged r k v).partnerBase = s.partnerBase := rfl
@[simp] theorem State.wrStaged_partnerSize (r : Reg) (k : Nat) (v : Word) : (s.wrStaged r k v).partnerSize = s.partnerSize := rfl
@[simp] theorem State.wrStaged_served (r : Reg) (k : Nat) (v : Word) : (s.wrStaged r k v).served = s.served := rfl
@[simp] theorem State.wrStaged_takenOwn (r : Reg) (k : Nat) (v : Word) : (s.wrStaged r k v).takenOwn = s.takenOwn := rfl
@[simp] theorem State.wrStaged_peerMask (r : Reg) (k : Nat) (v : Word) : (s.wrStaged r k v).peerMask = s.peerMask := rfl
@[simp] theorem State.wrStaged_peerCmds (r : Reg) (k : Nat) (v : Word) : (s.wrStaged r k v).peerCmds = s.peerCmds := rfl
@[simp] theorem State.wrStaged_ret (r : Reg) (k : Nat) (v : Word) : (s.wrStaged r k v).ret = s.ret := rfl
@[simp] theorem State.wrStaged_retHalves (r : Reg) (k : Nat) (v : Word) : (s.wrStaged r k v).retHalves = s.retHalves := rfl
@[simp] theorem State.wrStaged_retSwept (r : Reg) (k : Nat) (v : Word) : (s.wrStaged r k v).retSwept = s.retSwept := rfl
@[simp] theorem State.wrStaged_cntHalf (r : Reg) (k : Nat) (v : Word) : (s.wrStaged r k v).cntHalf = s.cntHalf := rfl
@[simp] theorem State.wrStaged_handoffs (r : Reg) (k : Nat) (v : Word) : (s.wrStaged r k v).handoffs = s.handoffs := rfl
@[simp] theorem State.wrStaged_handNum (r : Reg) (k : Nat) (v : Word) : (s.wrStaged r k v).handNum = s.handNum := rfl
@[simp] theorem State.wrStaged_mg (r : Reg) (k : Nat) (v : Word) : (s.wrStaged r k v).mg = s.mg := rfl
@[simp] theorem State.wrStaged_scale (r : Reg) (k : Nat) (v : Word) : (s.wrStaged r k v).scale = s.scale := rfl
@[simp] theorem State.wrStaged_tokPend (r : Reg) (k : Nat) (v : Word) : (s.wrStaged r k v).tokPend = s.tokPend := rfl
@[simp] theorem State.wrStaged_life (r : Reg) (k : Nat) (v : Word) : (s.wrStaged r k v).life = s.life := rfl
@[simp] theorem State.wrStaged_boot (r : Reg) (k : Nat) (v : Word) : (s.wrStaged r k v).boot = s.boot := rfl
@[simp] theorem State.wrStaged_cal (r : Reg) (k : Nat) (v : Word) : (s.wrStaged r k v).cal = s.cal := rfl
@[simp] theorem State.wrStaged_snaps (r : Reg) (k : Nat) (v : Word) : (s.wrStaged r k v).snaps = s.snaps := rfl
@[simp] theorem State.wrStaged_attestNet (r : Reg) (k : Nat) (v : Word) : (s.wrStaged r k v).attestNet = s.attestNet := rfl
@[simp] theorem State.wrStaged_attestHost (r : Reg) (k : Nat) (v : Word) : (s.wrStaged r k v).attestHost = s.attestHost := rfl
@[simp] theorem State.wrStaged_sensors (r : Reg) (k : Nat) (v : Word) : (s.wrStaged r k v).sensors = s.sensors := rfl
@[simp] theorem State.wrStaged_railV (r : Reg) (k : Nat) (v : Word) : (s.wrStaged r k v).railV = s.railV := rfl
@[simp] theorem State.wrStaged_railI (r : Reg) (k : Nat) (v : Word) : (s.wrStaged r k v).railI = s.railI := rfl
@[simp] theorem State.wrStaged_railMiss (r : Reg) (k : Nat) (v : Word) : (s.wrStaged r k v).railMiss = s.railMiss := rfl
@[simp] theorem State.wrStaged_power (r : Reg) (k : Nat) (v : Word) : (s.wrStaged r k v).power = s.power := rfl
@[simp] theorem State.wrStaged_cycleHot (r : Reg) (k : Nat) (v : Word) : (s.wrStaged r k v).cycleHot = s.cycleHot := rfl

/-! ## Wires -/

@[simp] theorem State.emit_pending (o : Output) : (s.emit o).pending = s.pending := rfl
@[simp] theorem State.emit_regs (o : Output) : (s.emit o).regs = s.regs := rfl
@[simp] theorem State.emit_staged (o : Output) : (s.emit o).staged = s.staged := rfl
@[simp] theorem State.emit_mem (o : Output) : (s.emit o).mem = s.mem := rfl
@[simp] theorem State.emit_free (o : Output) : (s.emit o).free = s.free := rfl
@[simp] theorem State.emit_time (o : Output) : (s.emit o).time = s.time := rfl
@[simp] theorem State.emit_spares (o : Output) : (s.emit o).spares = s.spares := rfl
@[simp] theorem State.emit_coldHeld (o : Output) : (s.emit o).coldHeld = s.coldHeld := rfl
@[simp] theorem State.emit_sysrefLost (o : Output) : (s.emit o).sysrefLost = s.sysrefLost := rfl
@[simp] theorem State.emit_lowWrites (o : Output) : (s.emit o).lowWrites = s.lowWrites := rfl
@[simp] theorem State.emit_highReads (o : Output) : (s.emit o).highReads = s.highReads := rfl
@[simp] theorem State.emit_commits (o : Output) : (s.emit o).commits = s.commits := rfl
@[simp] theorem State.emit_ylLocked (o : Output) : (s.emit o).ylLocked = s.ylLocked := rfl
@[simp] theorem State.emit_cntLocked (o : Output) : (s.emit o).cntLocked = s.cntLocked := rfl
@[simp] theorem State.emit_ctxs (o : Output) : (s.emit o).ctxs = s.ctxs := rfl
@[simp] theorem State.emit_engs (o : Output) : (s.emit o).engs = s.engs := rfl
@[simp] theorem State.emit_fltqs (o : Output) : (s.emit o).fltqs = s.fltqs := rfl
@[simp] theorem State.emit_oldEpochs (o : Output) : (s.emit o).oldEpochs = s.oldEpochs := rfl
@[simp] theorem State.emit_lookE (o : Output) : (s.emit o).lookE = s.lookE := rfl
@[simp] theorem State.emit_lookW (o : Output) : (s.emit o).lookW = s.lookW := rfl
@[simp] theorem State.emit_mgmtTail (o : Output) : (s.emit o).mgmtTail = s.mgmtTail := rfl
@[simp] theorem State.emit_mgmtHead (o : Output) : (s.emit o).mgmtHead = s.mgmtHead := rfl
@[simp] theorem State.emit_mgmtRecs (o : Output) : (s.emit o).mgmtRecs = s.mgmtRecs := rfl
@[simp] theorem State.emit_ctlWrites (o : Output) : (s.emit o).ctlWrites = s.ctlWrites := rfl
@[simp] theorem State.emit_chans (o : Output) : (s.emit o).chans = s.chans := rfl
@[simp] theorem State.emit_drvs (o : Output) : (s.emit o).drvs = s.drvs := rfl
@[simp] theorem State.emit_waitingMoves (o : Output) : (s.emit o).waitingMoves = s.waitingMoves := rfl
@[simp] theorem State.emit_scrub0 (o : Output) : (s.emit o).scrub0 = s.scrub0 := rfl
@[simp] theorem State.emit_scrub1 (o : Output) : (s.emit o).scrub1 = s.scrub1 := rfl
@[simp] theorem State.emit_corrHour (o : Output) : (s.emit o).corrHour = s.corrHour := rfl
@[simp] theorem State.emit_cacheE (o : Output) : (s.emit o).cacheE = s.cacheE := rfl
@[simp] theorem State.emit_cacheW (o : Output) : (s.emit o).cacheW = s.cacheW := rfl
@[simp] theorem State.emit_prfDone (o : Output) : (s.emit o).prfDone = s.prfDone := rfl
@[simp] theorem State.emit_progs (o : Output) : (s.emit o).progs = s.progs := rfl
@[simp] theorem State.emit_stage (o : Output) : (s.emit o).stage = s.stage := rfl
@[simp] theorem State.emit_stageNum (o : Output) : (s.emit o).stageNum = s.stageNum := rfl
@[simp] theorem State.emit_cursorOut (o : Output) : (s.emit o).cursorOut = s.cursorOut := rfl
@[simp] theorem State.emit_cursorSeen (o : Output) : (s.emit o).cursorSeen = s.cursorSeen := rfl
@[simp] theorem State.emit_ringWait (o : Output) : (s.emit o).ringWait = s.ringWait := rfl
@[simp] theorem State.emit_arrs (o : Output) : (s.emit o).arrs = s.arrs := rfl
@[simp] theorem State.emit_bridge (o : Output) : (s.emit o).bridge = s.bridge := rfl
@[simp] theorem State.emit_itemNum (o : Output) : (s.emit o).itemNum = s.itemNum := rfl
@[simp] theorem State.emit_daGrants (o : Output) : (s.emit o).daGrants = s.daGrants := rfl
@[simp] theorem State.emit_retired (o : Output) : (s.emit o).retired = s.retired := rfl
@[simp] theorem State.emit_thermtrip (o : Output) : (s.emit o).thermtrip = s.thermtrip := rfl
@[simp] theorem State.emit_links (o : Output) : (s.emit o).links = s.links := rfl
@[simp] theorem State.emit_switch (o : Output) : (s.emit o).switch = s.switch := rfl
@[simp] theorem State.emit_swNum (o : Output) : (s.emit o).swNum = s.swNum := rfl
@[simp] theorem State.emit_txs (o : Output) : (s.emit o).txs = s.txs := rfl
@[simp] theorem State.emit_rxs (o : Output) : (s.emit o).rxs = s.rxs := rfl
@[simp] theorem State.emit_reqs (o : Output) : (s.emit o).reqs = s.reqs := rfl
@[simp] theorem State.emit_reqTag (o : Output) : (s.emit o).reqTag = s.reqTag := rfl
@[simp] theorem State.emit_reqFails (o : Output) : (s.emit o).reqFails = s.reqFails := rfl
@[simp] theorem State.emit_inbox (o : Output) : (s.emit o).inbox = s.inbox := rfl
@[simp] theorem State.emit_detourTurn (o : Output) : (s.emit o).detourTurn = s.detourTurn := rfl
@[simp] theorem State.emit_synced (o : Output) : (s.emit o).synced = s.synced := rfl
@[simp] theorem State.emit_captures (o : Output) : (s.emit o).captures = s.captures := rfl
@[simp] theorem State.emit_mirSeen (o : Output) : (s.emit o).mirSeen = s.mirSeen := rfl
@[simp] theorem State.emit_dir (o : Output) : (s.emit o).dir = s.dir := rfl
@[simp] theorem State.emit_cohTxns (o : Output) : (s.emit o).cohTxns = s.cohTxns := rfl
@[simp] theorem State.emit_cohWait (o : Output) : (s.emit o).cohWait = s.cohWait := rfl
@[simp] theorem State.emit_cohNum (o : Output) : (s.emit o).cohNum = s.cohNum := rfl
@[simp] theorem State.emit_tbls (o : Output) : (s.emit o).tbls = s.tbls := rfl
@[simp] theorem State.emit_scoops (o : Output) : (s.emit o).scoops = s.scoops := rfl
@[simp] theorem State.emit_scoopWait (o : Output) : (s.emit o).scoopWait = s.scoopWait := rfl
@[simp] theorem State.emit_scoopNum (o : Output) : (s.emit o).scoopNum = s.scoopNum := rfl
@[simp] theorem State.emit_homeOps (o : Output) : (s.emit o).homeOps = s.homeOps := rfl
@[simp] theorem State.emit_homeFifo (o : Output) : (s.emit o).homeFifo = s.homeFifo := rfl
@[simp] theorem State.emit_homeNum (o : Output) : (s.emit o).homeNum = s.homeNum := rfl
@[simp] theorem State.emit_holders (o : Output) : (s.emit o).holders = s.holders := rfl
@[simp] theorem State.emit_replicas (o : Output) : (s.emit o).replicas = s.replicas := rfl
@[simp] theorem State.emit_repUse (o : Output) : (s.emit o).repUse = s.repUse := rfl
@[simp] theorem State.emit_hot (o : Output) : (s.emit o).hot = s.hot := rfl
@[simp] theorem State.emit_waitingCmds (o : Output) : (s.emit o).waitingCmds = s.waitingCmds := rfl
@[simp] theorem State.emit_supds (o : Output) : (s.emit o).supds = s.supds := rfl
@[simp] theorem State.emit_tspOut (o : Output) : (s.emit o).tspOut = s.tspOut := rfl
@[simp] theorem State.emit_tspIn (o : Output) : (s.emit o).tspIn = s.tspIn := rfl
@[simp] theorem State.emit_tspSeq (o : Output) : (s.emit o).tspSeq = s.tspSeq := rfl
@[simp] theorem State.emit_orders (o : Output) : (s.emit o).orders = s.orders := rfl
@[simp] theorem State.emit_queues (o : Output) : (s.emit o).queues = s.queues := rfl
@[simp] theorem State.emit_mrings (o : Output) : (s.emit o).mrings = s.mrings := rfl
@[simp] theorem State.emit_parts (o : Output) : (s.emit o).parts = s.parts := rfl
@[simp] theorem State.emit_engResets (o : Output) : (s.emit o).engResets = s.engResets := rfl
@[simp] theorem State.emit_vecLocked (o : Output) : (s.emit o).vecLocked = s.vecLocked := rfl
@[simp] theorem State.emit_vfAccepted (o : Output) : (s.emit o).vfAccepted = s.vfAccepted := rfl
@[simp] theorem State.emit_perst (o : Output) : (s.emit o).perst = s.perst := rfl
@[simp] theorem State.emit_relaxed (o : Output) : (s.emit o).relaxed = s.relaxed := rfl
@[simp] theorem State.emit_errLog (o : Output) : (s.emit o).errLog = s.errLog := rfl
@[simp] theorem State.emit_errWrites (o : Output) : (s.emit o).errWrites = s.errWrites := rfl
@[simp] theorem State.emit_errRaised (o : Output) : (s.emit o).errRaised = s.errRaised := rfl
@[simp] theorem State.emit_errEpisode (o : Output) : (s.emit o).errEpisode = s.errEpisode := rfl
@[simp] theorem State.emit_tempE (o : Output) : (s.emit o).tempE = s.tempE := rfl
@[simp] theorem State.emit_tempW (o : Output) : (s.emit o).tempW = s.tempW := rfl
@[simp] theorem State.emit_voltE (o : Output) : (s.emit o).voltE = s.voltE := rfl
@[simp] theorem State.emit_voltW (o : Output) : (s.emit o).voltW = s.voltW := rfl
@[simp] theorem State.emit_tstUsed (o : Output) : (s.emit o).tstUsed = s.tstUsed := rfl
@[simp] theorem State.emit_sweeps (o : Output) : (s.emit o).sweeps = s.sweeps := rfl
@[simp] theorem State.emit_partnerBase (o : Output) : (s.emit o).partnerBase = s.partnerBase := rfl
@[simp] theorem State.emit_partnerSize (o : Output) : (s.emit o).partnerSize = s.partnerSize := rfl
@[simp] theorem State.emit_served (o : Output) : (s.emit o).served = s.served := rfl
@[simp] theorem State.emit_takenOwn (o : Output) : (s.emit o).takenOwn = s.takenOwn := rfl
@[simp] theorem State.emit_peerMask (o : Output) : (s.emit o).peerMask = s.peerMask := rfl
@[simp] theorem State.emit_peerCmds (o : Output) : (s.emit o).peerCmds = s.peerCmds := rfl
@[simp] theorem State.emit_ret (o : Output) : (s.emit o).ret = s.ret := rfl
@[simp] theorem State.emit_retHalves (o : Output) : (s.emit o).retHalves = s.retHalves := rfl
@[simp] theorem State.emit_retSwept (o : Output) : (s.emit o).retSwept = s.retSwept := rfl
@[simp] theorem State.emit_cntHalf (o : Output) : (s.emit o).cntHalf = s.cntHalf := rfl
@[simp] theorem State.emit_handoffs (o : Output) : (s.emit o).handoffs = s.handoffs := rfl
@[simp] theorem State.emit_handNum (o : Output) : (s.emit o).handNum = s.handNum := rfl
@[simp] theorem State.emit_mg (o : Output) : (s.emit o).mg = s.mg := rfl
@[simp] theorem State.emit_scale (o : Output) : (s.emit o).scale = s.scale := rfl
@[simp] theorem State.emit_tokPend (o : Output) : (s.emit o).tokPend = s.tokPend := rfl
@[simp] theorem State.emit_life (o : Output) : (s.emit o).life = s.life := rfl
@[simp] theorem State.emit_boot (o : Output) : (s.emit o).boot = s.boot := rfl
@[simp] theorem State.emit_cal (o : Output) : (s.emit o).cal = s.cal := rfl
@[simp] theorem State.emit_snaps (o : Output) : (s.emit o).snaps = s.snaps := rfl
@[simp] theorem State.emit_attestNet (o : Output) : (s.emit o).attestNet = s.attestNet := rfl
@[simp] theorem State.emit_attestHost (o : Output) : (s.emit o).attestHost = s.attestHost := rfl
@[simp] theorem State.emit_sensors (o : Output) : (s.emit o).sensors = s.sensors := rfl
@[simp] theorem State.emit_railV (o : Output) : (s.emit o).railV = s.railV := rfl
@[simp] theorem State.emit_railI (o : Output) : (s.emit o).railI = s.railI := rfl
@[simp] theorem State.emit_railMiss (o : Output) : (s.emit o).railMiss = s.railMiss := rfl
@[simp] theorem State.emit_power (o : Output) : (s.emit o).power = s.power := rfl
@[simp] theorem State.emit_cycleHot (o : Output) : (s.emit o).cycleHot = s.cycleHot := rfl

/-! ## A command of a package held in reset has no effect; an ill-formed one is a fault -/

theorem State.clocked_of_held (t : State) (h : s.held = true) : s.clocked t = s := if_pos h
theorem State.clocked_of_up (t : State) (h : s.held = false) : s.clocked t = t := by simp [State.clocked, h]
theorem run_of_wf {i : Instr} (h : i.wf = true) : run i s = .next s := if_pos h
theorem run_of_not_wf {i : Instr} (h : i.wf = false) : run i s = .fault .illFormed := by simp [run, h]

/-! ## Everything else that writes a field of a register is a register write -/

theorem State.setFld_eq (f : Fld) (x k : Nat) : s.setFld f x k = s.wr f.reg k (f.put (s.rd f.reg k) x) := rfl
theorem State.setFlag_eq (f : Fld) (b : Bool) (k : Nat) : s.setFlag f b k = s.setFld f (if b then 1 else 0) k := rfl
theorem State.bump_eq (f : Fld) (k n : Nat) : s.bump f k n = s.setFld f (min (s.fld f k + n) (2 ^ f.w - 1)) k := rfl
theorem State.wrap_eq (f : Fld) (k n : Nat) : s.wrap f k n = s.setFld f (s.fld f k + n) k := rfl
theorem State.less_eq (f : Fld) (k n : Nat) : s.less f k n = s.setFld f (s.fld f k - n) k := rfl
theorem State.setBit_eq (r : Reg) (i k : Nat) (b : Bool) : s.setBit r i k b = s.setFld ⟨r, k, 1⟩ (if b then 1 else 0) i := rfl
@[simp] theorem State.emit_out (o : Output) : (s.emit o).out = o :: s.out := rfl

end Sys2Proof.Machine
end

