-- ==== Sys2Proof/Tests/Slice0.lean ====
section
/-!
SUPPORT. Tests: ill-formed commands are refused, single commands on small states, and for every statement with premises a
state and operands that meet them.
-/

namespace Sys2Proof.Tests

set_option Elab.async false

open Sys2Proof Sys2Proof.Machine

theorem fst_of {α β : Type} {p : α × β} {b : β} (h : p.2 = b) : p = (p.1, b) := by rw [← h]

/-- Out of reset: both halves UP, node 0, the host link's perst_n released. -/
def up : State :=
  (({ coldHeld := false, perst := false } : State).setHalf .east hsUp).setHalf .west hsUp |>.setFld F.PKG_NODE_ID_NODE 0

/-- All bridge groups in service. -/
def bridged : State := up.setFld F.PKG_BRIDGE_STATUS_WE_GROUPS 0xFFFF

/-- A handoff window of one page at offset 0. -/
def hoff : State := ((up.setFld F.CNT_HOFF_LEN_PAGES 1).setFlag F.CNT_HOFF_BASE_VALID true)

/-- A range entry (R69) that maps virtual page 0 directly to page 0 of the own node for reads,
  writes and atomics of a context with
partition code `part`; in HOST_MIGRATE mode, virtual page 1 to pool page 0. -/
def ownRange (part : Nat) : BitVec 256 := BitVec.ofNat 256 (0xF + part * 2 ^ 16 + 2 ^ 64)
def migRange (part : Nat) : BitVec 256 := BitVec.ofNat 256 (0x20F + part * 2 ^ 16 + 2 ^ 24 + 2 ^ 64)

/-- A migration of one page at the point given. -/
def move (toHost started : Bool) (busy : List Nat) : MigCmd :=
  { toHost := toHost, vaPage := 1, count := 1, inv := false, resume := false, tag := 0, started := started, busy := busy }

/-- A context with a migration at the head of its queue. -/
def migrating (m : MigCmd) : State := { up with ctxs := [(127, { table := [migRange 127], migs := [m] })] }

/-- A context whose page 0 is the own node's page 0. -/
def mapped (c : Nat) : State := { up with ctxs := [(c, { table := [ownRange (ctxPart c)] })] }

/-- A state with a packet at the front of the inbox. -/
def arrived (p : Packet) : State := { up with inbox := [p] }

/-- Program 63 of partition 5 in a state of R171, and what it holds. -/
def running (st : Nat) (p : ProgSt) : State := { up.setFld F.CUR_STATE_STATE st 63 with progs := [(63, { p with part := 5 })] }

def pooled (p : ProgSt) : State := (running pgRUNNING p).setFld F.DA_ARR_STATUS_STATE arPOOL 0

/-- An item for East of one lane. -/
def item : Item := { num := 0, slot := 0, group := 0, lanes := [(0, 0)], halves := [0], staged := [0], home := 0, fold := 0, cycles := 1 }

/-- A program descriptor (R286) with its layer table at virtual address 64: one layer of one phase, SAMPLE, at 128. -/
def progDesc : List Byte :=
  leBytes 64 (0x16D0E + 2 ^ 32 + 2 ^ 48 + 64 * 2 ^ 64 + 64 * 2 ^ 192 + 1024 * 2 ^ 320)
def phase : List Byte := leBytes 64 (9 + 2 ^ 32 + 2 ^ 160 + 0x41 * 2 ^ 184)
def loadable : State :=
  ((mapped 5).setFld F.PRF_PROG_CFG_LEAD 0 63).writeMem 0 (progDesc ++ leBytes 64 (128 * 2 ^ 64 + 2 ^ 144) ++ phase) |>.1

/-- A sequence (R289) of one token, and a program that may hold it. -/
def sequence : List Byte := leBytes 64 (2 ^ 16 + 2 ^ 96)

/-- A table descriptor of R332: rows of 16 bytes. -/
def tableDesc : List Byte := leBytes 64 (0x15C0B + 2 ^ 192 + 16 * 2 ^ 224)

/-- A read of a stamped row by another node's client. -/
def rowOp (kind : HomeKind) (step : Nat) : HomeOp :=
  { id := 0, kind := kind, row := 0, exts := [], stamp := 0, client := .none, step := step }
def homed (o : HomeOp) : State := { up with homeOps := [o], homeFifo := [(0, 0)] }

/-- Message ring 7 of partition 5, 16 slots of 128 bytes, in the partition's memory. -/
def ringed : State :=
  (((mapped 5).setFld F.PTN_MR_CTRL_SLOT_LOG2 7 (mrInst 5 7)).setFld F.PTN_MR_CTRL_LOG2_SLOTS 4 (mrInst 5 7)).setFlag
    F.PTN_MR_CTRL_EN true (mrInst 5 7)

/-- Queue 15 of partition 127 with an entry to fetch, and the same queue halted by a bad entry. -/
def fetchable : State :=
  (up.setFlag F.HIF_SQ_CTRL_EN true (qInst 127 15)).setFld F.HIF_SQ_TAIL_INDEX 1 (qInst 127 15)
def halted : State :=
  (fetchable.setFlag F.HIF_SQ_STATUS_HALTED true (qInst 127 15)).setFld F.HIF_SQ_STATUS_ERR qeBadEntry (qInst 127 15)

/-- A message, an error record, a management packet (R533), a FLIT in sequence, and the CAPS of a peer. -/
def arrival : Packet := { op := opMSG, dst := 0, src := 1 }
def errRec : ErrRec :=
  { seq := 0, cls := 0, event := 0, inst := 0, severity := 0, part := 0, op := 0, envelope := 0, time := 0, cursor := 0,
    address := 0, syndrome := 0, count := 1, temp := 0, volt := 0, aux := 0 }
def mgmt (sub : Nat) : Packet := { op := opMGMT, dst := 0, src := 1, data := leBytes 64 sub }
def flit : List Byte := let b := List.replicate 248 0#8; b ++ leBytes 8 (flitCrc 0 b)
def goodCaps : List Nat := [2 ^ 32, 1 + 255 * 2 ^ 40, 0, 0, 0]

/-- The coherence domain is UP: node 0x40 is member 0, the first page is coherent. -/
def coherent : State :=
  ((((up.setFld F.COH_DOM_STATUS_STATE cdUP).setFlag F.COH_MEMBER_VALID true).setFld F.COH_MEMBER_NODE 0x40).setFlag
    F.COH_WIN_BASE_VALID true).setFld F.COH_WIN_LEN_PAGES 1


theorem foldl_same {α β : Type} (f g : α → β → α) : ∀ (l : List β), (∀ a, ∀ b ∈ l, f a b = g a b) → ∀ a, l.foldl f a = l.foldl g a
  | [], _, _ => rfl
  | b :: l, h, a => by
    rw [List.foldl_cons, List.foldl_cons, h a b List.mem_cons_self, foldl_same f g l fun a c hc => h a c (List.mem_cons_of_mem _ hc)]

theorem find_same {α : Type} (f g : α → Bool) : ∀ l : List α, (∀ a ∈ l, f a = g a) → l.find? f = l.find? g
  | [], _ => rfl
  | a :: l, h => by
    rw [List.find?_cons, List.find?_cons, h a List.mem_cons_self, find_same f g l fun c hc => h c (List.mem_cons_of_mem _ hc)]

/-- Shares and caps at their reset values pass the check of R637. -/
theorem qosCheck_of (u : State) (h : ∀ r f, ∀ p < 128, u.qosSnap r f p = f.get (up.rdStaged r p)) : u.qosCheck = none := by
  have e : u.shareOver = fun r => ((List.range 128).foldl (fun (acc : Nat × Option Nat) p =>
      (acc.1 + F.QOS_T0_SHARE.get (up.rdStaged r p),
        if acc.2.isNone && decide (1024 < acc.1 + F.QOS_T0_SHARE.get (up.rdStaged r p)) then some p else acc.2)) (0, none)).2 :=
    funext fun r => congrArg Prod.snd (foldl_same _ _ _ (fun a p hp => by rw [← h r _ p (List.mem_range.1 hp)]) _)
  unfold State.qosCheck
  dsimp only
  rw [e, find_same (fun p => (qosRegs.take 5).any fun r => decide (u.qosSnap r F.QOS_T0_CAP p < u.qosSnap r F.QOS_T0_SHARE p))
      (fun p => (qosRegs.take 5).any fun r =>
        decide (F.QOS_T0_CAP.get (up.rdStaged r p) < F.QOS_T0_SHARE.get (up.rdStaged r p))) (List.range 128)
      fun p hp => by simp only [h _ _ p (List.mem_range.1 hp)],
    find_same (fun p => u.qosSnap .QOS_TC F.QOS_TC_TC p == 7) (fun p => F.QOS_TC_TC.get (up.rdStaged .QOS_TC p) == 7)
      (List.range 128) fun p hp => by rw [h _ _ p (List.mem_range.1 hp)]]
  clear h e
  decide +kernel

theorem qos_ok : (up.beginCommit .qos 0).qosCheck = none :=
  qosCheck_of _ fun r f p hp => congrArg f.get (snapOf_beginCommit up .qos 0 r p (decide_eq_true (by omega)) (by decide +kernel))

/-- East holds the lease with EPOCH 0 and serves management; session 0 is open. -/
def managed : State :=
  { (up.setStage .east sgRUNNING).setFld F.CNT_LEASE_STATUS_HOLDER 1 with
    mg := { sessions := [(0, some { id := 1, role := 1 })] } }

/-- The last fragments of a HELLO and of an AUTH message, and the states that hold the others. -/
def frags (who type n : Nat) : Partial :=
  { who := who, type := type, reqId := 0, count := n, frags := (List.range (n - 1)).map fun k => (k, List.replicate 1200 0#8) }
def hello : List Byte := List.replicate 1600 0#8

def helloTail : Dgram := { from_ := 0, flags := 0, frag := 0x11, total := 1600, body := List.replicate 400 0#8 }
def greeted : State := { managed.setFlag F.BOOT_STATUS_ID_VALID true with mg := { partials := [frags 8 0x03 2] } }
def authFrag : Nat → List Byte
  | 0 => [0x43#8, 0x4A#8, 5#8] ++ List.replicate 1197 0#8
  | 12 => List.replicate 54 0#8
  | _ => List.replicate 1200 0#8
def authBody : List Byte := (List.range 13).flatMap authFrag
def authTail : Dgram := { from_ := 0, session := 2, seq := 1, frag := 0xCC, total := 14454, body := authFrag 12 }
def authPartial : Partial := { who := 4, type := 5, reqId := 0, count := 13, frags := (List.range 12).map fun k => (k, authFrag k) }
def shaking : State :=
  { managed with mg := { shakes := [(0, some { id := 2, role := 0 })], partials := [authPartial] } }

def fragLen (k : Nat) : Nat := if k = 0 then 1200 else if k = 12 then 54 else 1200

theorem authFrag_length (k : Nat) : (authFrag k).length = fragLen k := by
  unfold authFrag fragLen
  split
  · rw [List.length_append, List.length_replicate]; rfl
  · rw [List.length_replicate]; rfl
  · rw [List.length_replicate, if_neg ‹_›, if_neg ‹_›]

theorem sput_last (f : Nat → List Byte) (h : f 12 ≠ []) :
    sput [] 12 (f 12) ((List.range 12).map fun k => (k, f k)) = (List.range 13).map fun k => (k, f k) := by
  simp [sput, List.range_succ, h]

theorem authBody_length : authBody.length = 14454 := by
  unfold authBody
  rw [List.length_flatMap, show (fun k => (authFrag k).length) = fragLen from funext authFrag_length]
  rfl

theorem authTail_whole (s : State) (h : s.mg.partials = [authPartial]) : (s.assemble 4 0x05 authTail).2 = .message authBody := by
  have hd : dgramFault authTail = none := by decide +kernel
  have hf : sput [] (authTail.frag / 16) authTail.body authPartial.frags = (List.range 13).map fun k => (k, authFrag k) :=
    sput_last authFrag fun e => absurd (congrArg List.length e) (by rw [authFrag_length]; decide)
  have hb : ((List.range 13).map fun k => (k, authFrag k)).flatMap (·.2) = authBody := by
    rw [List.flatMap_map]; rfl
  have hl : ((List.range 13).map fun k => (k, authFrag k)).length = 13 := by rw [List.length_map]; rfl
  have hp : s.mg.partials.find? (fun p => p.who == 4 && p.reqId == authTail.reqId) = some authPartial := by rw [h]; rfl
  unfold State.assemble
  rw [hd]
  dsimp only
  rw [hp]
  dsimp only [Option.getD]
  rw [if_neg (by decide), if_neg (by decide), if_neg (by rw [hf, hl]; decide)]
  dsimp only
  rw [if_pos (by rw [hf, hb]; exact authBody_length), hf, hb]

/-- Both Starters have come to CONFIG or failed; an image without records. -/
def configuring : State :=
  ((up.setStage .east sgCONFIG).setStage .west sgFAILED).setFld F.CNT_LEASE_STATUS_HOLDER 1
def emptyImage : List Byte := let b := leBytes 64 (0x4643584A + 3 * 2 ^ 32); b ++ leBytes 4 (crc32c b)

/-- Program 63 is mirrored to the partner's region at 1 GiB; it returns from there. -/
def mirroring (m : MirSt) : State :=
  { up.setFld F.CNT_STATE_STATE csPAIRED with progs := [(63, { part := 5, mir := { m with cfg := some 1 } })], partnerSize := 2 }
def returning (r : List RetProg) : State :=
  { (mirroring {}).setFld F.CNT_STATE_STATE csRETURNING |>.setFld F.CUR_STATE_STATE pgPARKED 63 with ret := r }
def header : List Byte := let b := leBytes 252 (2 ^ 32); b ++ leBytes 4 (crc32c b)
def headerEnv : Env := [⟨.node 0, gib, header, [], false, false⟩]

def portCaps : List Nat := [4 + 2 ^ 8 + 5 * 2 ^ 24, 0, 0, 0, 0, 0]


theorem reset_idle (n : Nat) : State.reset.live n = false := by
  simp [State.live, State.pstate, State.fld, State.rd, State.reset, sget, Reg.resetVal, Reg.resetOf]
  decide


/-! ## Ill-formed commands: for each check a command that fails it alone -/
/-- A staged tile of one E4M3 element, 1.0, whose stored column sum is 0, and an item that waits for its recomputation. -/
def recomputing (phases : List (List Byte)) : State :=
  (({ (running pgRUNNING {
        items := [{ item with recomp := true }],
        layers := [{ hamper := [{ expert := none, keep := true, half := 0, extent := 320, id := 1, ver := 0, slot := 0, srcs := [] }],
                     phases := phases }] }).setFld F.CUR_VALUE_LAYER 0 63 |>.setFld F.CUR_VALUE_PHASE 0 63 with
      stage := [{ num := 0, part := 5, id := 1, ver := 0, want := 0, half := 0, len := 320, extent := 320, srcs := [],
                  st := .present, refs := [{ prog := 63, layer := 0, entry := 0 }] }] } : State).writeMem 0
    (leBytes 264 (2 ^ 24 + 2 ^ 32 + 64 * 2 ^ 64 + 16 * 2 ^ 80 + 2 ^ 96 + 2 ^ 112 + 0x38 * 2 ^ 2048))).1

/-! ## Ill-formed commands: for each check a command that fails it alone -/

theorem test_ill_formed_0 : ([
    .coldResetRelease 256, .bridgeLaneFail 2 0, .bridgeLaneFail 0 16, .bridgeSecondLaneFail 2 0, .bridgeSecondLaneFail 0 16,
    .bridgeEndpointLost false false [], .chipWarmReset (.vf 128) 0, .chipWarmReset .fw 256, .halfReset (.vf 128) .east 0 [],
    .halfReset .fw .east 256 [], .registerWrite .load 0 4 0 none [], .registerWrite .fw 0x4000000 4 0 none [],
    .registerWrite .fw 0 0 0 none [], .registerWrite .fw 0 4097 0 none [], .tblCommit (.vf 128) 0 [], .tblCommit .fw 129 [],
    .tblActivate 129, .oldEpochDrained 129, .faultRecordVisible 129, .faultRecordWriteFail 128, .deferredFaultRecord 129,
    .fltqHeadWrite (.vf 128) 0 0, .fltqHeadWrite .fw 128 0, .fltqResumeReplay (.vf 128) 0 0 [],
    .fltqResumeReplay .fw 128 0 [], .fltqResumeAbort (.vf 128) 0 0 [], .fltqResumeAbort .fw 128 0 [], .migGo (.vf 128) 0 0,
    .migGo .fw 128 0, .migToDevice 128 [], .migToHost 128, .migDrainDone 128, .migTransferFail 128 2 0 [],
    .migTransferFail 0 4 0 [], .migCommandDone 128 [], .stageCommit (.vf 128), .memRuntimeFail 8, .memRuntimeFail 32,
    .driveLinkUp 8 0 0, .driveInitDone 8 16 none, .driveInitTimeout 8, .nvmeCommandTimeout 8, .driveRecoverDone 8 none,
    .driveOffline (.vf 128) 0, .driveOffline .fw 8, .driveOnline (.vf 128) 0, .driveOnline .fw 8, .driveReset (.vf 128) 0,
    .driveReset .fw 8, .driveSurpriseDown 8, .smartPoll 8 0 0 0, .nvmeCompletion 64 true [], .tileSourceReadDone 64 [],
    .tileWritesAcked 64 true, .t2BodyWriteDone 64, .tileHeaderWritten 64 true, .tspInboundTileTaken 64,
    .completionRecordPerformed 128 0 true, .completionRecordPerformed 0 16 true, .phaseComplete 64 [],
    .specRoutingDone 64 [], .specRoutingDone 0 [[256]], .curMatchArm (.vf 128) 0 0, .curMatchArm .fw 64 0,
    .loadProgram (.vf 128) 0 0 [], .loadProgram .fw 64 0 [], .loadProgram .fw 0 256 [], .startProgram (.vf 128) 0 0,
    .startProgram .fw 64 0, .startProgram .fw 0 256, .parkProgram (.vf 128) 0 0, .parkProgram .fw 64 0,
    .parkProgram .fw 0 256, .unloadProgram (.vf 128) 0 0, .unloadProgram .fw 64 0, .unloadProgram .fw 0 256,
    .admitSeq (.vf 128) 0 0 0 [], .admitSeq .fw 64 0 0 [], .admitSeq .fw 0 256 0 [], .admitSeq .fw 0 0 1024 [],
    .remove (.vf 128) 0 0 0, .remove .fw 64 0 0, .remove .fw 0 256 0, .remove .fw 0 0 1024, .daCmdReservedOp (.vf 128) 0,
    .daCmdReservedOp .fw 6, .daCmdReservedOp .fw 16, .arrayGrant 256 [], .itemComplete 256 {}, .itemOvertime 256 [],
    .restore (.vf 128) 0, .restore .fw 256, .arrayOffline (.vf 128) 0, .arrayOffline .fw 256, .arrayOnline (.vf 128) 0,
    .arrayOnline .fw 256, .ringHeadWrite (.vf 128) 0 0, .ringHeadWrite .fw 64 0, .scoopRowReturn 16 [],
    .scoopCommandComplete 16 [], .define (.vf 128) 0 0 [], .define .fw 1024 0 [], .define .fw 0 256 [],
    .flip (.vf 128) 0 0 true, .flip .fw 1024 0 true, .flip .fw 0 256 true, .retire (.vf 128) 0 0, .retire .fw 1024 0,
    .retire .fw 0 256, .scpCmdReservedOp (.net 4) 0] : List Instr).all (fun c => !c.wf) =
      true := by
  decide +kernel

theorem test_ill_formed_1 : ([
    .scpCmdReservedOp .fw 3, .scpCmdReservedOp .fw 16, .tableOldDrained 1024, .replicaInstallDone 2 0,
    .replicaInstallDone 0 32768, .scoopEngineFail 16 [], .scpReplCommit (.vf 128), .acquirePoll 128 0 [],
    .acquirePoll 0 16 [], .acquireWaitTimeout 128 0, .acquireWaitTimeout 0 16, .invComplete 128 0, .invComplete 0 16,
    .bar2Write 0 [] true, .bar2Write 0 (List.replicate 513 0#8) true, .bar2Write (2 ^ 36) [0#8] true, .bar2Read 0 0,
    .bar2Read 0 4097, .bar2Read (2 ^ 36) 1, .bar2Atomic 0 16 [], .bar2Atomic (2 ^ 36 - 3) 0 [],
    .bar2Atomic 0 0 (List.replicate 33 0#8), .snoopTimeout 0 16, .collapse (.vf 128), .reinit (.vf 128),
    .cohCommit (.vf 128), .ylCfgCommit (.vf 128), .detectSignal 96, .detectOneLaneTimeout 96 0, .detectOneLaneTimeout 0 2,
    .equalizeConverged 96, .equalizeTimeout 96, .lockAchieved 96, .lockTimeout 96, .negotiateTimeout 96,
    .flitReceive 96 (List.replicate 256 0#8) true 0 0 0, .flitReceive 0 [] true 0 0 0, .ackTimer 112, .nakRepeat 112,
    .receiveLaneLoss 96 0, .receiveLaneLoss 0 4, .flitAcceptTimeout 112, .replayAckTimeout 112, .retrain (.vf 128) 0,
    .retrain .fw 96, .fastRetrainDone 96 true [] 0, .failedRetry 96, .linkDisable (.vf 128) 0, .linkDisable .fw 96,
    .linkDisableClear (.vf 128) 0, .linkDisableClear .fw 96, .oneLaneMarker 112 true, .laneDropLockTimeout 112,
    .laneTest 112 true 0 0, .laneTest 0 true 16 0, .laneTest 0 true 0 16, .reachPeriodic 96, .reachStale 96, .reachHold 96,
    .detourPacket 96, .packetIngress 96, .packetEgress 96, .srd 0 0 0, .retxTimeout 272 0, .retxTimeout 0 6,
    .sackTimer 272 0, .sackTimer 0 6, .tspDisableClear (.vf 128) 0, .tspDisableClear .fw 16, .tspDisable (.vf 128) 0,
    .tspDisable .fw 16, .tspTrainDone 16 15, .tspTrainDone 0 7, .tspTrainTimeout 16 true, .tspNegotiateTimeout 16,
    .tspFlitReceive 16 (List.replicate 256 0#8) true, .tspFlitReceive 0 [] true, .tileUnit 16, .tspTileSend 16,
    .tspLaneLoss 16 0, .tspLaneLoss 0 16, .tspRecoverDone 16 true [] 15, .tspRecoverDone 0 true [] 7,
    .tspRetry (some (.net 4)) 0, .tspRetry none 16, .tspRefclkLoss 8, .tspRefclkReturn 8, .tspPortCommit (.vf 128) 0,
    .tspPortCommit .fw 16, .perstRelease 16 0, .perstRelease 0 256, .vfFlr 128 [], .vfEnable 129,
    .pcieCplTimeout (some 64) none, .pcieCplTimeout none (some (16, 0)), .pcieCplTimeout none (some (0, 2)),
    .sqDoorbell (.vf 128) 0 0 0, .sqDoorbell .fw 128 0 0, .sqDoorbell .fw 0 16 0, .queueFetch 128 [],
    .sqEnable (.vf 128) 0 0 0, .sqEnable .fw 128 0 0, .sqEnable .fw 0 16 0, .sqDisable (.vf 128) 0 0 0,
    .sqDisable .fw 128 0 0, .sqDisable .fw 0 16 0, .resume (.vf 128) 0 0, .resume .fw 128 0, .resume .fw 0 16,
    .resumeSkip (.vf 128) 0 0] : List Instr).all (fun c => !c.wf) =
      true := by
  decide +kernel

theorem test_ill_formed_2 : ([
    .resumeSkip .fw 128 0, .resumeSkip .fw 0 16, .cqHeadWrite (.vf 128) 0 0 0, .cqHeadWrite .fw 128 0 0,
    .cqHeadWrite .fw 0 16 0, .msixUnmask (.vf 128) 0 0, .msixUnmask .fw 129 0, .msixUnmask .fw 0 1024, .msixUnmask .fw 1 32,
    .partitionReset (.vf 128) 0 [], .partitionReset .fw 128 [], .partitionDrained 128, .partitionDrainTimeout 128 [],
    .partitionCleared 128 [], .qosCommit (.vf 128), .mrEnable (.vf 128) 0 0 0, .mrEnable .fw 128 0 0, .mrEnable .fw 0 8 0,
    .mrHeadWrite (.vf 128) 0 0 0, .mrHeadWrite .fw 128 0 0, .mrHeadWrite .fw 0 8 0, .mrRecordPerformed 128 0,
    .mrRecordPerformed 0 8, .engineReset (.vf 128) 0 0 [], .engineReset .fw 16 0 [], .engineReset .fw 0 256 [],
    .engineFailure 0 256 [], .engineResetDone 0 256 [], .arbitrationRunDone 256 {}, .uncomparedTimeout 256,
    .tasterSlotDone 256 0, .tasterSlotDone 0 4, .retestSlotDone 256 0, .retestSlotDone 0 4, .retestTimeout 256,
    .sweep (.vf 128) 0, .sweepStageEnd 0 [256], .errRingHeadWrite (.vf 128) 0, .cntCommit (.vf 128), .mirrorPushDone 64,
    .mirrorBankWritten 64, .mirrorCommitted 64, .sequenceCopyDone 64 0, .sequenceCopyDone 0 1024, .takeover (.vf 128) 0,
    .takeover .fw 256, .restart (.vf 128) 0, .restart .fw 256, .frozenPoll 64 [], .deltaPullDone 64 [],
    .leaseRenew .east (2 ^ 32), .openSession (2 ^ 32), .handshakeTimeout 2, .sessionIdleTimeout 4,
    .mbxDoorbell (.vf 128) 0 [], .mgtNetCommit (.vf 128), .mgtAnchorCommit (.vf 128), .mgtDelegCommit (.vf 128),
    .compMsg 128 0, .compMsg 0 256, .tokensMsg 128, .sclOffer (.vf 128) 0 0 [], .sclOffer .fw (2 ^ 32) 0 [],
    .sclOffer .fw 0 (2 ^ 32) [], .offerVerifyDone true 256 0 (List.replicate 16 0#8) 0,
    .offerVerifyDone true 1 65536 (List.replicate 16 0#8) 0, .offerVerifyDone true 1 0 [] 0,
    .offerVerifyDone true 1 0 (List.replicate 16 0#8) 512, .memoryTrained .east 256 0 1 64 true 0 0,
    .memoryTrained .east 0 16 1 64 true 0 0, .memoryTrained .east 0 0 0 64 true 0 0, .memoryTrained .east 0 0 4 64 true 0 0,
    .memoryTrained .east 0 0 1 63 true 0 0, .memoryTrained .east 0 0 1 64 true 65536 0,
    .memoryTrained .east 0 0 1 64 true 0 65536, .serdesDone .east (2 ^ 24), .bootSvnCommit (.vf 128) 0,
    .fwOffer (.vf 128) 0 0 [], .fwOffer .fw (2 ^ 32) 0 [], .fwOffer .fw 0 (2 ^ 32) [], .bootTimeSync (.vf 128) 0,
    .bootTimeSync .fw (2 ^ 32), .bootTimeFollow (.vf 128) 0 0, .bootTimeFollow .fw (2 ^ 32) 0,
    .bootTimeFollow .fw 0 (2 ^ 64), .bootTimeHost (.vf 128) 0, .attestNonce (.vf 128) true [], .persistNow (.vf 128),
    .shutdown (.vf 128) 0, .shutdown .fw 256, .lifeServiceAdd (.vf 128) 0, .pmbusPoll [], .sensorRead [],
    .quadRefclkLoss 4 0, .quadRefclkLoss 0 12, .registerRead .fw 0 4, .registerRead .pf 0x4000000 4,
    .registerRead .pf 0 4097, .droppedFrame 5] : List Instr).all (fun c => !c.wf) =
      true := by
  decide +kernel

theorem test_well_formed_0 : ([
    .coldResetRelease 0, .bridgeLaneFail 0 0, .bridgeSecondLaneFail 0 0, .bridgeEndpointLost true true [],
    .chipWarmReset .fw 0, .halfReset .fw .east 0 [], .registerWrite .fw 0 4 0 none [], .tblCommit .fw 0 [], .tblActivate 0,
    .oldEpochDrained 0, .faultRecordVisible 0, .faultRecordWriteFail 0, .deferredFaultRecord 0, .fltqHeadWrite .fw 0 0,
    .fltqResumeReplay .fw 0 0 [], .fltqResumeAbort .fw 0 0 [], .migGo .fw 0 0, .migToDevice 0 [], .migToHost 0,
    .migDrainDone 0, .migTransferFail 0 2 0 [], .migCommandDone 0 [], .stageCommit .fw, .memRuntimeFail 0,
    .driveLinkUp 0 0 0, .driveInitDone 0 16 none, .driveInitTimeout 0, .nvmeCommandTimeout 0, .driveRecoverDone 0 none,
    .driveOffline .fw 0, .driveOnline .fw 0, .driveReset .fw 0, .driveSurpriseDown 0, .smartPoll 0 0 0 0,
    .nvmeCompletion 0 true [], .tileSourceReadDone 0 [], .tileWritesAcked 0 true, .t2BodyWriteDone 0,
    .tileHeaderWritten 0 true, .tspInboundTileTaken 0, .completionRecordPerformed 0 0 true, .phaseComplete 0 [],
    .specRoutingDone 0 [], .curMatchArm .fw 0 0, .loadProgram .fw 0 0 [], .startProgram .fw 0 0, .parkProgram .fw 0 0,
    .unloadProgram .fw 0 0, .admitSeq .fw 0 0 0 [], .remove .fw 0 0 0, .daCmdReservedOp .fw 0, .arrayGrant 0 [],
    .itemComplete 0 {}, .itemOvertime 0 [], .restore .fw 0, .arrayOffline .fw 0, .arrayOnline .fw 0, .ringHeadWrite .fw 0 0,
    .scoopRowReturn 0 [], .scoopCommandComplete 0 [], .define .fw 0 0 [], .flip .fw 0 0 true, .retire .fw 0 0,
    .scpCmdReservedOp .fw 0, .tableOldDrained 0, .replicaInstallDone 0 0, .scoopEngineFail 0 [], .scpReplCommit .fw,
    .acquirePoll 0 0 [], .acquireWaitTimeout 0 0, .invComplete 0 0, .bar2Write 0 [0#8] true, .bar2Read 0 1,
    .bar2Atomic 0 0 [], .snoopTimeout 0 0, .collapse .fw, .reinit .fw, .cohCommit .fw, .ylCfgCommit .fw, .detectSignal 0,
    .detectOneLaneTimeout 0 0, .equalizeConverged 0, .equalizeTimeout 0, .lockAchieved 0, .lockTimeout 0,
    .negotiateTimeout 0, .flitReceive 0 (List.replicate 256 0#8) true 0 0 0, .ackTimer 0, .nakRepeat 0,
    .receiveLaneLoss 0 0, .flitAcceptTimeout 0, .replayAckTimeout 0, .retrain .fw 0, .fastRetrainDone 0 true [] 0,
    .failedRetry 0, .linkDisable .fw 0, .linkDisableClear .fw 0, .oneLaneMarker 0 true, .laneDropLockTimeout 0,
    .laneTest 0 true 0 0, .reachPeriodic 0, .reachStale 0, .reachHold 0, .detourPacket 0, .packetIngress 0, .packetEgress 0,
    .srd 0 0 1, .retxTimeout 0 0, .sackTimer 0 0, .tspDisableClear .fw 0] : List Instr).all (fun c => c.wf) =
      true := by
  decide +kernel

theorem test_well_formed_1 : ([
    .tspDisable .fw 0, .tspTrainDone 0 15, .tspTrainTimeout 0 true, .tspNegotiateTimeout 0,
    .tspFlitReceive 0 (List.replicate 256 0#8) true, .tileUnit 0, .tspTileSend 0, .tspLaneLoss 0 0,
    .tspRecoverDone 0 true [] 15, .tspRetry none 0, .tspRefclkLoss 0, .tspRefclkReturn 0, .tspPortCommit .fw 0,
    .perstRelease 0 0, .vfFlr 0 [], .vfEnable 0, .pcieCplTimeout none none, .sqDoorbell .fw 0 0 0, .queueFetch 0 [],
    .sqEnable .fw 0 0 0, .sqDisable .fw 0 0 0, .resume .fw 0 0, .resumeSkip .fw 0 0, .cqHeadWrite .fw 0 0 0,
    .msixUnmask .fw 0 0, .partitionReset .fw 0 [], .partitionDrained 0, .partitionDrainTimeout 0 [], .partitionCleared 0 [],
    .qosCommit .fw, .mrEnable .fw 0 0 0, .mrHeadWrite .fw 0 0 0, .mrRecordPerformed 0 0, .engineReset .fw 0 0 [],
    .engineFailure 0 0 [], .engineResetDone 0 0 [], .arbitrationRunDone 0 {}, .uncomparedTimeout 0, .tasterSlotDone 0 0,
    .retestSlotDone 0 0, .retestTimeout 0, .sweep .fw 0, .sweepStageEnd 0 [], .errRingHeadWrite .fw 0, .cntCommit .fw,
    .mirrorPushDone 0, .mirrorBankWritten 0, .mirrorCommitted 0, .sequenceCopyDone 0 0, .takeover .fw 0, .restart .fw 0,
    .frozenPoll 0 [], .deltaPullDone 0 [], .leaseRenew .east 0, .openSession 0, .handshakeTimeout 0, .sessionIdleTimeout 0,
    .mbxDoorbell .fw 0 [], .mgtNetCommit .fw, .mgtAnchorCommit .fw, .mgtDelegCommit .fw, .compMsg 0 0, .tokensMsg 0,
    .sclOffer .fw 0 0 [], .offerVerifyDone true 1 0 (List.replicate 16 0#8) 0, .memoryTrained .east 0 0 1 64 true 0 0,
    .serdesDone .east 0, .bootSvnCommit .fw 0, .fwOffer .fw 0 0 [], .bootTimeSync .fw 0, .bootTimeFollow .fw 0 0,
    .bootTimeHost .fw 0, .attestNonce .fw true [], .persistNow .fw, .shutdown .fw 0, .lifeServiceAdd .fw 0,
    .pmbusPoll (List.replicate 18 none), .sensorRead ([0, 0, 0, 0, 0, 0]), .quadRefclkLoss 0 0, .registerRead .pf 0 4,
    .droppedFrame 0] : List Instr).all (fun c => c.wf) =
      true := by
  decide +kernel


/-! ## Operations and single steps, with results taken from the spec's rules by hand -/

/-- The check value of CRC-32C (the polynomial, the initial value and the final complement of R147). -/
theorem test_crc32c : crc32c ([0x31, 0x32, 0x33, 0x34, 0x35, 0x36, 0x37, 0x38, 0x39] : List Byte) = 0xE3069283 := by
  decide +kernel

/-- The check value of CRC-64 with the parameters of R474. -/
theorem test_crc64 : crc64 ([0x31, 0x32, 0x33, 0x34, 0x35, 0x36, 0x37, 0x38, 0x39] : List Byte) = 0x995DC9BBDF1939FA := by
  decide +kernel

/-- SHA3-512 of the empty message, from FIPS 202: its first eight bytes a69f73cca23a9ac5. -/
theorem test_sha3_empty : (sha3 []).take 8 = ([0xA6, 0x9F, 0x73, 0xCC, 0xA2, 0x3A, 0x9A, 0xC5] : List Byte) := by
  decide +kernel

/-- R227: E4M3 0x7E is 448, E2M1 7 is 6, and E4M3 0x7F is a NaN. -/
theorem test_formats : (Fmt.decode .e4m3 0x7E).val = some ⟨14, 5⟩ ∧ (Fmt.decode .e2m1 7).val = some ⟨3, 1⟩ ∧
    (Fmt.decode .e4m3 0x7F).val = none := by decide +kernel

/-- R265, R266: 464 lies beyond the tie with 448 and saturates; 2^−10 ties to the even zero and keeps its sign. -/
theorem test_convert : Fmt.convert .e4m3 ⟨-465, 0⟩ = (0xFE, true) ∧ Fmt.convert .e4m3 ⟨-1, -10⟩ = (0x80, false) := by
  decide +kernel

/-- R271: 1 + 2^−24 ties to the even 1; the least normal times one half is replaced by zero. -/
theorem test_fp32 : fAdd 0x3F800000 0x33800000 = 0x3F800000 ∧ fMul 0x80800000 0x3F000000 = 0x80000000 := by decide +kernel

/-- R272: 1 ÷ 3 correctly rounded is 0x3EAAAAAB. -/
theorem test_recip : fRecip 0x40400000 = 0x3EAAAAAB := by decide +kernel

/-- A step takes the command at the front of the queue; an empty queue is one cycle of device time. -/
theorem test_queue : (match step { up with pending := [.fenceEntry, .tblActivate 1] } with
    | .next t => t.pending | _ => []) = [.tblActivate 1] := by decide +kernel

/-- An ill-formed command is a fault and takes no effect. -/
theorem test_ill_formed_step : (match step { up with pending := [.tblActivate 129] } with
    | .fault f => f == .illFormed | _ => false) = true := by decide +kernel

/-- Memory: bytes written are read back where they were written and nowhere else; a zero written removes the entry. -/
theorem test_memory : let m := (({ } : Memory).putAll 4096 [1#8, 2#8]).put 4097 0#8
    m.bytes 4095 3 = [0#8, 1#8, 0#8] ∧ m.cells.length = 1 := by decide +kernel

/-! ## For every statement with premises, a state and operands that meet them -/

theorem meets_EmptyQueuePassesACycle :
    (∃ s : State, s.pending = [] ∧ (s.coldHeld = true ∨ s.sysrefLost = true)) ∧
    (∃ s : State, s.pending = [] ∧ s.coldHeld = false ∧ s.sysrefLost = false) :=
  ⟨⟨State.reset, by decide⟩,
   ⟨up, by decide⟩⟩

theorem meets_ResetIsCanonical :
    ∃ p, p < 128 :=
  ⟨127, by decide⟩

theorem meets_OnlyIllFormedCommandsStop :
    (∃ c : Instr, c.wf = true) ∧
    (∃ c : Instr, c.wf = false) :=
  ⟨⟨.detectSignal 95, by decide⟩,
   ⟨.detectSignal 96, by decide⟩⟩

theorem meets_EveryStepShortensTheQueue :
    ∃ s : State, s.queueWf = true :=
  ⟨{ up with pending := [.detectSignal 95] }, by decide⟩

theorem meets_EveryStepKeepsTheCanonicalForm :
    ∃ s t : State, s.canonical = true ∧ step s = .next t :=
  ⟨State.reset, _, by decide, rfl⟩

theorem meets_WritesFollowTheAccessCodes :
    ∃ (s : State) (r : Reg) (k : Nat), s.canonical = true ∧ instOk k = true ∧ r.group = none ∧ r.loadOnly = false :=
  ⟨up, .HIF_SQ_TAIL, qInst 127 15, by decide⟩

theorem meets_MemberWritesAreStaged :
    ∃ (s : State) (r : Reg) (g : Group) (k : Nat), s.canonical = true ∧ instOk k = true ∧ r.group = some g :=
  ⟨up, .XLT_TBL_COUNT, .xlt, 128, by decide⟩

theorem meets_LockedFieldsKeepTheirValues :
    (∃ (s : State) (r : Reg) (k : Nat), s.canonical = true ∧ k < r.count ∧ s.locked r = true) ∧
    (∃ (s : State) (src : Source) (r : Reg) (k : Nat), s.canonical = true ∧ k < r.count ∧ s.locked r = true ∧
      (∀ p, src ≠ .vf p) ∧ s.ownerOk src r k = true) :=
  ⟨⟨{ up with cntLocked := true }, .CNT_CFG, 0, by decide⟩,
   ⟨{ up with cntLocked := true }, .fw, .CNT_CFG, 0, by decide, by decide, by decide, (by rintro p ⟨⟩), by decide⟩⟩

theorem meets_MemoryReadsWhatWasWritten :
    ∃ (s : State) (a : Nat) (d : List Byte), s.canonical = true ∧
      (∀ l ∈ linesOf a d.length, s.halfDown (s.homeHalf (64 * l)) = false ∧ s.memFailed (64 * l)
        = false ∧ s.mem.poisoned l = false) ∧
      (∀ e ∈ s.dir, e.line ∉ linesOf a d.length) :=
  ⟨up, 62, [1#8, 2#8, 3#8, 4#8], by decide⟩

theorem meets_RefusedWritesLeaveMemory :
    (∃ (s : State) (o : Nat) (d : List Byte) (l : Nat), l ∈ linesOf o d.length ∧
      (s.half (s.homeHalf (64 * l)) = hsResetting ∨ s.half (s.homeHalf (64 * l)) = hsFailed)) ∧
    (∃ (s : State) (o : Nat), (s.half (s.homeHalf o) = hsResetting ∨ s.half (s.homeHalf o) = hsFailed)) ∧
    (∃ (s : State) (a : Nat) (d : List Byte), d ≠ [] ∧ a % 64 + d.length ≤ 64 ∧ d.length < 64 ∧
      s.halfDown (s.homeHalf (64 * (a / 64))) = false ∧ s.memFailed (64 * (a / 64)) = false ∧ s.dir = [] ∧
      s.mem.poisoned (a / 64) = true) :=
  ⟨⟨up.setHalf .east hsFailed, 0, [1#8], 0, by decide⟩,
   ⟨up.setHalf .west hsResetting, 0x2400000000, by decide⟩,
   ⟨{ up with mem := up.mem.poisonLine 1 }, 64, [1#8], by decide⟩⟩

theorem meets_Bar2AccessesAreRefused :
    (∃ (s : State) (x : Nat), s.held = false ∧
      let o := s.fld F.HIF_BAR2_MAP_BASE * 2 ^ 36 + x
      (s.region o = .staging ∨ s.region o = .reserve ∨ s.region o = .control ∨ s.region o = .none) ∧ ∃ n, 0 < n ∧ n ≤ 4096 ∧
      x + n ≤ 2 ^ 36) ∧
    (∃ (s : State) (x : Nat), s.held = false ∧
      let o := s.fld F.HIF_BAR2_MAP_BASE * 2 ^ 36 + x
      (s.region o = .staging ∨ s.region o = .reserve ∨ s.region o = .control ∨ s.region o = .none) ∧ ∃ n, 0 < n ∧ n ≤ 4096 ∧
      x + n ≤ 2 ^ 36) ∧
    (∃ (s : State) (x : Nat), s.held = false ∧
      let o := s.fld F.HIF_BAR2_MAP_BASE * 2 ^ 36 + x
      (s.region o = .staging ∨ s.region o = .reserve ∨ s.region o = .control ∨ s.region o = .none) ∧ ∃ (d : List Byte),
      0 < d.length ∧ d.length ≤ 512 ∧ x + d.length ≤ 2 ^ 36) ∧
    (∃ (s : State) (x : Nat), s.held = false ∧
      let o := s.fld F.HIF_BAR2_MAP_BASE * 2 ^ 36 + x
      (s.region o = .staging ∨ s.region o = .reserve ∨ s.region o = .control ∨ s.region o = .none) ∧ ∃ (d : List Byte),
      0 < d.length ∧ d.length ≤ 512 ∧ x + d.length ≤ 2 ^ 36) ∧
    (∃ (s : State) (x : Nat), s.held = false ∧
      let o := s.fld F.HIF_BAR2_MAP_BASE * 2 ^ 36 + x
      (s.region o = .staging ∨ s.region o = .reserve ∨ s.region o = .control ∨ s.region o = .none) ∧
      ∃ (atop : Nat) (d : List Byte), (atop = 0 ∨ atop = 5 ∨ atop = 6 ∨ atop = 7) ∧ d.length = atomOperand atop ∧
      x % atomWidth atop = 0 ∧ x + 4 ≤ 2 ^ 36) :=
  ⟨⟨up.setFld F.HIF_BAR2_MAP_BASE 4, 0x7FC000000, by decide, by decide, 4096, by decide⟩,
   ⟨up.setFld F.HIF_BAR2_MAP_BASE 2, 0, by decide, by decide, 1, by decide⟩,
   ⟨up.setFld F.HIF_BAR2_MAP_BASE 64, 0, by decide, by decide, [1#8], by decide⟩,
   ⟨up.setFld F.HIF_BAR2_MAP_BASE 64, 0x3FFFFFF, by decide, by decide, [1#8], by decide⟩,
   ⟨up.setFld F.HIF_BAR2_MAP_BASE 5, 2 ^ 36 - 16, by decide, by decide, 5, List.replicate (atomOperand 5) 0#8, by decide⟩⟩

theorem meets_DoorbellMovesTheTail :
    (∃ (s : State) (src : Source) (p q : Nat), s.held = false ∧ src.wf = true ∧ p < 128 ∧ q < 16 ∧
      s.admission src .HIF_SQ_TAIL (qInst p q) = .accept ∧
      let k := qInst p q
      s.flag F.HIF_SQ_CTRL_DB_MEM k = true) ∧
    (∃ (s : State) (src : Source) (p q v : Nat), s.held = false ∧ src.wf = true ∧ p < 128 ∧ q < 16 ∧
      s.admission src .HIF_SQ_TAIL (qInst p q) = .accept ∧
      let k := qInst p q
      let n := 2 ^ s.fld F.HIF_SQ_CTRL_LOG2_ENTRIES k
      let head := s.fld F.HIF_SQ_HEAD_INDEX k
      let tail := s.fld F.HIF_SQ_TAIL_INDEX k
      let bad := n ≤ v % 65536 ∨ ringDist n head (v % 2 ^ 17) < ringDist n head tail ∨ n < ringDist n head (v % 2 ^ 17)
      s.flag F.HIF_SQ_CTRL_DB_MEM k = false ∧ ¬ bad) ∧
    (∃ (s : State) (src : Source) (p q v : Nat), s.held = false ∧ src.wf = true ∧ p < 128 ∧ q < 16 ∧
      s.admission src .HIF_SQ_TAIL (qInst p q) = .accept ∧
      let k := qInst p q
      let n := 2 ^ s.fld F.HIF_SQ_CTRL_LOG2_ENTRIES k
      let head := s.fld F.HIF_SQ_HEAD_INDEX k
      let tail := s.fld F.HIF_SQ_TAIL_INDEX k
      let bad := n ≤ v % 65536 ∨ ringDist n head (v % 2 ^ 17) < ringDist n head tail ∨ n < ringDist n head (v % 2 ^ 17)
      s.flag F.HIF_SQ_CTRL_DB_MEM k = false ∧ ¬ bad) ∧
    (∃ (s : State) (src : Source) (p q v : Nat), s.held = false ∧ src.wf = true ∧ p < 128 ∧ q < 16 ∧
      s.admission src .HIF_SQ_TAIL (qInst p q) = .accept ∧
      let k := qInst p q
      let n := 2 ^ s.fld F.HIF_SQ_CTRL_LOG2_ENTRIES k
      let head := s.fld F.HIF_SQ_HEAD_INDEX k
      let tail := s.fld F.HIF_SQ_TAIL_INDEX k
      let bad := n ≤ v % 65536 ∨ ringDist n head (v % 2 ^ 17) < ringDist n head tail ∨ n < ringDist n head (v % 2 ^ 17)
      s.flag F.HIF_SQ_CTRL_DB_MEM k = false ∧ bad) ∧
    (∃ (s : State) (src : Source) (p q v : Nat), s.held = false ∧ src.wf = true ∧ p < 128 ∧ q < 16 ∧
      s.admission src .HIF_SQ_TAIL (qInst p q) = .accept ∧
      let k := qInst p q
      let n := 2 ^ s.fld F.HIF_SQ_CTRL_LOG2_ENTRIES k
      let head := s.fld F.HIF_SQ_HEAD_INDEX k
      let tail := s.fld F.HIF_SQ_TAIL_INDEX k
      let bad := n ≤ v % 65536 ∨ ringDist n head (v % 2 ^ 17) < ringDist n head tail ∨ n < ringDist n head (v % 2 ^ 17)
      s.flag F.HIF_SQ_CTRL_DB_MEM k = false ∧ bad) :=
  ⟨⟨up.setFlag F.HIF_SQ_CTRL_DB_MEM true (qInst 127 15), .fw, 127, 15, by decide⟩,
   ⟨up, .fw, 127, 15, 63, by decide⟩,
   ⟨up, .fw, 127, 15, 65536, by decide⟩,
   ⟨up, .fw, 127, 15, 64, by decide⟩,
   ⟨up.setFld F.HIF_SQ_TAIL_INDEX 1 0, .fw, 0, 0, 0, by decide⟩⟩

theorem meets_SubnormalsAreFlushed :
    ∃ a b : F32,
      let nan : F32 → Bool := fun x => x.toNat / 2 ^ 23 % 256 == 255 && x.toNat % 2 ^ 23 != 0
      (nan a = true ∨ nan b = true) :=
  ⟨0x7F800001, 0, by decide⟩

theorem meets_AtomicsChangeTheirOperand :
    (∃ (s : State) (o atop : Nat), atop ≤ 8 ∧ s.canonical = true ∧ s.dir = [] ∧ o % atomWidth atop = 0 ∧
      s.halfDown (s.homeHalf o) = false ∧ s.halfDown (s.homeHalf (64 * (o / 64))) = false ∧ s.memFailed o = false ∧
      s.memFailed (64 * (o / 64)) = false ∧ s.mem.poisoned (o / 64) = false ∧ s.inHandoff o (atomWidth atop) = false ∧
      s.inMirror o (atomWidth atop) = false) ∧
    (∃ (s : State) (o atop : Nat), atop ≤ 8 ∧ s.canonical = true ∧ s.dir = [] ∧ o % atomWidth atop = 0 ∧
      s.halfDown (s.homeHalf o) = false ∧ s.halfDown (s.homeHalf (64 * (o / 64))) = false ∧ s.memFailed o = false ∧
      s.memFailed (64 * (o / 64)) = false ∧ s.mem.poisoned (o / 64) = false ∧ s.inHandoff o (atomWidth atop) = false ∧
      s.inMirror o (atomWidth atop) = false ∧ ∃ b, (b < o ∨ o + atomWidth atop ≤ b)) :=
  ⟨⟨up, 16, 8, by decide⟩,
   ⟨up, 16, 0, by decide, by decide, by decide, by decide, by decide, by decide, by decide, by decide, by decide, by decide,
     by decide, 24, by decide⟩⟩

theorem meets_HandoffRecordsChangeByRule :
    (∃ (s : State) (o : Nat) (d : List Byte), s.canonical = true ∧ o % 16 = 0 ∧ s.inHandoff o 16 = true ∧ s.dir = [] ∧
      s.halfDown (s.homeHalf o) = false ∧ s.halfDown (s.homeHalf (64 * (o / 64))) = false ∧ s.memFailed o = false ∧
      s.memFailed (64 * (o / 64)) = false ∧ s.mem.poisoned (o / 64) = false ∧
      let old := s.mem.bytes o 16
      let new := slice d 16 16
      let keeps := recField new 0 8 = recField old 0 8 ∧ recField new 12 4 = 0 ∧ recField new 24 8 = 0 ∧ recField new 8 4 ≤ 4
      let same := recField new 16 8 = recField old 16 8 ∧ recField new 32 32 = recField old 32 32 ∧ recField old 8 4 ≤ recField new 8 4
      let moved := recField new 16 8 ≠ recField old 16 8 ∧ recField new 32 32 = recField old 32 32 + 1
      (¬ (keeps ∧ (same ∨ moved)))) ∧
    (∃ (s : State) (o : Nat) (d : List Byte), s.canonical = true ∧ o % 16 = 0 ∧ s.inHandoff o 16 = true ∧ s.dir = [] ∧
      s.halfDown (s.homeHalf o) = false ∧ s.halfDown (s.homeHalf (64 * (o / 64))) = false ∧ s.memFailed o = false ∧
      s.memFailed (64 * (o / 64)) = false ∧ s.mem.poisoned (o / 64) = false ∧
      let old := s.mem.bytes o 16
      let new := slice d 16 16
      let keeps := recField new 0 8 = recField old 0 8 ∧ recField new 12 4 = 0 ∧ recField new 24 8 = 0 ∧ recField new 8 4 ≤ 4
      let same := recField new 16 8 = recField old 16 8 ∧ recField new 32 32 = recField old 32 32 ∧ recField old 8 4 ≤ recField new 8 4
      let moved := recField new 16 8 ≠ recField old 16 8 ∧ recField new 32 32 = recField old 32 32 + 1
      keeps ∧ (same ∨ moved)) ∧
    (∃ (s : State) (o : Nat) (d : List Byte), s.canonical = true ∧ o % 16 = 0 ∧ s.inHandoff o 16 = true ∧ s.dir = [] ∧
      s.halfDown (s.homeHalf o) = false ∧ s.halfDown (s.homeHalf (64 * (o / 64))) = false ∧ s.memFailed o = false ∧
      s.memFailed (64 * (o / 64)) = false ∧ s.mem.poisoned (o / 64) = false ∧
      let old := s.mem.bytes o 16
      let new := slice d 16 16
      let keeps := recField new 0 8 = recField old 0 8 ∧ recField new 12 4 = 0 ∧ recField new 24 8 = 0 ∧ recField new 8 4 ≤ 4
      let same := recField new 16 8 = recField old 16 8 ∧ recField new 32 32 = recField old 32 32 ∧ recField old 8 4 ≤ recField new 8 4
      let moved := recField new 16 8 ≠ recField old 16 8 ∧ recField new 32 32 = recField old 32 32 + 1
      keeps ∧ (same ∨ moved)) :=
  ⟨⟨hoff, 16, List.replicate 32 1#8, by decide⟩,
   ⟨hoff, 16, List.replicate 32 0#8, by decide⟩,
   ⟨hoff, 16, List.replicate 18 0#8 ++ [1#8, 0#8, 1#8] ++ List.replicate 11 0#8, by decide⟩⟩

theorem meets_RefusedRenewalFencesTheHalf :
    ∃ (s : State) (h : Half) (e : Nat), s.held = false ∧ e < 2 ^ 32 ∧ (s.holder ≠ some h ∨ s.fld F.CNT_LEASE_STATUS_EPOCH ≠ e) :=
  ⟨up, .east, 0, by decide⟩

theorem meets_HotSensorTrips :
    ∃ (s : State) (dies : List Int), s.held = false ∧ dies.length = 6 ∧ s.thermtrip = false ∧ (∃ d ∈ dies, 1760 ≤ d) ∧
      s.canonical = true :=
  ⟨up, [0, 0, 0, 0, 0, 1760], by decide⟩

theorem meets_ResetCommandsComplete :
    (∃ (s : State) (straps : Nat), straps < 256 ∧ s.coldHeld = true ∧ s.sysrefLost = false) ∧
    (∃ (s : State) (straps : Nat), straps < 256 ∧ s.coldHeld = true ∧ s.sysrefLost = true) ∧
    (∃ s : State, s.coldHeld = false) ∧
    (∃ s : State, s.held = false) ∧
    (∃ s : State, s.coldHeld = false ∧ s.sysrefLost = true) ∧
    (∃ (s : State) (c : Instr), s.held = true ∧ c.wf = true ∧ (∀ x, c ≠ .coldResetRelease x) ∧ c ≠ .coldResetAssert ∧ c ≠
      .sysrefLoss ∧ c ≠ .sysrefReturn ∧ (∀ e, c ≠ .perstAssert e) ∧ (∀ g w, c ≠ .perstRelease g w)) ∧
    (∃ (s : State) (src : Source), s.held = false ∧ src.wf = true ∧ s.admission src .RST_CTRL 0 = .accept) ∧
    (∃ (s : State) (src : Source), s.held = false ∧ src.wf = true ∧ s.admission src .RST_CTRL 0 = .accept) ∧
    (∃ (s : State) (h : Half), s.held = false ∧ s.half h = hsResetting) :=
  ⟨⟨State.reset, 255, by decide⟩,
   ⟨{ State.reset with sysrefLost := true }, 255, by decide⟩,
   ⟨up, by decide⟩,
   ⟨up, by decide⟩,
   ⟨{ up with sysrefLost := true }, by decide⟩,
   ⟨State.reset, .detectSignal 95, by decide, by decide, nofun, nofun, nofun, nofun, nofun, nofun⟩,
   ⟨up, .fw, by decide⟩,
   ⟨up, .fw, by decide⟩,
   ⟨up.setHalf .west hsResetting, .west, by decide⟩⟩

theorem meets_BridgeAndMemoryCommandsComplete :
    (∃ (s : State) (dir g : Nat), s.held = false ∧ dir < 2 ∧ g < 16 ∧ s.spares.contains (16 * dir + g) = false ∧ (s.fld
      (groupsFld dir)).testBit g = true) ∧
    (∃ (s : State) (dir g : Nat), s.held = false ∧ dir < 2 ∧ g < 16 ∧ s.spares.contains (16 * dir + g) = true ∧ (s.fld
      (groupsFld dir)).testBit g = true) ∧
    (∃ s : State, s.held = false) ∧
    (∃ s : State, s.held = false ∧ s.halfUp .east = true) ∧
    (∃ s : State, s.held = false ∧ s.halfUp .west = true) ∧
    (∃ (s : State) (h : Half) (badCh badSt rate dimm : Nat) (same : Bool) (ew we : Nat), s.held = false ∧ badCh < 256 ∧ badSt <
      16 ∧ 1 ≤ rate ∧ rate ≤ 3 ∧ [64, 128, 256, 512].contains dimm = true ∧ ew < 65536 ∧ we < 65536 ∧ s.bootStage h = sgMEMORY ∧
      s.half h ≠ hsResetting ∧
      let u := ((((s.trainT1 h badCh rate dimm same).trainT0 h badSt).setHalf h hsUp).setStage h sgSERDES).poolArrays h
      u.halfUp (otherHalf h) = false) ∧
    (∃ (s : State) (h : Half) (badCh badSt rate dimm : Nat) (same : Bool) (ew we : Nat), s.held = false ∧ badCh < 256 ∧ badSt <
      16 ∧ 1 ≤ rate ∧ rate ≤ 3 ∧ [64, 128, 256, 512].contains dimm = true ∧ ew < 65536 ∧ we < 65536 ∧ s.bootStage h = sgMEMORY ∧
      s.half h ≠ hsResetting ∧
      let u := ((((s.trainT1 h badCh rate dimm same).trainT0 h badSt).setHalf h hsUp).setStage h sgSERDES).poolArrays h
      let v := (u.setFld F.PKG_BRIDGE_STATUS_EW_GROUPS ew).setFld F.PKG_BRIDGE_STATUS_WE_GROUPS we
      u.halfUp (otherHalf h) = true ∧ 8 ≤ v.groupsUp 0 ∧ 8 ≤ v.groupsUp 1) ∧
    (∃ (s : State) (h : Half), s.held = false ∧ s.bootStage h = sgMEMORY) :=
  ⟨⟨bridged, 1, 15, by decide⟩,
   ⟨{ bridged with spares := [31] }, 1, 15, by decide⟩,
   ⟨up, by decide⟩,
   ⟨up, by decide⟩,
   ⟨up, by decide⟩,
   ⟨(up.setStage .east sgMEMORY).setHalf .west hsFailed, .east, 255, 15, 3, 512, true, 65535, 65535, by decide, by decide,
     by decide, by decide, by decide, by decide, by decide, by decide, by decide, by decide, by decide +kernel⟩,
   ⟨up.setStage .east sgMEMORY, .east, 255, 15, 3, 512, true, 65535, 65535, by decide, by decide, by decide, by decide,
     by decide, by decide, by decide, by decide, by decide, by decide, by decide +kernel, by decide +kernel, by decide +kernel⟩,
   ⟨up.setStage .east sgMEMORY, .east, by decide⟩⟩

theorem meets_TableAndFaultCommandsComplete :
    (∃ (s : State) (src : Source) (c : Nat) (env : Env) (es : List (BitVec 256)) (k : Nat), s.held = false ∧ src.wf = true ∧ c
      < 129 ∧ s.admission src .XLT_TBL_COMMIT c = .accept ∧ (s.beginCommit .xlt c).checkTable c env = (0, k, es)) ∧
    (∃ (s : State) (c : Nat) (t : List (BitVec 256)), s.held = false ∧ c < 129 ∧ (s.ctx c).next = some t ∧ (∀ m ∈ (s.ctx
      c).migs.head?, m.started = false)) ∧
    (∃ (s : State) (c : Nat), s.held = false ∧ c < 129 ∧ (∀ e ∈ s.oldEpochs, e.ctx = c → ∀ k ∈ e.slots, (s.inAccess c).contains
      k = false)) ∧
    (∃ (s : State) (c : Nat) (k : Nat × Nat) (rest : List (Nat × Nat)), s.held = false ∧ c < 128 ∧ (s.fltq c).writes = k ::
      rest ∧ (s.fltq c).raised = false) ∧
    (∃ (s : State) (c slot back : Nat) (rest : List (Nat × Nat)), s.held = false ∧ c < 128 ∧ (s.fltq c).writes = (slot, back)
      :: rest) ∧
    (∃ (s : State) (c k : Nat), s.held = false ∧ c < 129 ∧ s.fltEn c = true ∧ s.fltFull c = false ∧ s.oldestUnqueued c = some k) ∧
    (∃ (s : State) (src : Source) (p v : Nat), s.held = false ∧ src.wf = true ∧ p < 128 ∧ s.admission src .FLTQ_HEAD p =
      .accept ∧ (v % 2048 + 2048 - s.fltHead p) % 2048 ≤ (s.fltTail p + 2048 - s.fltHead p) % 2048) ∧
    (∃ (s : State) (src : Source) (p tag k : Nat), s.held = false ∧ src.wf = true ∧ p < 128 ∧ tag < 4294967296 ∧ s.admission
      src .FLTQ_RESUME p = .accept ∧ s.taggedSlot p tag = some k) ∧
    (∃ (s : State) (k : Nat), s.held = false ∧ s.mgmtHead ≠ s.mgmtTail ∧
      let b := sget [] s.mgmtRecs (s.mgmtHead % 1024)
      let u := ({ s with mgmtHead := (s.mgmtHead + 1) % 2048 } : State).record
        { cls := ecXLT, event := 4, inst := leAt b 8 2 % 512, part := 0xFF, op := 1, cursor := BitVec.ofNat 64 (leAt b 16 8),
          address := BitVec.ofNat 64 (leAt b 0 7), aux := bits (leAt b 7 1) 4 3 }
      u.taggedSlot 128 (leAt b 8 2) = some k) :=
  ⟨⟨up, .fw, 128, [], [], 0, by decide⟩,
   ⟨{ up with ctxs := [(128, { next := some [] })] }, 128, [], by decide⟩,
   ⟨{ up with oldEpochs := [⟨128, [], 0, [345]⟩] }, 128, by decide⟩,
   ⟨{ up with fltqs := [(127, { writes := [(0, 3)] })] }, 127, (0, 3), [], by decide⟩,
   ⟨{ up with fltqs := [(127, { writes := [(0, 3)] })] }, 127, 0, 3, [], by decide⟩,
   ⟨{ up with engs := [(345, { st := .unqueued, flt := { ctx := 128 } })] }, 128, 345, by decide⟩,
   ⟨up, .fw, 127, 2048, by decide⟩,
   ⟨{ up with engs := [(345, { st := .queued, flt := { ctx := 127, tag := 127 } })] }, .fw, 127, 127 * 512 + 345, 345,
     by decide⟩,
   ⟨{ up with mgmtTail := 1, mgmtRecs := [(0, leBytes 64 (345 * 2 ^ 64))], engs := [(345, { st := .queued, flt := { ctx := 128 } })] },
     345, by decide, by decide, by decide +kernel⟩⟩

theorem meets_MigrationCommandsComplete :
    (∃ (s : State) (src : Source) (p : Nat), s.held = false ∧ src.wf = true ∧ p < 128 ∧ s.admission src .XLT_MIG_GO p = .accept
      ∧ (s.ctx p).migs.length < 16) ∧
    (∃ (s : State) (c : Nat) (m : MigCmd) (r : List MigCmd) (l : List (Nat × Nat)), s.held = false ∧ c < 128 ∧ (s.ctx c).migs =
      m :: r ∧ m.toHost = false ∧ m.started = false ∧ (s.ctx c).next = none ∧ s.migPages c m = some l) ∧
    (∃ (s : State) (c : Nat) (m : MigCmd) (r : List MigCmd) (l : List (Nat × Nat)), s.held = false ∧ c < 128 ∧ (s.ctx c).migs =
      m :: r ∧ m.toHost = true ∧ m.started = false ∧ (s.ctx c).next = none ∧ s.migPages c m = some l) ∧
    (∃ (s : State) (c : Nat) (m : MigCmd) (r : List MigCmd) (l : List (Nat × Nat)), s.held = false ∧ c < 128 ∧ (s.ctx c).migs =
      m :: r ∧ m.toHost = true ∧ m.started = true ∧ m.moved = [] ∧ s.poolInUse c m.busy = false ∧ s.migPages c m = some l) ∧
    (∃ (s : State) (c k : Nat) (m : MigCmd) (r : List MigCmd), s.held = false ∧ c < 128 ∧ (s.ctx c).migs = m :: r ∧ m.started =
      true ∧ m.toHost = false ∧ k < m.busy.length ∧ k < 65536) ∧
    (∃ (s : State) (c k : Nat) (m : MigCmd) (r : List MigCmd), s.held = false ∧ c < 128 ∧ (s.ctx c).migs = m :: r ∧ m.started =
      true ∧ m.toHost = true ∧ k < m.busy.length) ∧
    (∃ (s : State) (c : Nat) (m : MigCmd) (r : List MigCmd), s.held = false ∧ c < 128 ∧ (s.ctx c).migs = m :: r ∧ m.started =
      true ∧ m.moved = m.busy ∧ m.resume = false ∧ m.toHost = true) ∧
    (∃ (s : State) (c : Nat) (m : MigCmd) (r : List MigCmd), s.held = false ∧ c < 128 ∧ (s.ctx c).migs = m :: r ∧ m.started =
      true ∧ m.moved = m.busy ∧ m.resume = false ∧ m.toHost = false) :=
  ⟨⟨up, .fw, 127, by decide⟩,
   ⟨migrating (move false false []), 127, move false false [], [], [(0, 0)], by decide⟩,
   ⟨migrating (move true false []), 127, move true false [], [], [(0, 0)], by decide⟩,
   ⟨migrating (move true true []), 127, move true true [], [], [(0, 0)], by decide⟩,
   ⟨migrating (move false true [0]), 127, 0, move false true [0], [], by decide⟩,
   ⟨migrating (move true true [0]), 127, 0, move true true [0], [], by decide⟩,
   ⟨migrating (move true true []), 127, move true true [], [], by decide⟩,
   ⟨migrating (move false true []), 127, move false true [], [], by decide⟩⟩

theorem meets_DriveCommandsComplete :
    (∃ (s : State) (d : Nat), s.held = false ∧ d < 8 ∧ s.drive d = dvABSENT) ∧
    (∃ (s : State) (d n : Nat) (i : DriveId), s.held = false ∧ d < 8 ∧ s.drive d = dvINIT ∧ 0x20000 ≤ i.version ∧ i.nvm = true ∧
      i.lbaBytes = 4096 ∧ i.metadata = 0 ∧ 16 ≤ n ∧ 256 ≤ i.depth ∧ (s.fld F.TIER_N_STATE_LINK_WIDTH d = 4 ∨ s.fld
      F.TIER_N_STATE_LINK_WIDTH d = 8) ∧ 4 ≤ s.fld F.TIER_N_STATE_LINK_GEN d ∧ s.fld F.TIER_N_STATE_LINK_GEN d ≤ 6) ∧
    (∃ (s : State) (d n : Nat) (i : DriveId), s.held = false ∧ d < 8 ∧ s.drive d = dvINIT ∧ s.driveOk d n i = false) ∧
    (∃ (s : State) (d : Nat), s.held = false ∧ d < 8 ∧ s.drive d = dvINIT) ∧
    (∃ (s : State) (d : Nat), s.held = false ∧ d < 8 ∧ s.drive d = dvREADY) ∧
    (∃ (s : State) (d : Nat), s.held = false ∧ d < 8 ∧ s.drive d = dvREADY) ∧
    (∃ (s : State) (d : Nat), s.held = false ∧ d < 8 ∧ s.drive d = dvRECOVER) ∧
    (∃ (s : State) (src : Source) (d : Nat), s.held = false ∧ src.wf = true ∧ d < 8 ∧ s.admission src .TIER_N_CTRL d = .accept
      ∧ s.drive d = dvREADY) ∧
    (∃ (s : State) (src : Source) (d : Nat), s.held = false ∧ src.wf = true ∧ d < 8 ∧ s.admission src .TIER_N_CTRL d = .accept
      ∧ s.drive d = dvOFFLINE) ∧
    (∃ (s : State) (src : Source) (d : Nat), s.held = false ∧ src.wf = true ∧ d < 8 ∧ s.admission src .TIER_N_CTRL d = .accept
      ∧ s.drive d = dvFAILED) ∧
    (∃ (s : State) (d : Nat), s.held = false ∧ d < 8) :=
  ⟨⟨up.setFld F.TIER_N_STATE_STATE dvABSENT 7, 7, by decide⟩,
   ⟨((up.setFld F.TIER_N_STATE_STATE dvINIT 7).setFld F.TIER_N_STATE_LINK_WIDTH 8 7).setFld F.TIER_N_STATE_LINK_GEN 6 7, 7, 16,
     ⟨0x20000, true, 4096, 0, 1, 256⟩, by decide⟩,
   ⟨up.setFld F.TIER_N_STATE_STATE dvINIT 7, 7, 15, ⟨0x20000, true, 4096, 0, 1, 256⟩, by decide⟩,
   ⟨up.setFld F.TIER_N_STATE_STATE dvINIT 7, 7, by decide⟩,
   ⟨up.setFld F.TIER_N_STATE_STATE dvREADY 7, 7, by decide⟩,
   ⟨up.setFld F.TIER_N_STATE_STATE dvREADY 7, 7, by decide⟩,
   ⟨up.setFld F.TIER_N_STATE_STATE dvRECOVER 7, 7, by decide⟩,
   ⟨up.setFld F.TIER_N_STATE_STATE dvREADY 7, .fw, 7, by decide⟩,
   ⟨up.setFld F.TIER_N_STATE_STATE dvOFFLINE 7, .fw, 7, by decide⟩,
   ⟨up.setFld F.TIER_N_STATE_STATE dvFAILED 7, .fw, 7, by decide⟩,
   ⟨up, 7, by decide⟩⟩

theorem meets_MemoryUpkeepCommandsComplete :
    (∃ (s : State) (src : Source), s.held = false ∧ src.wf = true ∧ s.admission src .TIER_T0_COMMIT 0 = .accept ∧
      (s.beginCommit .stage 0).stageCheck = 0) ∧
    (∃ (s : State) (src : Source), s.held = false ∧ src.wf = true ∧ s.admission src .TIER_T0_COMMIT 0 = .accept ∧
      (s.beginCommit .stage 0).stageCheck ≠ 0) ∧
    (∃ (s : State) (k : Nat), s.held = false ∧ 16 ≤ k ∧ k < 32 ∧ s.fld ⟨.TIER_T1_STATUS, 2 * (k - 16), 2⟩ ≠ 2) ∧
    (∃ (s : State) (k : Nat), s.held = false ∧ k < 8 ∧ s.fld ⟨.TIER_T0_STATUS, 2 * k, 2⟩ ≠ 2) ∧
    (∃ (s : State) (off : Nat), s.held = false ∧ off < t0Size) ∧
    (∃ (s : State) (off : Nat), s.held = false ∧ off < t0Size) ∧
    (∃ (s : State) (off : Nat) (err : List Byte), s.held = false ∧ off < t0Size ∧ s.halfDown (s.homeHalf (64 * (off / 64))) =
      false ∧ s.memFailed (64 * (off / 64)) = false ∧ s.mem.poisoned (off / 64) = false ∧ codeT0.wrong err ≠ [] ∧ (codeT0.wrong
      err).length ≤ 4) ∧
    (∃ (s : State) (off : Nat) (err : List Byte), s.held = false ∧ within (64 * (off / 64)) 64 t1Base s.t1Size = true ∧
      s.halfDown (s.homeHalf (64 * (off / 64))) = false ∧ s.memFailed (64 * (off / 64)) = false ∧ codeT1.wrong err ≠ [] ∧
      (s.mem.poisoned (off / 64) = true ∨ 8 < (codeT1.wrong err).length)) ∧
    (∃ s : State, s.held = false) :=
  ⟨⟨up, .fw, by decide⟩,
   ⟨up.setFld F.CUR_STATE_STATE pgPARKED 63, .fw, by decide⟩,
   ⟨up, 31, by decide⟩,
   ⟨up, 7, by decide⟩,
   ⟨up, 0, by decide⟩,
   ⟨up, t0Size - 1, by decide⟩,
   ⟨up, 0, [0#8, 1#8], by decide +kernel⟩,
   ⟨(up.setFlag F.TIER_T1_INFO_POPULATED true).setFld F.TIER_T1_INFO_DIMM_GIB 64, t1Base, List.replicate 9 1#8,
     by decide +kernel⟩,
   ⟨up, by decide⟩⟩

theorem meets_TileMoveCommandsComplete :
    (∃ (s : State) (k ch c : Nat) (w : WorkSrc) (d : Desc), s.held = false ∧ s.waitingMoves[k]? = some (c, w, d) ∧ s.pickMove
      opCopyTile = some (k, ch)) ∧
    (∃ (s : State) (k ch c : Nat) (w : WorkSrc) (d : Desc), s.held = false ∧ s.waitingMoves[k]? = some (c, w, d) ∧ s.pickMove
      opCopyRaw = some (k, ch)) ∧
    (∃ (s : State) (ch : Nat) (env : Env), s.held = false ∧ ch < 64 ∧ (s.chan ch).phase = .t2Read ∧ (s.chan ch).desc.op =
      opCopyRaw ∧
      let d := (s.chan ch).desc
      let n := lbasOf d.extent * 4096
      let r := envRead env (.drive (t2Of d.src).1) ((t2Of d.src).2 * 4096) n
      r.err = false) ∧
    (∃ (s : State) (ch : Nat) (env : Env), s.held = false ∧ ch < 64 ∧
      let u := s.codewords 4 env
      let x := u.chan ch
      x.phase = .reading ∧ x.poison = [] ∧ (x.desc.srcKind = ekT2 ∨ x.desc.srcKind = ekTSP) ∧
      let whole := if x.desc.op = opCopyRaw then x.desc.extent else (hdrOf x.buf).extent
      let b := slice x.buf x.desc.bodyFrom (whole - x.desc.bodyFrom)
      (x.desc.op = opCopyTile → crc32c b = (hdrOf x.buf).crc)) ∧
    (∃ (s : State) (ch : Nat) (env : Env), s.held = false ∧ ch < 64 ∧
      let u := s.codewords 4 env
      let x := u.chan ch
      let r := u.readEnd x.ctx x.desc.srcKind (x.desc.src + x.desc.bodyFrom) (x.desc.extent - x.desc.bodyFrom) env (u.moveView ch)
      x.phase = .reading ∧ x.desc.op = opCopyRaw ∧ x.desc.srcKind ≠ ekT2 ∧ x.desc.srcKind ≠ ekTSP ∧ r.refused = none ∧ r.err =
      false) ∧
    (∃ (s : State) (ch : Nat), s.held = false ∧ ch < 64 ∧ (s.chan ch).phase = .writing ∧ s.awaits (.chan ch) = false ∧
      (s.takeFails (.chan ch)).2 = [] ∧ (s.chan ch).keyed = false) ∧
    (∃ (s : State) (ch : Nat), s.held = false ∧ ch < 64 ∧ (s.chan ch).phase = .t2Body) ∧
    (∃ (s : State) (ch : Nat), s.held = false ∧ ch < 64 ∧ (s.chan ch).phase = .t2Header) ∧
    (∃ (s : State) (ch : Nat), s.held = false ∧ ch < 64 ∧ (s.chan ch).phase = .header ∧ s.awaits (.chan ch) = false ∧
      (s.takeFails (.chan ch)).2 = []) ∧
    (∃ (s : State) (ch : Nat) (q : PortTile) (rest : List PortTile), s.held = false ∧ ch < 64 ∧ (s.chan ch).phase = .waitTsp ∧
      let t := tspOf (s.chan ch).desc.src
      s.inTiles t.1 t.2 = q :: rest ∧ q.data.length ≤ (s.chan ch).desc.extent ∧ (q.poison.any (· < 4) = true ∨ (hdrOf
      q.data).extent = q.data.length)) ∧
    (∃ (s : State) (p q : Nat) (r : CqRec) (rest : List CqRec), s.held = false ∧ p < 128 ∧ q < 16 ∧ (s.queue p q).records = r
      :: rest ∧ (r.irq = false ∨ (s.queue p q).raised = true)) :=
  ⟨⟨{ up with waitingMoves := [(5, .none, { op := opCopyTile })] }, 0, 16, 5, .none, { op := opCopyTile }, by decide⟩,
   ⟨{ up with waitingMoves := [(5, .none, { op := opCopyRaw })] }, 0, 16, 5, .none, { op := opCopyRaw }, by decide⟩,
   ⟨{ up with chans := [(63, { phase := .t2Read, desc := { op := opCopyRaw, srcKind := ekT2, extent := 64 } })] }, 63, [⟨.drive
     0, 0, List.replicate 4096 0#8, [], false, false⟩], by decide, by decide, by decide, by decide, by decide +kernel⟩,
   ⟨{ up with chans := [(63, { phase := .reading, desc := { op := opCopyTile, srcKind := ekT2 }, buf := List.replicate 256 0#8 })] },
     63, [], by decide, by decide, by decide, by decide, by decide, by decide +kernel⟩,
   ⟨{ up with chans := [(63, { phase := .reading, ctx := 5, desc := { op := opCopyRaw, srcKind := ekGPA, src := 2 ^ 48, extent := 64 } })] },
     63, [⟨.node 1, 0, List.replicate 64 0#8, [], false, false⟩], by decide, by decide, by decide +kernel, by decide +kernel,
     by decide +kernel, by decide +kernel, by decide +kernel, by decide +kernel⟩,
   ⟨{ up with chans := [(63, { phase := .writing, desc := { op := opCopyRaw } })] }, 63, by decide⟩,
   ⟨{ up with chans := [(63, { phase := .t2Body })] }, 63, by decide⟩,
   ⟨{ up with chans := [(63, { phase := .t2Header })] }, 63, by decide⟩,
   ⟨{ up with chans := [(63, { phase := .header })] }, 63, by decide⟩,
   ⟨{ up with chans := [(63, { phase := .waitTsp, desc := { op := opCopyTile, extent := 256 } })], tspIn := [(0, [{ data := List.replicate 256 0#8, poison := [0] }])] },
     63, { data := List.replicate 256 0#8, poison := [0] }, [], by decide, by decide, by decide, by decide +kernel,
     by decide +kernel, by decide +kernel⟩,
   ⟨{ up with queues := [(qInst 127 15, { records := [⟨[], false⟩] })] }, 127, 15, ⟨[], false⟩, [], by decide⟩⟩

theorem meets_ProgramCommandsComplete :
    (∃ (s t u v w : State) (src : Source) (n part : Nat) (env : Env) (d : List Byte) (ls : List (Nat × Nat × List (List Byte)))
      (raw : List (List (List Byte))) (hs : List (List HEntry)), s.held = false ∧ src.wf = true ∧ n < 64 ∧ part < 128 ∧
      s.admission src .DA_CMD 0 = .accept ∧ t = s.codewords 1 env ∧ t.flag F.DA_CMD_STATUS_BUSY = false ∧ t.pstate n = pgEMPTY ∧
      t.peek part (t.fld F.DA_CMD_ARG_VA * 64) 64 env = (u, some d) ∧ descCheck d = rsOK ∧ State.readLayers part (leAt d 8 8)
      (leAt d 6 2) (leAt d 0x18 4) env (leAt d 4 2) 0 u = (v, .inr ls) ∧ v.fld F.PRF_PROG_CFG_LEAD n < ls.length ∧
      State.readHampers part env 0 ls v = (w, .inr raw) ∧ w.checkHampers n raw = .inr hs) ∧
    (∃ (s : State) (src : Source) (n part : Nat), s.held = false ∧ src.wf = true ∧ n < 64 ∧ part < 128 ∧ s.admission src
      .DA_CMD 0 = .accept ∧ s.flag F.DA_CMD_STATUS_BUSY = false ∧ (s.prog n).part = part ∧ s.pstate n = pgPARKED ∧
      s.takenOwn.contains n = false) ∧
    (∃ (s : State) (src : Source) (n part : Nat), s.held = false ∧ src.wf = true ∧ n < 64 ∧ part < 128 ∧ s.admission src
      .DA_CMD 0 = .accept ∧ s.flag F.DA_CMD_STATUS_BUSY = false ∧ (s.prog n).part = part ∧ (s.pstate n = pgRUNNING ∨ s.pstate n
      = pgSTALLED)) ∧
    (∃ (s : State) (src : Source) (n part : Nat), s.held = false ∧ src.wf = true ∧ n < 64 ∧ part < 128 ∧ s.admission src
      .DA_CMD 0 = .accept ∧ s.flag F.DA_CMD_STATUS_BUSY = false ∧ (s.prog n).part = part ∧ (s.pstate n = pgRUNNING ∨ s.pstate n
      = pgSTALLED)) ∧
    (∃ (s : State) (src : Source) (n part : Nat), s.held = false ∧ src.wf = true ∧ n < 64 ∧ part < 128 ∧ s.admission src
      .DA_CMD 0 = .accept ∧ s.flag F.DA_CMD_STATUS_BUSY = false ∧ (s.prog n).part = part ∧ (s.pstate n = pgPARKED ∨ s.pstate n =
      pgHALTED)) ∧
    (∃ (s : State) (src : Source) (n part : Nat), s.held = false ∧ src.wf = true ∧ n < 64 ∧ part < 128 ∧ s.admission src
      .DA_CMD 0 = .accept ∧ s.flag F.DA_CMD_STATUS_BUSY = false ∧ (s.prog n).part = part ∧ (s.pstate n = pgPARKED ∨ s.pstate n =
      pgHALTED)) ∧
    (∃ (s : State) (src : Source) (op : Nat), s.held = false ∧ src.wf = true ∧ (op = 0 ∨ 7 ≤ op) ∧ op < 16 ∧ s.admission src
      .DA_CMD 0 = .accept ∧ s.flag F.DA_CMD_STATUS_BUSY = false) ∧
    (∃ (s : State) (src : Source) (op : Nat), s.held = false ∧ src.wf = true ∧ (op = 0 ∨ 7 ≤ op) ∧ op < 16 ∧ s.admission src
      .DA_CMD 0 = .accept ∧ s.flag F.DA_CMD_STATUS_BUSY = false) ∧
    (∃ (s : State) (e num status : Nat) (rest : List (Nat × Nat × Nat)), s.held = false ∧ s.prfDone = (e, num, status) :: rest) ∧
    (∃ s : State, s.held = false) :=
  ⟨⟨loadable, _, _, _, _, .fw, 63, 5, [], progDesc, [(0, 0, [phase])], [[]], [[]], by decide +kernel, by decide, by decide,
    by decide, by decide +kernel, rfl, by decide +kernel, by decide +kernel, fst_of (by decide +kernel), by decide +kernel,
    fst_of (by decide +kernel), by decide +kernel, fst_of (by decide +kernel), by decide +kernel⟩,
   ⟨running pgPARKED {}, .fw, 63, 5, by decide⟩,
   ⟨running pgRUNNING {}, .fw, 63, 5, by decide⟩,
   ⟨running pgSTALLED {}, .fw, 63, 5, by decide⟩,
   ⟨running pgPARKED {}, .fw, 63, 5, by decide⟩,
   ⟨running pgHALTED {}, .fw, 63, 5, by decide⟩,
   ⟨up, .fw, 0, by decide⟩,
   ⟨up, .fw, 7, by decide⟩,
   ⟨{ up with prfDone := [(0, 0, 0)] }, 0, 0, 0, [], by decide⟩,
   ⟨up, by decide⟩⟩

theorem meets_SequenceCommandsComplete :
    (∃ (s u : State) (src : Source) (n part slot : Nat) (env : Env) (b : List Byte), s.held = false ∧ src.wf = true ∧ n < 64 ∧
      part < 128 ∧ slot < 1024 ∧ s.admission src .DA_CMD 0 = .accept ∧ s.flag F.DA_CMD_STATUS_BUSY = false ∧ s.pstate n =
      pgPARKED ∧ (s.prog n).part = part ∧ s.peek (s.prog n).ctx (s.fld F.DA_CMD_ARG_VA * 64) 64 env = (u, some b) ∧ slot <
      (s.prog n).maxSeqs ∧ (s.prog n).occupied slot = false ∧ seqOk (s.prog n) slot b = true ∧ u.live n = false) ∧
    (∃ (s : State) (src : Source) (n part slot : Nat), s.held = false ∧ src.wf = true ∧ n < 64 ∧ part < 128 ∧ slot < 1024 ∧
      s.admission src .DA_CMD 0 = .accept ∧ s.flag F.DA_CMD_STATUS_BUSY = false ∧ s.pstate n = pgRUNNING ∧ (s.prog n).part =
      part ∧ (s.prog n).occupied slot = true ∧ s.live n = true) ∧
    (∃ (s : State) (src : Source) (n v : Nat), s.held = false ∧ src.wf = true ∧ n < 64 ∧ v < 65536 ∧ s.admission src
      .DA_PROG_RING_HEAD n = .accept ∧ s.pstate n ≠ pgEMPTY ∧ s.flag F.DA_PROG_STATUS_RING_WAIT n = false ∧ headOk (s.prog
      n).ringSize (s.fld F.DA_PROG_RING_HEAD_INDEX n) (s.fld F.DA_PROG_RING_TAIL_INDEX n) v = true) ∧
    (∃ (s : State) (src : Source) (n : Nat), s.held = false ∧ src.wf = true ∧ n < 64 ∧ s.admission src .CUR_MATCH_CTRL n =
      .accept) ∧
    (∃ (s : State) (h : Half) (u : Nat × Word), s.held = false ∧ (s.cursorOut.find? fun u => u.1 == halfNum h) = some u) :=
  ⟨⟨((mapped 5).writeMem 0 sequence).1 |> fun s =>
    { s.setFld F.CUR_STATE_STATE pgPARKED 63 with progs := [(63, { part := 5, maxSeqs := 1 })] }, _, .fw, 63, 5, 0, [],
    sequence, by decide, by decide, by decide, by decide, by decide, by decide +kernel, by decide +kernel, by decide +kernel,
    by decide +kernel, fst_of (by decide +kernel), by decide +kernel, by decide +kernel, by decide +kernel, by decide +kernel⟩,
   ⟨running pgRUNNING { seqs := [seqOf 1023 sequence] }, .fw, 63, 5, 1023, by decide⟩,
   ⟨running pgRUNNING { ringSize := 1024 }, .fw, 63, 0, by decide⟩,
   ⟨up, .fw, 63, by decide⟩,
   ⟨{ up with cursorOut := [(1, 0)] }, .west, (1, 0), by decide⟩⟩

theorem meets_CursorCommandsComplete :
    (∃ (s : State) (n : Nat), s.held = false ∧ n < 64 ∧ s.phaseDone n = true ∧ s.mayIssue n = true) ∧
    (∃ (s : State) (n l h : Nat) (d : List Byte) (guess : List (List Nat)) (rest : List Nat), s.held = false ∧ n < 64 ∧ (∀ g ∈
      guess, ∀ e ∈ g, e < 256) ∧ (s.prog n).spec = l :: rest ∧ s.live n = true ∧ s.mayIssue n = true ∧ s.routerPresent n l =
      true ∧ s.routePhase n l = some d ∧ ([0, 1].find? fun h => s.arrayFree (s.prog n).part h (s.specCycles n l)) = some h) :=
  ⟨⟨running pgRUNNING { begun := true }, 63, by decide⟩,
   ⟨(running pgRUNNING { spec := [0], layers := [{ phases := [leBytes 64 8] }] }).setFld F.DA_ARR_STATUS_STATE arPOOL 0, 63, 0,
     0, leBytes 64 8, [[255]], [], by decide, by decide, by decide, by decide, by decide, by decide, by decide +kernel,
     by decide +kernel, by decide +kernel⟩⟩

theorem meets_ArrayRunCommandsComplete :
    (∃ (s : State) (a n : Nat) (it : Item) (env : Env), s.held = false ∧ a < 256 ∧
      let v := s.codewords 5 env
      let w := (v.beginPhases env).beginLora a env
      let u := w.livePrograms.foldl State.splitPhase w
      v.astate a = arPOOL ∧ v.thermtrip = false ∧ (v.engResets.any fun r => r.cls == 0 && r.inst == a) = false ∧ u.astate a =
      arPOOL ∧ u.pickArb a = some (n, it)) ∧
    (∃ (s : State) (a n : Nat) (it : Item) (env : Env), s.held = false ∧ a < 256 ∧
      let v := s.codewords 5 env
      let w := (v.beginPhases env).beginLora a env
      let u := w.livePrograms.foldl State.splitPhase w
      v.astate a = arPOOL ∧ v.thermtrip = false ∧ (v.engResets.any fun r => r.cls == 0 && r.inst == a) = false ∧ u.astate a =
      arPOOL ∧ u.pickArb a = none ∧ u.pickItem (a / 128) = some (n, it)) ∧
    (∃ (s : State) (a n num : Nat) (arb : Bool) (run : RunRes) (it : Item) (hw : RunHw), s.held = false ∧ a < 256 ∧ (s.arr
      a).job = .item n num arb ∧ (s.arr a).cur = some run ∧ s.astate a = arBUSY ∧ s.awaits (.kv a) = false ∧ (s.takeFails (.kv
      a)).2 = [] ∧ run.fail = 0 ∧ run.wait = false ∧
      let f := (s.takeFails (.kv a)).1
      let fmt := ((f.item n num).map fun it => (f.itemTile n it).1).getD 0
      let r := run.seenBy hw (f.seenAt a fmt)
      let u := (((f.wrap F.DA_ITEMS_DONE_COUNT).wrap F.DA_ARR_ITEMS_COUNT a).wrap F.DA_PROG_ITEMS_COUNT n).releaseArray a
      r.fail = 0 ∧ r.wait = false ∧ u.item n num = some it ∧ arb = false) ∧
    (∃ (s : State) (a n num : Nat) (arb : Bool) (run : RunRes) (it : Item) (hw : RunHw), s.held = false ∧ a < 256 ∧ (s.arr
      a).job = .item n num arb ∧ (s.arr a).cur = some run ∧ s.astate a = arBUSY ∧ s.awaits (.kv a) = false ∧ (s.takeFails (.kv
      a)).2 = [] ∧ run.fail = 0 ∧ run.wait = false ∧
      let f := (s.takeFails (.kv a)).1
      let fmt := ((f.item n num).map fun it => (f.itemTile n it).1).getD 0
      let r := run.seenBy hw (f.seenAt a fmt)
      let u := (((f.wrap F.DA_ITEMS_DONE_COUNT).wrap F.DA_ARR_ITEMS_COUNT a).wrap F.DA_PROG_ITEMS_COUNT n).releaseArray a
      r.fail = 0 ∧ r.wait = false ∧ u.item n num = some it ∧ arb = true) ∧
    (∃ (s : State) (h : Half) (x : Nat × Nat × RunRes), s.held = false ∧ (s.bridge.find? fun x => x.2.2.arr / 128 == 1 -
      halfNum h) = some x) ∧
    (∃ (s : State) (a b n num : Nat) (it : Item), s.held = false ∧ a < 256 ∧ (s.arr a).job = .item n num false ∧ s.item n num =
      some it ∧ s.astate a = arBUSY ∧ it.dup = false ∧ it.closed = false ∧ it.runs = [] ∧ s.live n = true ∧ s.mayIssue n = true
      ∧ s.thermtrip = false ∧ (s.idleArrays it.staged ++ s.idleArrays it.halves).head? = some b) ∧
    (∃ (s : State) (a n num : Nat) (arb : Bool) (it : Item) (r : RunRes), s.held = false ∧ a < 256 ∧ (s.arr a).job = .item n
      num arb ∧ s.item n num = some it ∧ it.dup = true ∧ it.closed = false ∧ it.taken = some r ∧ it.trig = .none) ∧
    (∃ (s : State) (n : Nat) (it : Item), s.held = false ∧ (s.livePrograms.findSome? fun n => ((s.prog n).items.find? fun it =>
      it.recomp).map fun it => (n, it)) = some (n, it) ∧ phOp (s.curDesc n) = phATTN) ∧
    (∃ (s : State) (n : Nat) (it : Item), s.held = false ∧ (s.livePrograms.findSome? fun n => ((s.prog n).items.find? fun it =>
      it.recomp).map fun it => (n, it)) = some (n, it) ∧ ∃ u : State, phOp (s.curDesc n) ≠ phATTN ∧ s.recompute n it.slot = (u,
      true)) ∧
    (∃ (s : State) (n : Nat) (it : Item), s.held = false ∧ (s.livePrograms.findSome? fun n => ((s.prog n).items.find? fun it =>
      it.recomp).map fun it => (n, it)) = some (n, it) ∧ ∃ u : State, phOp (s.curDesc n) ≠ phATTN ∧ s.recompute n it.slot = (u,
      false)) :=
  ⟨⟨pooled { begun := true, items := [{ item with arb := true, issued := true }] }, 0, 63,
    { item with arb := true, issued := true }, [], by decide, by decide, by decide, by decide, by decide, by decide +kernel,
    by decide +kernel⟩,
   ⟨pooled { begun := true, items := [item] }, 0, 63, item, [], by decide, by decide, by decide, by decide, by decide,
     by decide +kernel, by decide +kernel, by decide +kernel⟩,
   ⟨{ (running pgRUNNING { items := [item] }).setFld F.DA_ARR_STATUS_STATE arBUSY 255 with arrs := [(255, { job := .item 63 0 false, cur := some { arr := 255 } })] },
     255, 63, 0, false, { arr := 255 }, item, {}, by decide⟩,
   ⟨{ (running pgRUNNING { items := [item] }).setFld F.DA_ARR_STATUS_STATE arBUSY 255 with arrs := [(255, { job := .item 63 0 true, cur := some { arr := 255 } })] },
     255, 63, 0, true, { arr := 255 }, item, {}, by decide⟩,
   ⟨{ up with bridge := [(0, 0, { arr := 255 })] }, .east, (0, 0, { arr := 255 }), by decide⟩,
   ⟨{ (pooled { items := [item] }).setFld F.DA_ARR_STATUS_STATE arBUSY 1 with arrs := [(1, { job := .item 63 0 false })] }, 1,
     0, 63, 0, item, by decide, by decide, by decide, by decide, by decide, by decide, by decide, by decide, by decide,
     by decide, by decide, by decide +kernel⟩,
   ⟨{ running pgRUNNING { items := [{ item with dup := true, taken := some { arr := 0 } }] } with arrs := [(255, { job := .item 63 0 false })] },
     255, 63, 0, false, { item with dup := true, taken := some { arr := 0 } }, { arr := 0 }, by decide⟩,
   ⟨recomputing [leBytes 64 phATTN], 63, { item with recomp := true }, by decide +kernel⟩,
   ⟨recomputing [leBytes 64 phGEMM], 63, { item with recomp := true }, by decide +kernel, by decide +kernel, _,
     by decide +kernel, fst_of (by decide +kernel)⟩,
   ⟨running pgRUNNING { items := [{ item with recomp := true }] }, 63, { item with recomp := true }, by decide, by decide, _,
     by decide, rfl⟩⟩

theorem meets_ArrayServiceCommandsComplete :
    (∃ (s : State) (src : Source) (a : Nat), s.held = false ∧ src.wf = true ∧ a < 256 ∧ s.admission src .DA_ARR_CTRL a =
      .accept ∧ (s.astate a = arPOOL ∨ s.astate a = arSLOW)) ∧
    (∃ (s : State) (src : Source) (a : Nat), s.held = false ∧ src.wf = true ∧ a < 256 ∧ s.admission src .DA_ARR_CTRL a =
      .accept ∧ (s.astate a = arPOOL ∨ s.astate a = arSLOW)) ∧
    (∃ (s : State) (src : Source) (a : Nat), s.held = false ∧ src.wf = true ∧ a < 256 ∧ s.admission src .DA_ARR_CTRL a =
      .accept ∧ s.astate a = arOFFLINE ∧ s.halfUp (ofHalfNum (a / 128)) = true) ∧
    (∃ (s : State) (src : Source) (a : Nat), s.held = false ∧ src.wf = true ∧ a < 256 ∧ s.admission src .DA_ARR_CTRL a =
      .accept ∧ s.astate a = arSLOW) :=
  ⟨⟨up.setFld F.DA_ARR_STATUS_STATE arPOOL 255, .fw, 255, by decide⟩,
   ⟨up.setFld F.DA_ARR_STATUS_STATE arSLOW 255, .fw, 255, by decide⟩,
   ⟨up.setFld F.DA_ARR_STATUS_STATE arOFFLINE 255, .fw, 255, by decide⟩,
   ⟨up.setFld F.DA_ARR_STATUS_STATE arSLOW 255, .fw, 255, by decide⟩⟩

theorem meets_TasterCommandsComplete :
    (∃ s : State, s.held = false ∧ (s.progs.any fun e => s.pstate e.1 == pgRUNNING) = false) ∧
    (∃ (s : State) (a res : Nat) (t : TestSt), s.held = false ∧ a < 256 ∧ res < 4 ∧ (s.arr a).test = some t ∧ t.retest = false) ∧
    (∃ (s : State) (a e w : Nat) (t : TestSt), s.held = false ∧ a < 256 ∧ (s.arr a).test = some t ∧ t.retest = true ∧ (s.arr
      a).retest = some (e, w)) ∧
    (∃ (s : State) (a e w : Nat), s.held = false ∧ a < 256 ∧ (s.arr a).retest = some (e, w) ∧ (s.arr a).test = none) ∧
    (∃ (s : State) (src : Source), s.held = false ∧ src.wf = true ∧ s.admission src .TST_SWEEP_CTRL 0 = .accept ∧ (s.progs.any
      fun e => s.live e.1) = false) ∧
    (∃ (s : State) (k : Nat) (w : SweepSt), s.held = false ∧ s.sweeps[k]? = some w ∧ w.stage + 1 < 3) ∧
    (∃ (s : State) (k : Nat) (w : SweepSt), s.held = false ∧ s.sweeps[k]? = some w ∧ 3 ≤ w.stage + 1) :=
  ⟨⟨up, by decide⟩,
   ⟨{ up with arrs := [(255, { test := some { ref := 0, opclass := 0, retest := false } })] }, 255, 3,
     { ref := 0, opclass := 0, retest := false }, by decide⟩,
   ⟨{ up with arrs := [(255, { test := some { ref := 0, opclass := 0, retest := true }, retest := some (0, 0) })] }, 255, 0, 0,
     { ref := 0, opclass := 0, retest := true }, by decide⟩,
   ⟨{ up with arrs := [(255, { retest := some (0, 0) })] }, 255, 0, 0, by decide⟩,
   ⟨up, .fw, by decide⟩,
   ⟨{ up with sweeps := [{ half := 0, array := none, arrays := [], stage := 1 }] }, 0,
     { half := 0, array := none, arrays := [], stage := 1 }, by decide⟩,
   ⟨{ up with sweeps := [{ half := 0, array := none, arrays := [], stage := 2 }] }, 0,
     { half := 0, array := none, arrays := [], stage := 2 }, by decide⟩⟩

theorem meets_ScoopTableCommandsComplete :
    (∃ (s u : State) (src : Source) (t part : Nat) (env : Env) (d : List Byte), s.held = false ∧ src.wf = true ∧ t < 1024 ∧
      part < 128 ∧ s.admission src .SCP_CMD 0 = .accept ∧ s.flag F.SCP_CMD_STATUS_BUSY = false ∧ ((s.tbl t).owner = none ∨
      (s.tbl t).owner = some part) ∧ s.flag F.SCP_TBL_STATUS_OLD_DRAINED t = true ∧ s.peek part (s.fld F.SCP_CMD_ARG_VA * 64) 64
      env = (u, some d) ∧ tableCheck d = srOK) ∧
    (∃ (s : State) (src : Source) (t part : Nat), s.held = false ∧ src.wf = true ∧ t < 1024 ∧ part < 128 ∧ s.admission src
      .SCP_CMD 0 = .accept ∧ s.flag F.SCP_CMD_STATUS_BUSY = false ∧ (s.tbl t).owner = some part ∧ s.flag F.SCP_TBL_STATUS_STAGED
      t = true) ∧
    (∃ (s : State) (src : Source) (t part : Nat), s.held = false ∧ src.wf = true ∧ t < 1024 ∧ part < 128 ∧ s.admission src
      .SCP_CMD 0 = .accept ∧ s.flag F.SCP_CMD_STATUS_BUSY = false ∧ (s.tbl t).owner = some part ∧ s.flag F.SCP_TBL_STATUS_VALID
      t = true) ∧
    (∃ (s : State) (src : Source) (op : Nat), s.held = false ∧ src.wf = true ∧ (op = 0 ∨ 4 ≤ op) ∧ op < 16 ∧ s.admission src
      .SCP_CMD 0 = .accept ∧ s.flag F.SCP_CMD_STATUS_BUSY = false) ∧
    (∃ (s : State) (src : Source) (op : Nat), s.held = false ∧ src.wf = true ∧ (op = 0 ∨ 4 ≤ op) ∧ op < 16 ∧ s.admission src
      .SCP_CMD 0 = .accept ∧ s.flag F.SCP_CMD_STATUS_BUSY = false) ∧
    (∃ (s : State) (t : Nat), s.held = false ∧ t < 1024 ∧ s.flag F.SCP_TBL_STATUS_OLD_DRAINED t = false ∧ s.oldLatched t =
      false) :=
  ⟨⟨((mapped 5).writeMem 0 tableDesc).1.setFlag F.SCP_TBL_STATUS_OLD_DRAINED true 1023, _, .fw, 1023, 5, [], tableDesc,
    by decide, by decide, by decide, by decide, by decide +kernel, by decide +kernel, by decide +kernel, by decide +kernel,
    fst_of (by decide +kernel), by decide +kernel⟩,
   ⟨{ up with tbls := [(1023, { owner := some 5 })] }.setFlag F.SCP_TBL_STATUS_STAGED true 1023, .fw, 1023, 5, by decide⟩,
   ⟨{ up with tbls := [(1023, { owner := some 5 })] }.setFlag F.SCP_TBL_STATUS_VALID true 1023, .fw, 1023, 5, by decide⟩,
   ⟨up, .fw, 0, by decide⟩,
   ⟨up, .fw, 4, by decide⟩,
   ⟨up.setFlag F.SCP_TBL_STATUS_OLD_DRAINED false 1023, 1023, by decide⟩⟩

theorem meets_ScoopEngineCommandsComplete :
    (∃ (s u : State) (c e : Nat) (w : WorkSrc) (b : List Byte), s.held = false ∧ s.scoopChoose none = some e ∧ s.takeEntry 0x20
      false = some (u, c, w, b)) ∧
    (∃ (s u : State) (c e : Nat) (w : WorkSrc) (b : List Byte), s.held = false ∧ s.scoopChoose none = some e ∧ s.takeEntry 0x21
      false = some (u, c, w, b)) ∧
    (∃ (s u v w : State) (g : Nat) (env : Env) (c : ScoopCmd) (d : List Byte), s.held = false ∧ g < 16 ∧
      let r := s.codewords 6 env
      r.scoopCmd g = some c ∧ c.issued = true ∧ c.ended = false ∧ c.op = 0x20 ∧ c.half = none ∧ r.awaits (.scoop g) = false ∧
      r.previousWrites g c = (u, true) ∧ u.collect g c env = (v, .data d []) ∧ v.writeRow g c c.dst d [] = (w, true, true)) ∧
    (∃ (s : State) (g : Nat) (c : ScoopCmd), s.held = false ∧ g < 16 ∧ s.scoopCmd g = some c ∧ c.started = true ∧ s.awaits
      (.scoop g) = false ∧ (s.eng (slotScoop g)).st = .run ∧ c.op = 0x21 ∧ c.ended = true) ∧
    (∃ (s u : State) (g : Nat) (c : ScoopCmd), s.held = false ∧ g < 16 ∧ s.scoopCmd g = some c ∧ c.started = true ∧ s.awaits
      (.scoop g) = false ∧ (s.eng (slotScoop g)).st = .run ∧ c.op = 0x20 ∧ c.issued = false ∧ c.count ≤ c.j ∧ s.previousWrites g
      c = (u, true)) ∧
    (∃ (s : State) (g : Nat), s.held = false ∧ g < 16) ∧
    (∃ (s u : State) (h j : Nat) (r : RepSlot) (d : List Byte), s.held = false ∧ h < 2 ∧ j < 32768 ∧ s.repSlot h j = some r ∧
      r.st = .installing false ∧ r.res = some (true, d, []) ∧ s.writeMem (s.repOffset r) d [] = (u, true)) ∧
    (∃ s : State, s.held = false) ∧
    (∃ (s : State) (src : Source), s.held = false ∧ src.wf = true ∧ s.admission src .SCP_REPL_COMMIT 0 = .accept ∧
      (s.beginCommit .repl 0).replCheck = 0) :=
  ⟨⟨{ up with waitingCmds := [(5, .none, leBytes 64 0x20)] }, _, 5, 0, .none, leBytes 64 0x20, by decide, by decide, rfl⟩,
   ⟨{ up with waitingCmds := [(5, .none, leBytes 64 0x21)] }, _, 5, 0, .none, leBytes 64 0x21, by decide, by decide, rfl⟩,
   ⟨{ mapped 5 with scoops := [(15, [{ op := 0x20, tbl := 0, ctx := 5, issued := true }])] }, _, _, _, 15, [],
     { op := 0x20, tbl := 0, ctx := 5, issued := true }, [], by decide, by decide, by decide, by decide, by decide, by decide,
     by decide, by decide, rfl, rfl, fst_of (by decide +kernel)⟩,
   ⟨{ up with scoops := [(15, [{ op := 0x21, tbl := 0, started := true, ended := true }])] }, 15,
     { op := 0x21, tbl := 0, started := true, ended := true }, by decide⟩,
   ⟨{ up with scoops := [(15, [{ op := 0x20, tbl := 0, started := true, j := 1 }])] }, _, 15,
     { op := 0x20, tbl := 0, started := true, j := 1 }, by decide, by decide, by decide, by decide, by decide, by decide,
     by decide, by decide, by decide, rfl⟩,
   ⟨up, 15, by decide⟩,
   ⟨{ up with replicas := [{ half := 1, idx := 32767, gpa := 0, tbl := 0, len := 16, res := some (true, [1#8], []) }] }, _, 1,
     32767, { half := 1, idx := 32767, gpa := 0, tbl := 0, len := 16, res := some (true, [1#8], []) }, [1#8], by decide,
     by decide, by decide, by decide, by decide, by decide, fst_of (by decide +kernel)⟩,
   ⟨up, by decide⟩,
   ⟨up, .fw, by decide⟩⟩

theorem meets_HomeRowCommandsComplete :
    (∃ (s : State) (id : Nat) (o : HomeOp), s.held = false ∧ s.homeOp id = some o ∧ o.kind ≠ .update ∧ o.active = true ∧
      s.homeTurn o = true ∧
      let r := (s.homeDone o).readOwn o.stamp 8
      r.err = false ∧ o.step = 0 ∧ o.reg = none) ∧
    (∃ (s : State) (id : Nat) (o : HomeOp), s.held = false ∧ s.homeOp id = some o ∧ o.kind ≠ .update ∧ o.active = true ∧
      s.homeTurn o = true ∧ ∃ (d : List Byte) (us : List Nat), o.step = 1 ∧ (s.homeDone o).homeRow o.exts = (false, d, us)) ∧
    (∃ (s : State) (id : Nat) (o : HomeOp), s.held = false ∧ s.homeOp id = some o ∧ o.kind ≠ .update ∧ o.active = true ∧
      s.homeTurn o = true ∧
      let r := (s.homeDone o).readOwn o.stamp 8
      r.err = false ∧ o.step = 2) ∧
    (∃ (s : State) (id : Nat) (o : HomeOp), s.held = false ∧ s.homeOp id = some o ∧ o.kind = .waiting ∧ o.active = false ∧
      s.updating o.row = false) ∧
    (∃ (s u : State) (id : Nat) (o : HomeOp), s.held = false ∧ s.homeOp id = some o ∧ o.kind = .update ∧ o.active = true ∧
      o.step = 0 ∧ s.homeTurn o = true ∧ ((s.homeDone o).readOwn o.stamp 8).err = false ∧ ((s.homeDone o).readOwn o.stamp 8).bad
      = false ∧
      let v := oddStamp (leAt ((s.homeDone o).readOwn o.stamp 8).data 0 8)
      let w := (s.homeDone o).noteRead o.stamp 8
      w.writeOwn (w.homeHalf o.row) o.stamp (leBytes 8 v) [] = (u, true) ∧ (u.holders.filter fun x => x.1 == o.row) = []) ∧
    (∃ (s : State) (id : Nat) (o : HomeOp), s.held = false ∧ s.homeOp id = some o ∧ o.kind = .update ∧ o.step = 1 ∧ o.acks = []) ∧
    (∃ (s : State) (id : Nat) (o : HomeOp), s.held = false ∧ s.homeOp id = some o ∧ o.kind = .update ∧ o.step = 4 ∧ o.acks = []) ∧
    (∃ (s u : State) (id : Nat) (o : HomeOp), s.held = false ∧ s.homeOp id = some o ∧ o.kind = .update ∧ o.step = 2 ∧
      s.homeTurn o = true ∧ (s.homeDone o).homeWrite ((s.homeDone o).clientHalf o) o.exts o.data o.poison = (u, true)) ∧
    (∃ (s u : State) (id : Nat) (o : HomeOp), s.held = false ∧ s.homeOp id = some o ∧ o.kind = .update ∧ o.step = 3 ∧
      s.homeTurn o = true ∧ o.fail = false ∧ (s.homeDone o).writeOwn ((s.homeDone o).homeHalf o.row) o.stamp (leBytes 8 ((o.s1 +
      1) % 2 ^ 64)) [] = (u, true)) :=
  ⟨⟨homed (rowOp .attempt 0), 0, rowOp .attempt 0, by decide⟩,
   ⟨homed (rowOp .attempt 1), 0, rowOp .attempt 1, by decide, by decide, by decide, by decide, by decide, [], [], by decide⟩,
   ⟨homed (rowOp .waiting 2), 0, rowOp .waiting 2, by decide⟩,
   ⟨homed { rowOp .waiting 0 with active := false }, 0, { rowOp .waiting 0 with active := false }, by decide⟩,
   ⟨homed (rowOp .update 0), _, 0, rowOp .update 0, by decide, by decide, by decide, by decide, by decide, by decide, by decide,
     by decide, fst_of (by decide +kernel), by decide⟩,
   ⟨homed (rowOp .update 1), 0, rowOp .update 1, by decide⟩,
   ⟨homed (rowOp .update 4), 0, rowOp .update 4, by decide⟩,
   ⟨homed (rowOp .update 2), _, 0, rowOp .update 2, by decide, by decide, by decide, by decide, by decide, rfl⟩,
   ⟨homed (rowOp .update 3), _, 0, rowOp .update 3, by decide, by decide, by decide, by decide, by decide, by decide, fst_of
     (by decide +kernel)⟩⟩

theorem meets_MemoryRequestCommandsComplete :
    (∃ (s u : State) (k c : Nat) (env : Env) (p q : Packet), s.held = false ∧ (s.homeWords env).takeInbox k (fun p => p.op ==
      opRD) = some (u, p) ∧ u.requestPart p F.YT_RKEY_CTRL_READ (some (p.off, p.len)) = some c ∧ u.region p.off ≠ .control ∧
      rdShape p.off p.len = true ∧ u.offsetRefusal p.off p.len = none ∧ responseTo p psOK = some q) ∧
    (∃ (s u v : State) (k c : Nat) (p : Packet), s.held = false ∧ s.takeInbox k (fun p => p.op == opWR) = some (u, p) ∧
      u.requestPart p F.YT_RKEY_CTRL_WRITE (some (p.off, p.len)) = some c ∧ u.region p.off ≠ .control ∧ wrShape p.off p.len =
      true ∧ u.offsetRefusal p.off p.len = none ∧ u.storeAt (some p.src) p.off p.data (touchedLines p.off p.poisonLines) = (v,
      psOK)) ∧
    (∃ (s u v : State) (k c : Nat) (p q : Packet) (old : List Byte), s.held = false ∧ s.takeInbox k (fun p => p.op == opATOM) =
      some (u, p) ∧ p.atop ≤ 8 ∧ u.requestPart p F.YT_RKEY_CTRL_ATOMIC (some (p.off, atomWidth p.atop)) = some c ∧ u.region
      p.off ≠ .control ∧ u.offsetRefusal p.off (atomWidth p.atop) = none ∧ u.homeAtom p.off p.atop p.data = (v,
      { status := psOK, old := old, poison := false, pushed := none }) ∧ responseTo p psOK = some q) ∧
    (∃ (s u : State) (k c : Nat) (p : Packet), s.held = false ∧ s.takeInbox k (fun p => p.op == opFENCE) = some (u, p) ∧
      u.requestPart p F.YT_RKEY_CTRL_READ none = some c) :=
  ⟨⟨arrived { dst := 0, src := 1, part := 5, op := opRD, len := 4096 }, _, 0, 5, [],
    { dst := 0, src := 1, part := 5, op := opRD, len := 4096 }, _, by decide, rfl, by decide, by decide, by decide, by decide,
    rfl⟩,
   ⟨arrived { dst := 0, src := 1, part := 5, op := opWR, len := 1, data := [1#8] }, _, _, 0, 5,
     { dst := 0, src := 1, part := 5, op := opWR, len := 1, data := [1#8] }, by decide, rfl, by decide, by decide, by decide,
     by decide, fst_of (by decide +kernel)⟩,
   ⟨arrived { dst := 0, src := 1, part := 5, op := opATOM, atop := 0, data := leBytes 4 1 }, _, _, 0, 5,
     { dst := 0, src := 1, part := 5, op := opATOM, atop := 0, data := leBytes 4 1 }, _, _, by decide, rfl, by decide,
     by decide, by decide, by decide, rfl, rfl⟩,
   ⟨arrived { dst := 0, src := 1, part := 5, op := opFENCE }, _, 0, 5, { dst := 0, src := 1, part := 5, op := opFENCE },
     by decide, rfl, by decide⟩⟩

theorem meets_RowRequestCommandsComplete :
    (∃ (s u : State) (k stamp len c : Nat) (p : Packet), s.held = false ∧ 0 < len ∧ s.takeInbox k (fun p => p.op == opSRD) =
      some (u, p) ∧ u.requestPart p F.YT_RKEY_CTRL_READ (some (p.off, len)) = some c ∧ u.offsetRefusal p.off len = none ∧
      u.stampPlaceOk [(p.off, len)] stamp = true) ∧
    (∃ (s u : State) (k : Nat) (p : Packet), s.held = false ∧ s.takeInbox k (fun p => p.op == opSUPD) = some (u, p) ∧ p.last =
      false) ∧
    (∃ (s u : State) (k stamp c : Nat) (p : Packet), s.held = false ∧ s.takeInbox k (fun p => p.op == opSUPD) = some (u, p) ∧
      p.last = true ∧ (u.supds.filter fun q => q.src == p.src && q.tag == p.tag) = [] ∧ p.poisonLines = [] ∧
      let v : State := { u with supds := u.supds.filter fun q => !(q.src == p.src && q.tag == p.tag) }
      v.requestPart p F.YT_RKEY_CTRL_WRITE (some (p.off, p.data.length)) = some c ∧ v.offsetRefusal p.off p.data.length = none ∧
      v.inHandoff p.off p.data.length = false ∧ v.inMirror p.off p.data.length = false ∧ v.stampPlaceOk [(p.off, p.data.length)]
      stamp = true) ∧
    (∃ (s u : State) (k : Nat) (p : Packet) (r : RepSlot), s.held = false ∧ s.takeInbox k (fun p => p.op == opRINV) = some (u,
      p) ∧ u.region p.off ≠ .control ∧ (u.replicas.filter fun r => r.gpa == p.src * 2 ^ 48 + p.off &&
      match r.st with | .draining _ _ => false | _ => true) = [r] ∧ r.st = .valid ∧ u.repReading r = false) ∧
    (∃ (s u : State) (k c : Nat) (p : Packet), s.held = false ∧ s.takeInbox k (fun p => p.op == opRDEREG) = some (u, p) ∧
      u.requestPart p F.YT_RKEY_CTRL_READ (some (p.off, 1)) = some c ∧ u.offsetRefusal p.off 1 = none) ∧
    (∃ (s u v w : State) (k c : Nat) (m : Packet), s.held = false ∧ s.takeInbox k (fun p => p.op == opMSG) = some (u, m) ∧
      u.requestPart m F.YT_RKEY_CTRL_MSG none = some c ∧ c < 128 ∧ m.off % 65536 < 8 ∧ u.mrRoom c (m.off % 65536) m.len = true ∧
      let idx := ringAdd (mrSlots u c (m.off % 65536)) (u.fld F.PTN_MR_TAIL_INDEX (mrInst c (m.off % 65536)))
        (u.mring c (m.off % 65536)).records.length
      let va := F.PTN_MR_BASE_VA.get (u.rd .PTN_MR_BASE (mrInst c (m.off % 65536))) * 64 + idx % 65536 * mrSlotBytes u c (m.off % 65536)
      u.checkExtent c va (32 + m.len) .write = .ok ∧ u.writeVA c (va + 32) m.data (touchedLines (va + 32) m.poisonLines) = (v,
      true) ∧ v.writeVA c va (mrHeader u m (idx / 65536 == 0)) = (w, true)) ∧
    (∃ (s u v : State) (k pp q slot : Nat) (p : Packet) (r : Req), s.held = false ∧ s.takeInbox k (fun p => p.op == opRD_DATA)
      = some (u, p) ∧ u.takeReq p opRD = some (v, r) ∧ r.client = .flag pp q slot ∧ p.status = psOK) ∧
    (∃ (s u v : State) (k : Nat) (p : Packet) (r : Req), s.held = false ∧ s.takeInbox k (fun p => p.op == opWR_ACK) = some (u,
      p) ∧ u.takeReq p opWR = some (v, r) ∧ p.status ≠ psOK) ∧
    (∃ (s u v : State) (k : Nat) (p : Packet) (r : Req), s.held = false ∧ s.takeInbox k (fun p => p.op == opWR_ACK) = some (u,
      p) ∧ u.takeReq p opWR = some (v, r) ∧ ∃ (pp q slot : Nat), p.status = psOK ∧ r.client = .flag pp q slot) ∧
    (∃ (s u v : State) (k : Nat) (p : Packet) (r : Req), s.held = false ∧ s.takeInbox k (fun p => p.op == opWR_ACK) = some (u,
      p) ∧ u.takeReq p opWR = some (v, r) ∧ p.status = psOK ∧ (∀ pp q slot, r.client ≠ .flag pp q slot)) ∧
    (∃ (s u v : State) (k : Nat) (p : Packet) (r : Req), s.held = false ∧ p.status = psOK ∧ s.takeInbox k (fun p => p.op ==
      opATOM_DATA) = some (u, p) ∧ u.takeReq p opATOM = some (v, r)) ∧
    (∃ (s u v : State) (k : Nat) (p : Packet) (r : Req), s.held = false ∧ p.status = psOK ∧ s.takeInbox k (fun p => p.op ==
      opFENCE_ACK) = some (u, p) ∧ u.takeReq p opFENCE = some (v, r)) ∧
    (∃ (s u v : State) (k : Nat) (p : Packet) (r : Req), s.held = false ∧ p.status = psOK ∧ s.takeInbox k (fun p => p.op ==
      opMSG_ACK) = some (u, p) ∧ u.takeReq p opMSG = some (v, r)) ∧
    (∃ (s u : State) (k g j : Nat) (p : Packet) (r : Req), s.held = false ∧ s.takeInbox k (fun p => p.op == opSRD_DATA) = some
      (u, p) ∧ (u.reqs.find? fun r => r.tag == p.tag && r.op == opSRD) = some r ∧ p.status = psOK ∧ p.last = false ∧ r.client =
      .row g j) ∧
    (∃ (s u v : State) (k g : Nat) (p : Packet) (r : Req), s.held = false ∧ s.takeInbox k (fun p => p.op == opSUPD_ACK) = some
      (u, p) ∧ u.takeReq p opSUPD = some (v, r) ∧ r.client = .update g ∧ p.status = psOK) ∧
    (∃ (s u v : State) (k op node : Nat) (p : Packet) (r : Req) (o : HomeOp), s.held = false ∧ s.takeInbox k (fun p => p.op ==
      opRINV_ACK) = some (u, p) ∧ u.takeReq p opRINV = some (v, r) ∧ r.client = .inval op node ∧ p.status = psOK ∧ v.homeOp op =
      some o) ∧
    (∃ s : State, s.held = false) :=
  ⟨⟨arrived { dst := 0, src := 1, part := 5, op := opSRD }, _, 0, 64, 16, 5, { dst := 0, src := 1, part := 5, op := opSRD },
    by decide, by decide, rfl, by decide, by decide, by decide⟩,
   ⟨arrived { dst := 0, src := 1, part := 5, op := opSUPD, last := false }, _, 0,
     { dst := 0, src := 1, part := 5, op := opSUPD, last := false }, by decide, rfl, by decide⟩,
   ⟨arrived { dst := 0, src := 1, part := 5, op := opSUPD, data := List.replicate 16 0#8 }, _, 0, 64, 5,
     { dst := 0, src := 1, part := 5, op := opSUPD, data := List.replicate 16 0#8 }, by decide, rfl, by decide, by decide,
     by decide, by decide, by decide, by decide, by decide, by decide⟩,
   ⟨{ up with inbox := [{ dst := 0, src := 1, part := 5, op := opRINV }], replicas := [{ half := 0, idx := 0, gpa := 2 ^ 48, tbl := 0, len := 16, st := .valid }] },
     _, 0, { dst := 0, src := 1, part := 5, op := opRINV },
     { half := 0, idx := 0, gpa := 2 ^ 48, tbl := 0, len := 16, st := .valid }, by decide, rfl, by decide, by decide, by decide,
     by decide⟩,
   ⟨arrived { dst := 0, src := 1, part := 5, op := opRDEREG }, _, 0, 5, { dst := 0, src := 1, part := 5, op := opRDEREG },
     by decide, rfl, by decide, by decide⟩,
   ⟨{ ringed with inbox := [{ dst := 0, src := 1, part := 5, op := opMSG, off := 7, data := [1#8] }] }, _, _, _, 0, 5,
     { dst := 0, src := 1, part := 5, op := opMSG, off := 7, data := [1#8] }, by decide, rfl, by decide, by decide, by decide,
     by decide, by decide, fst_of (by decide +kernel), fst_of (by decide +kernel)⟩,
   ⟨{ up with inbox := [{ dst := 0, src := 1, part := 5, op := opRD_DATA }], reqs := [{ node := 1, tag := 0, op := opRD, client := .flag 0 0 0, sent := 0 }] },
     _, _, 0, 0, 0, 0, { dst := 0, src := 1, part := 5, op := opRD_DATA },
     { node := 1, tag := 0, op := opRD, client := .flag 0 0 0, sent := 0 }, by decide, rfl, rfl, by decide, by decide⟩,
   ⟨{ up with inbox := [{ dst := 0, src := 1, part := 5, op := opWR_ACK, status := psADDR }], reqs := [{ node := 1, tag := 0, op := opWR, client := .none, sent := 0 }] },
     _, _, 0, { dst := 0, src := 1, part := 5, op := opWR_ACK, status := psADDR },
     { node := 1, tag := 0, op := opWR, client := .none, sent := 0 }, by decide, rfl, rfl, by decide⟩,
   ⟨{ up with inbox := [{ dst := 0, src := 1, part := 5, op := opWR_ACK }], reqs := [{ node := 1, tag := 0, op := opWR, client := .flag 0 0 0, sent := 0 }] },
     _, _, 0, { dst := 0, src := 1, part := 5, op := opWR_ACK },
     { node := 1, tag := 0, op := opWR, client := .flag 0 0 0, sent := 0 }, by decide, rfl, rfl, 0, 0, 0, by decide, by decide⟩,
   ⟨{ up with inbox := [{ dst := 0, src := 1, part := 5, op := opWR_ACK }], reqs := [{ node := 1, tag := 0, op := opWR, client := .chan 63, sent := 0 }] },
     _, _, 0, { dst := 0, src := 1, part := 5, op := opWR_ACK },
     { node := 1, tag := 0, op := opWR, client := .chan 63, sent := 0 }, by decide, rfl, rfl, by decide, nofun⟩,
   ⟨{ up with inbox := [{ dst := 0, src := 1, part := 5, op := opATOM_DATA }], reqs := [{ node := 1, tag := 0, op := opATOM, client := .none, sent := 0 }] },
     _, _, 0, { dst := 0, src := 1, part := 5, op := opATOM_DATA },
     { node := 1, tag := 0, op := opATOM, client := .none, sent := 0 }, by decide, by decide, rfl, rfl⟩,
   ⟨{ up with inbox := [{ dst := 0, src := 1, part := 5, op := opFENCE_ACK }], reqs := [{ node := 1, tag := 0, op := opFENCE, client := .none, sent := 0 }] },
     _, _, 0, { dst := 0, src := 1, part := 5, op := opFENCE_ACK },
     { node := 1, tag := 0, op := opFENCE, client := .none, sent := 0 }, by decide, by decide, rfl, rfl⟩,
   ⟨{ up with inbox := [{ dst := 0, src := 1, part := 5, op := opMSG_ACK }], reqs := [{ node := 1, tag := 0, op := opMSG, client := .none, sent := 0 }] },
     _, _, 0, { dst := 0, src := 1, part := 5, op := opMSG_ACK },
     { node := 1, tag := 0, op := opMSG, client := .none, sent := 0 }, by decide, by decide, rfl, rfl⟩,
   ⟨{ up with inbox := [{ dst := 0, src := 1, part := 5, op := opSRD_DATA, last := false }], reqs := [{ node := 1, tag := 0, op := opSRD, client := .row 0 0, sent := 0 }] },
     _, 0, 0, 0, { dst := 0, src := 1, part := 5, op := opSRD_DATA, last := false },
     { node := 1, tag := 0, op := opSRD, client := .row 0 0, sent := 0 }, by decide, rfl, by decide, by decide, by decide,
     by decide⟩,
   ⟨{ up with inbox := [{ dst := 0, src := 1, part := 5, op := opSUPD_ACK }], reqs := [{ node := 1, tag := 0, op := opSUPD, client := .update 15, sent := 0 }] },
     _, _, 0, 15, { dst := 0, src := 1, part := 5, op := opSUPD_ACK },
     { node := 1, tag := 0, op := opSUPD, client := .update 15, sent := 0 }, by decide, rfl, rfl, by decide, by decide⟩,
   ⟨{ up with inbox := [{ dst := 0, src := 1, part := 5, op := opRINV_ACK }], reqs := [{ node := 1, tag := 0, op := opRINV, client := .inval 0 1, sent := 0 }], homeOps := [rowOp .update 1] },
     _, _, 0, 0, 1, { dst := 0, src := 1, part := 5, op := opRINV_ACK },
     { node := 1, tag := 0, op := opRINV, client := .inval 0 1, sent := 0 }, rowOp .update 1, by decide, rfl, rfl, by decide,
     by decide, by decide⟩,
   ⟨up, by decide⟩⟩

theorem meets_QueueCommandsComplete :
    (∃ (s : State) (src : Source) (p q : Nat), s.held = false ∧ src.wf = true ∧ p < 128 ∧ q < 16 ∧ s.admission src .HIF_SQ_TAIL
      (qInst p q) = .accept ∧ s.flag F.HIF_SQ_CTRL_DB_MEM (qInst p q) = false) ∧
    (∃ (s : State) (p q : Nat) (x : PartSt) (env : Env), s.held = false ∧ p < 128 ∧ (s.codewords 1 env).nextQueue p = some (q,
      x)) ∧
    (∃ (s : State) (src : Source) (p q : Nat) (v : Word), s.held = false ∧ src.wf = true ∧ p < 128 ∧ q < 16 ∧ s.admission src
      .HIF_SQ_CTRL (qInst p q) = .accept ∧ s.flag F.HIF_SQ_CTRL_EN (qInst p q) = false ∧
      let w := F.HIF_SQ_CTRL_EN.put v 1
      F.HIF_SQ_CTRL_EN.get w = 1 ∧ 6 ≤ F.HIF_SQ_CTRL_LOG2_ENTRIES.get w ∧ F.HIF_SQ_CTRL_LOG2_ENTRIES.get w ≤ 16 ∧
      F.HIF_SQ_CTRL_BURST.get w ≠ 0 ∧ F.HIF_SQ_CTRL_RESUME.get w = 0) ∧
    (∃ (s : State) (src : Source) (p q : Nat) (v : Word), s.held = false ∧ src.wf = true ∧ p < 128 ∧ q < 16 ∧ s.admission src
      .HIF_SQ_CTRL (qInst p q) = .accept ∧
      let w := F.HIF_SQ_CTRL_EN.put v 0
      let old := s.rd .HIF_SQ_CTRL (qInst p q)
      F.HIF_SQ_CTRL_EN.get w = 0 ∧ 6 ≤ F.HIF_SQ_CTRL_LOG2_ENTRIES.get w ∧ F.HIF_SQ_CTRL_LOG2_ENTRIES.get w ≤ 16 ∧
      F.HIF_SQ_CTRL_LOG2_ENTRIES.get w = F.HIF_SQ_CTRL_LOG2_ENTRIES.get old ∧ F.HIF_SQ_CTRL_DB_MEM.get w =
      F.HIF_SQ_CTRL_DB_MEM.get old ∧ F.HIF_SQ_CTRL_BURST.get w ≠ 0 ∧ F.HIF_SQ_CTRL_RESUME.get w = 0) ∧
    (∃ (s : State) (src : Source) (p q v : Nat), s.held = false ∧ src.wf = true ∧ p < 128 ∧ q < 16 ∧ v < 131072 ∧ s.admission
      src .HIF_CQ_HEAD (qInst p q) = .accept ∧ headOk (cqSize s p q) (s.fld F.HIF_CQ_HEAD_INDEX (qInst p q)) (s.fld
      F.HIF_CQ_TAIL_INDEX (qInst p q)) v = true) ∧
    (∃ (s : State) (fn vec : Nat), s.held = false ∧ fn < 129 ∧ vec < 32) :=
  ⟨⟨up, .fw, 127, 15, by decide⟩,
   ⟨fetchable, 127, 15, { turn := 15, burst := 1 }, [], by decide⟩,
   ⟨up, .fw, 127, 15, 0x80060800, by decide⟩,
   ⟨up, .fw, 127, 15, 0x60800, by decide⟩,
   ⟨up, .fw, 127, 15, 0, by decide⟩,
   ⟨up, 128, 31, by decide⟩⟩

theorem meets_QueueResumeCommandsComplete :
    (∃ (s : State) (src : Source) (p q : Nat), s.held = false ∧ src.wf = true ∧ p < 128 ∧ q < 16 ∧ s.admission src .HIF_SQ_CTRL
      (qInst p q) = .accept ∧
      let k := qInst p q
      let old := s.rd .HIF_SQ_CTRL k
      let good := fun (w : Word) => F.HIF_SQ_CTRL_LOG2_ENTRIES.get w = F.HIF_SQ_CTRL_LOG2_ENTRIES.get old ∧
        F.HIF_SQ_CTRL_DB_MEM.get w = F.HIF_SQ_CTRL_DB_MEM.get old ∧ F.HIF_SQ_CTRL_EN.get w = F.HIF_SQ_CTRL_EN.get old ∧
        F.HIF_SQ_CTRL_BURST.get w ≠ 0 ∧ F.HIF_SQ_CTRL_RESUME.get w = 1 ∧ F.HIF_SQ_CTRL_SKIP.get w < 2
      6 ≤ F.HIF_SQ_CTRL_LOG2_ENTRIES.get old ∧ F.HIF_SQ_CTRL_LOG2_ENTRIES.get old ≤ 16 ∧
      let w := F.HIF_SQ_CTRL_RESUME.put old 1
      let u := (s.plainWrite .HIF_SQ_CTRL k w).syncInflight p q
      good w ∧ F.HIF_SQ_CTRL_SKIP.get w = 0 ∧ u.flag F.HIF_SQ_STATUS_HALTED k = true ∧ u.fld F.HIF_SQ_STATUS_ERR k = qeBadEntry) ∧
    (∃ (s : State) (src : Source) (p q : Nat), s.held = false ∧ src.wf = true ∧ p < 128 ∧ q < 16 ∧ s.admission src .HIF_SQ_CTRL
      (qInst p q) = .accept ∧
      let k := qInst p q
      let old := s.rd .HIF_SQ_CTRL k
      let good := fun (w : Word) => F.HIF_SQ_CTRL_LOG2_ENTRIES.get w = F.HIF_SQ_CTRL_LOG2_ENTRIES.get old ∧
        F.HIF_SQ_CTRL_DB_MEM.get w = F.HIF_SQ_CTRL_DB_MEM.get old ∧ F.HIF_SQ_CTRL_EN.get w = F.HIF_SQ_CTRL_EN.get old ∧
        F.HIF_SQ_CTRL_BURST.get w ≠ 0 ∧ F.HIF_SQ_CTRL_RESUME.get w = 1 ∧ F.HIF_SQ_CTRL_SKIP.get w < 2
      6 ≤ F.HIF_SQ_CTRL_LOG2_ENTRIES.get old ∧ F.HIF_SQ_CTRL_LOG2_ENTRIES.get old ≤ 16 ∧
      let w := F.HIF_SQ_CTRL_SKIP.put (F.HIF_SQ_CTRL_RESUME.put old 1) 1
      let u := (s.plainWrite .HIF_SQ_CTRL k w).syncInflight p q
      good w ∧ F.HIF_SQ_CTRL_SKIP.get w = 1 ∧ u.flag F.HIF_SQ_STATUS_HALTED k = true ∧ u.fld F.HIF_SQ_STATUS_ERR k = qeBadEntry) :=
  ⟨⟨halted, .fw, 127, 15, by decide⟩,
   ⟨halted, .fw, 127, 15, by decide⟩⟩

theorem meets_OrderingCommandsComplete :
    (∃ (s t u : State) (o : OrdSt), s.held = false ∧ s.takeOrder ooRelease = some (t, o) ∧ (t.fencesNodes o && (t.queue o.p
      o.q).unreached) = false ∧
      let d := leBytes (ordSize o.bytes) (leAt o.bytes 0x10 8)
      t.checkExtent o.p (leAt o.bytes 8 8) d.length .write = .ok ∧ (∀ nd off part key, t.target o.p (leAt o.bytes 8 8) ≠ some
      (.remote nd off part key)) ∧ t.writeStrict o.p (leAt o.bytes 8 8) d = (u, true)) ∧
    (∃ (s t : State) (o : OrdSt), s.held = false ∧ s.takeOrder ooAcquire = some (t, o)) ∧
    (∃ (s : State) (p q : Nat) (o : OrdSt), s.held = false ∧ p < 128 ∧ q < 16 ∧ s.orderAt p q 1 = some o) ∧
    (∃ (s : State) (p q : Nat) (o : OrdSt), s.held = false ∧ p < 128 ∧ q < 16 ∧ (s.orders.find? fun o => o.p == p && o.q == q
      && leAt o.bytes 0 1 == ooAcquire && (o.phase == 1 || o.phase == 2)) = some o) ∧
    (∃ (s : State) (p q : Nat) (o : OrdSt), s.held = false ∧ p < 128 ∧ q < 16 ∧ (s.orders.find? fun o => o.p == p && o.q == q
      && leAt o.bytes 0 1 == ooAcquire && (o.phase == 1 || o.phase == 2)) = some o) ∧
    (∃ (s t : State) (o : OrdSt), s.held = false ∧ s.takeOrder ooFence = some (t, o) ∧ (t.fencesNodes o && (t.queue o.p
      o.q).unreached) = false) ∧
    (∃ (s t : State) (o : OrdSt), s.held = false ∧ (t.fencesNodes o && (t.queue o.p o.q).unreached) = true ∧ s.takeOrder
      ooFence = some (t, o)) ∧
    (∃ (s t : State) (o : OrdSt), s.held = false ∧ (t.fencesNodes o && (t.queue o.p o.q).unreached) = true ∧ s.takeOrder
      ooRelease = some (t, o)) ∧
    (∃ (s t : State) (o : OrdSt), s.held = false ∧ s.takeOrder ooInv = some (t, o) ∧ (t.ctx o.p).lost = false ∧ t.invFault o.p
      (leAt o.bytes 0x20 8) (leAt o.bytes 0x28 8) = none) ∧
    (∃ (s : State) (p q : Nat) (o : OrdSt), s.held = false ∧ p < 128 ∧ q < 16 ∧ s.orderAt p q 3 = some o ∧ leAt o.bytes 0x28 8
      ≤ 48 * 1048576) :=
  ⟨⟨{ mapped 5 with waitingCmds := [(5, .queue 5 15 0, leBytes 64 ooRelease)] }, _, _, _, by decide, rfl, by decide, by decide,
    (fun nd off part key => ne_of_beq_false rfl), fst_of (by decide +kernel)⟩,
   ⟨{ mapped 5 with waitingCmds := [(5, .queue 5 15 0, leBytes 64 ooAcquire)] }, _, _, by decide, rfl⟩,
   ⟨{ up with orders := [{ p := 5, q := 15, slot := 0, bytes := leBytes 64 ooAcquire, phase := 1 }] }, 5, 15,
     { p := 5, q := 15, slot := 0, bytes := leBytes 64 ooAcquire, phase := 1 }, by decide⟩,
   ⟨{ up with orders := [{ p := 5, q := 15, slot := 0, bytes := leBytes 64 ooAcquire, phase := 1 }] }, 5, 15,
     { p := 5, q := 15, slot := 0, bytes := leBytes 64 ooAcquire, phase := 1 }, by decide⟩,
   ⟨{ up with orders := [{ p := 5, q := 15, slot := 0, bytes := leBytes 64 ooAcquire, phase := 2 }] }, 5, 15,
     { p := 5, q := 15, slot := 0, bytes := leBytes 64 ooAcquire, phase := 2 }, by decide⟩,
   ⟨{ mapped 5 with waitingCmds := [(5, .queue 5 15 0, leBytes 64 ooFence)] }, _, _, by decide, rfl, by decide⟩,
   ⟨{ mapped 5 with queues := [(qInst 5 15, { unreached := true })], waitingCmds := [(5, .queue 5 15 0, leBytes 64 (ooFence + 3 * 2 ^ 16))] },
     _, _, by decide, by decide, rfl⟩,
   ⟨{ mapped 5 with queues := [(qInst 5 15, { unreached := true })], waitingCmds := [(5, .queue 5 15 0, leBytes 64 (ooRelease + 3 * 2 ^ 16))] },
     _, _, by decide, by decide, rfl⟩,
   ⟨{ mapped 5 with waitingCmds := [(5, .queue 5 15 0, leBytes 64 ooInv)] }, _, _, by decide, rfl, by decide, by decide⟩,
   ⟨{ up with orders := [{ p := 5, q := 15, slot := 0, bytes := leBytes 64 (ooInv + 48 * 2 ^ 84 * 2 ^ 256), phase := 3 }] }, 5,
     15, { p := 5, q := 15, slot := 0, bytes := leBytes 64 (ooInv + 48 * 2 ^ 84 * 2 ^ 256), phase := 3 }, by decide⟩⟩

theorem meets_HostSideCommandsComplete :
    (∃ s : State, s.held = false ∧ s.noHost = false) ∧
    (∃ (s : State) (gen width : Nat), gen < 16 ∧ width < 256 ∧ s.perst = true ∧ s.noHost = false) ∧
    (∃ s : State, s.held = false) ∧
    (∃ (s : State) (p : Nat), s.held = false ∧ p < 128) ∧
    (∃ s : State, s.held = false ∧ s.vecLocked = true) ∧
    (∃ (s : State) (n : Nat), s.held = false ∧ n ≤ 128 ∧ s.vecLocked = true ∧ s.perst = false ∧ s.vfAccepted = false) ∧
    (∃ s : State, s.held = false ∧ s.perst = false) ∧
    (∃ (s : State) (c : Nat), s.held = false ∧ c < 64 ∧ (s.chan c).phase = .reading) ∧
    (∃ (s : State) (g k : Nat), s.held = false ∧ g < 16 ∧ k < 2) :=
  ⟨⟨up, by decide⟩,
   ⟨State.reset, 15, 255, by decide⟩,
   ⟨up, by decide⟩,
   ⟨up, 127, by decide⟩,
   ⟨{ up with vecLocked := true }, by decide⟩,
   ⟨{ up with vecLocked := true }, 128, by decide⟩,
   ⟨up, by decide⟩,
   ⟨{ up with chans := [(63, { phase := .reading })] }, 63, by decide⟩,
   ⟨up, 15, 1, by decide⟩⟩

theorem meets_PartitionCommandsComplete :
    (∃ (s : State) (src : Source) (p : Nat), s.held = false ∧ src.wf = true ∧ p < 128 ∧ s.admission src .PTN_CTRL p = .accept ∧
      s.fld F.PTN_STATUS_STATE p = psActive) ∧
    (∃ (s : State) (p : Nat), s.held = false ∧ p < 128 ∧ s.fld F.PTN_STATUS_STATE p = psDraining ∧ s.partBusy p = false) ∧
    (∃ (s : State) (p : Nat), s.held = false ∧ p < 128 ∧ s.fld F.PTN_STATUS_STATE p = psDraining) ∧
    (∃ (s : State) (p : Nat), s.held = false ∧ p < 128 ∧ s.fld F.PTN_STATUS_STATE p = psClearing ∧ (s.ptn p).held = false ∧
      (s.ptn p).qos = []) ∧
    (∃ (s : State) (src : Source), s.held = false ∧ src.wf = true ∧ s.admission src .QOS_COMMIT 0 = .accept ∧ (s.beginCommit
      .qos 0).qosCheck = none) ∧
    (∃ (s : State) (src : Source) (p r : Nat) (v : Word), s.held = false ∧ src.wf = true ∧ p < 128 ∧ r < 8 ∧ s.admission src
      .PTN_MR_CTRL (mrInst p r) = .accept ∧
      let w := F.PTN_MR_CTRL_EN.put v 1
      let u := s.plainWrite .PTN_MR_CTRL (mrInst p r) w
      s.flag F.PTN_MR_CTRL_EN (mrInst p r) = false ∧ F.PTN_MR_CTRL_EN.get w = 1 ∧ 7 ≤ F.PTN_MR_CTRL_SLOT_LOG2.get w ∧
      F.PTN_MR_CTRL_SLOT_LOG2.get w ≤ 13 ∧ 4 ≤ F.PTN_MR_CTRL_LOG2_SLOTS.get w ∧ F.PTN_MR_CTRL_LOG2_SLOTS.get w ≤ 16 ∧ u.mrRingOk
      p r = true) ∧
    (∃ (s : State) (src : Source) (p r v : Nat), s.held = false ∧ src.wf = true ∧ p < 128 ∧ r < 8 ∧ v < 131072 ∧ s.admission
      src .PTN_MR_HEAD (mrInst p r) = .accept ∧ headOk (mrSlots s p r) (s.fld F.PTN_MR_HEAD_INDEX (mrInst p r)) (s.fld
      F.PTN_MR_TAIL_INDEX (mrInst p r)) v = true) ∧
    (∃ (s : State) (p r : Nat) (m : MrRec) (rest : List MrRec), s.held = false ∧ p < 128 ∧ r < 8 ∧ (s.mring p r).records = m ::
      rest ∧ (s.mring p r).raised = true) :=
  ⟨⟨up, .fw, 127, by decide⟩,
   ⟨up.setFld F.PTN_STATUS_STATE psDraining 127, 127, by decide⟩,
   ⟨up.setFld F.PTN_STATUS_STATE psDraining 127, 127, by decide⟩,
   ⟨up.setFld F.PTN_STATUS_STATE psClearing 127, 127, by decide⟩,
   ⟨up, .fw, by decide, by decide, by decide, qos_ok⟩,
   ⟨mapped 5, .fw, 5, 7, 0x80070004, by decide, by decide, by decide, by decide, by decide, by decide, by decide, by decide,
     by decide, by decide, by decide, by decide +kernel⟩,
   ⟨up, .fw, 127, 7, 0, by decide⟩,
   ⟨{ up with mrings := [(mrInst 127 7, { records := [⟨arrival⟩], raised := true })] }, 127, 7, ⟨arrival⟩, [], by decide⟩⟩

theorem meets_EngineAndErrorCommandsComplete :
    (∃ (s : State) (src : Source) (cls inst : Nat), s.held = false ∧ src.wf = true ∧ cls < 16 ∧ inst < 256 ∧ inst < engCount
      cls ∧ s.admission src .RST_ENGINE 0 = .accept ∧ s.flag F.RST_STATUS_ENG_BUSY = false) ∧
    (∃ (s : State) (cls inst : Nat), s.held = false ∧ inst < engCount cls) ∧
    (∃ (s : State) (inst : Nat), s.held = false ∧ inst < 64 ∧ (s.engResets.any fun r => r.cls == 2 && r.inst == inst) = true) ∧
    (∃ (s : State) (e : ErrRec) (rest : List ErrRec), s.held = false ∧ s.errWrites = e :: rest ∧ s.errRaised = true) ∧
    (∃ (s : State) (src : Source) (v : Nat), s.held = false ∧ src.wf = true ∧ v < 131072 ∧ s.admission src .ERR_RING_HEAD 0 =
      .accept ∧ headOk (errRingSize s) (s.fld F.ERR_RING_HEAD_INDEX) (s.fld F.ERR_RING_TAIL_INDEX) v = true) ∧
    (∃ (s : State) (idx sub k : Nat) (g : Group) (r : Reg), s.held = false ∧ commitAt idx sub = some (g, r, k) ∧ s.committing g
      k = true) :=
  ⟨⟨up, .fw, 0, 255, by decide⟩,
   ⟨up, 0, 255, by decide⟩,
   ⟨{ up with engResets := [⟨2, 63⟩] }, 63, by decide⟩,
   ⟨{ up with errWrites := [errRec], errRaised := true }, errRec, [], by decide⟩,
   ⟨up, .fw, 0, by decide⟩,
   ⟨(up.beginCommit .qos 0), 0x2E00, 2, 0, .qos, .QOS_COMMIT, by decide, by decide +kernel, by decide⟩⟩

theorem meets_HostAccessCommandsComplete :
    (∃ (s : State) (src : Source) (off o : Nat) (x : Reg × Nat), s.held = false ∧ (src = .pf ∨ src = .fw) ∧ off < 0x4000000 ∧
      off % 4 = 0 ∧ barOffset src off = some o ∧ msixAt o = none ∧ (o < 0xD1000 ∨ 0xD6000 ≤ o) ∧ regAt o = some x ∧
      x.1.place.width ≠ 64 ∧ s.bar0Down o = false) ∧
    (∃ (s : State) (off : Nat), s.held = false ∧ off < 0x4000000 ∧ off % 8 = 0) ∧
    (∃ (s : State) (off : Nat), s.held = false ∧ off < 0x4000000 ∧ off % 4 = 0) ∧
    (∃ (s : State) (x : Nat) (d : List Byte), s.held = false ∧ d ≠ [] ∧ d.length ≤ 512 ∧ x + d.length ≤ 2 ^ 36 ∧ s.bar2Refused
      (s.bar2Offset x) d.length = false) ∧
    (∃ (s : State) (x n : Nat), s.held = false ∧ 0 < n ∧ n ≤ 4096 ∧ x + n ≤ 2 ^ 36 ∧ s.bar2Refused (s.bar2Offset x) n = false) ∧
    (∃ (s u : State) (x atop : Nat) (d old : List Byte), s.held = false ∧ (atop = 0 ∨ atop = 5 ∨ atop = 6 ∨ atop = 7) ∧ x + 4 ≤
      2 ^ 36 ∧ d.length ≤ 32 ∧ d.length = atomOperand atop ∧ x % atomWidth atop = 0 ∧ s.bar2Refused (s.bar2Offset x) (atomWidth
      atop) = false ∧ ((s.crossOut .east (s.bar2Offset x) d.length).crossIn .east (s.bar2Offset x) (atomWidth atop)).homeAtom
      (s.bar2Offset x) atop d = (u, { status := psOK, old := old, poison := false, pushed := none })) :=
  ⟨⟨up, .pf, 0x1001010, 0x1001010, (.HIF_SQ_TAIL, 0), by decide, by decide, by decide, by decide, by decide, by decide,
    by decide, by decide +kernel, by decide, by decide⟩,
   ⟨up, 0x3FFFFF8, by decide⟩,
   ⟨up, 0x3FFFFFC, by decide⟩,
   ⟨up, 63, [1#8], by decide⟩,
   ⟨up, 0, 4096, by decide⟩,
   ⟨up, _, 16, 5, List.replicate (atomOperand 5) 0#8, List.replicate 8 0#8, by decide, by decide, by decide, by decide,
     by decide, by decide, by decide, fst_of (by decide +kernel)⟩⟩

theorem meets_CoherenceCommandsComplete :
    (∃ (s u : State) (k slot : Nat) (env : Env) (p : Packet), s.held = false ∧ u.region p.off ≠ .control ∧ u.memberSlot p.src =
      some slot ∧ u.windowed p.off = true ∧ u.domState = cdUP ∧ u.cohBusy (p.off / 64) = false ∧ (u.cohWait.any fun q => q.off /
      64 == p.off / 64) = false ∧ (s.homeWords env).takeInbox k (cohKind cmRdShared) = some (u, p)) ∧
    (∃ (s u : State) (k slot : Nat) (p : Packet), s.held = false ∧ u.region p.off ≠ .control ∧ u.memberSlot p.src = some slot ∧
      u.windowed p.off = true ∧ u.domState = cdUP ∧ u.cohBusy (p.off / 64) = false ∧ (u.cohWait.any fun q => q.off / 64 == p.off
      / 64) = false ∧ s.takeInbox k (cohKind cmRdOwn) = some (u, p)) ∧
    (∃ (s u : State) (k slot : Nat) (p : Packet), s.held = false ∧ u.region p.off ≠ .control ∧ u.memberSlot p.src = some slot ∧
      u.windowed p.off = true ∧ u.domState = cdUP ∧ u.cohBusy (p.off / 64) = false ∧ (u.cohWait.any fun q => q.off / 64 == p.off
      / 64) = false ∧ s.takeInbox k (cohKind cmUpgrade) = some (u, p)) ∧
    (∃ (s u : State) (k slot : Nat) (p : Packet) (e : DirEnt), s.held = false ∧ s.takeInbox k (cohKind cmWbData) = some (u, p)
      ∧ u.region p.off ≠ .control ∧ u.memberSlot p.src = some slot ∧ u.dirAt (p.off / 64) = some e ∧ e.owner = some slot ∧
      (u.cohTxns.find? fun t => t.line == p.off / 64 && (t.waits.contains slot || t.pend == some slot)) = none) ∧
    (∃ (s u : State) (k slot : Nat) (p : Packet) (e : DirEnt), s.held = false ∧ s.takeInbox k (cohKind cmEvictClean) = some (u,
      p) ∧ u.region p.off ≠ .control ∧ u.memberSlot p.src = some slot ∧ u.dirAt (p.off / 64) = some e ∧ e.holders.contains slot
      = true ∧ (u.cohTxns.any fun t => t.line == p.off / 64 && !t.waits.contains slot) = false) ∧
    (∃ (s u : State) (k slot : Nat) (p : Packet) (t : CohTxn), s.held = false ∧ u.cohFind p = some (t, slot) ∧ s.takeInbox k
      (cohKind cmAck) = some (u, p) ∧ t.owner ≠ some slot) ∧
    (∃ (s u : State) (k slot : Nat) (p : Packet) (t : CohTxn), s.held = false ∧ u.cohFind p = some (t, slot) ∧ s.takeInbox k
      (cohKind cmWbPending) = some (u, p)) ∧
    (∃ (s u : State) (k : Nat) (p : Packet) (t : CohTxn), s.held = false ∧ s.takeInbox k (cohKind cmFwdData) = some (u, p) ∧
      (u.cohTxns.find? fun t => t.line == p.off / 64 && t.txn == cohTxn p.coh && t.req.isNone) = some t) ∧
    (∃ (s : State) (k slot : Nat) (t : CohTxn), s.held = false ∧ slot < 16 ∧ s.cohTxns[k]? = some t ∧ t.waits.contains slot =
      true ∧ s.domState = cdUP) ∧
    (∃ (s : State) (src : Source), s.held = false ∧ src.wf = true ∧ s.admission src .COH_DOM_CTRL 0 = .accept ∧ s.domState =
      cdUP) ∧
    (∃ (s : State) (src : Source), s.held = false ∧ src.wf = true ∧ s.admission src .COH_DOM_CTRL 0 = .accept ∧ s.domState =
      cdDOWN) ∧
    (∃ s : State, s.held = false ∧ s.domState = cdREINIT) ∧
    (∃ (s : State) (src : Source), s.held = false ∧ src.wf = true ∧ s.admission src .COH_COMMIT 0 = .accept ∧ (s.beginCommit
      .coh 0).cohCheck = 0) :=
  ⟨⟨{ coherent with inbox := [{ op := opCOH, dst := 0, src := 0x40, part := 5, coh := cmRdShared * 2 ^ 28 }] }, _, 0, 0, [],
    { op := opCOH, dst := 0, src := 0x40, part := 5, coh := cmRdShared * 2 ^ 28 }, by decide, by decide, by decide, by decide,
    by decide, by decide, by decide, rfl⟩,
   ⟨{ coherent with inbox := [{ op := opCOH, dst := 0, src := 0x40, part := 5, coh := cmRdOwn * 2 ^ 28 }] }, _, 0, 0,
     { op := opCOH, dst := 0, src := 0x40, part := 5, coh := cmRdOwn * 2 ^ 28 }, by decide, by decide, by decide, by decide,
     by decide, by decide, by decide, rfl⟩,
   ⟨{ coherent with inbox := [{ op := opCOH, dst := 0, src := 0x40, part := 5, coh := cmUpgrade * 2 ^ 28 }] }, _, 0, 0,
     { op := opCOH, dst := 0, src := 0x40, part := 5, coh := cmUpgrade * 2 ^ 28 }, by decide, by decide, by decide, by decide,
     by decide, by decide, by decide, rfl⟩,
   ⟨{ coherent with inbox := [{ op := opCOH, dst := 0, src := 0x40, part := 5, coh := cmWbData * 2 ^ 28 }], dir := [{ line := 0, owner := some 0 }] },
     _, 0, 0, { op := opCOH, dst := 0, src := 0x40, part := 5, coh := cmWbData * 2 ^ 28 }, { line := 0, owner := some 0 },
     by decide, rfl, by decide, by decide, by decide, by decide, by decide⟩,
   ⟨{ coherent with inbox := [{ op := opCOH, dst := 0, src := 0x40, part := 5, coh := cmEvictClean * 2 ^ 28 }], dir := [{ line := 0, sharers := [0] }] },
     _, 0, 0, { op := opCOH, dst := 0, src := 0x40, part := 5, coh := cmEvictClean * 2 ^ 28 }, { line := 0, sharers := [0] },
     by decide, rfl, by decide, by decide, by decide, by decide, by decide⟩,
   ⟨{ coherent with inbox := [{ op := opCOH, dst := 0, src := 0x40, part := 5, coh := cmAck * 2 ^ 28 }], cohTxns := [{ line := 0, txn := 0, waits := [0] }] },
     _, 0, 0, { op := opCOH, dst := 0, src := 0x40, part := 5, coh := cmAck * 2 ^ 28 }, { line := 0, txn := 0, waits := [0] },
     by decide, by decide, rfl, by decide⟩,
   ⟨{ coherent with inbox := [{ op := opCOH, dst := 0, src := 0x40, part := 5, coh := cmWbPending * 2 ^ 28 }], cohTxns := [{ line := 0, txn := 0, waits := [0] }] },
     _, 0, 0, { op := opCOH, dst := 0, src := 0x40, part := 5, coh := cmWbPending * 2 ^ 28 },
     { line := 0, txn := 0, waits := [0] }, by decide, by decide, rfl⟩,
   ⟨{ coherent with inbox := [{ op := opCOH, dst := 0, src := 0x40, part := 5, coh := cmFwdData * 2 ^ 28 }], cohTxns := [{ line := 0, txn := 0, waits := [] }] },
     _, 0, { op := opCOH, dst := 0, src := 0x40, part := 5, coh := cmFwdData * 2 ^ 28 }, { line := 0, txn := 0, waits := [] },
     by decide, rfl, by decide⟩,
   ⟨{ coherent with cohTxns := [{ line := 0, txn := 0, waits := [0] }] }, 0, 0, { line := 0, txn := 0, waits := [0] },
     by decide⟩,
   ⟨coherent, .fw, by decide⟩,
   ⟨up.setFld F.COH_DOM_STATUS_STATE cdDOWN, .fw, by decide⟩,
   ⟨up.setFld F.COH_DOM_STATUS_STATE cdREINIT, by decide⟩,
   ⟨up.plainWrite .COH_HOMES 0 1, .fw, by decide⟩⟩

theorem meets_SwitchCommandsComplete :
    (∃ (s : State) (l : Nat) (p : Packet) (good : Bool) (rest : List (Option Nat × Packet × Bool)), s.held = false ∧ l < 96 ∧
      (s.link l).arrived = (none, p, good) :: rest) ∧
    (∃ (s : State) (l t : Nat) (p : Packet) (good : Bool) (rest : List (Option Nat × Packet × Bool)), s.held = false ∧ l < 96 ∧
      (s.link l).arrived = (some t, p, good) :: rest ∧
      let u := (s.setLink l { s.link l with arrived := rest }).wrap F.YT_PKTS_IN_COUNT
      let v := u.mirror l 0 p (u.cutThrough { pkt := p, ingress := l, num := 0 }) true
      t = v.node) ∧
    (∃ (s : State) (l t : Nat) (p : Packet) (good : Bool) (rest : List (Option Nat × Packet × Bool)), s.held = false ∧ l < 96 ∧
      (s.link l).arrived = (some t, p, good) :: rest ∧
      let u := (s.setLink l { s.link l with arrived := rest }).wrap F.YT_PKTS_IN_COUNT
      let v := u.mirror l 0 p (u.cutThrough { pkt := p, ingress := l, num := 0 }) true
      t ≠ v.node ∧ good = true ∧ headerBad p = false ∧ v.flag F.YL_LINK_CFG_TRANSIT_EN l = true ∧ v.peersTo t ≠ []) ∧
    (∃ (s : State) (l : Nat) (a : SwPkt × Option Nat) (x : LinkSt), s.held = false ∧ l < 96 ∧ s.linkUp l = true ∧
      s.chooseEgress l = some (a, x) ∧ s.replayFull l 20 = false) ∧
    (∃ (s : State) (c : List Byte) (rest : List (List Byte)), s.held = false ∧ s.captures = c :: rest ∧
      let u : State := { s with captures := rest }
      let o := s.fld F.SWC_MIR_BASE_OFFSET * 4096 + s.fld F.SWC_MIR_TAIL_COUNT % 2 ^ s.fld F.SWC_MIR_SIZE_LOG2_RECORDS * 128
      u.region o = .tier1) ∧
    (∃ (s u : State) (k : Nat) (p : Packet), s.held = false ∧ s.takeInbox k (fun p => p.op == opSACK) = some (u, p) ∧
      let key := p.src * 8 + p.off % 8
      let rest := (u.tx key).store.filter fun q => !decide ((p.seq + 65536 - q.seq) % 65536 < 32768)
      rest.length ≠ (u.tx key).store.length) ∧
    (∃ (s : State) (n vc : Nat), s.held = false ∧ n < 272 ∧ vc < 6 ∧ (s.rx (n * 8 + vc)).seen = true) ∧
    (∃ (s : State) (n vc : Nat), s.held = false ∧ n < 272 ∧ vc < 6 ∧ (s.tx (n * 8 + vc)).store ≠ [] ∧ (s.tx (n * 8 + vc)).dead
      = false ∧ (s.tx (n * 8 + vc)).resends < s.fld F.YT_RETX_RETRIES) ∧
    (∃ (s u : State) (k : Nat) (p : Packet), s.held = false ∧ s.takeInbox k (mgmtKind 1) = some (u, p)) ∧
    (∃ (s u : State) (k : Nat) (p : Packet), s.held = false ∧ s.takeInbox k (mgmtKind 2) = some (u, p) ∧ bits (leAt p.data 0 8)
      8 6 = u.fld F.COH_CFG_DOMAIN ∧ u.domState = cdUP) ∧
    (∃ (s u : State) (k : Nat) (p : Packet), s.held = false ∧ s.takeInbox k (mgmtKind 3) = some (u, p)) :=
  ⟨⟨{ up with links := [(95, { arrived := [(none, { op := opRD, dst := 0, src := 1 }, true)] })] }, 95,
    { op := opRD, dst := 0, src := 1 }, true, [], by decide⟩,
   ⟨{ up with links := [(95, { arrived := [(some 0, { op := opRD, dst := 0, src := 1 }, true)] })] }, 95, 0,
     { op := opRD, dst := 0, src := 1 }, true, [], by decide⟩,
   ⟨{ ((up.setFlag F.YL_LINK_CFG_TRANSIT_EN true 95).setFld F.YL_LINK_STATUS_STATE lsUP 63).setFld F.YL_LINK_STATUS_NEIGHBOUR 1 63 with links := [(95, { arrived := [(some 1, { op := opRD, dst := 1, src := 2 }, true)] })] },
     95, 1, { op := opRD, dst := 1, src := 2 }, true, [], by decide⟩,
   ⟨{ (up.setFld F.YL_LINK_STATUS_STATE lsUP 95 |>.setFld F.YL_CREDIT_AVAIL_ORDINARY 64 (95 * 6 + 5)) with switch := [{ pkt := { op := opRD, dst := 1, src := 0, vc := 5 }, ingress := 97, port := some 95, num := 0 }] },
     95, ({ pkt := { op := opRD, dst := 1, src := 0, vc := 5 }, ingress := 97, port := some 95, num := 0 }, none), {},
     by decide, by decide, by decide, by decide +kernel, by decide⟩,
   ⟨{ (up.setFlag F.TIER_T1_INFO_POPULATED true).setFld F.TIER_T1_INFO_DIMM_GIB 64 |>.setFld F.SWC_MIR_BASE_OFFSET (t1Base / 4096) with captures := [[1#8]] },
     [1#8], [], by decide⟩,
   ⟨{ up with inbox := [{ op := opSACK, dst := 0, src := 1 }], txs := [(8, { store := [{ op := opRD, dst := 1, src := 0 }] })] },
     _, 0, { op := opSACK, dst := 0, src := 1 }, by decide, rfl, by decide⟩,
   ⟨{ up with rxs := [(271 * 8 + 5, { seen := true })] }, 271, 5, by decide⟩,
   ⟨{ up with txs := [(271 * 8 + 5, { store := [{ op := opRD, dst := 1, src := 0 }] })] }, 271, 5, by decide⟩,
   ⟨arrived (mgmt 1), _, 0, mgmt 1, by decide, rfl⟩,
   ⟨{ coherent with inbox := [mgmt 2] }, _, 0, mgmt 2, by decide, rfl, by decide, by decide⟩,
   ⟨arrived (mgmt 3), _, 0, mgmt 3, by decide, rfl⟩⟩

theorem meets_LinkTrainingCommandsComplete :
    (∃ (s : State) (l : Nat), s.held = false ∧ l < 96 ∧ s.lstate l = lsDETECT) ∧
    (∃ (s : State) (l lane : Nat), s.held = false ∧ l < 96 ∧ lane < 2 ∧ s.lstate l = lsDETECT ∧ s.flag F.YL_LINK_CFG_DEGRADE_EN
      l = true) ∧
    (∃ (s : State) (l : Nat), s.held = false ∧ l < 96 ∧ s.lstate l = lsEQUALIZE) ∧
    (∃ (s : State) (l : Nat), s.held = false ∧ l < 96 ∧ s.lstate l = lsLOCK) ∧
    (∃ (s : State) (l : Nat), s.held = false ∧ l < 96 ∧ s.lstate l = lsNEGOTIATE) ∧
    (∃ (s : State) (l : Nat) (caps : List Nat), s.held = false ∧ l < 96 ∧ s.lstate l = lsRECOVER ∧
      let u := (s.bump F.YL_RETRAIN_CNT_FAST l).lifeAdd 0x5060 (l + 1) 1
      ∃ c : Caps, capsOf caps = some c ∧ u.capsCheck l c = none) ∧
    (∃ (s : State) (l : Nat) (ok : Bool), s.held = false ∧ l < 96 ∧ s.lstate l = lsRECOVER ∧
      let u := (s.bump F.YL_RETRAIN_CNT_FAST l).lifeAdd 0x5060 (l + 1) 1
      ok = false ∧ (u.link l).fast + 1 < 3) ∧
    (∃ (s : State) (l : Nat), s.held = false ∧ l < 96 ∧ s.lstate l = lsFAILED ∧ s.flag F.YL_LINK_CTRL_RETRY_EN l = true ∧ s.fld
      F.YL_LINK_STATUS_FAIL_CAUSE l ≠ lcVERSION ∧ s.fld F.YL_LINK_STATUS_FAIL_CAUSE l ≠ lcROLE) ∧
    (∃ (s : State) (src : Source) (l : Nat), s.held = false ∧ src.wf = true ∧ l < 96 ∧ s.admission src .YL_LINK_CTRL l =
      .accept ∧
      let w := F.YL_LINK_CTRL_RETRAIN.put (s.rd .YL_LINK_CTRL l) 1
      let u := s.plainWrite .YL_LINK_CTRL l w
      F.YL_LINK_CTRL_DISABLE.get w = 0 ∧ F.YL_LINK_CTRL_RETRAIN.get w = 1 ∧ u.lstate l ≠ lsDISABLED ∧ u.linkUp l = true) ∧
    (∃ (s : State) (src : Source) (l : Nat), s.held = false ∧ src.wf = true ∧ l < 96 ∧ s.admission src .YL_LINK_CTRL l =
      .accept ∧
      let w := F.YL_LINK_CTRL_DISABLE.put (s.rd .YL_LINK_CTRL l) 1
      let u := s.plainWrite .YL_LINK_CTRL l w
      F.YL_LINK_CTRL_DISABLE.get w = 1 ∧ u.lstate l ≠ lsDISABLED ∧ u.linkUp l = true) ∧
    (∃ (s : State) (src : Source) (l : Nat), s.held = false ∧ src.wf = true ∧ l < 96 ∧ s.admission src .YL_LINK_CTRL l =
      .accept ∧
      let w := F.YL_LINK_CTRL_DISABLE.put (s.rd .YL_LINK_CTRL l) 0
      let u := s.plainWrite .YL_LINK_CTRL l w
      F.YL_LINK_CTRL_DISABLE.get w = 0 ∧ F.YL_LINK_CTRL_RETRAIN.get w = 0 ∧ u.lstate l = lsDISABLED ∧ u.ylLocked = true ∧ u.flag
      F.YL_LINK_CFG_EN l = true ∧ u.linkHeld l = false) ∧
    (∃ (s : State) (src : Source), s.held = false ∧ src.wf = true ∧ s.admission src .YL_CFG_COMMIT 0 = .accept ∧ (s.beginCommit
      .yl 0).ylLocked = false ∧ (s.beginCommit .yl 0).expectBad = none) :=
  ⟨⟨up.setFld F.YL_LINK_STATUS_STATE lsDETECT 95, 95, by decide⟩,
   ⟨(up.setFld F.YL_LINK_STATUS_STATE lsDETECT 95).setFlag F.YL_LINK_CFG_DEGRADE_EN true 95, 95, 1, by decide⟩,
   ⟨up.setFld F.YL_LINK_STATUS_STATE lsEQUALIZE 95, 95, by decide⟩,
   ⟨up.setFld F.YL_LINK_STATUS_STATE lsLOCK 95, 95, by decide⟩,
   ⟨up.setFld F.YL_LINK_STATUS_STATE lsNEGOTIATE 95, 95, by decide⟩,
   ⟨up.setFld F.YL_LINK_STATUS_STATE lsRECOVER 0, 0, goodCaps, by decide, by decide, by decide, _, rfl, by decide⟩,
   ⟨up.setFld F.YL_LINK_STATUS_STATE lsRECOVER 95, 95, false, by decide⟩,
   ⟨(up.setFld F.YL_LINK_STATUS_STATE lsFAILED 95).setFlag F.YL_LINK_CTRL_RETRY_EN true 95, 95, by decide⟩,
   ⟨up.setFld F.YL_LINK_STATUS_STATE lsUP 95, .fw, 95, by decide⟩,
   ⟨up.setFld F.YL_LINK_STATUS_STATE lsUP 95, .fw, 95, by decide⟩,
   ⟨{ (((up.setFld F.YL_LINK_STATUS_STATE 0 95).setStage .east 7).setFlag F.YL_LINK_CFG_EN true 95).setStage .west 7 with ylLocked := true },
     .fw, 95, by decide⟩,
   ⟨up, .fw, by decide, by decide, by decide, by decide, by decide +kernel⟩⟩

theorem meets_LinkFlitCommandsComplete :
    (∃ (s : State) (l cw s0 s1 : Nat) (b : List Byte), s.held = false ∧ l < 96 ∧ b.length = 256 ∧ s.linkUp l = true ∧
      let u := ((s.wrap F.YL_FEC_CORR_CW_COUNT l cw).wrap F.YL_FEC_SYM0_COUNT l s0).wrap F.YL_FEC_SYM1_COUNT l s1
      (u.link l).judge b false = .sequenced) ∧
    (∃ (s : State) (l : Nat) (b : List Byte), s.held = false ∧ l < 96 ∧ b.length = 256 ∧ s.linkUp l = true) ∧
    (∃ (s : State) (l : Nat), s.held = false ∧ l < 96 ∧ s.linkUp l = true ∧ (s.link l).unacked ≠ 0) ∧
    (∃ (s : State) (l : Nat), s.held = false ∧ l < 96 ∧ s.linkUp l = true ∧ (s.link l).nak ≠ 0 ∧ (s.link l).nak < 3) ∧
    (∃ (s : State) (l : Nat), s.held = false ∧ l < 96) ∧
    (∃ (s : State) (l : Nat), s.held = false ∧ l < 96 ∧ (s.link l).replay ≠ []) :=
  ⟨⟨up.setFld F.YL_LINK_STATUS_STATE lsUP 95, 95, 0, 0, 0, flit, by decide, by decide, by decide +kernel, by decide,
    by decide +kernel⟩,
   ⟨up.setFld F.YL_LINK_STATUS_STATE lsUP 95, 95, flit, by decide, by decide, by decide +kernel, by decide⟩,
   ⟨{ up.setFld F.YL_LINK_STATUS_STATE lsUP 95 with links := [(95, { unacked := 1 })] }, 95, by decide⟩,
   ⟨{ up.setFld F.YL_LINK_STATUS_STATE lsUP 95 with links := [(95, { nak := 2 })] }, 95, by decide⟩,
   ⟨up, 95, by decide⟩,
   ⟨{ up with links := [(95, { replay := [⟨0, [], [], []⟩] })] }, 95, by decide⟩⟩

theorem meets_LinkLaneCommandsComplete :
    (∃ (s : State) (l mask k : Nat), s.held = false ∧ l < 96 ∧ mask < 4 ∧ s.linkUp l = true ∧ ((List.range 2).filter fun k =>
      mask.testBit k && s.flag (if k = 0 then F.YL_LINK_STATUS_RX_L0 else F.YL_LINK_STATUS_RX_L1) l) = [k] ∧ s.feature l 0 =
      true ∧ s.flag F.YL_LINK_CFG_DEGRADE_EN l = true ∧ (s.link l).drop = none ∧ (s.link l).lane1 = none) ∧
    (∃ (s : State) (l k : Nat), s.held = false ∧ l < 96 ∧ (s.link l).drop = some k ∧ s.linkUp l = true ∧ (s.link l).provisional
      = false) ∧
    (∃ (s : State) (l k : Nat), s.held = false ∧ l < 96 ∧ (s.link l).drop = some k ∧ (s.link l).provisional = false) ∧
    (∃ (s : State) (l ser0 ser1 : Nat), s.held = false ∧ l < 96 ∧ ser0 < 16 ∧ ser1 < 16 ∧ (s.link l).drop = none) ∧
    (∃ (s : State) (l ser0 ser1 : Nat), s.held = false ∧ l < 96 ∧ ser0 < 16 ∧ ser1 < 16 ∧
      let u := (s.setFld F.YL_LANE_STATUS_RX0_SER ser0 l).setFld F.YL_LANE_STATUS_RX1_SER ser1 l
      ∃ k : Nat, (u.link l).drop = some k ∧ (u.link l).provisional = true ∧ u.linkUp l = true) ∧
    (∃ (s : State) (l : Nat), s.held = false ∧ l < 96 ∧ isPeer l = true ∧ s.linkUp l = true) ∧
    (∃ (s : State) (l : Nat), s.held = false ∧ l < 96) :=
  ⟨⟨((up.setFld F.YL_LINK_STATUS_STATE lsUP 95).setFlag F.YL_LINK_STATUS_RX_L1 true 95).setFld F.YL_LINK_NEG_FEATURES 1 95, 95,
    3, 1, by decide⟩,
   ⟨{ up.setFld F.YL_LINK_STATUS_STATE lsDEGRADED 95 with links := [(95, { drop := some 1 })] }, 95, 1, by decide⟩,
   ⟨{ up with links := [(95, { drop := some 1 })] }, 95, 1, by decide⟩,
   ⟨up, 95, 15, 15, by decide⟩,
   ⟨{ up.setFld F.YL_LINK_STATUS_STATE lsDEGRADED 95 with links := [(95, { drop := some 1, provisional := true })] }, 95, 15,
     15, by decide, by decide, by decide, by decide, 1, by decide⟩,
   ⟨up.setFld F.YL_LINK_STATUS_STATE lsUP 63, 63, by decide⟩,
   ⟨up, 95, by decide⟩⟩

theorem meets_TspPortCommandsComplete :
    (∃ (s : State) (t : Nat), s.held = false ∧ t < 16 ∧ s.port t = tpTRAIN ∧ s.refOk t = true) ∧
    (∃ (s : State) (t : Nat), s.held = false ∧ t < 16 ∧ s.port t = tpNEGOTIATE) ∧
    (∃ (s : State) (t mask : Nat), s.held = false ∧ t < 16 ∧ mask < 16 ∧ s.tspServes t = true ∧ s.fld
      F.TSP_PORT_STATUS_RX_LANES t ≠ 15 ∧ ((List.range 4).filter fun k => mask.testBit k && (s.fld F.TSP_PORT_STATUS_RX_LANES
      t).testBit k) ≠ []) ∧
    (∃ (s : State) (t mask : Nat), s.held = false ∧ t < 16 ∧ mask < 16 ∧ s.tspServes t = true ∧ s.fld
      F.TSP_PORT_STATUS_RX_LANES t = 15 ∧ (s.fld F.TSP_PORT_NEG_FEATURES t).testBit 0 = true ∧ s.flag F.TSP_PORT_CTRL_DEGRADE_EN
      t = true ∧ (mask = 1 ∨ mask = 4)) ∧
    (∃ (s : State) (t : Nat) (caps : List Nat) (c : Caps), s.held = false ∧ t < 16 ∧ s.port t = tpRECOVER ∧ portCapsOf caps =
      some c ∧ portCapsOk c = true) ∧
    (∃ (s : State) (t : Nat), s.held = false ∧ t < 16 ∧ s.port t = tpFAILED ∧ s.flag F.TSP_PORT_CTRL_RETRY_EN t = true ∧ s.fld
      F.TSP_PORT_STATUS_FAIL_CAUSE t ≠ tcVERSION) ∧
    (∃ (s : State) (k : Nat), s.held = false ∧ k < 8 ∧ (s.fld F.TSP_REF_STATUS_PAIR_OK).testBit k = true) ∧
    (∃ (s : State) (k : Nat), s.held = false ∧ k < 8) ∧
    (∃ (s : State) (src : Source) (t : Nat), s.held = false ∧ src.wf = true ∧ t < 16 ∧ s.admission src .TSP_PORT_CTRL t =
      .accept ∧
      let w := F.TSP_PORT_CTRL_DISABLE.put (s.rd .TSP_PORT_CTRL t) 0
      let u := s.plainWrite .TSP_PORT_CTRL t w
      F.TSP_PORT_CTRL_DISABLE.get w = 0 ∧ F.TSP_PORT_CTRL_RETRAIN.get w = 0 ∧ u.port t = tpDISABLED) ∧
    (∃ (s : State) (src : Source) (t : Nat), s.held = false ∧ src.wf = true ∧ t < 16 ∧ s.admission src .TSP_PORT_CTRL t =
      .accept ∧
      let w := F.TSP_PORT_CTRL_DISABLE.put (s.rd .TSP_PORT_CTRL t) 1
      let u := s.plainWrite .TSP_PORT_CTRL t w
      F.TSP_PORT_CTRL_DISABLE.get w = 1 ∧ u.port t ≠ tpDISABLED) ∧
    (∃ (s : State) (src : Source) (t : Nat), s.held = false ∧ src.wf = true ∧ t < 16 ∧ s.admission src .TSP_PORT_COMMIT t =
      .accept ∧
      let u := s.beginCommit .tsp t
      let v := (List.range 16).map fun k => u.snapOf .tsp t .TSP_STREAM_CRED (strm t k)
      v.foldl (fun n w => n + F.TSP_STREAM_CRED_BLOCKS.get w) 0 ≤ 4096 ∧ (v.any fun w => (F.TSP_STREAM_CRED_BLOCKS.get w == 0)
      != (F.TSP_STREAM_CRED_TILES.get w == 0)) = false) :=
  ⟨⟨(up.setFld F.TSP_PORT_STATUS_STATE tpTRAIN 15).setFld F.TSP_REF_STATUS_PAIR_OK 255, 15, by decide⟩,
   ⟨up.setFld F.TSP_PORT_STATUS_STATE tpNEGOTIATE 15, 15, by decide⟩,
   ⟨(up.setFld F.TSP_PORT_STATUS_STATE 3 15).setFld F.TSP_PORT_STATUS_RX_LANES 8 15, 15, 15, by decide⟩,
   ⟨((up.setFld F.TSP_PORT_STATUS_STATE 3 15).setFld F.TSP_PORT_STATUS_RX_LANES 15 15).setFld F.TSP_PORT_NEG_FEATURES 1 15
     |>.setFlag F.TSP_PORT_CTRL_DEGRADE_EN true 15, 15, 4, by decide⟩,
   ⟨up.setFld F.TSP_PORT_STATUS_STATE tpRECOVER 15, 15, portCaps, _, by decide, by decide, by decide, rfl, by decide⟩,
   ⟨up.setFld F.TSP_PORT_STATUS_STATE tpFAILED 15, 15, by decide⟩,
   ⟨up.setFld F.TSP_REF_STATUS_PAIR_OK 255, 7, by decide⟩,
   ⟨up, 7, by decide⟩,
   ⟨up.setFld F.TSP_PORT_STATUS_STATE tpDISABLED 15, .fw, 15, by decide⟩,
   ⟨up.setFld F.TSP_PORT_STATUS_STATE tpTRAIN 15, .fw, 15, by decide⟩,
   ⟨up, .fw, 15, by decide⟩⟩

theorem meets_TspTileCommandsComplete :
    (∃ (s : State) (t : Nat) (b : List Byte), s.held = false ∧ t < 16 ∧ b.length = 256 ∧ s.tspServes t = true ∧ (s.link (96 +
      t)).judge b false = .sequenced) ∧
    (∃ (s : State) (t : Nat) (b : List Byte), s.held = false ∧ t < 16 ∧ b.length = 256 ∧ s.tspServes t = true) ∧
    (∃ (s : State) (t k q : Nat) (d : List Byte) (rest : List (Nat × Nat × List Byte)), s.held = false ∧ t < 16 ∧ (s.link (96 +
      t)).tilesIn = (k, q, d) :: rest ∧ (((s.link (96 + t)).tseqs.find? fun e => e.1 = k).map (·.2)).getD 0 = q) ∧
    (∃ (s : State) (t k : Nat) (x : PortTile), s.held = false ∧ t < 16 ∧ s.tspServes t = true ∧
      let u := s.dropTooBig t
      (((List.range 16).map fun j => ((u.link (96 + t)).turn + 1 + j) % 16).find? (u.canSend t)) = some k ∧ u.nextOut t k = some
      x) :=
  ⟨⟨up.setFld F.TSP_PORT_STATUS_STATE 3 15, 15, flit, by decide, by decide, by decide +kernel, by decide, by decide +kernel⟩,
   ⟨up.setFld F.TSP_PORT_STATUS_STATE 3 15, 15, flit, by decide, by decide, by decide +kernel, by decide⟩,
   ⟨{ up with links := [(111, { tilesIn := [(15, 0, [])] })] }, 15, 15, 0, [], [], by decide⟩,
   ⟨{ ((up.setFld F.TSP_PORT_STATUS_STATE 3 15).setFld F.TSP_STREAM_STATUS_TX_TILES 1 (strm 15 15)).setFld F.TSP_STREAM_STATUS_TX_BLOCKS 4095 (strm 15 15) with tspOut := [(strm 15 15, [{ data := [] }])] },
     15, 15, { data := [] }, by decide, by decide, by decide, by decide +kernel, by decide +kernel⟩⟩

theorem meets_MirrorCommandsComplete :
    (∃ (s : State) (n slot : Nat), s.held = false ∧ n < 64 ∧ slot < 1024 ∧ (s.prog n).mir.copying.contains slot = true ∧
      s.mirrors n = true ∧ s.mirDone n (mirCopy n slot) = true) ∧
    (∃ (s : State) (n step : Nat) (es : List SeqSt) (rest : List (Nat × List SeqSt)), s.held = false ∧ n < 64 ∧ (s.prog
      n).mir.steps = (step, es) :: rest ∧ (s.prog n).mir.stage = 0 ∧ s.mirrors n = true ∧ s.mirDone n (mirPush n step) = true) ∧
    (∃ (s : State) (n step : Nat) (es : List SeqSt) (rest : List (Nat × List SeqSt)), s.held = false ∧ n < 64 ∧ (s.prog
      n).mir.steps = (step, es) :: rest ∧ s.mirrors n = true ∧ s.mirDone n (mirBank n) = true ∧
      let p := s.prog n
      p.mir.stage = 1) ∧
    (∃ (s : State) (n step : Nat) (es : List SeqSt) (rest : List (Nat × List SeqSt)), s.held = false ∧ n < 64 ∧ (s.prog
      n).mir.steps = (step, es) :: rest ∧ s.mirrors n = true ∧ s.mirDone n (mirBank n) = true ∧
      let p := s.prog n
      p.mir.stage = 2) ∧
    (∃ (s : State) (h : Handoff) (rest : List Handoff), s.held = false ∧ s.handoffs = h :: rest ∧ s.awaits (.handoff h.num) =
      false ∧ (s.takeFails (.handoff h.num)).2 = []) :=
  ⟨⟨mirroring { copying := [1023] }, 63, 1023, by decide⟩,
   ⟨mirroring { steps := [(0, [])] }, 63, 0, [], [], by decide⟩,
   ⟨mirroring { steps := [(0, [])], stage := 1 }, 63, 0, [], [], by decide⟩,
   ⟨mirroring { steps := [(0, [])], stage := 2 }, 63, 0, [], [], by decide⟩,
   ⟨{ up with handoffs := [{ num := 0, answer := arrival, off := 0, data := [] }] },
     { num := 0, answer := arrival, off := 0, data := [] }, [], by decide⟩⟩

theorem meets_ContinuityCommandsComplete :
    (∃ (s u : State) (env : Env) (st : Nat), s.held = false ∧ s.cntState = csPAIRING ∧ s.pairing env = (u, some st) ∧ st ≠
      csSERVING) ∧
    (∃ (s u : State) (env : Env), s.held = false ∧ s.cntState = csPAIRING ∧ s.pairing env = (u, some csSERVING)) ∧
    (∃ s : State, s.held = false ∧ s.cntState = csPAIRING) ∧
    (∃ s : State, s.held = false ∧ s.reach s.partner = false ∧ s.detours s.partner = []) ∧
    (∃ (s : State) (src : Source), s.held = false ∧ src.wf = true ∧ s.admission src .CNT_CTRL 0 = .accept ∧ (s.cntState =
      csPAIRED ∨ s.cntState = csSERVING)) ∧
    (∃ (s : State) (src : Source), s.held = false ∧ src.wf = true ∧ s.admission src .CNT_CTRL 0 = .accept ∧ (s.cntState =
      csPAIRED ∨ s.cntState = csSERVING)) ∧
    (∃ (s : State) (src : Source), s.held = false ∧ src.wf = true ∧ s.admission src .CNT_CTRL 0 = .accept ∧ s.cntState =
      csALONE) ∧
    (∃ (s : State) (src : Source), s.held = false ∧ src.wf = true ∧ s.admission src .CNT_COMMIT 0 = .accept ∧ (s.beginCommit
      .cnt 0).cntCheck = 0) ∧
    (∃ (s : State) (m : Nat) (rest : List (Nat × Nat)), s.held = false ∧ s.cntState = csPAIRED ∧ s.peerCmds = (1, m) :: rest) ∧
    (∃ (s : State) (m : Nat) (rest : List (Nat × Nat)), s.held = false ∧ s.cntState = csSERVING ∧ s.peerCmds = (2, m) :: rest) ∧
    (∃ (s : State) (m : Nat) (rest : List (Nat × Nat)), s.held = false ∧ s.cntState = csSERVING ∧ s.peerCmds = (3, m) :: rest) ∧
    (∃ s : State, s.held = false ∧ s.cntState = csRETURNING ∧ s.retSwept = false ∧ s.retSweeping = false ∧ s.retFailed = false) ∧
    (∃ (s : State) (n : Nat) (env : Env) (b : List Byte), s.held = false ∧ n < 64 ∧ s.cntState = csRETURNING ∧ s.retHeader n
      env = some b ∧ (leAt b 4 1).testBit 0 = true) ∧
    (∃ (s : State) (env : Env), s.held = false ∧ s.cntState = csRETURNING ∧ s.retSwept = true ∧
      let l := s.ret.filterMap fun r =>
        if r.asked || !s.retReady r.prog then none else (s.retHeader r.prog env).map fun b => (r.prog, b, s.retEntries r.prog b env)
      l ≠ []) ∧
    (∃ (s : State) (n : Nat) (env : Env) (r : RetProg) (b : List Byte), s.held = false ∧ n < 64 ∧ s.cntState = csRETURNING ∧
      s.retReady n = true ∧ (s.ret.find? fun r => r.prog == n && r.frozen) = some r ∧ s.retHeader n env = some b) :=
  ⟨⟨up.setFld F.CNT_STATE_STATE csPAIRING, _, [⟨.node 0, cntBlock, List.replicate 40 0#8 ++ leBytes 4 (csPAIRED * 2 ^ 28), [],
    false, false⟩], csPAIRED, by decide, by decide, fst_of (by decide +kernel), by decide⟩,
   ⟨up.setFld F.CNT_STATE_STATE csPAIRING, _, [⟨.node 0, cntBlock, List.replicate 40 0#8 ++ leBytes 4 (csSERVING * 2 ^ 28), [],
     false, false⟩], by decide, by decide, fst_of (by decide +kernel)⟩,
   ⟨up.setFld F.CNT_STATE_STATE csPAIRING, by decide⟩,
   ⟨up, by decide⟩,
   ⟨up.setFld F.CNT_STATE_STATE csPAIRED, .fw, by decide⟩,
   ⟨up.setFld F.CNT_STATE_STATE csSERVING, .fw, by decide⟩,
   ⟨up.setFld F.CNT_STATE_STATE csALONE, .fw, by decide⟩,
   ⟨up, .fw, by decide⟩,
   ⟨{ up.setFld F.CNT_STATE_STATE csPAIRED with peerCmds := [(1, 1)] }, 1, [], by decide⟩,
   ⟨{ up.setFld F.CNT_STATE_STATE csSERVING with peerCmds := [(2, 1)] }, 1, [], by decide⟩,
   ⟨{ up.setFld F.CNT_STATE_STATE csSERVING with peerCmds := [(3, 1)] }, 1, [], by decide⟩,
   ⟨up.setFld F.CNT_STATE_STATE csRETURNING, by decide⟩,
   ⟨returning [], 63, headerEnv, header, by decide, by decide, by decide, by decide +kernel, by decide +kernel⟩,
   ⟨{ returning [{ prog := 63 }] with retSwept := true }, headerEnv, by decide, by decide, by decide, by decide +kernel⟩,
   ⟨returning [{ prog := 63, frozen := true }], 63, headerEnv, { prog := 63, frozen := true }, header, by decide, by decide,
     by decide, by decide +kernel, by decide +kernel, by decide +kernel⟩⟩

theorem meets_SessionMessagesComplete :
    (∃ (s w : State) (d : Dgram) (env : Env) (k t : Nat) (a : List Byte), s.held = false ∧ t ≠ 0x1F ∧ s.takesMessage w 0x10 d
      env k t a) ∧
    (∃ (s w : State) (d : Dgram) (env : Env) (k t : Nat) (a : List Byte), s.held = false ∧ t ≠ 0x1F ∧ s.takesMessage w 0x12 d
      env k t a) ∧
    (∃ (s w : State) (d : Dgram) (env : Env) (k t : Nat) (a : List Byte), s.held = false ∧ t ≠ 0x1F ∧ s.takesMessage w 0x14 d
      env k t a) ∧
    (∃ (s w : State) (d : Dgram) (env : Env) (k t : Nat) (a : List Byte), s.held = false ∧ t ≠ 0x1F ∧ s.takesMessage w 0x16 d
      env k t a) ∧
    (∃ (s w : State) (d : Dgram) (env : Env) (k t : Nat) (a : List Byte), s.held = false ∧ t ≠ 0x1F ∧ s.takesMessage w 0x18 d
      env k t a) ∧
    (∃ (s w : State) (d : Dgram) (env : Env) (k t : Nat) (a : List Byte), s.held = false ∧ t ≠ 0x1F ∧ s.takesMessage w 0x1A d
      env k t a) ∧
    (∃ (s w : State) (d : Dgram) (env : Env) (k t : Nat) (a : List Byte), s.held = false ∧ t ≠ 0x1F ∧ s.takesMessage w 0x1C d
      env k t a) ∧
    (∃ (s w : State) (d : Dgram) (env : Env) (k t : Nat) (a : List Byte), s.held = false ∧ t ≠ 0x1F ∧ s.takesMessage w 0x1E d
      env k 0x1F a) :=
  ⟨⟨managed, _,
    { from_ := 0, session := 1, seq := 1, total := (leBytes 12 (1 + 2 ^ 32)).length, body := leBytes 12 (1 + 2 ^ 32) }, [], 0,
    0x11, _, by decide, by decide, ⟨{ id := 1, role := 1 }, _, _, by decide, by decide, by decide, by decide, by decide,
    by decide, by decide, rfl, by decide,
       rfl⟩⟩,
   ⟨managed, _,
     { from_ := 0, session := 1, seq := 1, total := (leBytes 12 (1 + 2 ^ 32)).length, body := leBytes 12 (1 + 2 ^ 32) }, [], 0,
     0x13, _, by decide, by decide, ⟨{ id := 1, role := 1 }, _, _, by decide, by decide, by decide, by decide, by decide,
     by decide, by decide, rfl, by decide,
       rfl⟩⟩,
   ⟨managed, _, { from_ := 0, session := 1, seq := 1, total := (leBytes 8 0).length, body := leBytes 8 0 }, [], 0, 0x15, _,
     by decide, by decide, ⟨{ id := 1, role := 1 }, _, _, by decide, by decide, by decide, by decide, by decide, by decide,
     by decide, rfl, by decide,
       rfl⟩⟩,
   ⟨managed, _, { from_ := 0, session := 1, seq := 1, total := (leBytes 8 0).length, body := leBytes 8 0 }, [], 0, 0x17, _,
     by decide, by decide, ⟨{ id := 1, role := 1 }, _, _, by decide, by decide, by decide, by decide, by decide, by decide,
     by decide, rfl, by decide,
       rfl⟩⟩,
   ⟨managed, _, { from_ := 0, session := 1, seq := 1, total := (leBytes 4 0).length, body := leBytes 4 0 }, [], 0, 0x19, _,
     by decide, by decide, ⟨{ id := 1, role := 1 }, _, _, by decide, by decide, by decide, by decide, by decide, by decide,
     by decide, rfl, by decide,
       rfl⟩⟩,
   ⟨managed, _, { from_ := 0, session := 1, seq := 1, total := (([] : List Byte)).length, body := ([] : List Byte) }, [], 0,
     0x1B, _, by decide, by decide, ⟨{ id := 1, role := 1 }, _, _, by decide, by decide, by decide, by decide, by decide,
     by decide, by decide, rfl, by decide,
       rfl⟩⟩,
   ⟨managed, _, { from_ := 0, session := 1, seq := 1, total := (([] : List Byte)).length, body := ([] : List Byte) }, [], 0,
     0x1D, _, by decide, by decide, ⟨{ id := 1, role := 1 }, _, _, by decide, by decide, by decide, by decide, by decide,
     by decide, by decide, rfl, by decide,
       rfl⟩⟩,
   ⟨managed, _, { from_ := 0, session := 1, seq := 1, total := (([] : List Byte)).length, body := ([] : List Byte) }, [], 0, 0,
     _, by decide, by decide, ⟨{ id := 1, role := 1 }, _, _, by decide, by decide, by decide, by decide, by decide, by decide,
     by decide, rfl, by decide,
       rfl⟩⟩⟩

theorem meets_SessionOpeningComplete :
    (∃ (s v : State) (d : Dgram), s.held = false ∧ s.rxFrame.mgmtServes = true ∧ d.flags % 2 = 0 ∧ s.rxFrame.silent d.toMac =
      false ∧ s.rxFrame.assemble (8 + d.from_) 0x01 d = (v, .message []) ∧
      let recent := v.mg.discovers.filter fun e => decide (v.time < e.1 + 1000000000)
      recent.length < 16 ∧ (recent.any fun e => e.2 == d.from_) = false) ∧
    (∃ (s v : State) (d : Dgram) (b : List Byte) (k : Nat), s.held = false ∧ s.rxFrame.mgmtServes = true ∧ d.flags % 2 = 0 ∧
      s.rxFrame.silent d.toMac = false ∧ s.rxFrame.assemble (8 + d.from_) 0x03 d = (v, .message b) ∧ b.length = 1600 ∧ sget 0
      v.mg.hellos d.from_ ≤ v.time ∧
      let u : State := { v with mg := { v.mg with hellos := sput 0 d.from_ (v.time + 100000000) v.mg.hellos } }
      u.flag F.BOOT_STATUS_ID_VALID = true ∧ ((List.range 2).find? fun k => (u.shake k).isNone) = some k ∧ u.openSessions < 4) ∧
    (∃ (s v w : State) (d : Dgram) (prov : Bool) (x : Session) (b : List Byte) (j k role : Nat) (slot : Option Nat), s.held =
      false ∧ s.rxFrame.mgmtServes = true ∧ ((List.range 2).find? fun k => (s.rxFrame.shake k).any fun y => y.id == d.session) =
      some k ∧ s.rxFrame.shake k = some x ∧ d.flags % 2 = 1 ∧ d.tagOk = true ∧ x.rx < d.seq ∧ (s.rxFrame.setShake k (some
      { x with rx := d.seq })).silent d.toMac = false ∧ (s.rxFrame.setShake k (some { x with rx := d.seq })).assemble (4 + k)
      0x05 d = (v, .message b) ∧ b.length = 14454 ∧ v.grantRole b prov = some (role, slot) ∧ ((List.range 4).find? fun j =>
      (v.session j).isNone) = some j ∧ w = (v.dropShake k).setSession j (some
      { id := x.id, role := role, anchor := slot, rx := d.seq, tx := x.tx })) ∧
    (∃ s : State, s.held = false) ∧
    (∃ (s : State) (k : Nat), s.held = false ∧ k < 4) ∧
    (∃ (s : State) (k : Nat), s.held = false ∧ k < 2) :=
  ⟨⟨managed, _, { from_ := 0, flags := 0 }, by decide, by decide, by decide, by decide, rfl, by decide, by decide⟩,
   ⟨greeted, _, helloTail, hello, 0, by decide, by decide, by decide, by decide, fst_of (by decide +kernel), by decide +kernel,
     by decide +kernel, by decide +kernel, by decide +kernel, by decide +kernel⟩,
   ⟨shaking, _, _, authTail, true, { id := 2, role := 0 }, authBody, 0, 0, roPROVISION, none, by decide, by decide, by decide,
     by decide, by decide, by decide, by decide, by decide, fst_of (authTail_whole _ rfl), authBody_length, rfl, by decide,
     rfl⟩,
   ⟨up, by decide⟩,
   ⟨up, 3, by decide⟩,
   ⟨up, 1, by decide⟩⟩

theorem meets_MailboxAndConfigComplete :
    (∃ (s : State) (src : Source), s.held = false ∧ src.wf = true) ∧
    (∃ (s : State) (reqId : Nat), s.held = false ∧ reqId < 2 ^ 32) ∧
    (∃ (s : State) (src : Source), s.held = false ∧ src.wf = true ∧ s.admission src .MGT_NET_COMMIT 0 = .accept ∧
      let u := s.beginCommit .net 0
      let p := u.snapOf .net 0 .MGT_NET_PLCA 0
      F.MGT_NET_PLCA_EN.get p = 0 ∧ F.MGT_NET_PLCA_TO_TIMER.get p ≠ 0) ∧
    (∃ (s : State) (src : Source) (k : Nat), s.held = false ∧ src.wf = true ∧ k < 8 ∧ s.admission src .MGT_ANCHOR_COMMIT 0 =
      .accept ∧
      let u := s.beginCommit .anchor 0
      let v : State := { u with mg := { u.mg with anchorSnap := some u.mg.anchorsStaged } }
      (v.anchorStaged k).valid = true ∧ 3 ≤ (v.anchorStaged k).roleMax) ∧
    (∃ (s : State) (src : Source), s.held = false ∧ src.wf = true ∧ s.admission src .MGT_DELEG_COMMIT 0 = .accept ∧
      let u := s.beginCommit .deleg 0
      delegCheck ((List.range 16).map fun k => u.snapOf .deleg 0 .MGT_DELEG k) = 0) ∧
    (∃ (s : State) (copy gen : Nat) (device : List Byte), s.held = false ∧ s.mg.cfgSaving = some (copy, gen, device) ∧
      s.mg.owedRsp = []) ∧
    (∃ (s w : State) (env : Env), s.held = false ∧ s.configReady = true ∧
      let a := s.readCopy env 0
      let b := s.readCopy env 1
      let u := ((s.setFld F.MGT_CFG_STATUS_A_STATE a.1).setFld F.MGT_CFG_STATUS_B_STATE b.1).setFlag F.MGT_CFG_STATUS_DEFAULTED false
      ∃ c : CfgCopy, u.tryCopies (cfgOrder a.2 b.2) = (w, some c)) ∧
    (∃ (s w : State) (env : Env), s.held = false ∧ s.configReady = true ∧
      let a := s.readCopy env 0
      let b := s.readCopy env 1
      let u := ((s.setFld F.MGT_CFG_STATUS_A_STATE a.1).setFld F.MGT_CFG_STATUS_B_STATE b.1).setFlag F.MGT_CFG_STATUS_DEFAULTED false
      u.tryCopies (cfgOrder a.2 b.2) = (w, none)) :=
  ⟨⟨up, .fw, by decide⟩,
   ⟨up, 4294967295, by decide⟩,
   ⟨up, .fw, by decide⟩,
   ⟨{ up with mg := { anchorsStaged := [(7, { valid := true, roleMax := 3 })] } }, .fw, 7, by decide⟩,
   ⟨up, .fw, by decide, by decide, by decide, by decide +kernel⟩,
   ⟨{ up with mg := { cfgSaving := some (0, 0, []) } }, 0, 0, [], by decide⟩,
   ⟨configuring, _, [⟨.flash, cfgBase 0, emptyImage, [], false, false⟩], by decide, by decide, ⟨0, 0, List.replicate 16 0#8,
     emptyImage, 0⟩, fst_of (by decide +kernel)⟩,
   ⟨configuring, _, [], by decide, by decide, rfl⟩⟩

theorem meets_LeaseAndNetComplete :
    (∃ (s : State) (h : Half) (e : Nat), s.held = false ∧ e < 2 ^ 32 ∧ s.holder = some h ∧ s.fld F.CNT_LEASE_STATUS_EPOCH = e) ∧
    (∃ (s : State) (h : Half), s.held = false ∧ s.nextHolder = some h ∧ s.holder ≠ some h) ∧
    (∃ (s : State) (target : List Byte), s.held = false ∧ target = s.rxFrame.ipv6 ∧ s.rxFrame.silent true = false) ∧
    (∃ (s : State) (target : List Byte), s.held = false ∧ target = s.rxFrame.ipv6 ∧ s.rxFrame.silent true = false) ∧
    (∃ s : State, s.held = false) ∧
    (∃ (s : State) (why : Nat), s.held = false ∧ why < 5) ∧
    (∃ s : State, s.held = false ∧
      let u := ({ s with mg := { s.mg with beacons := 0 } } : State).setFlag F.MGT_NET_STATUS_BEACON false
      u.flag F.MGT_NET_STATUS_PLCA_ACTIVE = true) ∧
    (∃ s : State, s.held = false ∧
      let v : State := { s with mg := { s.mg with beacons := min 2 (s.mg.beacons + 1) } }
      let u := v.setFlag F.MGT_NET_STATUS_BEACON true
      u.flag F.MGT_NET_PLCA_EN = true ∧ 2 ≤ u.mg.beacons) :=
  ⟨⟨managed, .east, 0, by decide⟩,
   ⟨up.setStage .west sgMEMORY, .west, by decide⟩,
   ⟨up, up.rxFrame.ipv6, by decide, rfl, by decide⟩,
   ⟨up, up.rxFrame.ipv6, by decide, rfl, by decide⟩,
   ⟨up, by decide⟩,
   ⟨up, 4, by decide⟩,
   ⟨up.setFlag F.MGT_NET_STATUS_PLCA_ACTIVE true, by decide⟩,
   ⟨{ up.setFlag F.MGT_NET_PLCA_EN true with mg := { beacons := 1 } }, by decide⟩⟩

theorem meets_MeteringCommandsComplete :
    (∃ s : State, s.held = false ∧ s.metering = false) ∧
    (∃ s : State, s.held = false ∧ s.metering = true) ∧
    (∃ (s : State) (p c : Nat), s.held = false ∧ p < 128 ∧ c < 8 ∧ s.scale.change = none ∧ s.metered p c ≠ sget 0 s.scale.vals
      (16 * p + c) ∧ s.scale.enabled c = true) ∧
    (∃ (s : State) (p : Nat), s.held = false ∧ p < 128 ∧ s.metering = true) ∧
    (∃ (s : State) (resid : Nat) (want : Int), s.held = false ∧ resid ≤ 1000 ∧ -20000 ≤ want ∧ want ≤ 20000 ∧ sgn 16 (s.fld
      F.SCL_DISC_CORR) - 100 ≤ want ∧ want ≤ sgn 16 (s.fld F.SCL_DISC_CORR) + 100 ∧ s.flag F.BOOT_TIME_STATUS_DISCIPLINED = true) ∧
    (∃ s : State, s.held = false) ∧
    (∃ s : State, s.held = false ∧ s.sclState = scLOADING) ∧
    (∃ (s : State) (r : List Byte) (q : List (List Byte)), s.held = false ∧ s.scale.queue = r :: q ∧ leAt r 3 1 ≠ rrSHUTDOWN) ∧
    (∃ (s : State) (src : Source) (data : List Byte), s.held = false ∧ src.wf = true ∧ s.entryStatus src 0x2F40 = stOK ∧
      data.length ≤ 16368 ∧ data.length < sclOfferMax ∧ s.metering = true ∧ s.fld F.SCL_OFFER_STATUS_RESULT ≠ ofVERIFYING ∧
      s.scale.image = none ∧ data ≠ [] ∧ sclOfferMax < 2 ^ 32) ∧
    (∃ (s : State) (v cls : Nat) (m : List Byte), s.held = false ∧ s.metering = true ∧ s.fld F.SCL_OFFER_STATUS_RESULT =
      ofVERIFYING ∧ s.scale.image = none ∧ s.fld F.SCL_FW_VERSION_PARAM_VERSION < v ∧ v < 65536 ∧ m.length = 16 ∧ cls < 512) ∧
    (∃ (s : State) (k v cls : Nat) (m : List Byte), s.held = false ∧ s.scale.image = some (k, v, m, cls)) ∧
    (∃ (s : State) (v cls : Nat) (m : List Byte), s.held = false ∧ s.scale.image = some (1, v, m, cls)) :=
  ⟨⟨up, by decide⟩,
   ⟨up.setFld F.SCL_STATUS_STATE scMETERING, by decide⟩,
   ⟨up, 127, 0, by decide⟩,
   ⟨up.setFld F.SCL_STATUS_STATE scMETERING, 127, by decide⟩,
   ⟨up.setFlag F.BOOT_TIME_STATUS_DISCIPLINED true, 1000, -100, by decide⟩,
   ⟨up, by decide⟩,
   ⟨up.setFld F.SCL_STATUS_STATE scLOADING, by decide⟩,
   ⟨{ up with scale := { queue := [[]] } }, [], [], by decide⟩,
   ⟨up.setFld F.SCL_STATUS_STATE scMETERING, .fw, [1#8], by decide⟩,
   ⟨(up.setFld F.SCL_STATUS_STATE scMETERING).setFld F.SCL_OFFER_STATUS_RESULT ofVERIFYING, 65535, 511, List.replicate 16 0#8,
     by decide⟩,
   ⟨{ up with scale := { image := some (2, 1, [], 0) } }, 2, 1, 0, [], by decide⟩,
   ⟨{ up with scale := { image := some (1, 1, [], 0) } }, 1, 0, [], by decide⟩⟩

theorem meets_BootCommandsComplete :
    (∃ s : State, s.held = false ∧ s.bootStage .east = sgROM) ∧
    (∃ (s : State) (h : Half) (a b : Option Img) (k : Nat), s.held = false ∧ s.bootStage h = sgIMAGE ∧ s.half h ≠ hsResetting ∧
      s.holder = some h ∧ s.bootStage (otherHalf h) < sgVERIFY ∧
      let u : State := { s with boot := { s.boot with slots := [a, b] } }
      u.boot.choose = some k) ∧
    (∃ (s : State) (h : Half) (i : Img), s.held = false ∧ s.bootStage h = sgVERIFY ∧ s.published = some i ∧ i.keyOk = true ∧
      i.sigOk = true ∧ s.boot.rpmcKey = true ∧ s.boot.rpmc ≤ i.svn) ∧
    (∃ (s : State) (h : Half), s.held = false ∧ s.bootStage h = sgSERDES ∧ s.boot.done = false) ∧
    (∃ (s : State) (src : Source) (v : Word), s.held = false ∧ src.wf = true ∧ s.admission src .BOOT_SVN_COMMIT 0 = .accept ∧
      F.BOOT_SVN_COMMIT_CONFIRM.get v = 0xA5 ∧ F.BOOT_SVN_COMMIT_GO.get v ≠ 0 ∧ s.boot.rpmc < s.fld F.BOOT_SVN_IMAGE_SVN) ∧
    (∃ (s : State) (src : Source) (off tot : Nat) (data : List Byte), s.held = false ∧ src.wf = true ∧ off < 2 ^ 32 ∧ tot < 2 ^
      32 ∧ s.entryStatus src 0x1011 = stOK ∧ data.length ≤ 16368 ∧ s.fld F.BOOT_OFFER_RESULT ≠ ofVERIFYING ∧ 0 < off ∧ off =
      s.fld F.BOOT_OFFER_HELD ∧ tot = s.boot.offerTotal ∧ off + data.length < tot) ∧
    (∃ (s : State) (i : Img), s.held = false ∧ s.fld F.BOOT_OFFER_RESULT = ofVERIFYING ∧ i.keyOk = true ∧ i.sigOk = true ∧
      s.boot.rpmc ≤ i.svn) :=
  ⟨⟨up.setStage .east sgROM, by decide⟩,
   ⟨managed.setStage .east sgIMAGE, .east, none, some { version := 1, svn := 0, digest := [], keyOk := true, sigOk := true }, 1,
     by decide⟩,
   ⟨{ up.setStage .west sgVERIFY with boot := { slots := [some { version := 1, svn := 0, digest := [], keyOk := true, sigOk := true }], rpmcKey := true } },
     .west, { version := 1, svn := 0, digest := [], keyOk := true, sigOk := true }, by decide⟩,
   ⟨up.setStage .west sgSERDES, .west, by decide⟩,
   ⟨up.setFld F.BOOT_SVN_IMAGE_SVN 1, .fw, 0xA501, by decide⟩,
   ⟨{ up.setFld F.BOOT_OFFER_HELD 1 with boot := { offerTotal := 3 } }, .fw, 1, 3, [1#8], by decide⟩,
   ⟨up.setFld F.BOOT_OFFER_RESULT ofVERIFYING, { version := 1, svn := 0, digest := [], keyOk := true, sigOk := true },
     by decide⟩⟩

theorem meets_AttestationAndTimeComplete :
    (∃ (s : State) (src : Source) (n : List Byte), s.held = false ∧ src.wf = true ∧ s.entryStatus src 0x2F63 = stOK ∧ n.length
      = 64) ∧
    (∃ (s : State) (src : Source) (n : List Byte), s.held = false ∧ src.wf = true ∧ s.entryStatus src 0x1010 = stOK ∧ n.length
      = 64 ∧ s.flag F.BOOT_STATUS_ID_VALID = true) ∧
    (∃ (s : State) (a : Attest), s.held = false ∧ s.flag F.BOOT_STATUS_ID_VALID = true ∧ s.attestNet = some a) ∧
    (∃ (s : State) (src : Source) (n : Nat), s.held = false ∧ src.wf = true ∧ n < 2 ^ 32 ∧ s.entryStatus src 0x1104 = stOK) ∧
    (∃ (s : State) (src : Source) (n t1 t2 : Nat), s.held = false ∧ src.wf = true ∧ n < 2 ^ 32 ∧ t1 < 2 ^ 64 ∧ s.entryStatus
      src 0x1104 = stOK ∧ s.cal.sync = some (n, t2) ∧ s.flag F.BOOT_TIME_CTRL_EN_NET = true ∧ s.flag F.BOOT_TIME_STATUS_RESTORED
      = false) ∧
    (∃ (s : State) (src : Source), s.held = false ∧ src.wf = true ∧ s.admission src .BOOT_TIME_HOST 0 = .accept ∧ s.flag
      F.BOOT_TIME_CTRL_EN_HOST = true ∧ s.flag F.BOOT_TIME_CTRL_EN_NET = false ∧ s.flag F.BOOT_TIME_STATUS_RESTORED = false) ∧
    (∃ (s : State) (src : Source) (u : Word), s.held = false ∧ src.wf = true ∧ s.admission src .BOOT_TIME_HOST 0 = .accept ∧
      s.flag F.BOOT_TIME_CTRL_EN_HOST = true ∧ s.flag F.BOOT_TIME_CTRL_EN_NET = false ∧
      let far := apart u.toNat ((s.time + s.fld F.BOOT_UTC_OFFSET_VALUE) % 2 ^ 64)
      s.flag F.BOOT_TIME_STATUS_RESTORED = true ∧ far ≤ 1000000000) ∧
    (∃ (s : State) (src : Source) (u : Word), s.held = false ∧ src.wf = true ∧ s.admission src .BOOT_TIME_HOST 0 = .accept ∧
      s.flag F.BOOT_TIME_CTRL_EN_HOST = true ∧ s.flag F.BOOT_TIME_CTRL_EN_NET = false ∧
      let far := apart u.toNat ((s.time + s.fld F.BOOT_UTC_OFFSET_VALUE) % 2 ^ 64)
      s.flag F.BOOT_TIME_STATUS_RESTORED = true ∧ 1000000000 < far ∧ s.cal.last = none) ∧
    (∃ s : State, s.held = false) :=
  ⟨⟨up, .fw, List.replicate 64 0#8, by decide⟩,
   ⟨up.setFlag F.BOOT_STATUS_ID_VALID true, .fw, List.replicate 64 0#8, by decide⟩,
   ⟨{ up.setFlag F.BOOT_STATUS_ID_VALID true with attestNet := some { nonce := [] } }, { nonce := [] }, by decide⟩,
   ⟨up, .fw, 4294967295, by decide⟩,
   ⟨{ up with cal := { sync := some (1, 0) } }, .fw, 1, 0, 0, by decide⟩,
   ⟨up.setFlag F.BOOT_TIME_CTRL_EN_NET false, .fw, by decide⟩,
   ⟨(up.setFlag F.BOOT_TIME_CTRL_EN_NET false).setFlag F.BOOT_TIME_STATUS_RESTORED true, .fw, 1000000000, by decide⟩,
   ⟨(up.setFlag F.BOOT_TIME_CTRL_EN_NET false).setFlag F.BOOT_TIME_STATUS_RESTORED true, .fw, 1000000001, by decide⟩,
   ⟨up, by decide⟩⟩

theorem meets_LifeAndThermalComplete :
    (∃ s : State, s.held = false ∧ s.snaps.busy.isSome = true) ∧
    (∃ s : State, s.held = false ∧ s.snaps.busy = none) ∧
    (∃ s : State, s.held = false ∧ s.snaps.busy = none ∧ ∃ src : Source, src.wf = true ∧ s.admission src .LIFE_CTRL 0 = .accept) ∧
    (∃ (s : State) (src : Source), s.held = false ∧ src.wf = true ∧ s.admission src .LIFE_CTRL 0 = .accept ∧ s.snaps.stage = 0
      ∧ (∀ n, s.live n = false)) ∧
    (∃ s : State, s.held = false ∧ s.snaps.busy.isSome = true ∧ s.snaps.stage ≠ 2) ∧
    (∃ (s : State) (src : Source), s.held = false ∧ src.wf = true ∧ s.admission src .LIFE_SERVICE_ADD 0 = .accept) ∧
    (∃ (s : State) (dies : List Int), s.held = false ∧ dies.length = 6) ∧
    (∃ (s : State) (rails : List (Option (Nat × Nat))), s.held = false ∧ rails.length = 18) ∧
    (∃ (s : State) (e w : Nat), s.held = false ∧ s.flag F.PKG_AVS_CTRL_EN = true ∧
      let e' := avsStep (s.fld F.PKG_AVS_CTRL_SET_E_MV) e
      let w' := avsStep (s.fld F.PKG_AVS_CTRL_SET_W_MV) w
      s.fld F.PKG_AVS_CTRL_SET_E_MV = e' ∧ s.fld F.PKG_AVS_CTRL_SET_W_MV = w') ∧
    (∃ (s : State) (e w : Nat), s.held = false ∧ s.flag F.PKG_AVS_CTRL_EN = true ∧
      let e' := avsStep (s.fld F.PKG_AVS_CTRL_SET_E_MV) e
      let w' := avsStep (s.fld F.PKG_AVS_CTRL_SET_W_MV) w
      let u := (s.setFld F.PKG_AVS_CTRL_SET_E_MV e').emit (.note "VOUT_COMMAND" [2, e'])
      s.fld F.PKG_AVS_CTRL_SET_E_MV ≠ e' ∧ u.fld F.PKG_AVS_CTRL_SET_W_MV ≠ w') ∧
    (∃ s : State, s.held = false ∧ s.fld (thState 0) ≠ thTHROTTLE ∧ s.fld (thState 1) ≠ thTHROTTLE) ∧
    (∃ s : State, s.held = false ∧ s.fld (thState 0) = thTHROTTLE ∧ s.hasCause 0 = true ∧
      let u := s.setFld (thDuty 0) (max 1 (s.fld (thDuty 0) - 1))
      u.fld (thState 1) ≠ thTHROTTLE) ∧
    (∃ s : State, s.held = false) ∧
    (∃ (s : State) (io q : Nat), s.held = false ∧ io < 4 ∧ q < 12) :=
  ⟨⟨{ up with snaps := { busy := some ⟨0, [], 0⟩ } }, by decide⟩,
   ⟨up, by decide⟩,
   ⟨up, by decide, by decide, .fw, by decide⟩,
   ⟨{ State.reset with coldHeld := false }, .fw, by decide, by decide, by decide, by decide, reset_idle⟩,
   ⟨{ up with snaps := { busy := some ⟨0, [], 0⟩ } }, by decide⟩,
   ⟨up, .fw, by decide⟩,
   ⟨up, [0, 0, 0, 0, 0, 0], by decide⟩,
   ⟨up, List.replicate 18 none, by decide⟩,
   ⟨up.setFld F.PKG_AVS_CTRL_SET_E_MV 800 |>.setFld F.PKG_AVS_CTRL_SET_W_MV 800, 800, 800, by decide⟩,
   ⟨up.setFld F.PKG_AVS_CTRL_SET_E_MV 800 |>.setFld F.PKG_AVS_CTRL_SET_W_MV 800, 760, 760, by decide⟩,
   ⟨up, by decide⟩,
   ⟨(up.setFld (thState 0) thTHROTTLE).setFlag F.PKG_THROTTLE_STATUS_THERM_E true, by decide⟩,
   ⟨up, by decide⟩,
   ⟨up, 3, 11, by decide⟩⟩


end Sys2Proof.Tests
end

section
/-!
PROOF. O11: what the home refuses. Accesses of a half that is RESETTING or FAILED (R47, R48), and part writes to a poisoned
line (R128).
-/

namespace Sys2Proof.Machine

/-! ## Halves that do not serve -/

theorem State.halfDown_iff (s : State) (h : Half) : s.halfDown h = true ↔ s.half h = hsResetting ∨ s.half h = hsFailed := by
  simp [State.halfDown]

/-- R47: the answer to a read names each line of a half that is down as poisoned. -/
theorem State.poison_readMem_of_halfDown (s : State) {a n l : Nat} (hl : l ∈ linesOf a n)
    (hd : s.halfDown (s.homeHalf (64 * l)) = true) : l - a / 64 ∈ (s.readMem a n).poison :=
  List.mem_map_of_mem (List.mem_filter.2 ⟨hl, by simp [hd]⟩)

/-- R48: a write with one line in a half that is down changes nothing. -/
theorem State.memWrite_of_halfDown (s : State) {o l : Nat} {d : List Byte} (poison : List Nat) (hl : l ∈ linesOf o d.length)
    (hd : s.halfDown (s.homeHalf (64 * l)) = true) : s.memWrite o d poison = (s, psHALF_DOWN) :=
  if_pos (List.any_eq_true.2 ⟨l, hl, hd⟩)

/-- R48: an atomic homed in a half that is down changes nothing, whatever the access would allow. -/
theorem State.memAtom_of_halfDown (s : State) {o : Nat} (atop : Nat) (d : List Byte)
    (allow : List Byte → List Byte → Option Bool) (hd : s.halfDown (s.homeHalf o) = true) :
    s.memAtom o atop d allow = (s, { status := psHALF_DOWN }) :=
  if_pos hd

/-! ## Part writes to a poisoned line -/

theorem linesOf_of_oneLine {a n : Nat} (hn : n ≠ 0) (h : a % 64 + n ≤ 64) : linesOf a n = [a / 64] := by
  have hlast : (a + n - 1) / 64 - a / 64 + 1 = 1 := by omega
  simp [linesOf, hn, hlast]

/-- A part write to a poisoned line is refused at the line (R128). -/
theorem Memory.writeLine_of_poisoned {m : Memory} {a : Nat} {d : List Byte} (hd : d.length < 64)
    (hp : m.poisoned (a / 64) = true) : m.writeLine a d = none := by
  rw [Memory.writeLine, if_neg (Nat.ne_of_lt hd), if_pos hp]

/-- The refused line is the only one of the write: memory stays, and the write is answered as failed. -/
theorem Memory.writeLines_of_poisoned {m : Memory} {a : Nat} {d : List Byte} (k first : Nat) (hne : d ≠ [])
    (h : a % 64 + d.length ≤ 64) (hd : d.length < 64) (hp : m.poisoned (a / 64) = true) :
    Memory.writeLines (k + 2) m a d [] first = (m, false) := by
  have htake : d.take (64 - a % 64) = d := List.take_of_length_le (by omega)
  have hdrop : d.drop (64 - a % 64) = [] := List.drop_eq_nil_of_le (by omega)
  obtain ⟨b, r, rfl⟩ := List.exists_cons_of_ne_nil hne
  simp [Memory.writeLines, htake, hdrop, Memory.writeLine_of_poisoned hd hp]

/-- Counting the bytes of an access leaves memory as it is. -/
@[simp] theorem State.tally_mem (s : State) (o n : Nat) (wr : Bool) : (s.tally o n wr).mem = s.mem := by
  unfold State.tally
  split <;> cases wr <;> rfl

/-- With an empty directory no write snoops. -/
theorem State.snoopWrite_of_noDir {s : State} (hdir : s.dir = []) (a n : Nat) : s.snoopWrite a n = s := by
  simp [State.snoopWrite, hdir]

theorem State.memWrite_of_poisoned {s : State} {a : Nat} {d : List Byte} (hne : d ≠ []) (h : a % 64 + d.length ≤ 64)
    (hd : d.length < 64) (hup : s.halfDown (s.homeHalf (64 * (a / 64))) = false)
    (hok : s.memFailed (64 * (a / 64)) = false) (hdir : s.dir = []) (hp : s.mem.poisoned (a / 64) = true) :
    s.memWrite a d [] = (s.tally a d.length true, psMEM_ERROR) := by
  have hline : linesOf a d.length = [a / 64] := linesOf_of_oneLine (mt List.length_eq_zero_iff.1 hne) h
  have hrefused := Memory.writeLines_of_poisoned (d.length / 64) (a / 64) hne h hd hp
  simp [State.memWrite, State.writeMem, hline, hup, hok, State.snoopWrite_of_noDir hdir, hrefused]

/-! ## The obligation -/

/-- Settles O11: a half that is down refuses before memory is touched, and a poisoned line refuses the one line of the write. -/
theorem refusedWritesLeaveMemory : Obligations.RefusedWritesLeaveMemory := by
  unfold Obligations.RefusedWritesLeaveMemory
  refine ⟨?readAndWrite, ?atomic, ?partWrite⟩
  case readAndWrite =>
    intro s o d poison l hl hhalf
    have hdown := (s.halfDown_iff _).2 hhalf
    exact ⟨s.poison_readMem_of_halfDown hl hdown, psHALF_DOWN, s.memWrite_of_halfDown poison hl hdown, by decide⟩
  case atomic =>
    intro s o atop d allow hhalf
    exact ⟨_, s.memAtom_of_halfDown atop d allow ((s.halfDown_iff _).2 hhalf), by decide⟩
  case partWrite =>
    intro s a d hne h hd hup hok hdir hp
    exact ⟨_, State.memWrite_of_poisoned hne h hd hup hok hdir hp, s.tally_mem a d.length true⟩

end Sys2Proof.Machine
end

section
/-!
PROOF. O13: when a doorbell moves HIF_SQ_TAIL. The ring's three tests of a new tail (R602), and DB_MEM, with which the register
write is ignored (R603).
-/

namespace Sys2Proof.Machine

/-! ## Writes that admission accepts -/

theorem State.gated_of_accept {s : State} {src : Source} {r : Reg} {inst : Nat} (f : State → State)
    (h : s.admission src r inst = .accept) : s.gated src r inst f = f s := by
  simp [State.gated, State.admitted, h]

/-- An accepted doorbell is one write of HIF_SQ_TAIL. -/
theorem exec_sqDoorbell_of_accept {s : State} {src : Source} {p q : Nat} (v : Nat) (hheld : s.held = false)
    (hsrc : src.wf = true) (hp : p < 128) (hq : q < 16) (hacc : s.admission src .HIF_SQ_TAIL (qInst p q) = .accept) :
    exec (.sqDoorbell src p q v) s = .next (s.writeSqTail p q v) := by
  have hwf : (Instr.sqDoorbell src p q v).wf = true := by simp [Instr.wf, hsrc, hp, hq]
  calc exec (.sqDoorbell src p q v) s
      = run (.sqDoorbell src p q v) (s.clocked (s.gated src .HIF_SQ_TAIL (qInst p q) fun s => s.writeSqTail p q v)) := rfl
    _ = .next (s.writeSqTail p q v) := by rw [run_of_wf _ hwf, s.clocked_of_up _ hheld, State.gated_of_accept _ hacc]

/-! ## The new tail -/

theorem State.writeSqTail_of_dbMem {s : State} {p q : Nat} (v : Nat) (h : s.flag F.HIF_SQ_CTRL_DB_MEM (qInst p q) = true) :
    s.writeSqTail p q v = s :=
  if_pos h

theorem State.writeSqTail_of_not_dbMem {s : State} {p q : Nat} (v : Nat)
    (h : s.flag F.HIF_SQ_CTRL_DB_MEM (qInst p q) = false) : s.writeSqTail p q v = s.sqTail p q v := by
  simp [State.writeSqTail, h]

/-- R602: `v` is no tail of the queue's ring. Its slot is not in the ring, it moves the tail backward, or it moves it more than
the ring's size ahead of the head. -/
def State.badSqTail (s : State) (p q v : Nat) : Prop :=
  let n := sqSize s p q
  let head := s.fld F.HIF_SQ_HEAD_INDEX (qInst p q)
  n ≤ v % 65536 ∨ ringDist n head (v % 2 ^ 17) < ringDist n head (s.fld F.HIF_SQ_TAIL_INDEX (qInst p q)) ∨
    n < ringDist n head (v % 2 ^ 17)

/-- The test that `sqTail` makes of a tail is the negation of R602's three faults. -/
theorem State.not_badSqTail_iff (s : State) (p q v : Nat) :
    ¬ s.badSqTail p q v ↔ v % 2 ^ 17 % 65536 < sqSize s p q ∧
      ringDist (sqSize s p q) (s.fld F.HIF_SQ_HEAD_INDEX (qInst p q)) (s.fld F.HIF_SQ_TAIL_INDEX (qInst p q)) ≤
        ringDist (sqSize s p q) (s.fld F.HIF_SQ_HEAD_INDEX (qInst p q)) (v % 2 ^ 17) ∧
      ringDist (sqSize s p q) (s.fld F.HIF_SQ_HEAD_INDEX (qInst p q)) (v % 2 ^ 17) ≤ sqSize s p q := by
  have hslot : v % 2 ^ 17 % 65536 = v % 65536 := Nat.mod_mod_of_dvd v (by decide)
  rw [hslot]
  simp only [State.badSqTail, not_or, Nat.not_le, Nat.not_lt]

theorem State.sqTail_of_good {s : State} {p q v : Nat} (h : ¬ s.badSqTail p q v) :
    s.sqTail p q v = s.setFld F.HIF_SQ_TAIL_INDEX (v % 2 ^ 17) (qInst p q) := by
  obtain ⟨hslot, hforward, hahead⟩ := (s.not_badSqTail_iff p q v).1 h
  simp only [State.sqTail, hslot, hforward, hahead, decide_true, Bool.and_self, if_true]

theorem State.sqTail_of_bad {s : State} {p q v : Nat} (h : s.badSqTail p q v) :
    s.sqTail p q v = s.setFlag F.HIF_SQ_STATUS_DB_ERR true (qInst p q) := by
  refine if_neg fun hc => ?_
  simp only [Bool.and_eq_true, decide_eq_true_eq, and_assoc] at hc
  exact (s.not_badSqTail_iff p q v).2 hc h

/-! ## The obligation -/

/-- Settles O13: an accepted doorbell is a write of the tail, which DB_MEM ignores and which else passes or fails R602's test. -/
theorem doorbellMovesTheTail : Obligations.DoorbellMovesTheTail := by
  unfold Obligations.DoorbellMovesTheTail
  intro s src p q v hheld hsrc hp hq hacc k n head tail bad
  have hexec := exec_sqDoorbell_of_accept v hheld hsrc hp hq hacc
  refine ⟨fun hmem => ?ignored, fun hreg hgood => ?moved, fun hreg hbad => ?refused⟩
  case ignored => rw [hexec, State.writeSqTail_of_dbMem v hmem]
  case moved => rw [hexec, State.writeSqTail_of_not_dbMem v hreg, State.sqTail_of_good hgood]
  case refused => rw [hexec, State.writeSqTail_of_not_dbMem v hreg, State.sqTail_of_bad hbad]

end Sys2Proof.Machine
end

section
/-!
PROOF. O16: how a CAS128 changes a handoff record (15_continuity.md R727). The home checks the change against the record it holds
before it compares. What a served read leaves and what a write inside one line does is said once, for every atomic.
-/

namespace Sys2Proof.Machine

/-! ## Bytes and records -/

@[simp] theorem slice_length (l : List Byte) (off n : Nat) : (slice l off n).length = n := by
  simp only [slice, List.length_append, List.length_take, List.length_drop, List.length_replicate]
  omega

theorem slice_zero_of_length {l : List Byte} {n : Nat} (h : l.length = n) : slice l 0 n = l := by
  subst h
  simp [slice]

theorem leAt_zero_of_length {l : List Byte} {n : Nat} (h : l.length = n) : leAt l 0 n = leNat l :=
  congrArg leNat (slice_zero_of_length h)

/-- The new record keeps MAGIC and holds no reserved encoding. -/
def recKeepsForm (old new : List Byte) : Prop :=
  recField new 0 8 = recField old 0 8 ∧ recField new 12 4 = 0 ∧ recField new 24 8 = 0 ∧ recField new 8 4 ≤ 4

/-- The first change of R727: OWNER and EPOCH stay, and PHASE is not lowered. -/
def recSameOwner (old new : List Byte) : Prop :=
  recField new 16 8 = recField old 16 8 ∧ recField new 32 32 = recField old 32 32 ∧ recField old 8 4 ≤ recField new 8 4

/-- The second change of R727: OWNER changes, and EPOCH rises by exactly 1. -/
def recNewOwner (old new : List Byte) : Prop :=
  recField new 16 8 ≠ recField old 16 8 ∧ recField new 32 32 = recField old 32 32 + 1

theorem recChange_iff (old new : List Byte) :
    recChange old new = true ↔ recKeepsForm old new ∧ (recSameOwner old new ∨ recNewOwner old new) := by
  have hlegal : recLegal new = true ↔ recField new 12 4 = 0 ∧ recField new 24 8 = 0 ∧ recField new 8 4 ≤ 4 := by
    simp only [recLegal, Bool.and_eq_true, beq_iff_eq, decide_eq_true_eq, and_comm, and_left_comm]
  simp only [recChange, recKeepsForm, recSameOwner, recNewOwner, hlegal, Bool.and_eq_true, Bool.or_eq_true, beq_iff_eq,
    bne_iff_ne, decide_eq_true_eq, and_assoc]

/-! ## Memory: reads, and a write inside one line -/

@[simp] theorem Memory.length_bytes (m : Memory) (a n : Nat) : (m.bytes a n).length = n := by
  induction n generalizing a with
  | zero => rfl
  | succ n ih => exact congrArg (· + 1) (ih (a + 1))

theorem Memory.bytes_congr {m m' : Memory} (h : ∀ x, m.byte x = m'.byte x) (a n : Nat) : m.bytes a n = m'.bytes a n := by
  induction n generalizing a with
  | zero => rfl
  | succ n ih => rw [Memory.bytes, Memory.bytes, h a, ih (a + 1)]

theorem Memory.bytes_cleanLine (m : Memory) (line a n : Nat) : (m.cleanLine line).bytes a n = m.bytes a n :=
  Memory.bytes_congr (m.byte_cleanLine line) a n

/-- A write to a part of one clean line is performed at once. -/
theorem Memory.writeLines_of_clean {m : Memory} {a : Nat} {d : List Byte} (k first : Nat) (hne : d ≠ [])
    (h : a % 64 + d.length ≤ 64) (hd : d.length < 64) (hp : m.poisoned (a / 64) = false) :
    Memory.writeLines (k + 2) m a d [] first = ((m.putAll a d).cleanLine (a / 64), true) := by
  have htake : d.take (64 - a % 64) = d := List.take_of_length_le (by omega)
  have hdrop : d.drop (64 - a % 64) = [] := List.drop_eq_nil_of_le (by omega)
  have hwrite : m.writeLine a d = some ((m.putAll a d).cleanLine (a / 64)) := by
    rw [Memory.writeLine, if_neg (Nat.ne_of_lt hd), if_neg (by simp [hp])]
  obtain ⟨b, r, rfl⟩ := List.exists_cons_of_ne_nil hne
  simp [Memory.writeLines, htake, hdrop, hwrite]

/-! ## Whether the home serves a line -/

/-- The registers that say which half homes an offset, and whether that half and the memory behind the offset serve. -/
def serviceRegs : List Reg := [.PKG_HALF_STATUS, .TIER_T1_INFO, .TIER_T0_STATUS, .TIER_T1_STATUS]

/-- A write to the line is refused: its half is down (R48), or its stack or channel has FAILED (R132). -/
def State.lineDown (s : State) (l : Nat) : Bool := s.halfDown (s.homeHalf (64 * l)) || s.memFailed (64 * l)

theorem State.lineDown_congr {s t : State} (h : ∀ r ∈ serviceRegs, t.rd r = s.rd r) (l : Nat) : t.lineDown l = s.lineDown l := by
  simp only [serviceRegs, List.forall_mem_cons] at h
  obtain ⟨hhalf, hinfo, ht0, ht1, -⟩ := h
  have hsize : t.t1Size = s.t1Size := by
    unfold State.t1Size State.flag State.fld
    rw [hinfo]
  have hhome : ∀ o, t.homeHalf o = s.homeHalf o := fun o => by simp only [State.homeHalf, hsize]
  have hdown : ∀ x, t.halfDown x = s.halfDown x := fun x => by
    cases x <;> simp only [State.halfDown, State.half, halfFld, State.fld, hhalf]
  have hfailed : ∀ o, t.memFailed o = s.memFailed o := fun o => by simp only [State.memFailed, State.t1Place, hsize, ht0, ht1]
  simp only [State.lineDown, hhome, hdown, hfailed]

theorem State.writeMem_of_clean {s : State} {a : Nat} {d : List Byte} (hne : d ≠ []) (h : a % 64 + d.length ≤ 64)
    (hd : d.length < 64) (hup : s.lineDown (a / 64) = false) (hdir : s.dir = []) (hp : s.mem.poisoned (a / 64) = false) :
    s.writeMem a d = (({ s with mem := (s.mem.putAll a d).cleanLine (a / 64) } : State).tally a d.length true, true) := by
  have hline : linesOf a d.length = [a / 64] := linesOf_of_oneLine (mt List.length_eq_zero_iff.1 hne) h
  have hserved : ((linesOf a d.length).any fun l => s.halfDown (s.homeHalf (64 * l)) || s.memFailed (64 * l)) = false := by
    rw [hline, List.any_cons, List.any_nil, Bool.or_false]
    exact hup
  simp only [State.writeMem, hserved, Bool.false_eq_true, if_false, State.snoopWrite_of_noDir hdir,
    Memory.writeLines_of_clean _ _ hne h hd hp]

/-! ## What a served read leaves -/

@[simp] theorem State.wrap_mem (s : State) (f : Fld) (k n : Nat) : (s.wrap f k n).mem = s.mem := rfl
@[simp] theorem State.wrap_dir (s : State) (f : Fld) (k n : Nat) : (s.wrap f k n).dir = s.dir := rfl

/-- A count leaves every other register that stands once. -/
theorem State.rd_wrap_other (s : State) {f : Fld} {r : Reg} (n : Nat) (h : r ≠ f.reg) : (s.wrap f 0 n).rd r = s.rd r :=
  s.rd_wr_other _ (by decide) (by decide) fun e => h (Prod.mk.inj e).1

@[simp] theorem State.tally_dir (s : State) (o n : Nat) (wr : Bool) : (s.tally o n wr).dir = s.dir := by
  unfold State.tally
  split <;> cases wr <;> rfl

theorem State.rd_tally_read (s : State) (o n : Nat) {r : Reg} (h0 : r ≠ .TIER_T0_BYTES_RD) (h1 : r ≠ .TIER_T1_BYTES_RD) :
    (s.tally o n false).rd r = s.rd r := by
  unfold State.tally
  split
  · exact s.rd_wrap_other n h0
  · exact s.rd_wrap_other n h1

theorem State.snoopRead_of_noDir {s : State} (hdir : s.dir = []) (a n : Nat) : s.snoopRead a n = s := by
  simp [State.snoopRead, hdir]

section NoDirectory

variable {s : State} (hdir : s.dir = [])
include hdir

/-- With an empty directory a served read only counts: of memory the marks of fresh errors change (R659). -/
theorem State.mem_noteRead (o n : Nat) :
    (s.noteRead o n).mem = { s.mem with fresh := s.mem.fresh.filter fun l => !(linesOf o n).contains l } := by
  simp only [State.noteRead, State.countPoison, State.tally_mem]
  rw [State.snoopRead_of_noDir (by exact hdir)]
  rfl

theorem State.dir_noteRead (o n : Nat) : (s.noteRead o n).dir = [] := by
  simp only [State.noteRead, State.countPoison, State.tally_dir]
  rw [State.snoopRead_of_noDir (by exact hdir)]
  exact hdir

theorem State.rd_noteRead (o n : Nat) {r : Reg} (hr : r ∈ serviceRegs) : (s.noteRead o n).rd r = s.rd r := by
  have hcounters : ∀ r ∈ serviceRegs, r ≠ .ERR_POISON_RD ∧ r ≠ .TIER_T0_BYTES_RD ∧ r ≠ .TIER_T1_BYTES_RD := by decide
  obtain ⟨hpoison, ht0, ht1⟩ := hcounters r hr
  rw [State.noteRead, State.rd_tally_read _ o n ht0 ht1, State.countPoison, State.snoopRead_of_noDir (by exact hdir),
    State.rd_wrap_other _ _ hpoison]
  rfl

theorem State.byte_noteRead (o n x : Nat) : (s.noteRead o n).mem.byte x = s.mem.byte x := by
  rw [State.mem_noteRead hdir]
  rfl

theorem State.bytes_noteRead (o n a k : Nat) : (s.noteRead o n).mem.bytes a k = s.mem.bytes a k :=
  Memory.bytes_congr (State.byte_noteRead hdir o n) a k

theorem State.poison_noteRead (o n : Nat) : (s.noteRead o n).mem.poison = s.mem.poison := by
  rw [State.mem_noteRead hdir]

theorem State.poisoned_noteRead (o n l : Nat) : (s.noteRead o n).mem.poisoned l = s.mem.poisoned l := by
  rw [State.mem_noteRead hdir]
  rfl

theorem State.lineDown_noteRead (o n l : Nat) : (s.noteRead o n).lineDown l = s.lineDown l :=
  State.lineDown_congr (fun _ hr => State.rd_noteRead hdir o n hr) l

end NoDirectory

/-! ## An atomic at a home that serves -/

/-- What an atomic does once its operand is read as `old`, by what its access allows and by the new value (none where the
comparison fails). -/
def State.atomOutcome (s : State) (o : Nat) (old : List Byte) : Option Bool → Option (List Byte) → State × AtomRes
  | none, _ => (s, { status := psADDR })
  | some true, some v => ((s.writeMem o v).1, { old := old, pushed := some v })
  | some _, _ => (s, { old := old })

theorem State.memAtom_of_served {s : State} {o : Nat} (atop : Nat) (d : List Byte)
    (allow : List Byte → List Byte → Option Bool) (hup : s.halfDown (s.homeHalf o) = false) (hok : s.memFailed o = false)
    (hdir : s.dir = []) (hp : s.mem.poisoned (o / 64) = false) :
    s.memAtom o atop d allow = (s.noteRead o (atomWidth atop)).atomOutcome o (s.mem.bytes o (atomWidth atop))
      (allow (s.mem.bytes o (atomWidth atop)) (slice d (atomWidth atop) (atomWidth atop)))
      (atomNew atop (s.mem.bytes o (atomWidth atop)) d) := by
  simp only [State.memAtom, hup, hok, State.snoopWrite_of_noDir hdir, State.poisoned_noteRead hdir, State.bytes_noteRead hdir, hp,
    Bool.false_eq_true, if_false]
  cases allow (s.mem.bytes o (atomWidth atop)) (slice d (atomWidth atop) (atomWidth atop)) with
  | none => rfl
  | some go => cases atomNew atop (s.mem.bytes o (atomWidth atop)) d <;> cases go <;> rfl

/-- A write inside one line, made after a served read, reads back. -/
theorem State.bytes_writeMem_noteRead {s : State} {o n k : Nat} {v : List Byte} (hv : v.length = k) (h0 : 0 < k) (h64 : k < 64)
    (h : o % 64 + k ≤ 64) (hc : s.canonical = true) (hdir : s.dir = []) (hup : s.lineDown (o / 64) = false)
    (hp : s.mem.poisoned (o / 64) = false) : ((s.noteRead o n).writeMem o v).1.mem.bytes o k = v := by
  subst hv
  have hwf : (s.noteRead o n).mem.wf = true :=
    (State.canonical_iff.1 ((State.noteRead_keeps s o n (Keeps.refl s)).canonical hc)).1
  rw [State.writeMem_of_clean (List.ne_nil_of_length_pos h0) h h64 ((State.lineDown_noteRead hdir o n _).trans hup)
    (State.dir_noteRead hdir o n) ((State.poisoned_noteRead hdir o n _).trans hp), State.tally_mem]
  exact (Memory.bytes_cleanLine _ _ o v.length).trans (Memory.bytes_putAll_same hwf o v)

/-! ## CAS128 on a handoff record -/

/-- What R727 allows at the home: a change by the rule is made, another is refused. -/
def recAllow (old new : List Byte) : Option Bool := if recChange old new then some true else none

/-- CAS128 writes its second operand where the record equals its first. -/
theorem atomNew_cas128 {old : List Byte} (hold : old.length = 16) (d : List Byte) :
    atomNew 7 old d = if leNat old = leAt d 0 16 then some (slice d 16 16) else none := by
  rw [← leAt_zero_of_length hold]
  rfl

/-- The home of a record performs a CAS128 by R727; only what goes to the partner depends on the pairing (R728). -/
theorem State.homeAtom_of_inHandoff {s : State} {o : Nat} (d : List Byte) (ho : o % 16 = 0) (hin : s.inHandoff o 16 = true) :
    ∃ p, s.homeAtom o 7 d = ((s.memAtom o 7 d recAllow).1, { (s.memAtom o 7 d recAllow).2 with pushed := p }) := by
  have hwidth : atomWidth 7 = 16 := rfl
  have hrec : s.homeAtom o 7 d = if s.cntState = csPAIRED then s.memAtom o 7 d recAllow
      else ((s.memAtom o 7 d recAllow).1, { (s.memAtom o 7 d recAllow).2 with pushed := none }) := by
    simp only [State.homeAtom, hwidth, ho, hin, ne_eq, not_true_eq_false, if_true, if_false]
    rfl
  rw [hrec]
  split
  · exact ⟨_, rfl⟩
  · exact ⟨none, rfl⟩

/-! ## The obligation -/

/-- Settles O16: the home refuses a change that R727 does not allow, and compares and writes one that it does. -/
theorem handoffRecordsChangeByRule : Obligations.HandoffRecordsChangeByRule := by
  unfold Obligations.HandoffRecordsChangeByRule
  intro s o d hc ho hin hdir hup hupLine hok hokLine hp r old new keeps same moved
  have hrule : recChange old new = true ↔ keeps ∧ (same ∨ moved) := recChange_iff old new
  obtain ⟨p, hr⟩ : ∃ p, r = ((s.memAtom o 7 d recAllow).1, { (s.memAtom o 7 d recAllow).2 with pushed := p }) :=
    s.homeAtom_of_inHandoff d ho hin
  have hatom : s.memAtom o 7 d recAllow = (s.noteRead o 16).atomOutcome o old (recAllow old new)
      (if leNat old = leAt d 0 16 then some new else none) :=
    (State.memAtom_of_served 7 d recAllow hup hok hdir hp).trans
      (congrArg _ (atomNew_cas128 (s.mem.length_bytes o 16) d))
  refine ⟨fun hno => ?refused, fun hkeeps hchange => ?allowed⟩
  case refused =>
    have hallow : recAllow old new = none := if_neg (mt hrule.1 hno)
    rw [hr, hatom, hallow]
    exact ⟨rfl, State.byte_noteRead hdir o 16, State.poison_noteRead hdir o 16⟩
  case allowed =>
    have hallow : recAllow old new = some true := if_pos (hrule.2 ⟨hkeeps, hchange⟩)
    rw [hr, hatom, hallow]
    by_cases heq : leNat old = leAt d 0 16
    case pos =>
      have hline : s.lineDown (o / 64) = false := by simp [State.lineDown, hupLine, hokLine]
      have hback : ((s.noteRead o 16).writeMem o new).1.mem.bytes o 16 = new :=
        State.bytes_writeMem_noteRead (slice_length d 16 16) (by decide) (by decide) (by omega) hc hdir hline hp
      rw [if_pos heq, if_pos heq]
      exact ⟨rfl, rfl, hback⟩
    case neg =>
      rw [if_neg heq, if_neg heq]
      exact ⟨rfl, rfl, State.bytes_noteRead hdir o 16 o 16⟩

end Sys2Proof.Machine
end

section
/-!
PROOF. O1, O3, O4, O5, O6: what a step does to the queue and to the canonical form, and the state after reset. Every command keeps
both, by the lemma of its constructor in the Keeps files, and completes exactly where its operands are well formed, by its lemma in
Laws/PerInstr.
-/

namespace Sys2Proof.Machine

open Sys2Proof.Laws

/-! ## Every command -/

/-- No command touches the queue, and each keeps the canonical form. -/
theorem exec_keeps (c : Instr) {s₀ s : State} (hk : Keeps s₀ s) : KeepsO s₀ (exec c s) := by
  cases c with
  | coldResetRelease _ => exact execColdResetRelease_keeps _ _ hk
  | bridgeLaneFail _ _ => exact execBridgeLaneFail_keeps _ _ _ hk
  | bridgeSecondLaneFail _ _ => exact execBridgeSecondLaneFail_keeps _ _ _ hk
  | bridgeEndpointLost _ _ _ => exact execBridgeEndpointLost_keeps _ _ _ _ hk
  | chipWarmReset _ _ => exact execChipWarmReset_keeps _ _ _ hk
  | halfReset _ _ _ _ => exact execHalfReset_keeps _ _ _ _ _ hk
  | registerWrite _ _ _ _ _ _ => exact execRegisterWrite_keeps _ _ _ _ _ _ _ hk
  | tblCommit _ _ _ => exact execTblCommit_keeps _ _ _ _ hk
  | tblActivate _ => exact execTblActivate_keeps _ _ hk
  | oldEpochDrained _ => exact execOldEpochDrained_keeps _ _ hk
  | faultRecordVisible _ => exact execFaultRecordVisible_keeps _ _ hk
  | faultRecordWriteFail _ => exact execFaultRecordWriteFail_keeps _ _ hk
  | deferredFaultRecord _ => exact execDeferredFaultRecord_keeps _ _ hk
  | fltqHeadWrite _ _ _ => exact execFltqHeadWrite_keeps _ _ _ _ hk
  | fltqResumeReplay _ _ _ _ => exact execFltqResumeReplay_keeps _ _ _ _ _ hk
  | fltqResumeAbort _ _ _ _ => exact execFltqResumeAbort_keeps _ _ _ _ _ hk
  | migGo _ _ _ => exact execMigGo_keeps _ _ _ _ hk
  | migToDevice _ _ => exact execMigToDevice_keeps _ _ _ hk
  | migToHost _ => exact execMigToHost_keeps _ _ hk
  | migDrainDone _ => exact execMigDrainDone_keeps _ _ hk
  | migTransferFail _ _ _ _ => exact execMigTransferFail_keeps _ _ _ _ _ hk
  | migCommandDone _ _ => exact execMigCommandDone_keeps _ _ _ hk
  | stageCommit _ => exact execStageCommit_keeps _ _ hk
  | memRuntimeFail _ => exact execMemRuntimeFail_keeps _ _ hk
  | driveLinkUp _ _ _ => exact execDriveLinkUp_keeps _ _ _ _ hk
  | driveInitDone _ _ _ => exact execDriveInitDone_keeps _ _ _ _ hk
  | driveInitTimeout _ => exact execDriveInitTimeout_keeps _ _ hk
  | nvmeCommandTimeout _ => exact execNvmeCommandTimeout_keeps _ _ hk
  | driveRecoverDone _ _ => exact execDriveRecoverDone_keeps _ _ _ hk
  | driveOffline _ _ => exact execDriveOffline_keeps _ _ _ hk
  | driveOnline _ _ => exact execDriveOnline_keeps _ _ _ hk
  | driveReset _ _ => exact execDriveReset_keeps _ _ _ hk
  | driveSurpriseDown _ => exact execDriveSurpriseDown_keeps _ _ hk
  | smartPoll _ _ _ _ => exact execSmartPoll_keeps _ _ _ _ _ hk
  | nvmeCompletion _ _ _ => exact execNvmeCompletion_keeps _ _ _ _ hk
  | tileSourceReadDone _ _ => exact execTileSourceReadDone_keeps _ _ _ hk
  | tileWritesAcked _ _ => exact execTileWritesAcked_keeps _ _ _ hk
  | t2BodyWriteDone _ => exact execT2BodyWriteDone_keeps _ _ hk
  | tileHeaderWritten _ _ => exact execTileHeaderWritten_keeps _ _ _ hk
  | tspInboundTileTaken _ => exact execTspInboundTileTaken_keeps _ _ hk
  | completionRecordPerformed _ _ _ => exact execCompletionRecordPerformed_keeps _ _ _ _ hk
  | phaseComplete _ _ => exact execPhaseComplete_keeps _ _ _ hk
  | specRoutingDone _ _ => exact execSpecRoutingDone_keeps _ _ _ hk
  | curMatchArm _ _ _ => exact execCurMatchArm_keeps _ _ _ _ hk
  | loadProgram _ _ _ _ => exact execLoadProgram_keeps _ _ _ _ _ hk
  | startProgram _ _ _ => exact execStartProgram_keeps _ _ _ _ hk
  | parkProgram _ _ _ => exact execParkProgram_keeps _ _ _ _ hk
  | unloadProgram _ _ _ => exact execUnloadProgram_keeps _ _ _ _ hk
  | admitSeq _ _ _ _ _ => exact execAdmitSeq_keeps _ _ _ _ _ _ hk
  | remove _ _ _ _ => exact execRemove_keeps _ _ _ _ _ hk
  | daCmdReservedOp _ _ => exact execDaCmdReservedOp_keeps _ _ _ hk
  | arrayGrant _ _ => exact execArrayGrant_keeps _ _ _ hk
  | itemComplete _ _ => exact execItemComplete_keeps _ _ _ hk
  | itemOvertime _ _ => exact execItemOvertime_keeps _ _ _ hk
  | restore _ _ => exact execRestore_keeps _ _ _ hk
  | arrayOffline _ _ => exact execArrayOffline_keeps _ _ _ hk
  | arrayOnline _ _ => exact execArrayOnline_keeps _ _ _ hk
  | ringHeadWrite _ _ _ => exact execRingHeadWrite_keeps _ _ _ _ hk
  | scoopRowReturn _ _ => exact execScoopRowReturn_keeps _ _ _ hk
  | scoopCommandComplete _ _ => exact execScoopCommandComplete_keeps _ _ _ hk
  | define _ _ _ _ => exact execDefine_keeps _ _ _ _ _ hk
  | flip _ _ _ _ => exact execFlip_keeps _ _ _ _ _ hk
  | retire _ _ _ => exact execRetire_keeps _ _ _ _ hk
  | scpCmdReservedOp _ _ => exact execScpCmdReservedOp_keeps _ _ _ hk
  | tableOldDrained _ => exact execTableOldDrained_keeps _ _ hk
  | replicaInstallDone _ _ => exact execReplicaInstallDone_keeps _ _ _ hk
  | scoopEngineFail _ _ => exact execScoopEngineFail_keeps _ _ _ hk
  | scpReplCommit _ => exact execScpReplCommit_keeps _ _ hk
  | acquirePoll _ _ _ => exact execAcquirePoll_keeps _ _ _ _ hk
  | acquireWaitTimeout _ _ => exact execAcquireWaitTimeout_keeps _ _ _ hk
  | invComplete _ _ => exact execInvComplete_keeps _ _ _ hk
  | bar2Write _ _ _ => exact execBar2Write_keeps _ _ _ _ hk
  | bar2Read _ _ => exact execBar2Read_keeps _ _ _ hk
  | bar2Atomic _ _ _ => exact execBar2Atomic_keeps _ _ _ _ hk
  | snoopTimeout _ _ => exact execSnoopTimeout_keeps _ _ _ hk
  | collapse _ => exact execCollapse_keeps _ _ hk
  | reinit _ => exact execReinit_keeps _ _ hk
  | cohCommit _ => exact execCohCommit_keeps _ _ hk
  | ylCfgCommit _ => exact execYlCfgCommit_keeps _ _ hk
  | detectSignal _ => exact execDetectSignal_keeps _ _ hk
  | detectOneLaneTimeout _ _ => exact execDetectOneLaneTimeout_keeps _ _ _ hk
  | equalizeConverged _ => exact execEqualizeConverged_keeps _ _ hk
  | equalizeTimeout _ => exact execEqualizeTimeout_keeps _ _ hk
  | lockAchieved _ => exact execLockAchieved_keeps _ _ hk
  | lockTimeout _ => exact execLockTimeout_keeps _ _ hk
  | negotiateTimeout _ => exact execNegotiateTimeout_keeps _ _ hk
  | flitReceive _ _ _ _ _ _ => exact execFlitReceive_keeps _ _ _ _ _ _ _ hk
  | ackTimer _ => exact execAckTimer_keeps _ _ hk
  | nakRepeat _ => exact execNakRepeat_keeps _ _ hk
  | receiveLaneLoss _ _ => exact execReceiveLaneLoss_keeps _ _ _ hk
  | flitAcceptTimeout _ => exact execFlitAcceptTimeout_keeps _ _ hk
  | replayAckTimeout _ => exact execReplayAckTimeout_keeps _ _ hk
  | retrain _ _ => exact execRetrain_keeps _ _ _ hk
  | fastRetrainDone _ _ _ _ => exact execFastRetrainDone_keeps _ _ _ _ _ hk
  | failedRetry _ => exact execFailedRetry_keeps _ _ hk
  | linkDisable _ _ => exact execLinkDisable_keeps _ _ _ hk
  | linkDisableClear _ _ => exact execLinkDisableClear_keeps _ _ _ hk
  | oneLaneMarker _ _ => exact execOneLaneMarker_keeps _ _ _ hk
  | laneDropLockTimeout _ => exact execLaneDropLockTimeout_keeps _ _ hk
  | laneTest _ _ _ _ => exact execLaneTest_keeps _ _ _ _ _ hk
  | reachPeriodic _ => exact execReachPeriodic_keeps _ _ hk
  | reachStale _ => exact execReachStale_keeps _ _ hk
  | reachHold _ => exact execReachHold_keeps _ _ hk
  | detourPacket _ => exact execDetourPacket_keeps _ _ hk
  | packetIngress _ => exact execPacketIngress_keeps _ _ hk
  | packetEgress _ => exact execPacketEgress_keeps _ _ hk
  | srd _ _ _ => exact execSrd_keeps _ _ _ _ hk
  | retxTimeout _ _ => exact execRetxTimeout_keeps _ _ _ hk
  | sackTimer _ _ => exact execSackTimer_keeps _ _ _ hk
  | tspDisableClear _ _ => exact execTspDisableClear_keeps _ _ _ hk
  | tspDisable _ _ => exact execTspDisable_keeps _ _ _ hk
  | tspTrainDone _ _ => exact execTspTrainDone_keeps _ _ _ hk
  | tspTrainTimeout _ _ => exact execTspTrainTimeout_keeps _ _ _ hk
  | tspNegotiateTimeout _ => exact execTspNegotiateTimeout_keeps _ _ hk
  | tspFlitReceive _ _ _ => exact execTspFlitReceive_keeps _ _ _ _ hk
  | tileUnit _ => exact execTileUnit_keeps _ _ hk
  | tspTileSend _ => exact execTspTileSend_keeps _ _ hk
  | tspLaneLoss _ _ => exact execTspLaneLoss_keeps _ _ _ hk
  | tspRecoverDone _ _ _ _ => exact execTspRecoverDone_keeps _ _ _ _ _ hk
  | tspRetry _ _ => exact execTspRetry_keeps _ _ _ hk
  | tspRefclkLoss _ => exact execTspRefclkLoss_keeps _ _ hk
  | tspRefclkReturn _ => exact execTspRefclkReturn_keeps _ _ hk
  | tspPortCommit _ _ => exact execTspPortCommit_keeps _ _ _ hk
  | perstRelease _ _ => exact execPerstRelease_keeps _ _ _ hk
  | vfFlr _ _ => exact execVfFlr_keeps _ _ _ hk
  | vfEnable _ => exact execVfEnable_keeps _ _ hk
  | pcieCplTimeout _ _ => exact execPcieCplTimeout_keeps _ _ _ hk
  | sqDoorbell _ _ _ _ => exact execSqDoorbell_keeps _ _ _ _ _ hk
  | queueFetch _ _ => exact execQueueFetch_keeps _ _ _ hk
  | sqEnable _ _ _ _ => exact execSqEnable_keeps _ _ _ _ _ hk
  | sqDisable _ _ _ _ => exact execSqDisable_keeps _ _ _ _ _ hk
  | resume _ _ _ => exact execResume_keeps _ _ _ _ hk
  | resumeSkip _ _ _ => exact execResumeSkip_keeps _ _ _ _ hk
  | cqHeadWrite _ _ _ _ => exact execCqHeadWrite_keeps _ _ _ _ _ hk
  | msixUnmask _ _ _ => exact execMsixUnmask_keeps _ _ _ _ hk
  | partitionReset _ _ _ => exact execPartitionReset_keeps _ _ _ _ hk
  | partitionDrained _ => exact execPartitionDrained_keeps _ _ hk
  | partitionDrainTimeout _ _ => exact execPartitionDrainTimeout_keeps _ _ _ hk
  | partitionCleared _ _ => exact execPartitionCleared_keeps _ _ _ hk
  | qosCommit _ => exact execQosCommit_keeps _ _ hk
  | mrEnable _ _ _ _ => exact execMrEnable_keeps _ _ _ _ _ hk
  | mrHeadWrite _ _ _ _ => exact execMrHeadWrite_keeps _ _ _ _ _ hk
  | mrRecordPerformed _ _ => exact execMrRecordPerformed_keeps _ _ _ hk
  | engineReset _ _ _ _ => exact execEngineReset_keeps _ _ _ _ _ hk
  | engineFailure _ _ _ => exact execEngineFailure_keeps _ _ _ _ hk
  | engineResetDone _ _ _ => exact execEngineResetDone_keeps _ _ _ _ hk
  | arbitrationRunDone _ _ => exact execArbitrationRunDone_keeps _ _ _ hk
  | uncomparedTimeout _ => exact execUncomparedTimeout_keeps _ _ hk
  | tasterSlotDone _ _ => exact execTasterSlotDone_keeps _ _ _ hk
  | retestSlotDone _ _ => exact execRetestSlotDone_keeps _ _ _ hk
  | retestTimeout _ => exact execRetestTimeout_keeps _ _ hk
  | sweep _ _ => exact execSweep_keeps _ _ _ hk
  | sweepStageEnd _ _ => exact execSweepStageEnd_keeps _ _ _ hk
  | errRingHeadWrite _ _ => exact execErrRingHeadWrite_keeps _ _ _ hk
  | cntCommit _ => exact execCntCommit_keeps _ _ hk
  | mirrorPushDone _ => exact execMirrorPushDone_keeps _ _ hk
  | mirrorBankWritten _ => exact execMirrorBankWritten_keeps _ _ hk
  | mirrorCommitted _ => exact execMirrorCommitted_keeps _ _ hk
  | sequenceCopyDone _ _ => exact execSequenceCopyDone_keeps _ _ _ hk
  | takeover _ _ => exact execTakeover_keeps _ _ _ hk
  | restart _ _ => exact execRestart_keeps _ _ _ hk
  | frozenPoll _ _ => exact execFrozenPoll_keeps _ _ _ hk
  | deltaPullDone _ _ => exact execDeltaPullDone_keeps _ _ _ hk
  | leaseRenew _ _ => exact execLeaseRenew_keeps _ _ _ hk
  | openSession _ => exact execOpenSession_keeps _ _ hk
  | handshakeTimeout _ => exact execHandshakeTimeout_keeps _ _ hk
  | sessionIdleTimeout _ => exact execSessionIdleTimeout_keeps _ _ hk
  | mbxDoorbell _ _ _ => exact execMbxDoorbell_keeps _ _ _ _ hk
  | mgtNetCommit _ => exact execMgtNetCommit_keeps _ _ hk
  | mgtAnchorCommit _ => exact execMgtAnchorCommit_keeps _ _ hk
  | mgtDelegCommit _ => exact execMgtDelegCommit_keeps _ _ hk
  | compMsg _ _ => exact execCompMsg_keeps _ _ _ hk
  | tokensMsg _ => exact execTokensMsg_keeps _ _ hk
  | sclOffer _ _ _ _ => exact execSclOffer_keeps _ _ _ _ _ hk
  | offerVerifyDone _ _ _ _ _ => exact execOfferVerifyDone_keeps _ _ _ _ _ _ hk
  | memoryTrained _ _ _ _ _ _ _ _ => exact execMemoryTrained_keeps _ _ _ _ _ _ _ _ _ hk
  | serdesDone _ _ => exact execSerdesDone_keeps _ _ _ hk
  | bootSvnCommit _ _ => exact execBootSvnCommit_keeps _ _ _ hk
  | fwOffer _ _ _ _ => exact execFwOffer_keeps _ _ _ _ _ hk
  | bootTimeSync _ _ => exact execBootTimeSync_keeps _ _ _ hk
  | bootTimeFollow _ _ _ => exact execBootTimeFollow_keeps _ _ _ _ hk
  | bootTimeHost _ _ => exact execBootTimeHost_keeps _ _ _ hk
  | attestNonce _ _ _ => exact execAttestNonce_keeps _ _ _ _ hk
  | persistNow _ => exact execPersistNow_keeps _ _ hk
  | shutdown _ _ => exact execShutdown_keeps _ _ _ hk
  | lifeServiceAdd _ _ => exact execLifeServiceAdd_keeps _ _ _ hk
  | pmbusPoll _ => exact execPmbusPoll_keeps _ _ hk
  | sensorRead _ => exact execSensorRead_keeps _ _ hk
  | quadRefclkLoss _ _ => exact execQuadRefclkLoss_keeps _ _ _ hk
  | registerRead _ _ _ => exact execRegisterRead_keeps _ _ _ _ hk
  | droppedFrame _ => exact execDroppedFrame_keeps _ _ hk
  | coldResetAssert => exact execColdResetAssert_keeps _ hk
  | sysrefLoss => exact execSysrefLoss_keeps _ hk
  | sysrefReturn => exact execSysrefReturn_keeps _ hk
  | halfResetTimeout _ => exact execHalfResetTimeout_keeps _ _ hk
  | cursorDelivery _ => exact execCursorDelivery_keeps _ _ hk
  | mgmtFaultService _ => exact execMgmtFaultService_keeps _ _ hk
  | scrubRead _ _ => exact execScrubRead_keeps _ _ _ hk
  | copyTile _ _ => exact execCopyTile_keeps _ _ _ hk
  | copyRaw _ _ => exact execCopyRaw_keeps _ _ _ hk
  | prooferMoveComplete => exact execProoferMoveComplete_keeps _ hk
  | stagingSpaceRelease => exact execStagingSpaceRelease_keeps _ hk
  | partialsArrive _ => exact execPartialsArrive_keeps _ _ hk
  | gather _ _ => exact execGather_keeps _ _ _ hk
  | rowUpdate _ _ => exact execRowUpdate_keeps _ _ _ hk
  | attemptReadReturn _ => exact execAttemptReadReturn_keeps _ _ hk
  | waitingReadRelease _ => exact execWaitingReadRelease_keeps _ _ hk
  | updateStampAcked _ _ => exact execUpdateStampAcked_keeps _ _ _ hk
  | updateInvalidatesAcked _ => exact execUpdateInvalidatesAcked_keeps _ _ hk
  | updateRowAcked _ _ => exact execUpdateRowAcked_keeps _ _ _ hk
  | updateFinalStampAcked _ _ => exact execUpdateFinalStampAcked_keeps _ _ _ hk
  | hotCountDecay _ => exact execHotCountDecay_keeps _ _ hk
  | releaseWrite => exact execReleaseWrite_keeps _ hk
  | acquireWait _ => exact execAcquireWait_keeps _ _ hk
  | fenceEntry => exact execFenceEntry_keeps _ hk
  | invRange => exact execInvRange_keeps _ hk
  | rdshared _ => exact execRdshared_keeps _ _ hk
  | rdown _ => exact execRdown_keeps _ _ hk
  | upgrade _ => exact execUpgrade_keeps _ _ hk
  | wbdata _ => exact execWbdata_keeps _ _ hk
  | evictclean _ => exact execEvictclean_keeps _ _ hk
  | snoopAck _ => exact execSnoopAck_keeps _ _ hk
  | snprespwbpending _ => exact execSnprespwbpending_keeps _ _ hk
  | fwddata _ => exact execFwddata_keeps _ _ hk
  | reinitDone => exact execReinitDone_keeps _ hk
  | mirrorRecordPerformed => exact execMirrorRecordPerformed_keeps _ hk
  | rd _ => exact execRd_keeps _ _ hk
  | wr _ _ => exact execWr_keeps _ _ _ hk
  | atom _ => exact execAtom_keeps _ _ hk
  | fenceRequest _ => exact execFenceRequest_keeps _ _ hk
  | supd _ _ => exact execSupd_keeps _ _ _ hk
  | rinv _ => exact execRinv_keeps _ _ hk
  | rdereg _ => exact execRdereg_keeps _ _ hk
  | msg _ => exact execMsg_keeps _ _ hk
  | mgmtSync _ => exact execMgmtSync_keeps _ _ hk
  | mgmtCollapse _ => exact execMgmtCollapse_keeps _ _ hk
  | mgmtTelemetry _ => exact execMgmtTelemetry_keeps _ _ hk
  | sack _ => exact execSack_keeps _ _ hk
  | rdData _ => exact execRdData_keeps _ _ hk
  | wrAck _ => exact execWrAck_keeps _ _ hk
  | atomData _ => exact execAtomData_keeps _ _ hk
  | fenceAck _ => exact execFenceAck_keeps _ _ hk
  | srdData _ => exact execSrdData_keeps _ _ hk
  | supdAck _ => exact execSupdAck_keeps _ _ hk
  | rinvAck _ => exact execRinvAck_keeps _ _ hk
  | msgAck _ => exact execMsgAck_keeps _ _ hk
  | msgAckTimeout _ => exact execMsgAckTimeout_keeps _ _ hk
  | perstAssert _ => exact execPerstAssert_keeps _ _ hk
  | hostLinkLoss _ => exact execHostLinkLoss_keeps _ _ hk
  | pfFlr _ => exact execPfFlr_keeps _ _ hk
  | configRequest _ => exact execConfigRequest_keeps _ _ hk
  | vecCfgLockTimeout => exact execVecCfgLockTimeout_keeps _ hk
  | csumRecomputeDone => exact execCsumRecomputeDone_keeps _ hk
  | tasterIdleSlot => exact execTasterIdleSlot_keeps _ hk
  | errRingWriteDone _ => exact execErrRingWriteDone_keeps _ _ hk
  | corrHourRollover => exact execCorrHourRollover_keeps _ hk
  | pairingReadDone _ => exact execPairingReadDone_keeps _ _ hk
  | pairingRetry => exact execPairingRetry_keeps _ hk
  | partnerLossTimer => exact execPartnerLossTimer_keeps _ hk
  | peerTakeover => exact execPeerTakeover_keeps _ hk
  | handbackReq => exact execHandbackReq_keeps _ hk
  | handbackDone => exact execHandbackDone_keeps _ hk
  | returnSweepDone _ => exact execReturnSweepDone_keeps _ _ hk
  | bulkPullDone _ => exact execBulkPullDone_keeps _ _ hk
  | handoffMirrorWritten => exact execHandoffMirrorWritten_keeps _ hk
  | leaseExpiry => exact execLeaseExpiry_keeps _ hk
  | discover _ => exact execDiscover_keeps _ _ hk
  | helloMsg _ => exact execHelloMsg_keeps _ _ hk
  | authMsg _ _ _ => exact execAuthMsg_keeps _ _ _ _ hk
  | readEntries _ _ => exact execReadEntries_keeps _ _ _ hk
  | writeEntries _ _ => exact execWriteEntries_keeps _ _ _ hk
  | commitGroup _ _ => exact execCommitGroup_keeps _ _ _ hk
  | discardGroup _ _ => exact execDiscardGroup_keeps _ _ _ hk
  | describeEntries _ _ => exact execDescribeEntries_keeps _ _ _ hk
  | saveConfig _ _ => exact execSaveConfig_keeps _ _ _ hk
  | saveFlashDone _ => exact execSaveFlashDone_keeps _ _ hk
  | keepalive _ _ => exact execKeepalive_keeps _ _ _ hk
  | closeSession _ _ => exact execCloseSession_keeps _ _ _ hk
  | fragmentTimeout _ => exact execFragmentTimeout_keeps _ _ hk
  | neighborSolicitation _ _ => exact execNeighborSolicitation_keeps _ _ _ hk
  | echoRequest _ _ _ => exact execEchoRequest_keeps _ _ _ _ hk
  | dadComplete _ => exact execDadComplete_keeps _ _ hk
  | beaconLoss => exact execBeaconLoss_keeps _ hk
  | beaconSeen => exact execBeaconSeen_keeps _ hk
  | commitSafePoint _ _ => exact execCommitSafePoint_keeps _ _ _ hk
  | tick => exact execTick_keeps _ hk
  | recordPersisted => exact execRecordPersisted_keeps _ hk
  | timeMsg _ _ => exact execTimeMsg_keeps _ _ _ hk
  | scaleTimeTimeout => exact execScaleTimeTimeout_keeps _ hk
  | offerFlashDone _ => exact execOfferFlashDone_keeps _ _ hk
  | scaleLoadDone _ => exact execScaleLoadDone_keeps _ _ hk
  | scaleSramUncorr => exact execScaleSramUncorr_keeps _ hk
  | romStageDone _ _ => exact execRomStageDone_keeps _ _ _ hk
  | imageReadDone _ _ _ => exact execImageReadDone_keeps _ _ _ _ hk
  | verifyDone _ _ => exact execVerifyDone_keeps _ _ _ hk
  | memoryTimeout _ => exact execMemoryTimeout_keeps _ _ hk
  | configLoad _ => exact execConfigLoad_keeps _ _ hk
  | fwOfferVerifyDone _ _ => exact execFwOfferVerifyDone_keeps _ _ _ hk
  | attestReportReady _ => exact execAttestReportReady_keeps _ _ hk
  | lifeSnapshotTimer => exact execLifeSnapshotTimer_keeps _ hk
  | snapshotWriteDone _ => exact execSnapshotWriteDone_keeps _ _ hk
  | throttleStep => exact execThrottleStep_keeps _ hk
  | prochot _ => exact execProchot_keeps _ _ hk
  | avsAdjust _ _ => exact execAvsAdjust_keeps _ _ _ hk
  | deviceTimeUndisciplined => exact execDeviceTimeUndisciplined_keeps _ hk

/-- A well-formed command completes in every state, and an ill-formed one is a fault. -/
theorem exec_completes (c : Instr) : Completes.Statement c := by
  intro s
  cases c with
  | coldResetRelease _ => exact Completes.coldResetRelease _ _
  | bridgeLaneFail _ _ => exact Completes.bridgeLaneFail _ _ _
  | bridgeSecondLaneFail _ _ => exact Completes.bridgeSecondLaneFail _ _ _
  | bridgeEndpointLost _ _ _ => exact Completes.bridgeEndpointLost _ _ _ _
  | chipWarmReset _ _ => exact Completes.chipWarmReset _ _ _
  | halfReset _ _ _ _ => exact Completes.halfReset _ _ _ _ _
  | registerWrite _ _ _ _ _ _ => exact Completes.registerWrite _ _ _ _ _ _ _
  | tblCommit _ _ _ => exact Completes.tblCommit _ _ _ _
  | tblActivate _ => exact Completes.tblActivate _ _
  | oldEpochDrained _ => exact Completes.oldEpochDrained _ _
  | faultRecordVisible _ => exact Completes.faultRecordVisible _ _
  | faultRecordWriteFail _ => exact Completes.faultRecordWriteFail _ _
  | deferredFaultRecord _ => exact Completes.deferredFaultRecord _ _
  | fltqHeadWrite _ _ _ => exact Completes.fltqHeadWrite _ _ _ _
  | fltqResumeReplay _ _ _ _ => exact Completes.fltqResumeReplay _ _ _ _ _
  | fltqResumeAbort _ _ _ _ => exact Completes.fltqResumeAbort _ _ _ _ _
  | migGo _ _ _ => exact Completes.migGo _ _ _ _
  | migToDevice _ _ => exact Completes.migToDevice _ _ _
  | migToHost _ => exact Completes.migToHost _ _
  | migDrainDone _ => exact Completes.migDrainDone _ _
  | migTransferFail _ _ _ _ => exact Completes.migTransferFail _ _ _ _ _
  | migCommandDone _ _ => exact Completes.migCommandDone _ _ _
  | stageCommit _ => exact Completes.stageCommit _ _
  | memRuntimeFail _ => exact Completes.memRuntimeFail _ _
  | driveLinkUp _ _ _ => exact Completes.driveLinkUp _ _ _ _
  | driveInitDone _ _ _ => exact Completes.driveInitDone _ _ _ _
  | driveInitTimeout _ => exact Completes.driveInitTimeout _ _
  | nvmeCommandTimeout _ => exact Completes.nvmeCommandTimeout _ _
  | driveRecoverDone _ _ => exact Completes.driveRecoverDone _ _ _
  | driveOffline _ _ => exact Completes.driveOffline _ _ _
  | driveOnline _ _ => exact Completes.driveOnline _ _ _
  | driveReset _ _ => exact Completes.driveReset _ _ _
  | driveSurpriseDown _ => exact Completes.driveSurpriseDown _ _
  | smartPoll _ _ _ _ => exact Completes.smartPoll _ _ _ _ _
  | nvmeCompletion _ _ _ => exact Completes.nvmeCompletion _ _ _ _
  | tileSourceReadDone _ _ => exact Completes.tileSourceReadDone _ _ _
  | tileWritesAcked _ _ => exact Completes.tileWritesAcked _ _ _
  | t2BodyWriteDone _ => exact Completes.t2BodyWriteDone _ _
  | tileHeaderWritten _ _ => exact Completes.tileHeaderWritten _ _ _
  | tspInboundTileTaken _ => exact Completes.tspInboundTileTaken _ _
  | completionRecordPerformed _ _ _ => exact Completes.completionRecordPerformed _ _ _ _
  | phaseComplete _ _ => exact Completes.phaseComplete _ _ _
  | specRoutingDone _ _ => exact Completes.specRoutingDone _ _ _
  | curMatchArm _ _ _ => exact Completes.curMatchArm _ _ _ _
  | loadProgram _ _ _ _ => exact Completes.loadProgram _ _ _ _ _
  | startProgram _ _ _ => exact Completes.startProgram _ _ _ _
  | parkProgram _ _ _ => exact Completes.parkProgram _ _ _ _
  | unloadProgram _ _ _ => exact Completes.unloadProgram _ _ _ _
  | admitSeq _ _ _ _ _ => exact Completes.admitSeq _ _ _ _ _ _
  | remove _ _ _ _ => exact Completes.remove _ _ _ _ _
  | daCmdReservedOp _ _ => exact Completes.daCmdReservedOp _ _ _
  | arrayGrant _ _ => exact Completes.arrayGrant _ _ _
  | itemComplete _ _ => exact Completes.itemComplete _ _ _
  | itemOvertime _ _ => exact Completes.itemOvertime _ _ _
  | restore _ _ => exact Completes.restore _ _ _
  | arrayOffline _ _ => exact Completes.arrayOffline _ _ _
  | arrayOnline _ _ => exact Completes.arrayOnline _ _ _
  | ringHeadWrite _ _ _ => exact Completes.ringHeadWrite _ _ _ _
  | scoopRowReturn _ _ => exact Completes.scoopRowReturn _ _ _
  | scoopCommandComplete _ _ => exact Completes.scoopCommandComplete _ _ _
  | define _ _ _ _ => exact Completes.define _ _ _ _ _
  | flip _ _ _ _ => exact Completes.flip _ _ _ _ _
  | retire _ _ _ => exact Completes.retire _ _ _ _
  | scpCmdReservedOp _ _ => exact Completes.scpCmdReservedOp _ _ _
  | tableOldDrained _ => exact Completes.tableOldDrained _ _
  | replicaInstallDone _ _ => exact Completes.replicaInstallDone _ _ _
  | scoopEngineFail _ _ => exact Completes.scoopEngineFail _ _ _
  | scpReplCommit _ => exact Completes.scpReplCommit _ _
  | acquirePoll _ _ _ => exact Completes.acquirePoll _ _ _ _
  | acquireWaitTimeout _ _ => exact Completes.acquireWaitTimeout _ _ _
  | invComplete _ _ => exact Completes.invComplete _ _ _
  | bar2Write _ _ _ => exact Completes.bar2Write _ _ _ _
  | bar2Read _ _ => exact Completes.bar2Read _ _ _
  | bar2Atomic _ _ _ => exact Completes.bar2Atomic _ _ _ _
  | snoopTimeout _ _ => exact Completes.snoopTimeout _ _ _
  | collapse _ => exact Completes.collapse _ _
  | reinit _ => exact Completes.reinit _ _
  | cohCommit _ => exact Completes.cohCommit _ _
  | ylCfgCommit _ => exact Completes.ylCfgCommit _ _
  | detectSignal _ => exact Completes.detectSignal _ _
  | detectOneLaneTimeout _ _ => exact Completes.detectOneLaneTimeout _ _ _
  | equalizeConverged _ => exact Completes.equalizeConverged _ _
  | equalizeTimeout _ => exact Completes.equalizeTimeout _ _
  | lockAchieved _ => exact Completes.lockAchieved _ _
  | lockTimeout _ => exact Completes.lockTimeout _ _
  | negotiateTimeout _ => exact Completes.negotiateTimeout _ _
  | flitReceive _ _ _ _ _ _ => exact Completes.flitReceive _ _ _ _ _ _ _
  | ackTimer _ => exact Completes.ackTimer _ _
  | nakRepeat _ => exact Completes.nakRepeat _ _
  | receiveLaneLoss _ _ => exact Completes.receiveLaneLoss _ _ _
  | flitAcceptTimeout _ => exact Completes.flitAcceptTimeout _ _
  | replayAckTimeout _ => exact Completes.replayAckTimeout _ _
  | retrain _ _ => exact Completes.retrain _ _ _
  | fastRetrainDone _ _ _ _ => exact Completes.fastRetrainDone _ _ _ _ _
  | failedRetry _ => exact Completes.failedRetry _ _
  | linkDisable _ _ => exact Completes.linkDisable _ _ _
  | linkDisableClear _ _ => exact Completes.linkDisableClear _ _ _
  | oneLaneMarker _ _ => exact Completes.oneLaneMarker _ _ _
  | laneDropLockTimeout _ => exact Completes.laneDropLockTimeout _ _
  | laneTest _ _ _ _ => exact Completes.laneTest _ _ _ _ _
  | reachPeriodic _ => exact Completes.reachPeriodic _ _
  | reachStale _ => exact Completes.reachStale _ _
  | reachHold _ => exact Completes.reachHold _ _
  | detourPacket _ => exact Completes.detourPacket _ _
  | packetIngress _ => exact Completes.packetIngress _ _
  | packetEgress _ => exact Completes.packetEgress _ _
  | srd _ _ _ => exact Completes.srd _ _ _ _
  | retxTimeout _ _ => exact Completes.retxTimeout _ _ _
  | sackTimer _ _ => exact Completes.sackTimer _ _ _
  | tspDisableClear _ _ => exact Completes.tspDisableClear _ _ _
  | tspDisable _ _ => exact Completes.tspDisable _ _ _
  | tspTrainDone _ _ => exact Completes.tspTrainDone _ _ _
  | tspTrainTimeout _ _ => exact Completes.tspTrainTimeout _ _ _
  | tspNegotiateTimeout _ => exact Completes.tspNegotiateTimeout _ _
  | tspFlitReceive _ _ _ => exact Completes.tspFlitReceive _ _ _ _
  | tileUnit _ => exact Completes.tileUnit _ _
  | tspTileSend _ => exact Completes.tspTileSend _ _
  | tspLaneLoss _ _ => exact Completes.tspLaneLoss _ _ _
  | tspRecoverDone _ _ _ _ => exact Completes.tspRecoverDone _ _ _ _ _
  | tspRetry _ _ => exact Completes.tspRetry _ _ _
  | tspRefclkLoss _ => exact Completes.tspRefclkLoss _ _
  | tspRefclkReturn _ => exact Completes.tspRefclkReturn _ _
  | tspPortCommit _ _ => exact Completes.tspPortCommit _ _ _
  | perstRelease _ _ => exact Completes.perstRelease _ _ _
  | vfFlr _ _ => exact Completes.vfFlr _ _ _
  | vfEnable _ => exact Completes.vfEnable _ _
  | pcieCplTimeout _ _ => exact Completes.pcieCplTimeout _ _ _
  | sqDoorbell _ _ _ _ => exact Completes.sqDoorbell _ _ _ _ _
  | queueFetch _ _ => exact Completes.queueFetch _ _ _
  | sqEnable _ _ _ _ => exact Completes.sqEnable _ _ _ _ _
  | sqDisable _ _ _ _ => exact Completes.sqDisable _ _ _ _ _
  | resume _ _ _ => exact Completes.resume _ _ _ _
  | resumeSkip _ _ _ => exact Completes.resumeSkip _ _ _ _
  | cqHeadWrite _ _ _ _ => exact Completes.cqHeadWrite _ _ _ _ _
  | msixUnmask _ _ _ => exact Completes.msixUnmask _ _ _ _
  | partitionReset _ _ _ => exact Completes.partitionReset _ _ _ _
  | partitionDrained _ => exact Completes.partitionDrained _ _
  | partitionDrainTimeout _ _ => exact Completes.partitionDrainTimeout _ _ _
  | partitionCleared _ _ => exact Completes.partitionCleared _ _ _
  | qosCommit _ => exact Completes.qosCommit _ _
  | mrEnable _ _ _ _ => exact Completes.mrEnable _ _ _ _ _
  | mrHeadWrite _ _ _ _ => exact Completes.mrHeadWrite _ _ _ _ _
  | mrRecordPerformed _ _ => exact Completes.mrRecordPerformed _ _ _
  | engineReset _ _ _ _ => exact Completes.engineReset _ _ _ _ _
  | engineFailure _ _ _ => exact Completes.engineFailure _ _ _ _
  | engineResetDone _ _ _ => exact Completes.engineResetDone _ _ _ _
  | arbitrationRunDone _ _ => exact Completes.arbitrationRunDone _ _ _
  | uncomparedTimeout _ => exact Completes.uncomparedTimeout _ _
  | tasterSlotDone _ _ => exact Completes.tasterSlotDone _ _ _
  | retestSlotDone _ _ => exact Completes.retestSlotDone _ _ _
  | retestTimeout _ => exact Completes.retestTimeout _ _
  | sweep _ _ => exact Completes.sweep _ _ _
  | sweepStageEnd _ _ => exact Completes.sweepStageEnd _ _ _
  | errRingHeadWrite _ _ => exact Completes.errRingHeadWrite _ _ _
  | cntCommit _ => exact Completes.cntCommit _ _
  | mirrorPushDone _ => exact Completes.mirrorPushDone _ _
  | mirrorBankWritten _ => exact Completes.mirrorBankWritten _ _
  | mirrorCommitted _ => exact Completes.mirrorCommitted _ _
  | sequenceCopyDone _ _ => exact Completes.sequenceCopyDone _ _ _
  | takeover _ _ => exact Completes.takeover _ _ _
  | restart _ _ => exact Completes.restart _ _ _
  | frozenPoll _ _ => exact Completes.frozenPoll _ _ _
  | deltaPullDone _ _ => exact Completes.deltaPullDone _ _ _
  | leaseRenew _ _ => exact Completes.leaseRenew _ _ _
  | openSession _ => exact Completes.openSession _ _
  | handshakeTimeout _ => exact Completes.handshakeTimeout _ _
  | sessionIdleTimeout _ => exact Completes.sessionIdleTimeout _ _
  | mbxDoorbell _ _ _ => exact Completes.mbxDoorbell _ _ _ _
  | mgtNetCommit _ => exact Completes.mgtNetCommit _ _
  | mgtAnchorCommit _ => exact Completes.mgtAnchorCommit _ _
  | mgtDelegCommit _ => exact Completes.mgtDelegCommit _ _
  | compMsg _ _ => exact Completes.compMsg _ _ _
  | tokensMsg _ => exact Completes.tokensMsg _ _
  | sclOffer _ _ _ _ => exact Completes.sclOffer _ _ _ _ _
  | offerVerifyDone _ _ _ _ _ => exact Completes.offerVerifyDone _ _ _ _ _ _
  | memoryTrained _ _ _ _ _ _ _ _ => exact Completes.memoryTrained _ _ _ _ _ _ _ _ _
  | serdesDone _ _ => exact Completes.serdesDone _ _ _
  | bootSvnCommit _ _ => exact Completes.bootSvnCommit _ _ _
  | fwOffer _ _ _ _ => exact Completes.fwOffer _ _ _ _ _
  | bootTimeSync _ _ => exact Completes.bootTimeSync _ _ _
  | bootTimeFollow _ _ _ => exact Completes.bootTimeFollow _ _ _ _
  | bootTimeHost _ _ => exact Completes.bootTimeHost _ _ _
  | attestNonce _ _ _ => exact Completes.attestNonce _ _ _ _
  | persistNow _ => exact Completes.persistNow _ _
  | shutdown _ _ => exact Completes.shutdown _ _ _
  | lifeServiceAdd _ _ => exact Completes.lifeServiceAdd _ _ _
  | pmbusPoll _ => exact Completes.pmbusPoll _ _
  | sensorRead _ => exact Completes.sensorRead _ _
  | quadRefclkLoss _ _ => exact Completes.quadRefclkLoss _ _ _
  | registerRead _ _ _ => exact Completes.registerRead _ _ _ _
  | droppedFrame _ => exact Completes.droppedFrame _ _
  | coldResetAssert => exact Completes.coldResetAssert _
  | sysrefLoss => exact Completes.sysrefLoss _
  | sysrefReturn => exact Completes.sysrefReturn _
  | halfResetTimeout _ => exact Completes.halfResetTimeout _ _
  | cursorDelivery _ => exact Completes.cursorDelivery _ _
  | mgmtFaultService _ => exact Completes.mgmtFaultService _ _
  | scrubRead _ _ => exact Completes.scrubRead _ _ _
  | copyTile _ _ => exact Completes.copyTile _ _ _
  | copyRaw _ _ => exact Completes.copyRaw _ _ _
  | prooferMoveComplete => exact Completes.prooferMoveComplete _
  | stagingSpaceRelease => exact Completes.stagingSpaceRelease _
  | partialsArrive _ => exact Completes.partialsArrive _ _
  | gather _ _ => exact Completes.gather _ _ _
  | rowUpdate _ _ => exact Completes.rowUpdate _ _ _
  | attemptReadReturn _ => exact Completes.attemptReadReturn _ _
  | waitingReadRelease _ => exact Completes.waitingReadRelease _ _
  | updateStampAcked _ _ => exact Completes.updateStampAcked _ _ _
  | updateInvalidatesAcked _ => exact Completes.updateInvalidatesAcked _ _
  | updateRowAcked _ _ => exact Completes.updateRowAcked _ _ _
  | updateFinalStampAcked _ _ => exact Completes.updateFinalStampAcked _ _ _
  | hotCountDecay _ => exact Completes.hotCountDecay _ _
  | releaseWrite => exact Completes.releaseWrite _
  | acquireWait _ => exact Completes.acquireWait _ _
  | fenceEntry => exact Completes.fenceEntry _
  | invRange => exact Completes.invRange _
  | rdshared _ => exact Completes.rdshared _ _
  | rdown _ => exact Completes.rdown _ _
  | upgrade _ => exact Completes.upgrade _ _
  | wbdata _ => exact Completes.wbdata _ _
  | evictclean _ => exact Completes.evictclean _ _
  | snoopAck _ => exact Completes.snoopAck _ _
  | snprespwbpending _ => exact Completes.snprespwbpending _ _
  | fwddata _ => exact Completes.fwddata _ _
  | reinitDone => exact Completes.reinitDone _
  | mirrorRecordPerformed => exact Completes.mirrorRecordPerformed _
  | rd _ => exact Completes.rd _ _
  | wr _ _ => exact Completes.wr _ _ _
  | atom _ => exact Completes.atom _ _
  | fenceRequest _ => exact Completes.fenceRequest _ _
  | supd _ _ => exact Completes.supd _ _ _
  | rinv _ => exact Completes.rinv _ _
  | rdereg _ => exact Completes.rdereg _ _
  | msg _ => exact Completes.msg _ _
  | mgmtSync _ => exact Completes.mgmtSync _ _
  | mgmtCollapse _ => exact Completes.mgmtCollapse _ _
  | mgmtTelemetry _ => exact Completes.mgmtTelemetry _ _
  | sack _ => exact Completes.sack _ _
  | rdData _ => exact Completes.rdData _ _
  | wrAck _ => exact Completes.wrAck _ _
  | atomData _ => exact Completes.atomData _ _
  | fenceAck _ => exact Completes.fenceAck _ _
  | srdData _ => exact Completes.srdData _ _
  | supdAck _ => exact Completes.supdAck _ _
  | rinvAck _ => exact Completes.rinvAck _ _
  | msgAck _ => exact Completes.msgAck _ _
  | msgAckTimeout _ => exact Completes.msgAckTimeout _ _
  | perstAssert _ => exact Completes.perstAssert _ _
  | hostLinkLoss _ => exact Completes.hostLinkLoss _ _
  | pfFlr _ => exact Completes.pfFlr _ _
  | configRequest _ => exact Completes.configRequest _ _
  | vecCfgLockTimeout => exact Completes.vecCfgLockTimeout _
  | csumRecomputeDone => exact Completes.csumRecomputeDone _
  | tasterIdleSlot => exact Completes.tasterIdleSlot _
  | errRingWriteDone _ => exact Completes.errRingWriteDone _ _
  | corrHourRollover => exact Completes.corrHourRollover _
  | pairingReadDone _ => exact Completes.pairingReadDone _ _
  | pairingRetry => exact Completes.pairingRetry _
  | partnerLossTimer => exact Completes.partnerLossTimer _
  | peerTakeover => exact Completes.peerTakeover _
  | handbackReq => exact Completes.handbackReq _
  | handbackDone => exact Completes.handbackDone _
  | returnSweepDone _ => exact Completes.returnSweepDone _ _
  | bulkPullDone _ => exact Completes.bulkPullDone _ _
  | handoffMirrorWritten => exact Completes.handoffMirrorWritten _
  | leaseExpiry => exact Completes.leaseExpiry _
  | discover _ => exact Completes.discover _ _
  | helloMsg _ => exact Completes.helloMsg _ _
  | authMsg _ _ _ => exact Completes.authMsg _ _ _ _
  | readEntries _ _ => exact Completes.readEntries _ _ _
  | writeEntries _ _ => exact Completes.writeEntries _ _ _
  | commitGroup _ _ => exact Completes.commitGroup _ _ _
  | discardGroup _ _ => exact Completes.discardGroup _ _ _
  | describeEntries _ _ => exact Completes.describeEntries _ _ _
  | saveConfig _ _ => exact Completes.saveConfig _ _ _
  | saveFlashDone _ => exact Completes.saveFlashDone _ _
  | keepalive _ _ => exact Completes.keepalive _ _ _
  | closeSession _ _ => exact Completes.closeSession _ _ _
  | fragmentTimeout _ => exact Completes.fragmentTimeout _ _
  | neighborSolicitation _ _ => exact Completes.neighborSolicitation _ _ _
  | echoRequest _ _ _ => exact Completes.echoRequest _ _ _ _
  | dadComplete _ => exact Completes.dadComplete _ _
  | beaconLoss => exact Completes.beaconLoss _
  | beaconSeen => exact Completes.beaconSeen _
  | commitSafePoint _ _ => exact Completes.commitSafePoint _ _ _
  | tick => exact Completes.tick _
  | recordPersisted => exact Completes.recordPersisted _
  | timeMsg _ _ => exact Completes.timeMsg _ _ _
  | scaleTimeTimeout => exact Completes.scaleTimeTimeout _
  | offerFlashDone _ => exact Completes.offerFlashDone _ _
  | scaleLoadDone _ => exact Completes.scaleLoadDone _ _
  | scaleSramUncorr => exact Completes.scaleSramUncorr _
  | romStageDone _ _ => exact Completes.romStageDone _ _ _
  | imageReadDone _ _ _ => exact Completes.imageReadDone _ _ _ _
  | verifyDone _ _ => exact Completes.verifyDone _ _ _
  | memoryTimeout _ => exact Completes.memoryTimeout _ _
  | configLoad _ => exact Completes.configLoad _ _
  | fwOfferVerifyDone _ _ => exact Completes.fwOfferVerifyDone _ _ _
  | attestReportReady _ => exact Completes.attestReportReady _ _
  | lifeSnapshotTimer => exact Completes.lifeSnapshotTimer _
  | snapshotWriteDone _ => exact Completes.snapshotWriteDone _ _
  | throttleStep => exact Completes.throttleStep _
  | prochot _ => exact Completes.prochot _ _
  | avsAdjust _ _ => exact Completes.avsAdjust _ _ _
  | deviceTimeUndisciplined => exact Completes.deviceTimeUndisciplined _

/-! ## Every step -/

@[simp] theorem step_of_cons (c : Instr) (rest : List Instr) (s : State) :
    step { s with pending := c :: rest } = exec c { s with pending := rest } := rfl

theorem step_of_pending_nil {s : State} (h : s.pending = []) : step s = .next s.tick := by
  simp only [step, h]

theorem step_of_pending_cons {s : State} {c : Instr} {rest : List Instr} (h : s.pending = c :: rest) :
    step s = exec c { s with pending := rest } := by
  simp only [step, h]

/-- What waits after a step is the queue without its front, and the canonical form is kept: a cycle and a command keep the state that
they start from, which differs from the state of the step in the queue alone. -/
theorem step_keeps {s t : State} (h : step s = .next t) :
    t.pending = s.pending.tail ∧ (s.canonical = true → t.canonical = true) := by
  cases hq : s.pending with
  | nil =>
    rw [step_of_pending_nil hq] at h
    have hk : Keeps s t := Host.Outcome.next.inj h ▸ s.tick_keeps (.refl s)
    exact ⟨hk.pending.trans hq, hk.canonical⟩
  | cons c rest =>
    rw [step_of_pending_cons hq] at h
    have hk : Keeps { s with pending := rest } t := (exec_keeps c (.refl _)).get t h
    exact ⟨hk.pending, hk.canonical⟩

/-- A step from a queue of well-formed commands completes. -/
theorem step_completes {s : State} (h : s.queueWf = true) : ∃ t, step s = .next t := by
  cases hq : s.pending with
  | nil => exact ⟨s.tick, step_of_pending_nil hq⟩
  | cons c rest =>
    have hc : c.wf = true := List.all_eq_true.1 h c (hq ▸ List.mem_cons_self)
    rw [step_of_pending_cons hq]
    exact (exec_completes c _).1 hc

/-- What stays in a queue of well-formed commands without its front is well formed. -/
theorem queueWf_of_pending_tail {s t : State} (h : s.queueWf = true) (ht : t.pending = s.pending.tail) : t.queueWf = true :=
  List.all_eq_true.2 fun c hc => List.all_eq_true.1 h c (List.mem_of_mem_tail (ht ▸ hc))

/-! ## The obligations -/

/-- Settles O5: the front command completes as it is well formed, and no command touches the rest of the queue. -/
theorem everyStepShortensTheQueue : Obligations.EveryStepShortensTheQueue := by
  unfold Obligations.EveryStepShortensTheQueue
  intro s hwf
  obtain ⟨t, ht⟩ := step_completes hwf
  have hrest := (step_keeps ht).1
  exact ⟨t, ht, hrest, queueWf_of_pending_tail hwf hrest⟩

/-- Settles O6, by the Keeps lemma of each command and of the cycle. -/
theorem everyStepKeepsTheCanonicalForm : Obligations.EveryStepKeepsTheCanonicalForm := by
  unfold Obligations.EveryStepKeepsTheCanonicalForm
  exact fun _ _ hc ht => (step_keeps ht).2 hc

/-- Settles O4, by the lemma of each constructor. -/
theorem onlyIllFormedCommandsStop : Obligations.OnlyIllFormedCommandsStop := by
  unfold Obligations.OnlyIllFormedCommandsStop
  exact exec_completes

/-- Settles O1: the queue's front selects the command. -/
theorem stepRunsTheFrontCommand : Obligations.StepRunsTheFrontCommand := by
  unfold Obligations.StepRunsTheFrontCommand
  exact step_of_cons

/-! ## Reset -/

/-- Reset lists no register: each reads the reset value of the tables. -/
theorem State.rd_reset (r : Reg) (k : Nat) : State.reset.rd r k = r.resetVal k := rfl

theorem State.rdStaged_reset (r : Reg) (k : Nat) : State.reset.rdStaged r k = r.resetVal k := rfl

/-- A register whose reset value is the same for every instance reads the same at reset in each. -/
theorem State.fld_reset_of_resetOf {f : Fld} (h : ∀ k, f.reg.resetOf k = f.reg.resetOf 0) (k : Nat) :
    State.reset.fld f k = State.reset.fld f := by
  simp only [State.fld, State.rd_reset, Reg.resetVal, h k]

/-- The identity of a partition is its number (R629). -/
theorem State.fld_reset_ptnId {p : Nat} (hp : p < 128) : State.reset.fld F.PTN_ID_PARTITION p = p := by
  have hval : Reg.PTN_ID.resetVal p = BitVec.ofNat 64 p := rfl
  simp only [State.fld, State.rd_reset, hval, Fld.get, BitVec.toNat_ofNat]
  omega

/-- Settles O3: the empty register files read as the tables give, and memory that nothing lists reads 0. -/
theorem resetIsCanonical : Obligations.ResetIsCanonical := by
  unfold Obligations.ResetIsCanonical
  refine ⟨by decide, by decide, rfl, fun r k => ⟨State.rd_reset r k, State.rdStaged_reset r k⟩, fun _ => rfl, by decide, by decide,
    fun k => ⟨?tail, ?size⟩, fun p hp => State.fld_reset_ptnId hp, by decide, by decide, by decide, by decide, by decide⟩
  case tail =>
    rw [State.fld_reset_of_resetOf (f := F.HIF_SQ_TAIL_INDEX) (fun _ => rfl) k]
    decide
  case size =>
    rw [State.fld_reset_of_resetOf (f := F.HIF_SQ_CTRL_LOG2_ENTRIES) (fun _ => rfl) k]
    decide

end Sys2Proof.Machine
end

section
/-!
PROOF. O7, O8: what a write of a register leaves in each of its fields (00_scope.md R7, R11; 16_object_dictionary.md R755). Both kinds of
write put values into some fields of the table, one after the other; as the fields share no bit, each reads what was put into it.
-/

namespace Sys2Proof.Machine

/-! ## Field tables -/

/-- The fields of each register lie in 64 bits. -/
theorem Reg.fields_fit (r : Reg) : ∀ f ∈ r.fields, f.lo + f.w ≤ 64 := by
  cases r <;> decide

/-- No two fields of a register share a bit. -/
theorem Reg.fields_apart (r : Reg) : r.fields.Pairwise fun f g => f.lo + f.w ≤ g.lo ∨ g.lo + g.w ≤ f.lo := by
  cases r <;> decide

/-- A row of a register's table as a field. -/
def Reg.fieldAt (r : Reg) (f : FieldInfo) : Fld := ⟨r, f.lo, f.w⟩

/-- Put into each field of a list what `x` gives it, if anything. -/
def Reg.putFields (r : Reg) (x : FieldInfo → Option Nat) (l : List FieldInfo) (w : Word) : Word :=
  l.foldl (fun w f => (x f).elim w ((r.fieldAt f).put w)) w

@[simp] theorem Reg.putFields_cons (r : Reg) (x : FieldInfo → Option Nat) (f : FieldInfo) (l : List FieldInfo) (w : Word) :
    r.putFields x (f :: l) w = r.putFields x l ((x f).elim w ((r.fieldAt f).put w)) := rfl

/-- A field that shares no bit with those of the list reads as before. -/
theorem Reg.get_putFields_other (r : Reg) (x : FieldInfo → Option Nat) {l : List FieldInfo} {g : FieldInfo} (hfit : g.lo + g.w ≤ 64)
    (hl : ∀ f ∈ l, f.lo + f.w ≤ g.lo ∨ g.lo + g.w ≤ f.lo) (w : Word) :
    (r.fieldAt g).get (r.putFields x l w) = (r.fieldAt g).get w := by
  induction l generalizing w with
  | nil => rfl
  | cons f l ih =>
    obtain ⟨hf, hrest⟩ := List.forall_mem_cons.1 hl
    rw [Reg.putFields_cons, ih hrest]
    cases x f with
    | none => rfl
    | some y => exact Fld.get_put_other (r.fieldAt f) (r.fieldAt g) w y hf hfit

/-- A field of the list reads what was put into it, cut to its width, or as before. -/
theorem Reg.get_putFields (r : Reg) (x : FieldInfo → Option Nat) {l : List FieldInfo} (hfit : ∀ f ∈ l, f.lo + f.w ≤ 64)
    (hl : l.Pairwise fun f g => f.lo + f.w ≤ g.lo ∨ g.lo + g.w ≤ f.lo) {g : FieldInfo} (hg : g ∈ l) (w : Word) :
    (r.fieldAt g).get (r.putFields x l w) = (x g).elim ((r.fieldAt g).get w) (· % 2 ^ g.w) := by
  induction l generalizing w with
  | nil => cases hg
  | cons f l ih =>
    obtain ⟨hf, hrest⟩ := List.pairwise_cons.1 hl
    obtain ⟨hffit, hrestfit⟩ := List.forall_mem_cons.1 hfit
    rw [Reg.putFields_cons]
    rcases List.mem_cons.1 hg with rfl | hg
    · rw [Reg.get_putFields_other r x hffit fun f' hf' => (hf f' hf').symm]
      cases x g with
      | none => rfl
      | some y => exact Fld.get_put_same (r.fieldAt g) w y hffit
    · rw [ih hrestfit hrest hg]
      cases x g with
      | some y => rfl
      | none =>
        cases x f with
        | none => rfl
        | some y => exact Fld.get_put_other (r.fieldAt f) (r.fieldAt g) w y (hf g hg) (hrestfit g hg)

theorem Fld.get_lt (f : Fld) (v : Word) : f.get v < 2 ^ f.w := Nat.mod_lt _ (Nat.two_pow_pos _)

theorem Fld.get_mod (f : Fld) (v : Word) : f.get v % 2 ^ f.w = f.get v := Nat.mod_eq_of_lt (f.get_lt v)

/-! ## Access codes -/

/-- What a write of `v` over `old` puts into a field, by its access code (R7). -/
def Reg.accessPut (r : Reg) (old v : Word) (f : FieldInfo) : Option Nat :=
  match f.acc with
  | .ro | .rws => none
  | .rw | .rol => some ((r.fieldAt f).get v)
  | .wo => some 0
  | .w1c => some ((r.fieldAt f).get old - ((r.fieldAt f).get old &&& (r.fieldAt f).get v))
  | .w1s => some ((r.fieldAt f).get old ||| (r.fieldAt f).get v)

theorem Reg.merge_eq_putFields (r : Reg) (old v : Word) : r.merge old v = r.putFields (r.accessPut old v) r.fields old := by
  unfold Reg.merge Reg.putFields
  congr 1
  funext w f
  obtain ⟨lo, width, acc, reset⟩ := f
  cases acc <;> rfl

/-- What a write of `v` puts into the staged value of a field (R755). -/
def Reg.stagedPut (r : Reg) (v : Word) (f : FieldInfo) : Option Nat := if f.acc = .ro then none else some ((r.fieldAt f).get v)

theorem Reg.mergeStaged_eq_putFields (r : Reg) (old v : Word) : r.mergeStaged old v = r.putFields (r.stagedPut v) r.fields old := by
  unfold Reg.mergeStaged Reg.putFields
  congr 1
  funext w f
  by_cases h : f.acc = .ro <;> simp [Reg.stagedPut, Reg.fieldAt, h]

/-- What is left of `x` without the bits it has in `y` are the bits of `x` that are not in `y`. -/
theorem testBit_sub_and (x y k : Nat) : (x - (x &&& y)).testBit k = (x.testBit k && !y.testBit k) := by
  have hand := Nat.and_mod_two_eq_one (a := x) (b := y)
  have hhalf := Nat.and_div_two (a := x) (b := y)
  induction k generalizing x y with
  | zero =>
    have hle : x &&& y ≤ x := Nat.and_le_left
    rw [Nat.testBit_zero, Nat.testBit_zero, Nat.testBit_zero, ← decide_not, ← Bool.decide_and, decide_eq_decide]
    omega
  | succ k ih =>
    have hle : x / 2 &&& y / 2 ≤ x / 2 := Nat.and_le_left
    have hdiv : (x - (x &&& y)) / 2 = x / 2 - (x / 2 &&& y / 2) := by omega
    rw [Nat.testBit_succ, hdiv, ih _ _ Nat.and_mod_two_eq_one Nat.and_div_two, ← Nat.testBit_succ, ← Nat.testBit_succ]

/-- What an access code puts into a field is its effect. -/
theorem Reg.accessEffect_accessPut (r : Reg) (old v : Word) (f : FieldInfo) :
    accessEffect f.acc f.w ((r.fieldAt f).get old) ((r.fieldAt f).get v)
      ((r.accessPut old v f).elim ((r.fieldAt f).get old) (· % 2 ^ f.w)) := by
  obtain ⟨lo, w, acc, reset⟩ := f
  cases acc with
  | ro | rws => rfl
  | rw | rol => exact Fld.get_mod _ v
  | wo => exact Nat.zero_mod _
  | w1c =>
    intro k
    show ((_ - (_ &&& _)) % 2 ^ w).testBit k = _
    rw [Nat.testBit_mod_two_pow, testBit_sub_and, Bool.and_assoc]
  | w1s =>
    intro k
    show ((_ ||| _) % 2 ^ w).testBit k = _
    rw [Nat.testBit_mod_two_pow, Nat.testBit_or]

/-! ## Plain writes -/

theorem State.plainWrite_of_no_group (s : State) {r : Reg} (k : Nat) (v : Word) (hg : r.group = none) (hl : r.loadOnly = false) :
    s.plainWrite r k v = s.wr r k (r.merge (s.rd r k) v) := by
  simp [State.plainWrite, hg, hl]

theorem State.plainWrite_of_group (s : State) {r : Reg} {g : Group} (k : Nat) (v : Word) (hg : r.group = some g) :
    s.plainWrite r k v = s.wrStaged r k (r.mergeStaged (s.rdStaged r k) v) := by
  simp [State.plainWrite, hg]

theorem State.readReg_of_group (s : State) {r : Reg} {g : Group} (k : Nat) (hg : r.group = some g) :
    s.readReg r k = s.rdStaged r k := by
  simp [State.readReg, hg]

/-! ## The obligations -/

/-- Settles O7: the write merges by access codes, and the merge is one put into each field. -/
theorem writesFollowTheAccessCodes : Obligations.WritesFollowTheAccessCodes := by
  unfold Obligations.WritesFollowTheAccessCodes
  intro s r k v hc hk hg hl
  rw [s.plainWrite_of_no_group k v hg hl]
  refine ⟨_, rfl, fun f hf => ?field, fun r' k' hk' hne => s.rd_wr_other _ hk hk' hne⟩
  case field =>
    have hnew : (s.wr r k (r.merge (s.rd r k) v)).fld (r.fieldAt f) k =
        (r.accessPut (s.rd r k) v f).elim ((r.fieldAt f).get (s.rd r k)) (· % 2 ^ f.w) := by
      show (r.fieldAt f).get (State.rd _ r k) = _
      rw [State.rd_wr_same hc, Reg.merge_eq_putFields, r.get_putFields _ r.fields_fit r.fields_apart hf]
    show accessEffect f.acc f.w _ _ (State.fld _ (r.fieldAt f) k)
    rw [hnew]
    exact r.accessEffect_accessPut (s.rd r k) v f

/-- Settles O8: the write puts its value into each field of the staged value that is not read-only. -/
theorem memberWritesAreStaged : Obligations.MemberWritesAreStaged := by
  unfold Obligations.MemberWritesAreStaged
  intro s r g k v hc hk hg
  rw [s.plainWrite_of_group k v hg]
  refine ⟨_, rfl, fun f hf hacc => ⟨?staged, rfl⟩, fun r' k' hk' hne => s.rdStaged_wrStaged_other _ hk hk' hne⟩
  case staged =>
    have hput : r.stagedPut v f = some ((r.fieldAt f).get v) := if_neg hacc
    rw [State.readReg_of_group _ k hg, State.rdStaged_wrStaged_same hc, Reg.mergeStaged_eq_putFields]
    show (r.fieldAt f).get _ = _
    rw [r.get_putFields _ r.fields_fit r.fields_apart hf, hput]
    exact Fld.get_mod _ v

end Sys2Proof.Machine
end

section
/-!
PROOF. O10: what a write that the home performs leaves in memory (03_tiers_and_tiles.md R127, R128). The write goes line by line; a line
that holds no poison takes its part, and clearing marks of a line changes no byte.
-/

namespace Sys2Proof.Machine

/-! ## Lines of an extent -/

theorem mem_linesOf {a n l : Nat} : l ∈ linesOf a n ↔ n ≠ 0 ∧ a / 64 ≤ l ∧ l ≤ (a + n - 1) / 64 := by
  unfold linesOf
  split
  · simp_all
  · simp only [List.mem_map, List.mem_range]
    constructor
    · rintro ⟨k, hk, rfl⟩
      omega
    · rintro ⟨hn, h1, h2⟩
      exact ⟨l - a / 64, by omega, by omega⟩

/-! ## Marks of lines -/

theorem mem_ninsert_of_mem {k x : Nat} {l : List Nat} (h : x ∈ l) : x ∈ ninsert k l := by
  induction l with
  | nil => cases h
  | cons y r ih =>
    rw [ninsert]
    split
    · exact List.mem_cons_of_mem _ h
    · split
      · exact h
      · rcases List.mem_cons.1 h with rfl | h
        · exact List.mem_cons_self
        · exact List.mem_cons_of_mem _ (ih h)

theorem Memory.poison_putAll (m : Memory) (a : Nat) (d : List Byte) : (m.putAll a d).poison = m.poison := by
  induction d generalizing m a with
  | nil => rfl
  | cons b r ih => exact ih (m.put a b) (a + 1)

theorem Memory.clean_putAll (m : Memory) (a : Nat) (d : List Byte) : (m.putAll a d).clean = m.clean := by
  induction d generalizing m a with
  | nil => rfl
  | cons b r ih => exact ih (m.put a b) (a + 1)

theorem Memory.undef_putAll (m : Memory) (a : Nat) (d : List Byte) : (m.putAll a d).undef = m.undef := by
  induction d generalizing m a with
  | nil => rfl
  | cons b r ih => exact ih (m.put a b) (a + 1)

@[simp] theorem Memory.poisoned_putAll (m : Memory) (a : Nat) (d : List Byte) (l : Nat) :
    (m.putAll a d).poisoned l = m.poisoned l := by
  simp only [Memory.poisoned, Memory.ext, m.poison_putAll, m.clean_putAll, m.undef_putAll]

/-- Clearing a line's marks poisons no line. -/
theorem Memory.not_poisoned_cleanLine {m : Memory} {l : Nat} (k : Nat) (h : m.poisoned l = false) :
    (m.cleanLine k).poisoned l = false := by
  have hclean : l ∈ m.clean → l ∈ (m.cleanLine k).clean := fun hl => by
    unfold Memory.cleanLine
    dsimp only
    split
    · exact mem_ninsert_of_mem hl
    · exact hl
  simp only [Memory.poisoned, Bool.or_eq_false_iff, Bool.and_eq_false_iff, Bool.not_eq_false'] at h ⊢
  refine ⟨?_, h.2.imp_left fun hl => ?_⟩
  · simp only [List.contains_eq_mem, decide_eq_false_iff_not] at h ⊢
    exact fun hm => h.1 (List.mem_filter.1 hm).1
  · simp only [List.contains_eq_mem, decide_eq_true_eq] at hl ⊢
    exact hclean hl

/-! ## Writes line by line -/

/-- What a write that is performed makes of memory: its bytes read back, every other byte reads as before, and the memory stays in
its canonical form with no further line poisoned. -/
structure Memory.Stored (m t : Memory) (a : Nat) (d : List Byte) : Prop where
  wf : t.wf = true
  same : t.bytes a d.length = d
  other : ∀ x, x < a ∨ a + d.length ≤ x → t.byte x = m.byte x
  clean : ∀ l, m.poisoned l = false → t.poisoned l = false

theorem Memory.Stored.refl {m : Memory} (h : m.wf = true) (a : Nat) : m.Stored m a [] := ⟨h, rfl, fun _ _ => rfl, fun _ => id⟩

theorem Memory.bytes_add (m : Memory) (a i j : Nat) : m.bytes a (i + j) = m.bytes a i ++ m.bytes (a + i) j := by
  induction i generalizing a with
  | zero => simp [Memory.bytes]
  | succ i ih => rw [Nat.succ_add, Memory.bytes, ih, Memory.bytes, List.cons_append, Nat.add_assoc, Nat.add_comm 1 i]

theorem Memory.bytes_congr_of_lt {m m' : Memory} {a n : Nat} (h : ∀ x, a ≤ x → x < a + n → m.byte x = m'.byte x) :
    m.bytes a n = m'.bytes a n := by
  induction n generalizing a with
  | zero => rfl
  | succ n ih => rw [Memory.bytes, Memory.bytes, h a (Nat.le_refl a) (by omega), ih fun x h1 h2 => h x (by omega) (by omega)]

/-- Two writes, the second behind the first, are one. -/
theorem Memory.Stored.append {m t u : Memory} {a : Nat} {d e : List Byte} (h : m.Stored t a d) (k : t.Stored u (a + d.length) e) :
    m.Stored u a (d ++ e) := by
  refine ⟨k.wf, ?same, fun x hx => ?other, fun l hl => k.clean l (h.clean l hl)⟩
  case same =>
    have hfirst : u.bytes a d.length = d :=
      (Memory.bytes_congr_of_lt fun x _ hx => k.other x (.inl hx)).trans h.same
    rw [List.length_append, Memory.bytes_add, hfirst, k.same]
  case other =>
    rw [List.length_append] at hx
    rw [k.other x (by omega), h.other x (by omega)]

/-- A part written inside a line without poison is stored. -/
theorem Memory.stored_writeLine {m : Memory} {a : Nat} (d : List Byte) (h : m.wf = true) (hp : m.poisoned (a / 64) = false) :
    ∃ t, m.writeLine a d = some t ∧ m.Stored t a d := by
  by_cases hd : d.length = 64
  · refine ⟨_, if_pos hd, Memory.wf_putAll (Memory.wf_cleanLine h _) a d, Memory.bytes_putAll_same (Memory.wf_cleanLine h _) a d,
      fun x hx => (Memory.byte_putAll_other _ d hx).trans (m.byte_cleanLine _ x), fun l hl => ?_⟩
    rw [Memory.poisoned_putAll]
    exact Memory.not_poisoned_cleanLine _ hl
  · refine ⟨(m.putAll a d).cleanLine (a / 64), ?_, Memory.wf_cleanLine (Memory.wf_putAll h a d) _,
      (Memory.bytes_cleanLine ..).trans (Memory.bytes_putAll_same h a d),
      fun x hx => (Memory.byte_cleanLine ..).trans (Memory.byte_putAll_other m d hx), fun l hl => ?_⟩
    · rw [Memory.writeLine, if_neg hd, hp]
      rfl
    · exact Memory.not_poisoned_cleanLine _ ((m.poisoned_putAll a d l).trans hl)

/-- A write that touches no poisoned line is performed whole. -/
theorem Memory.stored_writeLines {k : Nat} {m : Memory} {a : Nat} {d : List Byte} (first : Nat) (h : m.wf = true)
    (hk : d.length ≠ 0 → a % 64 + d.length ≤ 64 * k) (hp : ∀ l ∈ linesOf a d.length, m.poisoned l = false) :
    ∃ t, Memory.writeLines k m a d [] first = (t, true) ∧ m.Stored t a d := by
  induction k generalizing m a d with
  | zero =>
    obtain rfl : d = [] := List.length_eq_zero_iff.1 (by omega)
    exact ⟨m, rfl, .refl h a⟩
  | succ k ih =>
    cases hd : d with
    | nil => exact ⟨m, rfl, .refl h a⟩
    | cons b r =>
      have hlen : d.length ≠ 0 := by simp [hd]
      have hpart : (d.take (64 - a % 64)).length = min (64 - a % 64) d.length := List.length_take
      obtain ⟨t, ht, hstored⟩ := Memory.stored_writeLine (d.take (64 - a % 64)) h
        (hp (a / 64) (mem_linesOf.2 ⟨hlen, Nat.le_refl _, by omega⟩))
      have hrest : ∀ l ∈ linesOf (a + (d.take (64 - a % 64)).length) (d.drop (64 - a % 64)).length, t.poisoned l = false := by
        intro l hl
        rw [mem_linesOf, hpart, List.length_drop] at hl
        exact hstored.clean l (hp l (mem_linesOf.2 ⟨hlen, by omega, by omega⟩))
      have hfuel : (d.drop (64 - a % 64)).length ≠ 0 →
          (a + (d.take (64 - a % 64)).length) % 64 + (d.drop (64 - a % 64)).length ≤ 64 * k := by
        have := hk hlen
        rw [hpart, List.length_drop]
        omega
      obtain ⟨u, hu, hu'⟩ := ih hstored.wf hfuel hrest
      refine ⟨u, ?_, ?_⟩
      · rw [hd] at ht hu
        simp only [Memory.writeLines, List.contains_nil, Bool.false_eq_true, if_false, ht, hu, Bool.and_self]
      · have := hstored.append hu'
        rwa [List.take_append_drop, hd] at this

/-! ## Writes of the home -/

/-- A write that no directory entry concerns sends no snoop. -/
theorem State.snoopWrite_of_no_entry {s : State} {a n : Nat} (h : ∀ e ∈ s.dir, e.line ∉ linesOf a n) : s.snoopWrite a n = s := by
  have hnone : (s.dir.filter fun e => (linesOf a n).contains e.line) = [] :=
    List.filter_eq_nil_iff.2 fun e he => by simp [h e he]
  unfold State.snoopWrite
  rw [hnone]
  rfl

theorem State.stored_writeMem {s : State} {a : Nat} {d : List Byte} (hc : s.canonical = true)
    (hup : ∀ l ∈ linesOf a d.length, s.lineDown l = false) (hp : ∀ l ∈ linesOf a d.length, s.mem.poisoned l = false)
    (hdir : ∀ e ∈ s.dir, e.line ∉ linesOf a d.length) : ∃ t, s.writeMem a d = (t, true) ∧ s.mem.Stored t.mem a d := by
  have hserved : ((linesOf a d.length).any fun l => s.halfDown (s.homeHalf (64 * l)) || s.memFailed (64 * l)) = false :=
    List.any_eq_false.2 fun l hl => by simpa [State.lineDown] using hup l hl
  obtain ⟨m, hm, hstored⟩ := Memory.stored_writeLines (k := d.length / 64 + 2) (a / 64) (State.canonical_iff.1 hc).1 (by omega) hp
  refine ⟨({ s with mem := m } : State).tally a d.length true, ?_, ?_⟩
  · simp only [State.writeMem, hserved, Bool.false_eq_true, if_false, State.snoopWrite_of_no_entry hdir, hm]
  · rwa [State.tally_mem]

/-! ## The obligation -/

/-- Settles O10: the home serves every line of the write, so that each is stored. -/
theorem memoryReadsWhatWasWritten : Obligations.MemoryReadsWhatWasWritten := by
  unfold Obligations.MemoryReadsWhatWasWritten
  intro s a d hc hlines hdir
  obtain ⟨t, ht, hstored⟩ := State.stored_writeMem hc (fun l hl => by simp [State.lineDown, hlines l hl])
    (fun l hl => (hlines l hl).2.2) hdir
  exact ⟨t, ht, hstored.same, hstored.other⟩

end Sys2Proof.Machine
end

section
/-!
PROOF. O15: an atomic at the home (11_yalig_transactions.md R523). The home reads its operand, computes the new value of the ATOP and,
where a comparison does not fail, writes it inside the operand's line.
-/

namespace Sys2Proof.Machine

/-! ## Numbers and their bytes -/

@[simp] theorem leBytes_length (n v : Nat) : (leBytes n v).length = n := by
  induction n generalizing v with
  | zero => rfl
  | succ n ih => exact congrArg (· + 1) (ih _)

theorem leNat_leBytes (n v : Nat) : leNat (leBytes n v) = v % 256 ^ n := by
  induction n generalizing v with
  | zero => exact (Nat.mod_one v).symm
  | succ n ih => rw [leBytes, leNat, ih, Nat.pow_succ', Nat.mod_mul, BitVec.toNat_ofNat]

theorem leNat_leBytes_of_lt {n v : Nat} (h : v < 256 ^ n) : leNat (leBytes n v) = v :=
  (leNat_leBytes n v).trans (Nat.mod_eq_of_lt h)

theorem leNat_lt (l : List Byte) : leNat l < 256 ^ l.length := by
  induction l with
  | nil => exact Nat.one_pos
  | cons b r ih =>
    rw [leNat, List.length_cons, Nat.pow_succ]
    have := b.isLt
    omega

theorem leAt_lt (l : List Byte) (off n : Nat) : leAt l off n < 256 ^ n := by
  have := leNat_lt (slice l off n)
  rwa [slice_length] at this

/-- A 64-bit value as a signed number is its two's complement. -/
theorem signed64_eq_toInt {v : Nat} (h : v < 256 ^ 8) : signed64 v = (BitVec.ofNat 64 v).toInt := by
  rw [BitVec.toInt_eq_toNat_cond, BitVec.toNat_ofNat, Nat.mod_eq_of_lt (by omega), signed64]
  split <;> split <;> omega

/-! ## What an ATOP leaves of its operand -/

/-- A comparing ATOP writes its second operand where the first equals the old value. -/
theorem leNat_compare (old d : List Byte) (w : Nat) (hold : leAt old 0 w = leNat old) :
    leNat ((if leAt old 0 w = leAt d 0 w then some (slice d w w) else none).getD old) =
      if leNat old = leAt d 0 w then leAt d w w else leNat old := by
  rw [hold]
  split <;> rfl

/-- The new value of an ATOP is the result of the table of R523; where a comparison fails the old value stays. -/
theorem leNat_atomNew {atop : Nat} (hatop : atop ≤ 8) {old : List Byte} (hold : old.length = atomWidth atop) (d : List Byte) :
    leNat ((atomNew atop old d).getD old) = atomResult atop (leNat old) d := by
  have hfull : leAt old 0 (atomWidth atop) = leNat old := leAt_zero_of_length hold
  have ho : leNat old < 256 ^ atomWidth atop := hold ▸ leNat_lt old
  have ha : leAt d 0 8 < 256 ^ 8 := leAt_lt d 0 8
  have hcases : atop = 0 ∨ atop = 1 ∨ atop = 2 ∨ atop = 3 ∨ atop = 4 ∨ atop = 5 ∨ atop = 6 ∨ atop = 7 ∨ atop = 8 := by omega
  rcases hcases with rfl | rfl | rfl | rfl | rfl | rfl | rfl | rfl | rfl <;>
    simp only [atomWidth, Nat.reduceEqDiff, reduceIte] at hfull ho <;>
    simp only [atomNew, atomResult, atomWidth, Option.getD_some, hfull]
  · exact leNat_leBytes_of_lt (Nat.mod_lt _ (by decide))
  · exact leNat_leBytes_of_lt (by omega)
  · exact leNat_leBytes_of_lt (by omega)
  · rw [leNat_leBytes_of_lt (by split <;> omega), signed64_eq_toInt ho, signed64_eq_toInt ha]
  · rw [leNat_leBytes_of_lt (by split <;> omega), signed64_eq_toInt ho, signed64_eq_toInt ha]
  · exact leNat_leBytes_of_lt ha
  · exact leNat_compare old d 8 hfull
  · exact leNat_compare old d 16 hfull
  · exact leNat_leBytes_of_lt (BitVec.isLt _)

/-- The new value of an ATOP is as wide as its operand. -/
theorem length_atomNew {atop : Nat} (hatop : atop ≤ 8) {old d v : List Byte} (h : atomNew atop old d = some v) :
    v.length = atomWidth atop := by
  match atop, hatop, h with
  | 6, _, h | 7, _, h =>
    simp only [atomNew, Option.ite_none_right_eq_some, Option.some.injEq] at h
    exact h.2 ▸ slice_length d _ _
  | 0, _, h | 1, _, h | 2, _, h | 3, _, h | 4, _, h | 5, _, h | 8, _, h => exact Option.some.inj h ▸ leBytes_length _ _
  | n + 9, hatop, _ => omega

/-! ## The write of the new value -/

theorem atomWidth_cases (atop : Nat) : atomWidth atop = 4 ∨ atomWidth atop = 8 ∨ atomWidth atop = 16 := by
  unfold atomWidth
  split
  · decide
  · split <;> decide

/-- An aligned operand lies in one line. -/
theorem atomWidth_fits {o atop : Nat} (h : o % atomWidth atop = 0) : o % 64 + atomWidth atop ≤ 64 := by
  rcases atomWidth_cases atop with hw | hw | hw <;> rw [hw] at h ⊢ <;> omega

/-- A write inside one line, made after a served read, is stored. -/
theorem State.stored_writeMem_noteRead {s : State} {o n : Nat} {v : List Byte} (hne : v ≠ []) (h : o % 64 + v.length ≤ 64)
    (hc : s.canonical = true) (hdir : s.dir = []) (hup : s.lineDown (o / 64) = false) (hp : s.mem.poisoned (o / 64) = false) :
    ∃ t, (s.noteRead o n).writeMem o v = (t, true) ∧ (s.noteRead o n).mem.Stored t.mem o v := by
  have hline : linesOf o v.length = [o / 64] := linesOf_of_oneLine (mt List.length_eq_zero_iff.1 hne) h
  refine State.stored_writeMem ((State.noteRead_keeps s o n (.refl s)).canonical hc) ?_ ?_ ?_ <;> rw [hline]
  · exact List.forall_mem_singleton.2 ((State.lineDown_noteRead hdir o n _).trans hup)
  · exact List.forall_mem_singleton.2 ((State.poisoned_noteRead hdir o n _).trans hp)
  · simp [State.dir_noteRead hdir]

/-- An aligned atomic outside the handoff window and the mirror region reads, computes and writes. -/
theorem State.homeAtom_of_plain {s : State} {o atop : Nat} (d : List Byte) (ho : o % atomWidth atop = 0)
    (hwin : s.inHandoff o (atomWidth atop) = false) (hmir : s.inMirror o (atomWidth atop) = false) :
    s.homeAtom o atop d = ((s.memAtom o atop d fun _ _ => some true).1,
      { (s.memAtom o atop d fun _ _ => some true).2 with pushed := none }) := by
  simp [State.homeAtom, ho, hwin, hmir]

/-! ## The obligation -/

/-- Settles O15: the operand is read, and the result of its ATOP, if any, is stored in its place. -/
theorem atomicsChangeTheirOperand : Obligations.AtomicsChangeTheirOperand := by
  unfold Obligations.AtomicsChangeTheirOperand
  intro s o atop d hatop hc hdir ho hup hupLine hok hokLine hp hwin hmir r old
  have hold : old.length = atomWidth atop := Memory.length_bytes ..
  have hr : r = _ := (State.homeAtom_of_plain d ho hwin hmir).trans
    (by rw [State.memAtom_of_served atop d (fun _ _ => some true) hup hok hdir hp])
  have hresult := leNat_atomNew hatop hold d
  rw [hr]
  cases hnew : atomNew atop old d with
  | none =>
    rw [hnew] at hresult
    have hsame : (s.noteRead o (atomWidth atop)).mem.bytes o (atomWidth atop) = old := State.bytes_noteRead hdir ..
    refine ⟨rfl, rfl, rfl, ?_, fun b _ => State.byte_noteRead hdir ..⟩
    exact (congrArg leNat hsame).trans hresult
  | some v =>
    rw [hnew] at hresult
    have hv : v.length = atomWidth atop := length_atomNew hatop hnew
    have hpos : 0 < atomWidth atop := by rcases atomWidth_cases atop with hw | hw | hw <;> rw [hw] <;> decide
    obtain ⟨t, ht, hstored⟩ := State.stored_writeMem_noteRead (n := atomWidth atop) (List.ne_nil_of_length_pos (hv ▸ hpos))
      (hv ▸ atomWidth_fits ho) hc hdir (by simp [State.lineDown, hupLine, hokLine]) hp
    have hstate : ((s.noteRead o (atomWidth atop)).atomOutcome o old (some true) (some v)).1 = t := congrArg Prod.fst ht
    refine ⟨rfl, rfl, rfl, ?_, fun b hb => ?_⟩
    · show leNat ((State.atomOutcome ..).1.mem.bytes o _) = _
      rw [hstate, ← hv, hstored.same]
      exact hresult
    · show (State.atomOutcome ..).1.mem.byte b = _
      rw [hstate, hstored.other b (hv ▸ hb)]
      exact State.byte_noteRead hdir ..

end Sys2Proof.Machine
end

section
/-!
PROOF. How a command takes effect, said once for every statement of completion below: its operands are well formed, the package is
not held in cold reset, and a register write among them is accepted.
-/

namespace Sys2Proof.Machine

section

variable {i : Instr} {s e t : State}

/-- A command of operands that number instances has its effect. -/
theorem run_effect (hwf : i.wf = true) (hheld : s.held = false) (he : e = t) : run i (s.clocked e) = .next t := by
  rw [run_of_wf _ hwf, s.clocked_of_up _ hheld, he]

/-- A command without such operands has its effect. -/
theorem next_effect (hheld : s.held = false) (he : e = t) : (Host.Outcome.next (s.clocked e) : Out) = .next t := by
  rw [s.clocked_of_up _ hheld, he]

variable {src : Source} {r : Reg} {k : Nat}

/-- A command that is one accepted register write has the write's effect. -/
theorem gated_effect {f : State → State} (hwf : i.wf = true) (hheld : s.held = false) (hacc : s.admission src r k = .accept)
    (he : f s = t) : run i (s.clocked (s.gated src r k f)) = .next t :=
  run_effect hwf hheld ((State.gated_of_accept f hacc).trans he)

/-- The same of a write that could still be refused for its value or for the state. -/
theorem guarded_effect {f : State → State × Nat} (hwf : i.wf = true) (hheld : s.held = false)
    (hacc : s.admission src r k = .accept) (he : f s = (t, stOK)) : run i (s.clocked (s.guarded src r k f)) = .next t :=
  run_effect hwf hheld (by simp [State.guarded, State.admitted, hacc, he])

/-- A command that performs a delivered packet. -/
theorem perform_effect {kind : Packet → Bool} {f : State → Packet → State} {u : State} {p : Packet} (hheld : s.held = false)
    (htake : s.takeInbox k kind = some (u, p)) (he : f u p = t) : (Host.Outcome.next (s.clocked (s.perform k kind f)) : Out) = .next t :=
  next_effect hheld (by simp only [State.perform, htake, he])

end

end Sys2Proof.Machine
end

section
/-!
PROOF. O12: BAR2 accesses that begin outside tier 0 and tier 1 (12_tile_streams_host.md R599).
-/

namespace Sys2Proof.Machine

/-- An access whose first byte lies in no tier is refused. -/
theorem State.bar2Refused_of_region {s : State} {o : Nat} (n : Nat)
    (h : s.region o = .staging ∨ s.region o = .reserve ∨ s.region o = .control ∨ s.region o = .none) : s.bar2Refused o n = true := by
  rcases h with h | h | h | h <;> simp [State.bar2Refused, h]

/-- Settles O12: the access is refused before memory is touched, whatever it is. -/
theorem bar2AccessesAreRefused : Obligations.Bar2AccessesAreRefused := by
  unfold Obligations.Bar2AccessesAreRefused
  intro s x hheld o hregion
  have hrefused : ∀ n, s.bar2Refused (s.bar2Offset x) n = true := fun n => State.bar2Refused_of_region n hregion
  refine ⟨fun n h0 h1 h2 => ?read, fun d p h0 h1 h2 => ?write, fun atop d hop hd hx h36 => ?atomic⟩
  case read => exact run_effect (by simpa [Instr.wf, h0, h1] using h2) hheld (if_pos (hrefused n))
  case write => exact run_effect (by simpa [Instr.wf, h0, h1] using h2) hheld (if_pos (hrefused _))
  case atomic =>
    have hshape : ((atop = 0 || atop = 5 || atop = 6 || atop = 7) && d.length = atomOperand atop && x % atomWidth atop = 0) = true := by
      simpa [hd, hx, or_assoc] using hop
    have hwf : atop < 16 ∧ d.length ≤ 32 := by
      rcases hop with rfl | rfl | rfl | rfl <;> exact ⟨by decide, hd ▸ by decide⟩
    exact run_effect (by simpa [Instr.wf, hwf] using h36) hheld ((if_neg (by simp [hshape])).trans (if_pos (hrefused _)))

end Sys2Proof.Machine
end

section
/-!
PROOF. O14: subnormals and NaN in FP32 addition and multiplication (05_decode_numerics.md R271). An input counts only by what it stands
for, which is a zero for a subnormal; every result is a NaN, an infinity, a zero or a rounded value, none of them subnormal.
-/

namespace Sys2Proof.Machine

/-! ## Inputs -/

/-- A nonzero word whose exponent bits are 0. -/
def f32Subnormal (x : F32) : Bool := x.toNat / 2 ^ 23 % 256 == 0 && x.toNat % 2 ^ 23 != 0

/-- The zero of the same sign for a subnormal, else the word itself. -/
def f32Flush (x : F32) : F32 := if f32Subnormal x then x &&& 0x80000000 else x

theorem f32Subnormal_iff {x : F32} : f32Subnormal x = true ↔ x.toNat / 2 ^ 23 % 256 = 0 ∧ x.toNat % 2 ^ 23 ≠ 0 := by
  simp [f32Subnormal]

theorem fvOf_of_exponent_zero {x : F32} (h : x.toNat / 2 ^ 23 % 256 = 0) : fvOf x = .zero (x.toNat / 2 ^ 31 == 1) := by
  have hbits : bits x.toNat 23 8 = 0 := h
  simp [fvOf, hbits]

theorem fvOf_of_nan {x : F32} (h : x.toNat / 2 ^ 23 % 256 = 255) (hm : x.toNat % 2 ^ 23 ≠ 0) : fvOf x = .nan := by
  have hbits : bits x.toNat 23 8 = 255 := h
  simp only [fvOf, hbits, if_true, if_neg hm]

/-- The sign bit alone. -/
theorem toNat_and_sign (x : F32) : (x &&& 0x80000000).toNat = x.toNat / 2 ^ 31 * 2 ^ 31 := by
  have hx := x.isLt
  have hbit : x.getLsbD 31 = decide (x.toNat / 2 ^ 31 % 2 = 1) := Nat.testBit_eq_decide_div_mod_eq
  rw [show (0x80000000 : F32) = BitVec.twoPow 32 31 from rfl, BitVec.and_twoPow, hbit]
  by_cases h : x.toNat / 2 ^ 31 % 2 = 1
  · rw [if_pos (decide_eq_true h), BitVec.toNat_twoPow]
    omega
  · rw [if_neg (by simpa using h), BitVec.toNat_zero]
    omega

theorem fvOf_f32Flush (x : F32) : fvOf (f32Flush x) = fvOf x := by
  unfold f32Flush
  split
  · next h =>
    obtain ⟨hexp, -⟩ := f32Subnormal_iff.1 h
    have hx := x.isLt
    have hsign := toNat_and_sign x
    rw [fvOf_of_exponent_zero hexp, fvOf_of_exponent_zero (by omega), hsign, Nat.mul_div_cancel _ (Nat.two_pow_pos 31)]
  · rfl

theorem fAdd_congr {a b a' b' : F32} (ha : fvOf a = fvOf a') (hb : fvOf b = fvOf b') : fAdd a b = fAdd a' b' := by
  unfold fAdd
  rw [ha, hb]

theorem fMul_congr {a b a' b' : F32} (ha : fvOf a = fvOf a') (hb : fvOf b = fvOf b') : fMul a b = fMul a' b' := by
  unfold fMul
  rw [ha, hb]

/-! ## Results -/

theorem not_subnormal_f32Nan : f32Subnormal f32Nan = false := by decide

theorem not_subnormal_f32Inf (neg : Bool) : f32Subnormal (f32Inf neg) = false := by cases neg <;> decide

theorem not_subnormal_f32Zero (neg : Bool) : f32Subnormal (f32Zero neg) = false := by cases neg <;> decide

/-- A rounded value keeps an exponent that is not 0, or becomes an infinity or a zero. -/
theorem not_subnormal_f32Round (d : Dy) : f32Subnormal (f32Round d) = false := by
  unfold f32Round
  split
  · exact not_subnormal_f32Zero _
  · dsimp only
    split
    · exact not_subnormal_f32Inf _
    · split
      · exact not_subnormal_f32Zero _
      · refine Bool.eq_false_iff.2 fun h => ?_
        obtain ⟨hexp, -⟩ := f32Subnormal_iff.1 h
        rw [BitVec.toNat_ofNat] at hexp
        split at hexp <;> omega

theorem not_subnormal_fAdd (a b : F32) : f32Subnormal (fAdd a b) = false := by
  unfold fAdd
  split
  · exact not_subnormal_f32Nan
  · exact not_subnormal_f32Nan
  · split
    · exact not_subnormal_f32Inf _
    · exact not_subnormal_f32Nan
  · exact not_subnormal_f32Inf _
  · exact not_subnormal_f32Inf _
  · exact not_subnormal_f32Zero _
  · exact not_subnormal_f32Round _
  · exact not_subnormal_f32Round _
  · exact not_subnormal_f32Round _

theorem not_subnormal_fMul (a b : F32) : f32Subnormal (fMul a b) = false := by
  unfold fMul
  split
  · exact not_subnormal_f32Nan
  · exact not_subnormal_f32Nan
  · exact not_subnormal_f32Nan
  · exact not_subnormal_f32Nan
  · exact not_subnormal_f32Inf _
  · exact not_subnormal_f32Inf _
  · exact not_subnormal_f32Zero _
  · exact not_subnormal_f32Zero _
  · exact not_subnormal_f32Round _

/-- A NaN gives the canonical NaN. -/
theorem fAdd_fMul_of_nan {a b : F32} (h : fvOf a = .nan ∨ fvOf b = .nan) : fAdd a b = f32Nan ∧ fMul a b = f32Nan := by
  rcases h with h | h
  · constructor <;> simp only [fAdd, fMul, h]
  · constructor <;> simp only [fAdd, fMul, h] <;> cases fvOf a <;> rfl

/-! ## The obligation -/

/-- Settles O14: flushing changes no value that an operation sees, and no result is subnormal. -/
theorem subnormalsAreFlushed : Obligations.SubnormalsAreFlushed := by
  unfold Obligations.SubnormalsAreFlushed
  intro a b sub flush nan
  have hflush : ∀ x, fvOf x = fvOf (flush x) := fun x => (fvOf_f32Flush x).symm
  have hnan : ∀ x, nan x = true → fvOf x = .nan := fun x hx => by
    obtain ⟨hexp, hm⟩ : x.toNat / 2 ^ 23 % 256 = 255 ∧ x.toNat % 2 ^ 23 ≠ 0 := by simpa [nan] using hx
    exact fvOf_of_nan hexp hm
  exact ⟨fAdd_congr (hflush a) (hflush b), fMul_congr (hflush a) (hflush b), not_subnormal_fAdd a b, not_subnormal_fMul a b,
    fun h => fAdd_fMul_of_nan (h.imp (hnan a) (hnan b))⟩

end Sys2Proof.Machine
end

section
/-!
PROOF. O17, O18: a refused renewal of the lease (15_continuity.md R734 to R736), and the thermal trip (19_package_electrical.md R874).
-/

namespace Sys2Proof.Machine

/-- Settles O17: a renewal that does not match the lease is counted and fences the half. -/
theorem refusedRenewalFencesTheHalf : Obligations.RefusedRenewalFencesTheHalf := by
  unfold Obligations.RefusedRenewalFencesTheHalf
  intro s h e hheld he hlease
  have hmiss : ¬ (s.holder = some h && s.fld F.CNT_LEASE_STATUS_EPOCH = e) = true := by
    simp only [Bool.and_eq_true, decide_eq_true_eq]
    exact fun h => hlease.elim (· h.1) (· h.2)
  exact run_effect (by simpa [Instr.wf] using he) hheld (if_neg hmiss)

/-! ## Sensors -/

/-- The maximum of readings is at or above each of them. -/
theorem le_maxInt {d : Int} {l : List Int} (h : d ∈ l) : d ≤ maxInt l := by
  have hfold : ∀ (l : List Int) (a : Int), a ≤ l.foldl (fun a b => if a < b then b else a) a ∧
      ∀ x ∈ l, x ≤ l.foldl (fun a b => if a < b then b else a) a := by
    intro l
    induction l with
    | nil => exact fun a => ⟨Int.le_refl a, List.forall_mem_nil _⟩
    | cons b r ih =>
      intro a
      obtain ⟨hfirst, hrest⟩ := ih (if a < b then b else a)
      have ha : a ≤ if a < b then b else a := by split <;> omega
      have hb : b ≤ if a < b then b else a := by split <;> omega
      exact ⟨Int.le_trans ha hfirst, List.forall_mem_cons.2 ⟨Int.le_trans hb hfirst, hrest⟩⟩
  exact (hfold l _).2 d h

/-! ## What a change of the throttle leaves alone -/

section

variable {α : Type} {π : State → α} (hemit : ∀ (s : State) o, π (s.emit o) = π s)
include hemit

theorem State.throttled_frame (s : State) {f : State → State} (hf : π (f s) = π s) : π (s.throttled f) = π s := by
  unfold State.throttled
  dsimp only
  split
  · exact hf
  · exact (hemit _ _).trans hf

theorem State.beginThrottle_frame (hset : ∀ (s : State) f x k, π (s.setFld f x k) = π s) (s : State) (hard : Bool) :
    π (s.beginThrottle hard) = π s := by
  have hhalf : ∀ (s : State) (h : Nat), π (let u := if s.fld (thState h) = thNORMAL && s.hasCause h
      then (s.setFld (thState h) thTHROTTLE).setFld (thDuty h) 7 else s
      if hard && u.fld (thState h) = thTHROTTLE then u.setFld (thDuty h) 1 else u) = π s := by
    intro s h
    dsimp only
    split <;> split <;> simp only [hset]
  refine (State.throttled_frame hemit s.syncCauses ?_).trans ?_
  · exact (hhalf _ 1).trans (hhalf _ 0)
  · exact (hset ..).trans ((hset ..).trans (hset ..))

end

theorem State.noteTj_sensors (s : State) : s.noteTj.sensors = s.sensors := by
  unfold State.noteTj
  dsimp only
  split <;> rfl

theorem State.noteTj_thermtrip (s : State) : s.noteTj.thermtrip = s.thermtrip := by
  unfold State.noteTj
  dsimp only
  split <;> rfl

theorem State.noteCycle_sensors (s : State) : s.noteCycle.sensors = s.sensors := by
  unfold State.noteCycle
  dsimp only
  split
  · rfl
  · split <;> rfl

theorem State.noteCycle_thermtrip (s : State) : s.noteCycle.thermtrip = s.thermtrip := by
  unfold State.noteCycle
  dsimp only
  split
  · rfl
  · split <;> rfl

/-! ## The trip -/

/-- Both halves TRIPPED. -/
def State.tripped (s : State) : State := (s.setFld (thState 0) thTRIPPED).setFld (thState 1) thTRIPPED

theorem State.trip_of_hot {s : State} (hnot : s.thermtrip = false) (hhot : 1760 ≤ maxInt s.sensors) :
    s.trip = ({ s.throttled State.tripped with thermtrip := true } : State).emit (.pin "thermtrip_n" false) :=
  if_neg (by simpa [hnot] using hhot)

theorem State.fld_congr {s t : State} (h : t.regs = s.regs) (f : Fld) (k : Nat) : t.fld f k = s.fld f k := by
  simp only [State.fld, State.rd, h]

theorem State.throttled_regs (s : State) (f : State → State) : (s.throttled f).regs = (f s).regs := by
  unfold State.throttled
  dsimp only
  split <;> rfl

theorem State.fld_tripped {s : State} (hc : s.canonical = true) :
    s.tripped.fld (thState 0) = thTRIPPED ∧ s.tripped.fld (thState 1) = thTRIPPED := by
  have hc' : (s.setFld (thState 0) thTRIPPED).canonical = true := State.canonical_wr hc _ _ _
  refine ⟨?east, State.fld_setFld_same hc' (thState 1) thTRIPPED 0 (by decide)⟩
  case east =>
    exact (State.fld_setFld_field (f := thState 1) (g := thState 0) hc' thTRIPPED 0 rfl (by decide) (by decide)).trans
      (State.fld_setFld_same hc (thState 0) thTRIPPED 0 (by decide))

/-- Settles O18: what the reading notes and throttles leaves the sensors and thermtrip as they are, and the trip follows. -/
theorem hotSensorTrips : Obligations.HotSensorTrips := by
  unfold Obligations.HotSensorTrips
  intro s dies hheld hlen hnot ⟨d, hd, hhot⟩ hc
  let u : State := { s with
    sensors := dies, tempE := maxInt [dies.getD 0 0, dies.getD 2 0, dies.getD 3 0],
    tempW := maxInt [dies.getD 1 0, dies.getD 4 0, dies.getD 5 0] }
  obtain ⟨v, hv⟩ : ∃ v, v = u.noteTj.noteCycle.beginThrottle false := ⟨_, rfl⟩
  have hkeeps : Keeps s v :=
    hv ▸ State.beginThrottle_keeps _ _ (State.noteCycle_keeps _ (State.noteTj_keeps _ (Keeps.upd (.refl s))))
  have hsensors : v.sensors = dies := by
    rw [hv, State.beginThrottle_frame (π := State.sensors) (fun _ _ => rfl) (fun _ _ _ _ => rfl), State.noteCycle_sensors,
      State.noteTj_sensors]
  have hthermtrip : v.thermtrip = false := by
    rw [hv, State.beginThrottle_frame (π := State.thermtrip) (fun _ _ => rfl) (fun _ _ _ _ => rfl), State.noteCycle_thermtrip,
      State.noteTj_thermtrip]
    exact hnot
  have hexec : exec (.sensorRead dies) s = .next v.trip := run_effect (by simp [Instr.wf, hlen]) hheld (congrArg State.trip hv.symm)
  obtain ⟨heast, hwest⟩ := State.fld_tripped (hkeeps.canonical hc)
  have hregs : v.trip.regs = v.tripped.regs := by
    rw [State.trip_of_hot hthermtrip (hsensors ▸ Int.le_trans hhot (le_maxInt hd))]
    exact v.throttled_regs _
  refine ⟨v.trip, hexec, ?pin, (State.fld_congr hregs _ 0).trans heast, (State.fld_congr hregs _ 0).trans hwest, ?out⟩
  all_goals
    rw [State.trip_of_hot hthermtrip (hsensors ▸ Int.le_trans hhot (le_maxInt hd))]
    rfl

end Sys2Proof.Machine
end

section
/-!
PROOF. O19, O20: resets of the package and of a half, the bridge, and the end of memory training.
-/

namespace Sys2Proof.Machine

/-! ## A package held in cold reset -/

/-- Every command but those of cold_rst_n, the reference and perst_n waits for the clocks. -/
theorem exec_clocked (s : State) {c : Instr} (hrelease : ∀ x, c ≠ .coldResetRelease x) (hassert : c ≠ .coldResetAssert)
    (hloss : c ≠ .sysrefLoss) (hreturn : c ≠ .sysrefReturn) (hperst : ∀ e, c ≠ .perstAssert e)
    (hperst' : ∀ g w, c ≠ .perstRelease g w) : ∃ t, exec c s = run c (s.clocked t) := by
  cases c with
  | coldResetRelease x => exact absurd rfl (hrelease x)
  | coldResetAssert => exact absurd rfl hassert
  | sysrefLoss => exact absurd rfl hloss
  | sysrefReturn => exact absurd rfl hreturn
  | perstAssert e => exact absurd rfl (hperst e)
  | perstRelease g w => exact absurd rfl (hperst' g w)
  | _ => exact ⟨_, rfl⟩

/-! ## Writes of RST_CTRL -/

theorem State.writeRst_chip (s : State) (src : Source) :
    s.writeRst src (F.RST_CTRL_CONFIRM.put (F.RST_CTRL_CHIP.put 0 1) 0xA5) [] = s.warmReset (match src with
      | .net _ | .mbx => rcJXVM
      | _ => rcRST_CTRL) :=
  (if_neg (by decide)).trans (if_pos (by decide))

theorem State.writeRst_half (s : State) (src : Source) (h : Half) (env : Env) :
    s.writeRst src (F.RST_CTRL_CONFIRM.put ((match h with
      | .east => F.RST_CTRL_HALF_E
      | .west => F.RST_CTRL_HALF_W).put 0 1) 0xA5) env = s.halfReset h true env := by
  cases h with
  | east => exact (if_neg (by decide)).trans ((if_neg (by decide)).trans ((if_neg (by decide)).trans (if_pos (by decide))))
  | west =>
    have heast : (if F.RST_CTRL_HALF_E.get (F.RST_CTRL_CONFIRM.put (F.RST_CTRL_HALF_W.put 0 1) 0xA5) ≠ 0 then s.halfReset .east true env
        else s) = s := if_neg (by decide)
    exact (if_neg (by decide)).trans ((if_neg (by decide)).trans
      ((if_pos (by decide)).trans (congrArg (fun u : State => u.halfReset .west true env) heast)))

/-- Settles O19. -/
theorem resetCommandsComplete : Obligations.ResetCommandsComplete := by
  unfold Obligations.ResetCommandsComplete
  refine ⟨?release, ?assert, ?loss, ?refBack, ?held, ?chip, ?half, ?timeout⟩
  case release =>
    intro s straps hstraps hcold u
    have hwf : (Instr.coldResetRelease straps).wf = true := by simp [Instr.wf, hstraps]
    have hdriven : (!s.coldHeld) ≠ true := by simp [hcold]
    refine ⟨fun href => ?clocks, fun href => ?noClocks⟩
    case clocks =>
      exact (run_of_wf _ hwf).trans (congrArg _ ((if_neg hdriven).trans (if_neg (by simp [State.setFld, href]))))
    case noClocks => exact (run_of_wf _ hwf).trans (congrArg _ ((if_neg hdriven).trans (if_pos href)))
  case assert => exact fun s hcold => congrArg _ (if_neg (by simp [hcold]))
  case loss =>
    intro s hheld
    obtain ⟨hcold, href⟩ : s.coldHeld = false ∧ s.sysrefLost = false := by simpa [State.held] using hheld
    exact congrArg _ ((if_neg (by simp [href])).trans (if_neg (by simp [hcold])))
  case refBack => exact fun s hcold href => congrArg _ ((if_neg (by simp [href])).trans (if_neg (by simp [hcold])))
  case held =>
    intro s c hheld hwf hrelease hassert hloss hreturn hperst hperst'
    obtain ⟨t, ht⟩ := exec_clocked s hrelease hassert hloss hreturn hperst hperst'
    rw [ht, run_of_wf _ hwf, s.clocked_of_held t hheld]
  case chip => exact fun s src hheld hsrc hacc => gated_effect (by simpa [Instr.wf] using hsrc) hheld hacc (s.writeRst_chip src)
  case half =>
    exact fun s src h env hheld hsrc hacc => gated_effect (by simpa [Instr.wf] using hsrc) hheld hacc (s.writeRst_half src h env)
  case timeout => exact fun s h hheld hst => next_effect hheld (if_pos hst)

/-! ## The bridge and memory -/

/-- Settles O20. -/
theorem bridgeAndMemoryCommandsComplete : Obligations.BridgeAndMemoryCommandsComplete := by
  unfold Obligations.BridgeAndMemoryCommandsComplete
  refine ⟨?lane, ?second, ?both, ?east, ?west, ?trained, ?timeout⟩
  case lane =>
    intro s dir g hheld hdir hg hfree hup
    exact run_effect (by simp [Instr.wf, hdir, hg]) hheld (if_neg (by simp at hfree ⊢; simp [hfree, hup]))
  case second =>
    intro s dir g hheld hdir hg hused hup
    exact run_effect (by simp [Instr.wf, hdir, hg]) hheld (if_neg (by rw [hused, hup]; decide))
  case both => exact fun s env hheld => run_effect (i := .bridgeEndpointLost true true env) rfl hheld rfl
  case east =>
    exact fun s env hheld hup => run_effect (i := .bridgeEndpointLost true false env) rfl hheld (if_neg (by simp [hup]))
  case west =>
    exact fun s env hheld hup => run_effect (i := .bridgeEndpointLost false true env) rfl hheld (if_neg (by simp [hup]))
  case trained =>
    intro s h badCh badSt rate dimm same ew we hheld hch hst hlow hhigh hdimm hew hwe hstage hhalf u
    have hwf : (Instr.memoryTrained h badCh badSt rate dimm same ew we).wf = true := by
      simpa [Instr.wf, hch, hst, hlow, hhigh, hew, hwe] using hdimm
    refine ⟨fun hother => run_effect hwf hheld ((if_neg (not_not_intro hstage)).trans ?alone),
      fun hother h0 h1 => run_effect hwf hheld ((if_neg (not_not_intro hstage)).trans ?pair)⟩
    case alone =>
      simp only [hhalf, if_false, decide_false, Bool.false_or]
      exact if_pos (congrArg not hother)
    case pair =>
      simp only [hhalf, if_false, decide_false, Bool.false_or]
      exact (if_neg (by simpa using hother)).trans (if_neg (by simpa using ⟨h0, h1⟩))
  case timeout => exact fun s h hheld hst => next_effect hheld (if_neg (by simp [hst]))

end Sys2Proof.Machine
end

section
/-!
PROOF. O21, O22: range tables, fault queues and the migration queue of a context (02_address_translation.md).
-/

namespace Sys2Proof.Machine

/-! ## Range tables and fault queues -/

/-- R78: a checked table waits to become active. -/
theorem State.tblCommit_of_checkTable {s : State} {c k : Nat} {env : Env} {es : List (BitVec 256)}
    (hcheck : (s.beginCommit .xlt c).checkTable c env = (0, k, es)) :
    s.tblCommit c env = (s.beginCommit .xlt c).setCtx c { (s.beginCommit .xlt c).ctx c with next := some es } := by
  simp only [State.tblCommit, hcheck]

/-- Settles O21. -/
theorem tableAndFaultCommandsComplete : Obligations.TableAndFaultCommandsComplete := by
  unfold Obligations.TableAndFaultCommandsComplete
  refine ⟨?commit, ?activate, ?drained, ?visible, ?writeFail, ?deferred, ?head, ?resume, ?mgmt⟩
  case commit =>
    intro s src c env es k hheld hsrc hc hacc hcheck
    exact gated_effect (by simp [Instr.wf, hsrc, hc]) hheld hacc (State.tblCommit_of_checkTable hcheck)
  case activate =>
    intro s c t hheld hc hnext hmigs
    refine run_effect (by simp [Instr.wf, hc]) hheld ?_
    simp only [State.tblActivate, hnext]
    refine if_neg ?_
    cases hm : (s.ctx c).migs with
    | nil => exact Bool.false_ne_true
    | cons m rest => exact ne_true_of_eq_false (hmigs m (by simp [hm]))
  case drained =>
    intro s c hheld hc hidle
    refine run_effect (by simp [Instr.wf, hc]) hheld (if_neg ?_)
    simpa [List.contains_iff_mem] using hidle
  case visible =>
    intro s c k rest hheld hc hwrites hraised
    refine run_effect (by simp [Instr.wf]; omega) hheld ?_
    simp only [hwrites]
    exact if_neg (by simp [hraised, Nat.ne_of_lt hc])
  case writeFail =>
    intro s c slot back rest hheld hc hwrites
    refine run_effect (by simp [Instr.wf, hc]) hheld ?_
    simp only [hwrites, Bool.and_eq_true, decide_eq_true_eq, beq_iff_eq, and_assoc]
  case deferred =>
    intro s c k hheld hc hen hfull hold
    refine run_effect (by simp [Instr.wf, hc]) hheld ((if_pos (by simp [hen, hfull])).trans ?_)
    simp only [hold]
  case head =>
    intro s src p v hheld hsrc hp hacc hbound
    exact gated_effect (by simp [Instr.wf, hsrc, hp]) hheld hacc (if_pos hbound)
  case resume =>
    intro s src p tag k env hheld hsrc hp htag hacc htagged
    refine ⟨gated_effect (by simp [Instr.wf, hsrc, hp]) hheld hacc ?_, gated_effect (by simp [Instr.wf, hsrc, hp]) hheld hacc ?_⟩ <;>
      simp only [State.resumeTag, htagged]
  case mgmt =>
    intro s k env hheld hne b u htagged
    refine next_effect hheld ((if_neg hne).trans ?_)
    simp only [u, b] at htagged
    simp only [htagged, u, b]

/-! ## Migration -/

/-- Settles O22. -/
theorem migrationCommandsComplete : Obligations.MigrationCommandsComplete := by
  unfold Obligations.MigrationCommandsComplete
  refine ⟨?go, ?toDevice, ?toHost, ?drained, ?readFail, ?writeFail, ?done⟩
  case go =>
    intro s src p v hheld hsrc hp hacc hlen
    exact gated_effect (by simp [Instr.wf, hsrc, hp]) hheld hacc (if_neg (Nat.not_le.mpr hlen))
  case toDevice =>
    intro s c env m r l hheld hc hmigs hdir hstart hnext hpages
    refine run_effect (by simp [Instr.wf, hc]) hheld ?_
    simp only [hmigs, hpages]
    exact if_neg (by simp [hdir, hstart, hnext])
  case toHost =>
    intro s c m r l hheld hc hmigs hdir hstart hnext hpages
    refine run_effect (by simp [Instr.wf, hc]) hheld ?_
    simp only [hmigs, hpages]
    exact if_neg (by simp [hdir, hstart, hnext])
  case drained =>
    intro s c m r l hheld hc hmigs hdir hstart hmoved huse hpages
    refine run_effect (by simp [Instr.wf, hc]) hheld ?_
    simp only [hmigs, hpages]
    exact if_neg (by simp [hdir, hstart, hmoved, huse])
  case readFail =>
    intro s c k env m r hheld hc hmigs hstart hdir hk hk'
    refine run_effect (by simp [Instr.wf, hc, mgHOST_READ]) hheld ?_
    simp only [hmigs]
    exact (if_neg (by simp [hstart, hdir, hk, mgHOST_READ, mgHOST_WRITE])).trans (by simp only [hdir, if_false, Bool.false_eq_true])
  case writeFail =>
    intro s c k env m r hheld hc hmigs hstart hdir hk
    refine run_effect (by simp [Instr.wf, hc, mgHOST_WRITE]) hheld ?_
    simp only [hmigs]
    exact (if_neg (by simp [hstart, hdir, hk, mgHOST_READ, mgHOST_WRITE])).trans (by simp only [hdir, if_true])
  case done =>
    intro s c env m r hheld hc hmigs hstart hmoved hresume
    have hwf : (Instr.migCommandDone c env).wf = true := by simp [Instr.wf, hc]
    refine ⟨fun hdir => run_effect hwf hheld ?_, fun hdir => run_effect hwf hheld ?_⟩ <;>
      (simp only [hmigs]; exact (if_neg (by simp [hstart, hmoved])).trans (by simp [hdir, hresume]))

end Sys2Proof.Machine
end

section
/-!
PROOF. O23, O24: the drives of tier 2, and the upkeep of memory (03_tiers_and_tiles.md; 14_integrity.md R656 to R660).
-/

namespace Sys2Proof.Machine

/-! ## Drives -/

/-- R135: what a drive must offer to become READY. -/
theorem State.driveOk_of {s : State} {d n : Nat} {i : DriveId} (hversion : 0x20000 ≤ i.version) (hnvm : i.nvm = true)
    (hlba : i.lbaBytes = 4096) (hmeta : i.metadata = 0) (hpairs : 16 ≤ n) (hdepth : 256 ≤ i.depth)
    (hwidth : s.fld F.TIER_N_STATE_LINK_WIDTH d = 4 ∨ s.fld F.TIER_N_STATE_LINK_WIDTH d = 8)
    (hgen : 4 ≤ s.fld F.TIER_N_STATE_LINK_GEN d) (hgen' : s.fld F.TIER_N_STATE_LINK_GEN d ≤ 6) : s.driveOk d n i = true := by
  have hgens : [4, 5, 6].contains (s.fld F.TIER_N_STATE_LINK_GEN d) = true := by
    simp only [List.contains_iff_mem, List.mem_cons, List.not_mem_nil, or_false]
    omega
  have hwidths : [4, 8].contains (s.fld F.TIER_N_STATE_LINK_WIDTH d) = true := by simpa [List.contains_iff_mem] using hwidth
  rw [State.driveOk, hgens, hwidths]
  simp [hversion, hnvm, hlba, hmeta, hpairs, hdepth]

/-- Settles O23. -/
theorem driveCommandsComplete : Obligations.DriveCommandsComplete := by
  unfold Obligations.DriveCommandsComplete
  refine ⟨?linkUp, ?init, ?cmdTimeout, ?recovered, ?control, ?down, ?smart⟩
  case linkUp => exact fun s d width gen hheld hd hst => run_effect (by simp [Instr.wf, hd]) hheld (if_pos hst)
  case init =>
    intro s d n i hheld hd hst
    refine ⟨?ready, fun hok => ?failed, ?none, ?timeout⟩
    case ready =>
      rintro ⟨hversion, hnvm, hlba, hmeta, hpairs, hdepth, hwidth, hgen, hgen'⟩
      exact run_effect (by simp [Instr.wf, hd]) hheld ((if_pos hst).trans
        (if_pos (State.driveOk_of hversion hnvm hlba hmeta hpairs hdepth hwidth hgen hgen')))
    case failed =>
      exact run_effect (by simp [Instr.wf, hd]) hheld ((if_pos hst).trans (if_neg (by simp [hok])))
    case none => exact run_effect (by simp [Instr.wf, hd]) hheld (if_pos hst)
    case timeout => exact run_effect (by simp [Instr.wf, hd]) hheld (if_pos hst)
  case cmdTimeout => exact fun s d hheld hd hst => run_effect (by simp [Instr.wf, hd]) hheld (if_pos hst)
  case recovered =>
    intro s d n i hheld hd hst recent u
    refine ⟨run_effect (by simp [Instr.wf, hd]) hheld ((if_pos hst).trans ?_),
      run_effect (by simp [Instr.wf, hd]) hheld (if_pos hst)⟩
    simp only [Bool.and_eq_true, decide_eq_true_eq, u, recent]
  case control =>
    intro s src d hheld hsrc hd hacc
    exact ⟨fun hst => gated_effect (by simp [Instr.wf, hsrc, hd]) hheld hacc (if_pos hst),
      fun hst => gated_effect (by simp [Instr.wf, hsrc, hd]) hheld hacc (if_pos hst),
      fun hst => gated_effect (by simp [Instr.wf, hsrc, hd]) hheld hacc (if_pos hst)⟩
  case down => exact fun s d hheld hd => run_effect (by simp [Instr.wf, hd]) hheld rfl
  case smart => exact fun s d warn used temp hheld hd hst => run_effect (by simp [Instr.wf, hd]) hheld (if_pos hst)

/-! ## Codes -/

theorem EccCode.decode_of_clean {c : EccCode} {err : List Byte} (d : List Byte) (p : Bool) (hclean : c.wrong err = []) :
    c.decode d p err = .ok [] := if_pos (by simp [hclean])

theorem EccCode.wrong_nil (c : EccCode) : c.wrong [] = [] := by simp [EccCode.wrong]

/-- R657: wrong symbols up to the limit are corrected. -/
theorem EccCode.decode_of_correctable {c : EccCode} {err : List Byte} (d : List Byte) (hne : c.wrong err ≠ [])
    (hlimit : (c.wrong err).length ≤ c.limit) : c.decode d false err = .ok (c.wrong err) :=
  (if_neg (by simp [hne])).trans (if_pos (by simp [hlimit]))

section

variable {c : EccCode} {d err : List Byte} {p : Bool} (hne : c.wrong err ≠ []) (hbeyond : p = true ∨ c.limit < (c.wrong err).length)
include hne hbeyond

/-- A word with more wrong symbols than the limit, or a poison word with any, decodes as the code has it. -/
theorem EccCode.decode_of_uncorrectable (hnone : Config.beyondLimit c.symbols d p err = none) : c.decode d p err = .bad := by
  refine (if_neg (by simp [hne])).trans ((if_neg ?_).trans (by simp only [hnone]))
  rcases hbeyond with rfl | hlen <;> simp [*]

theorem EccCode.decode_of_miscorrected {x : List Byte} {at_ : List Nat}
    (hsome : Config.beyondLimit c.symbols d p err = some (x, at_)) :
    c.decode d p err = .other (slice x 0 c.data) (at_.filter (· < c.symbols)) := by
  refine (if_neg (by simp [hne])).trans ((if_neg ?_).trans (by simp only [hsome]))
  rcases hbeyond with rfl | hlen <;> simp [*]

end

/-! ## The scrubber -/

/-- A line that the scrubber takes from tier 0 begins there. -/
theorem lineStart_lt_t0Size {off : Nat} (h : off < t0Size) : 64 * (off / 64) < t0Size := by omega

/-- A line of tier 1 lies past tier 0, and so does every byte of it. -/
theorem not_lt_t0Size_of_within {s : State} {off : Nat} (h : within (64 * (off / 64)) 64 t1Base s.t1Size = true) :
    ¬ off < t0Size ∧ ¬ 64 * (off / 64) < t0Size := by
  simp only [within, Bool.and_eq_true, decide_eq_true_eq] at h
  obtain ⟨hbase, -⟩ := h
  have hlt : t0Size < t1Base := by decide
  omega

/-- A codeword without wrong symbols leaves the state as it is. -/
theorem State.cellRead_of_no_errors (s : State) (event op off : Nat) : s.cellRead event op off [] = s := by
  unfold State.cellRead
  extract_lets line a c
  split
  · rfl
  · rw [c.decode_of_clean _ _ c.wrong_nil]
    rfl

/-! ### A codeword of memory that is up -/

section

variable {s : State} {off : Nat} {c : EccCode} {err : List Byte} {w : List Nat}
  (hcode : (if 64 * (off / 64) < t0Size then codeT0 else codeT1) = c)
  (hpop : (decide (64 * (off / 64) < t0Size) || within (64 * (off / 64)) 64 t1Base s.t1Size) = true)
  (hup : s.halfDown (s.homeHalf (64 * (off / 64))) = false) (hgood : s.memFailed (64 * (off / 64)) = false)
include hcode hpop hup hgood

/-- R657: it is counted as corrected. -/
theorem State.cellRead_of_ok (event op : Nat) (hw : w ≠ [])
    (hdecode : c.decode (s.mem.bytes (64 * (off / 64)) 64) (s.mem.poisoned (off / 64)) err = .ok w) :
    s.cellRead event op off err = s.corrected (64 * (off / 64)) w := by
  simp only [State.cellRead, hpop, hup, hgood, hcode, hdecode, Bool.not_true, Bool.or_self, Bool.false_eq_true, if_false]
  exact if_neg (by simp [hw])

theorem State.cellRead_of_other (event op : Nat) {d : List Byte}
    (hdecode : c.decode (s.mem.bytes (64 * (off / 64)) 64) (s.mem.poisoned (off / 64)) err = .other d w) :
    s.cellRead event op off err = (s.storeLine (off / 64) d).corrected (64 * (off / 64)) w := by
  simp only [State.cellRead, hpop, hup, hgood, hcode, hdecode]
  rfl

/-- R659: it is rewritten as the poison word, with a record. -/
theorem State.cellRead_of_bad (op : Nat)
    (hdecode : c.decode (s.mem.bytes (64 * (off / 64)) 64) (s.mem.poisoned (off / 64)) err = .bad) :
    s.cellRead 2 op off err =
      let u := ((s.poisonLine (off / 64)).bump F.TIER_UNCORR_COUNT).lifeAdd 0x5001 6 1
      u.record { cls := ecTIER, event := 2, op := op, half := some (u.homeHalf (64 * (off / 64))),
                 inst := if 64 * (off / 64) < t0Size then (t0Place (64 * (off / 64))).1 else 0x10 + (u.t1Place (64 * (off / 64))).1,
                 address := BitVec.ofNat 64 (u.node * 2 ^ 48 + 64 * (off / 64)), syndrome := Config.syndrome c.symbols err } := by
  simp only [State.cellRead, hpop, hup, hgood, hcode, hdecode]
  rfl

end

/-- Settles O24. -/
theorem memoryUpkeepCommandsComplete : Obligations.MemoryUpkeepCommandsComplete := by
  unfold Obligations.MemoryUpkeepCommandsComplete
  refine ⟨?stage, ?tier1, ?tier0, ?clean, ?corrected, ?beyond, ?hour⟩
  case stage =>
    intro s src hheld hsrc hacc
    exact ⟨fun hok => gated_effect (by simp [Instr.wf, hsrc]) hheld hacc (if_neg (by simp [hok])),
      fun hbad => gated_effect (by simp [Instr.wf, hsrc]) hheld hacc (if_pos hbad)⟩
  case tier1 =>
    intro s k hheld hlow hhigh hnot
    have hk : ¬ k < 16 := by omega
    refine run_effect (by simp [Instr.wf, hlow, hhigh]) hheld ?_
    simp only [hk, beq_iff_eq, decide_false, Bool.false_and]
    exact (if_neg hnot).trans (if_neg Bool.false_ne_true)
  case tier0 =>
    intro s k hheld hk8 hnot u
    have hk : k < 16 := by omega
    refine run_effect (by simp [Instr.wf, hk8]) hheld ?_
    simp only [hk, beq_iff_eq, decide_true, Bool.true_and]
    refine (if_neg hnot).trans ?_
    cases hgone : u.stageGone (ofHalfNum (k / 4))
    · exact if_pos (congrArg not hgone)
    · exact if_neg (ne_true_of_eq_false (congrArg not hgone))
  case clean =>
    intro s off hheld hoff
    exact next_effect hheld (((State.cellRead_of_no_errors _ _ _ _)).trans (if_pos hoff))
  case corrected =>
    intro s off err hheld hoff hup hgood hclean hne hlimit
    have ha := lineStart_lt_t0Size hoff
    have hdecode := EccCode.decode_of_correctable (s.mem.bytes (64 * (off / 64)) 64) hne hlimit
    refine next_effect hheld ((congrArg (fun u : State => u.cellRead 2 7 off err) (if_pos hoff)).trans ?_)
    exact State.cellRead_of_ok (s := { s with scrub0 := (64 * (off / 64) + 64) % t0Size }) (if_pos ha) (by simp [ha]) hup hgood
      2 7 hne ((congrArg (codeT0.decode _ · err) hclean).trans hdecode)
  case beyond =>
    intro s off err hheld hin hup hgood hne hbeyond v u
    obtain ⟨hoff, ha⟩ := not_lt_t0Size_of_within hin
    have hpop : (decide (64 * (off / 64) < t0Size) || within (64 * (off / 64)) 64 t1Base v.t1Size) = true :=
      (congrArg (_ || ·) hin).trans (Bool.or_true _)
    refine next_effect hheld ((congrArg (fun u : State => u.cellRead 2 7 off err) (if_neg hoff)).trans ?_)
    cases hresult : Config.beyondLimit 80 (s.mem.bytes (64 * (off / 64)) 64) (s.mem.poisoned (off / 64)) err with
    | none =>
      have hdecode := EccCode.decode_of_uncorrectable (c := codeT1) hne hbeyond hresult
      exact (State.cellRead_of_bad (s := v) (if_neg ha) hpop hup hgood 7 hdecode).trans
        (by simp only [if_neg ha]; rfl)
    | some r =>
      have hdecode := EccCode.decode_of_miscorrected (c := codeT1) hne hbeyond hresult
      exact State.cellRead_of_other (s := v) (if_neg ha) hpop hup hgood 2 7 hdecode
  case hour => exact fun s hheld => next_effect hheld rfl

end Sys2Proof.Machine
end

section
/-!
PROOF. O25, O26: tile moves (03_tiers_and_tiles.md R150 to R166), and the commands that load, start, park and unload a program
(04_layer_cursor.md, 06_decode_arrays.md).
-/

namespace Sys2Proof.Machine

/-! ## Tile moves -/

/-- R154: the descriptor that comes first starts on the channel chosen for it. -/
theorem State.startMove_of_pick {s : State} {op k ch c : Nat} {w : WorkSrc} {d : Desc} (env : Env)
    (hwaiting : s.waitingMoves[k]? = some (c, w, d)) (hpick : s.pickMove op = some (k, ch)) :
    s.startMove op [] env = (({ s with waitingMoves := s.waitingMoves.eraseIdx k } : State).setChan ch
      { phase := .reading, desc := d, ctx := c, src := w }).presentMove ch env := by
  simp only [State.startMove, List.isEmpty_nil, if_true, hpick, hwaiting]

theorem keyFail_nil : keyFail [] = none := rfl

/-- Settles O25. -/
theorem tileMoveCommandsComplete : Obligations.TileMoveCommandsComplete := by
  unfold Obligations.TileMoveCommandsComplete
  refine ⟨?start, ?nvme, ?buffered, ?fetched, ?acked, ?body, ?header, ?inbound, ?record⟩
  case start =>
    intro s k ch c w d env hheld hwaiting
    exact ⟨fun hpick => next_effect hheld (State.startMove_of_pick env hwaiting hpick),
      fun hpick => next_effect hheld (State.startMove_of_pick env hwaiting hpick)⟩
  case nvme =>
    intro s ch env hheld hch hphase hop
    dsimp only
    intro herr
    refine run_effect (by simp [Instr.wf, hch]) hheld ?_
    simp only [hphase, if_true]
    refine (if_neg (by simp)).trans ((if_neg (by simp)).trans ((if_neg ?_).trans (if_pos hop)))
    simp [herr]
  case buffered =>
    intro s ch env hheld hch
    dsimp only
    intro hphase hpoison hkind hcrc
    refine run_effect (by simp [Instr.wf, hch]) hheld ((if_neg (by simp [hphase])).trans ?_)
    have hbuf : (decide (((s.codewords 4 env).chan ch).desc.srcKind = ekT2) ||
      decide (((s.codewords 4 env).chan ch).desc.srcKind = ekTSP)) = true := by simpa using hkind
    simp only [hbuf, hpoison, if_true]
    refine (if_neg Bool.false_ne_true).trans (if_neg ?_)
    simpa using fun hop _ => hcrc hop
  case fetched =>
    intro s ch env hheld hch
    dsimp only
    intro hphase hop ht2 htsp hrefused herr
    refine run_effect (by simp [Instr.wf, hch]) hheld ((if_neg (by simp [hphase])).trans ?_)
    have hbuf : (decide (((s.codewords 4 env).chan ch).desc.srcKind = ekT2) ||
      decide (((s.codewords 4 env).chan ch).desc.srcKind = ekTSP)) = false := by simp [ht2, htsp]
    have hraw : ((s.codewords 4 env).chan ch).desc.op ≠ opCopyTile := by simp [hop, opCopyRaw, opCopyTile]
    simp only [hbuf, Bool.false_eq_true, if_false, if_pos hop, hrefused, herr, hraw, decide_false, Bool.false_and, Bool.or_false]
  case acked =>
    intro s ch hheld hch hphase hidle hfails hkeyed
    refine run_effect (by simp [Instr.wf, hch]) hheld ((if_neg (by simp [hphase, hidle])).trans ?_)
    simp only [hfails, keyFail_nil]
    exact (if_neg (by simp)).trans (if_neg (by simp [hkeyed]))
  case body => exact fun s ch hheld hch hphase => run_effect (by simp [Instr.wf, hch]) hheld (if_neg (by simp [hphase]))
  case header =>
    intro s ch hheld hch
    refine ⟨fun hphase => run_effect (by simp [Instr.wf, hch]) hheld ((if_pos hphase).trans (if_pos rfl)), fun hphase hidle hfails => ?_⟩
    refine run_effect (by simp [Instr.wf, hch]) hheld ((if_neg (by simp [hphase])).trans ((if_neg (by simp [hphase, hidle])).trans ?_))
    simp only [hfails, keyFail_nil]
    exact if_neg (by simp)
  case inbound =>
    intro s ch q rest hheld hch hphase t htiles hext hhdr
    refine run_effect (by simp [Instr.wf, hch]) hheld ((if_neg (by simp [hphase])).trans ?_)
    simp only [t] at htiles
    simp only [htiles]
    refine if_neg ?_
    rcases hhdr with hbad | hlen
    · simp [hext, hbad]
    · simp [hext, hlen]
  case record =>
    intro s p q r rest hheld hp hq hrecords hirq
    refine run_effect (by simp [Instr.wf, hp, hq]) hheld ?_
    have hup : (r.irq && !(s.queue p q).raised) = false := by rcases hirq with h | h <;> simp [h]
    simp only [hrecords, hup, if_true, Bool.or_false]
    rfl

/-! ## Programs -/

/-- R281: a command that names a program of its partition in a state that has it is carried out. -/
theorem State.daCommand_of {s : State} {n part : Nat} {states : List Nat} {f : State → State} (hpart : part < 128)
    (hstate : s.pstate n ∈ states) (howner : (s.prog n).part = part) : s.daCommand n part states f = f s :=
  (if_neg (by simp; omega)).trans ((if_neg (by simpa [List.contains_iff_mem] using hstate)).trans (if_neg (not_not_intro howner)))

section

variable {s : State} (n part : Nat) (hidle : s.flag F.DA_CMD_STATUS_BUSY = false)
include hidle

/-! R285: an operation is carried out while DA_CMD is not BUSY. -/

theorem State.daCmd_load (env : Env) : s.daCmd 1 n part 0 env = (s.load n part env, stOK) := by simp [State.daCmd, hidle]

theorem State.daCmd_start : s.daCmd 2 n part 0 [] = (s.daStart n part, stOK) := by simp [State.daCmd, hidle]

theorem State.daCmd_park : s.daCmd 3 n part 0 [] = (s.daPark n part, stOK) := by simp [State.daCmd, hidle]

theorem State.daCmd_unload : s.daCmd 4 n part 0 [] = (s.daUnload n part, stOK) := by simp [State.daCmd, hidle]

theorem State.daCmd_reserved {op : Nat} (hop : op = 0 ∨ 7 ≤ op) : s.daCmd op 0 0 0 [] = (s.daResult rsENCODING, stOK) := by
  have hnot : op ≠ 1 ∧ op ≠ 2 ∧ op ≠ 3 ∧ op ≠ 4 ∧ op ≠ 5 ∧ op ≠ 6 := by omega
  exact (if_neg (by simp [hidle])).trans (by simp only [hnot, if_false])

end

/-- Settles O26. -/
theorem programCommandsComplete : Obligations.ProgramCommandsComplete := by
  unfold Obligations.ProgramCommandsComplete
  refine ⟨?load, ?command, ?reserved, ?moved, ?released⟩
  case load =>
    intro s t u v w src n part env d ls raw hs hheld hsrc hn hpart hacc ht hidle hempty hpeek hdesc hlayers hlead hraw hhampers
    have hpart' : part < 256 := by omega
    have hown : ¬ part = 0xFF := by omega
    have hfree : (decide (0x80 ≤ part) && decide (part ≤ 0xFE)) = false := by simp; omega
    have hload : t.load n part env = ((w.loadStatus n 0 0 0).install n part (t.fld F.DA_CMD_ARG_VA * 64) d
        ((hs.zip ls).map fun x => ({ hamper := x.1, phases := x.2.2.2 } : LayerD))).daResult rsOK := by
      simp only [State.load, if_neg hown, hfree, Bool.false_eq_true, if_false, hempty, ne_eq, not_true_eq_false, hpeek, hdesc, hlayers,
        Nat.not_le.mpr hlead, hraw, hhampers]
    subst ht
    exact guarded_effect (by simp [Instr.wf, hsrc, hn, hpart']) hheld hacc ((State.daCmd_load n part hidle env).trans
      (congrArg (·, stOK) hload))
  case command =>
    intro s src n part hheld hsrc hn hpart hacc hidle howner
    have hpart' : part < 256 := by omega
    refine ⟨fun hstate hown => ?start, fun hstate => ?park, fun hstate => ?unload⟩
    case start =>
      have hstart : s.daStart n part = (s.startProg n).daResult rsOK := State.daCommand_of hpart (by rw [hown]; simp [hstate]) howner
      exact guarded_effect (by simp [Instr.wf, hsrc, hn, hpart']) hheld hacc
        ((State.daCmd_start n part hidle).trans (congrArg (·, stOK) hstart))
    case park =>
      have hpark : s.daPark n part = (s.setProg n { s.prog n with parkReq := true }).daResult rsOK :=
        State.daCommand_of hpart (by simpa using hstate) howner
      exact guarded_effect (by simp [Instr.wf, hsrc, hn, hpart']) hheld hacc
        ((State.daCmd_park n part hidle).trans (congrArg (·, stOK) hpark))
    case unload =>
      have hunload : s.daUnload n part = (s.unloadProg n).daResult rsOK := State.daCommand_of hpart (by simpa using hstate) howner
      exact guarded_effect (by simp [Instr.wf, hsrc, hn, hpart']) hheld hacc
        ((State.daCmd_unload n part hidle).trans (congrArg (·, stOK) hunload))
  case reserved =>
    exact fun s src op hheld hsrc hop hlt hacc hidle =>
      guarded_effect (by simp [Instr.wf, hsrc, hop, hlt]) hheld hacc (State.daCmd_reserved hidle hop)
  case moved =>
    intro s e num status rest hheld hdone
    refine next_effect hheld ?_
    simp only [hdone]
  case released => exact fun s hheld => next_effect hheld rfl

end Sys2Proof.Machine
end

section
/-!
PROOF. O28 to O31: the cursor, runs on the decode arrays, their service, and the Taster (04_layer_cursor.md, 06_decode_arrays.md,
14_integrity.md).
-/

namespace Sys2Proof.Machine

/-! ## What the issue of tiles leaves of the cursor -/

theorem State.curStep_foldl {n : Nat} {α : Type} {f : State → α → State} (hf : ∀ s a, (f s a).curStep n = s.curStep n) (l : List α)
    (s : State) : (l.foldl f s).curStep n = s.curStep n := by
  induction l generalizing s with
  | nil => rfl
  | cons a l ih => exact (ih (f s a)).trans (hf s a)

section

variable {n : Nat} (hn : n < 64)
include hn

theorem State.curStep_setFld (s : State) {f : Fld} {k : Nat} (x : Nat) (hk : instOk k = true) (hf : f.reg ≠ .CUR_VALUE) :
    (s.setFld f x k).curStep n = s.curStep n :=
  State.fld_setFld_other s x hk (by simp [instOk]; omega) fun h => hf (congrArg Prod.fst h).symm

theorem State.curStep_issueMove (s : State) (t : StageTile) : (s.issueMove t).curStep n = s.curStep n := by
  unfold State.issueMove
  split
  · rfl
  · next off _ =>
    have hfree : ∀ u : State, u.syncFree.curStep n = u.curStep n := fun u =>
      (State.curStep_setFld hn _ _ (by decide) (by decide)).trans (State.curStep_setFld hn _ _ (by decide) (by decide))
    exact (hfree _).trans (State.curStep_setFld hn _ _ (by decide) (by decide))

theorem State.curStep_useEntry (s : State) (r : TileRef) (e : HEntry) (h : Nat) (fol : Bool) :
    (s.useEntry r e h fol).curStep n = s.curStep n := by
  unfold State.useEntry
  extract_lets moved home part
  split
  · split <;> rfl
  · have hbump : ∀ (b : Bool) (u : State), (if b then u.bump F.PRF_REDIRECT_CNT_COUNT else u).curStep n = u.curStep n := fun b u => by
      cases b with
      | false => rfl
      | true => exact State.curStep_setFld hn _ _ (by decide) (by decide)
    exact (State.curStep_issueMove hn _ _).trans (hbump _ _)

theorem State.curStep_issueEntry (s : State) (m l k step : Nat) : (s.issueEntry m l k step).curStep n = s.curStep n := by
  unfold State.issueEntry
  split
  · exact State.curStep_foldl (fun s h => State.curStep_useEntry hn s _ _ h _) _ s
  · rfl

/-- The tiles of one issue are all issued for the step at which it began. -/
theorem State.foldl_issueEntry_curStep (l : Nat) (ks : List Nat) (s : State) {c : Nat} (hc : s.curStep n = c) :
    ks.foldl (fun u k => u.issueEntry n l k (u.curStep n)) s = ks.foldl (fun u k => u.issueEntry n l k c) s := by
  induction ks generalizing s with
  | nil => rfl
  | cons k ks ih =>
    simp only [List.foldl_cons, hc]
    exact ih _ ((State.curStep_issueEntry hn s n l k c).trans hc)

end

/-- Settles O28. -/
theorem cursorCommandsComplete : Obligations.CursorCommandsComplete := by
  unfold Obligations.CursorCommandsComplete
  refine ⟨?phase, ?spec⟩
  case phase =>
    exact fun s n env hheld hn hdone hissue => run_effect (by simp [Instr.wf, hn]) hheld (if_pos (by simp [hdone, hissue]))
  case spec =>
    intro s n l h d guess rest hheld hn hguess hspec hlive hissue hrouter hroute hfree
    refine run_effect (by simpa [Instr.wf, hn] using hguess) hheld ?_
    simp only [hspec, hfree, hroute, Option.getD_some]
    exact (if_neg (by simp [hlive, hissue, hrouter])).trans (State.foldl_issueEntry_curStep hn l _ _ rfl)

/-! ## Runs on the decode arrays -/

/-- R315, R316: a run that ends with results gives them to the combiner of its item's home half. -/
theorem State.runEnds_of {s : State} {a n num : Nat} {arb : Bool} {run r : RunRes} {it : Item} {hw : RunHw} {f u : State}
    (hjob : (s.arr a).job = .item n num arb) (hcur : (s.arr a).cur = some run) (hbusy : s.astate a = arBUSY)
    (hidle : s.awaits (.kv a) = false) (hfails : (s.takeFails (.kv a)).2 = []) (hf : (s.takeFails (.kv a)).1 = f)
    (hr : run.seenBy hw (f.seenAt a (((f.item n num).map fun it => (f.itemTile n it).1).getD 0)) = r)
    (hu : (((f.wrap F.DA_ITEMS_DONE_COUNT).wrap F.DA_ARR_ITEMS_COUNT a).wrap F.DA_PROG_ITEMS_COUNT n).releaseArray a = u)
    (hrfail : r.fail = 0) (hrwait : r.wait = false) (hitem : u.item n num = some it) :
    s.runEnds a hw arb = (((if it.home = a / 128 ∨ it.home = 2 then u.result n num r
      else { u.cross (ofHalfNum (a / 128)) (ofHalfNum it.home) (r.partialBytes (u.curDesc n)) with
        bridge := u.bridge ++ [(n, num, r)] }).retryWrites a).evalProg n).drainHalt n := by
  simp only [State.runEnds, hjob, hcur]
  refine (if_neg (by simp [hbusy, hidle])).trans ?_
  simp only [hfails, hf, List.isEmpty_nil, if_true, hr, hrfail, hrwait, decide_true, Bool.not_false, Bool.and_self, hu, hitem,
    ne_eq, not_true_eq_false, decide_false, Bool.or_false, Bool.or_eq_true, decide_eq_true_eq]

/-- Settles O29. -/
theorem arrayRunCommandsComplete : Obligations.ArrayRunCommandsComplete := by
  unfold Obligations.ArrayRunCommandsComplete
  refine ⟨?grant, ?ends, ?partials, ?overtime, ?uncompared, ?recompute⟩
  case grant =>
    intro s a n it env hheld ha
    dsimp only
    intro hpool htrip hreset hpool'
    have hwf : (Instr.arrayGrant a env).wf = true := by simp [Instr.wf, ha]
    have hentry := hpool'
    refine ⟨fun harb => run_effect hwf hheld ((if_neg (by simp [hpool, htrip, hreset])).trans ((if_neg (not_not_intro hpool')).trans ?_)),
      fun hnone hitem => run_effect hwf hheld ((if_neg (by simp [hpool, htrip, hreset])).trans ((if_neg (not_not_intro hpool')).trans ?_))⟩
    · simp only [harb]
    · simp only [hnone, hitem]
  case ends =>
    intro s a n num arb run it hw hheld ha hjob hcur hbusy hidle hfails hfail hwait
    dsimp only
    intro hrfail hrwait hitem
    constructor
    · rintro rfl
      exact run_effect (by simp [Instr.wf, ha]) hheld
        (State.runEnds_of hjob hcur hbusy hidle hfails rfl rfl rfl hrfail hrwait hitem)
    · rintro rfl
      exact run_effect (by simp [Instr.wf, ha]) hheld
        (State.runEnds_of hjob hcur hbusy hidle hfails rfl rfl rfl hrfail hrwait hitem)
  case partials =>
    intro s h x hheld hfind
    refine next_effect hheld ?_
    simp only [hfind]
  case overtime =>
    intro s a b n num it env hheld ha hjob hitem hbusy hdup hclosed hruns hlive hissue htrip harray
    refine run_effect (by simp [Instr.wf, ha]) hheld ?_
    simp only [hjob, hitem, harray]
    exact if_neg (by simp [hbusy, hdup, hclosed, hruns, hlive, hissue, htrip])
  case uncompared =>
    intro s a n num arb it r hheld ha hjob hitem hdup hclosed htaken htrig
    refine run_effect (by simp [Instr.wf, ha]) hheld ?_
    simp only [hjob, hitem, htaken, Option.map_some, Option.getD_some]
    exact if_neg (by simp [hdup, hclosed, htrig])
  case recompute =>
    intro s n it hheld hfind
    dsimp only
    refine ⟨fun hop => next_effect hheld ?_, fun u hop hrec => next_effect hheld ?_, fun u hop hrec => next_effect hheld ?_⟩
    · simp only [hfind, if_pos hop]
      exact if_neg Bool.false_ne_true
    · simp only [hfind, if_neg hop, hrec]
      exact if_pos trivial
    · simp only [hfind, if_neg hop, hrec]
      exact if_neg Bool.false_ne_true

/-! ## Service -/

/-- Settles O30. -/
theorem arrayServiceCommandsComplete : Obligations.ArrayServiceCommandsComplete := by
  unfold Obligations.ArrayServiceCommandsComplete
  intro s src a hheld hsrc ha hacc
  exact ⟨fun hst => gated_effect (by simp [Instr.wf, hsrc, ha]) hheld hacc (if_pos (by simpa using hst)),
    fun hst hup => gated_effect (by simp [Instr.wf, hsrc, ha]) hheld hacc (if_pos (by simp [hst, hup])),
    fun hst => gated_effect (by simp [Instr.wf, hsrc, ha]) hheld hacc (if_pos hst)⟩

/-! ## The Taster -/

theorem slotCharged_zero (a : Nat) (t : TestSt) : slotCharged a t 0 = [] := by simp [slotCharged]

theorem slotCharged_one (a : Nat) (t : TestSt) : slotCharged a t 1 = [a] := by simp [slotCharged]

theorem State.slotMismatch_nil (s : State) (t : TestSt) : s.slotMismatch t [] = s := if_pos rfl

/-- Settles O31. -/
theorem tasterCommandsComplete : Obligations.TasterCommandsComplete := by
  unfold Obligations.TasterCommandsComplete
  refine ⟨?idle, ?slot, ?retest, ?timeout, ?sweep, ?stage⟩
  case idle => exact fun s hheld hrun => next_effect hheld (if_neg (by simp [hrun]))
  case slot =>
    intro s a res t hheld ha hres htest hretest
    refine run_effect (by simp [Instr.wf, ha, hres]) hheld ?_
    simp only [htest]
    exact if_neg (by simp [hretest])
  case retest =>
    intro s a e w t hheld ha htest hretest hentry
    have hnot : ¬ (!t.retest) = true := by simp [hretest]
    refine ⟨run_effect (by simp [Instr.wf, ha]) hheld ?_, run_effect (by simp [Instr.wf, ha]) hheld ?_⟩
    · simp only [htest, hentry, slotCharged_zero, State.slotMismatch_nil, List.filter_nil, List.foldl_nil, if_neg hnot]
      exact if_neg (by simp)
    · have hself : ([a].filter fun x => decide (x ≠ a)) = [] := by simp
      simp only [htest, hentry, slotCharged_one, hself, List.foldl_nil, if_neg hnot]
      exact if_pos (by simp)
  case timeout =>
    intro s a e w hheld ha hentry htest
    refine run_effect (by simp [Instr.wf, ha]) hheld ?_
    simp only [hentry, htest]
    exact if_neg (by simp)
  case sweep =>
    exact fun s src v hheld hsrc hacc hidle => guarded_effect (by simp [Instr.wf, hsrc]) hheld hacc (if_neg (by simp [hidle]))
  case stage =>
    intro s k w hheld hw
    refine ⟨fun hlt => run_effect (i := .sweepStageEnd k []) rfl hheld ?_,
      fun hge => run_effect (i := .sweepStageEnd k []) rfl hheld ?_⟩ <;>
      simp only [hw, List.filter_nil, List.foldl_nil, List.isEmpty_nil, Bool.not_true, Bool.or_false]
    · exact if_pos hlt
    · exact if_neg (Nat.not_lt.mpr hge)

end Sys2Proof.Machine
end

section
/-!
PROOF. O32, O33, O34: the tables, the engines and the home rows of the Scoop (07_scoop_gather.md).
-/

namespace Sys2Proof.Machine

/-! ## Commands of SCP_CMD -/

/-- A partition's number names its own context. -/
theorem partBad_of_lt {part : Nat} (h : part < 128) : partBad part = false := by simp [partBad]; omega

theorem partCtx_of_lt {part : Nat} (h : part < 128) : partCtx part = part := if_neg (by omega)

section

variable {s : State} (hidle : s.flag F.SCP_CMD_STATUS_BUSY = false)
include hidle

/-! R339: an operation is carried out while SCP_CMD is not BUSY. -/

theorem State.scpCmd_define (t part : Nat) (env : Env) : s.scpCmd 1 t part false env = (s.scpDefine t part env, stOK) := by
  simp [State.scpCmd, hidle]

theorem State.scpCmd_flip (t part : Nat) (inv : Bool) : s.scpCmd 2 t part inv [] = (s.scpFlip t part inv, stOK) := by
  simp [State.scpCmd, hidle]

theorem State.scpCmd_retire (t part : Nat) : s.scpCmd 3 t part false [] = (s.scpRetire t part, stOK) := by
  simp [State.scpCmd, hidle]

theorem State.scpCmd_reserved {op : Nat} (hop : op = 0 ∨ 4 ≤ op) : s.scpCmd op 0 0 false [] = (s.scpResult srENCODING, stOK) := by
  have hnot : op ≠ 1 ∧ op ≠ 2 ∧ op ≠ 3 := by omega
  exact (if_neg (by simp [hidle])).trans (by simp only [hnot, if_false])

end

/-- Settles O32. -/
theorem scoopTableCommandsComplete : Obligations.ScoopTableCommandsComplete := by
  unfold Obligations.ScoopTableCommandsComplete
  refine ⟨?define, ?flip, ?retire, ?reserved, ?drained⟩
  case define =>
    intro s u src t part env d hheld hsrc ht hpart hacc hidle howner hdrained hpeek hcheck
    have hpart' : part < 256 := by omega
    have howner' : ((s.tbl t).owner.any (· != part)) = false := by rcases howner with h | h <;> simp [h]
    have hdefine : s.scpDefine t part env =
        (((u.setTbl t (if u.activeBank t = 0 then { u.tbl t with bank1 := d, owner := some part }
          else { u.tbl t with bank0 := d, owner := some part })).setFlag F.SCP_TBL_STATUS_STAGED true t).setFld
            F.SCP_TBL_STATUS_PARTITION part t).scpResult srOK := by
      refine (if_neg (by simp [partBad_of_lt hpart])).trans ((if_neg (by rw [howner', hdrained]; decide)).trans ?_)
      simp only [partCtx_of_lt hpart, hpeek]
      exact if_neg (not_not_intro hcheck)
    exact guarded_effect (by simp [Instr.wf, hsrc, ht, hpart']) hheld hacc
      ((State.scpCmd_define hidle t part env).trans (congrArg (·, stOK) hdefine))
  case flip =>
    intro s src t part hheld hsrc ht hpart hacc hidle howner hstaged
    have hpart' : part < 256 := by omega
    have hflip : s.scpFlip t part false =
        ((((((s.setFld F.SCP_TBL_STATUS_ACTIVE_BANK (1 - s.activeBank t) t).setFlag F.SCP_TBL_STATUS_STAGED false t).setFlag
          F.SCP_TBL_STATUS_VALID true t).wrap F.SCP_TBL_STATUS_VERSION t).setFlag F.SCP_TBL_STATUS_OLD_DRAINED false t).evictReps
            fun r => r.tbl == t).scpResult srOK :=
      (if_neg (by simp [partBad_of_lt hpart, howner])).trans (if_neg (by simp [hstaged]))
    exact guarded_effect (by simp [Instr.wf, hsrc, ht, hpart']) hheld hacc
      ((State.scpCmd_flip hidle t part false).trans (congrArg (·, stOK) hflip))
  case retire =>
    intro s src t part hheld hsrc ht hpart hacc hidle howner hvalid
    have hpart' : part < 256 := by omega
    have hretire : s.scpRetire t part = _ :=
      (if_neg (by simp [partBad_of_lt hpart, howner])).trans (if_neg (by simp [hvalid]))
    exact guarded_effect (by simp [Instr.wf, hsrc, ht, hpart']) hheld hacc
      ((State.scpCmd_retire hidle t part).trans (congrArg (·, stOK) hretire))
  case reserved =>
    exact fun s src op hheld hsrc hop hlt hacc hidle =>
      guarded_effect (by simp [Instr.wf, hsrc, hop, hlt]) hheld hacc (State.scpCmd_reserved hidle hop)
  case drained =>
    intro s t hheld ht hold hlatched
    refine run_effect (by simp [Instr.wf, ht]) hheld ((if_neg (by simp [hold, hlatched])).trans ?_)
    simp only [Bool.or_eq_true]

/-! ## Engines -/

/-- R349: a command waits for no engine while one can take it. -/
theorem State.scoopEntry_of_take {s u : State} {op c e : Nat} {w : WorkSrc} {b : List Byte} (env : Env)
    (hengine : s.scoopChoose none = some e) (htake : s.takeEntry op false = some (u, c, w, b)) :
    s.scoopEntry op [] env =
      { u with scoopNum := u.scoopNum + 1 }.scoopGive
        (if op = 0x20 then gatherOf u.scoopNum c w b else updateOf u.scoopNum c w b) none env := by
  simp only [State.scoopEntry, List.isEmpty_nil, if_true, hengine, htake]
  exact if_neg (by simp)

/-- R353: a row of a gather that is written without an error is counted. -/
theorem State.deliverRow_of_written {s w : State} {g : Nat} {c : ScoopCmd} {d : List Byte} (env : Env) (hop : c.op ≠ 1)
    (hwrite : s.writeRow g c c.dst d [] = (w, true, true)) :
    s.deliverRow g c d [] env = (w.wrap F.SCP_ROWS_COUNT).rowDone g env fun c => { c with rows := c.rows + 1 } := by
  simp only [State.deliverRow, hwrite, Bool.not_true, Bool.false_eq_true, if_false, if_neg hop, List.isEmpty_nil, if_true]

theorem unitLines_nil (a : Nat) : unitLines a [] = [] := rfl

/-- Settles O33. -/
theorem scoopEngineCommandsComplete : Obligations.ScoopEngineCommandsComplete := by
  unfold Obligations.ScoopEngineCommandsComplete
  refine ⟨?entries, ?row, ?complete, ?fail, ?install, ?decay, ?commit⟩
  case entries =>
    intro s u c e w b env hheld hengine
    exact ⟨fun htake => next_effect hheld ((State.scoopEntry_of_take env hengine htake).trans (by rw [if_pos rfl])),
      fun htake => next_effect hheld ((State.scoopEntry_of_take env hengine htake).trans (by rw [if_neg (by decide)]))⟩
  case row =>
    intro s u v w g env c d hheld hg
    dsimp only
    intro hcmd hissued hended hop hhalf hidle hprev hcollect hwrite
    have hembed : c.op ≠ 1 := by simp [hop]
    have hgone : (s.codewords 6 env).embedGone c = false := by simp [State.embedGone, hembed]
    refine run_effect (by simp [Instr.wf, hg]) hheld ?_
    simp only [hcmd]
    refine (if_neg (by simp [hissued, hended, hop, hidle])).trans ((if_neg (by simp [hgone])).trans ?_)
    simp only [hprev, hhalf, hcollect, if_neg hembed]
    exact State.deliverRow_of_written env hembed hwrite
  case complete =>
    intro s u g env c hheld hg hcmd hstarted hidle hrun
    refine ⟨fun hop hended => run_effect (by simp [Instr.wf, hg]) hheld ?_,
      fun hop hissued hcount hprev => run_effect (by simp [Instr.wf, hg]) hheld ?_⟩
    · simp only [hcmd]
      exact (if_neg (by simp [hstarted, hidle, hrun, hop])).trans ((if_pos hop).trans (if_pos hended))
    · simp only [hcmd]
      refine (if_neg (by simp [hstarted, hidle, hrun, hissued])).trans ((if_neg (by simp [hop])).trans
        ((if_neg (by simp [Nat.not_lt.mpr hcount])).trans ?_))
      simp only [hprev]
  case fail => exact fun s g env hheld hg => run_effect (by simp [Instr.wf, hg]) hheld rfl
  case install =>
    intro s u h j r d hheld hh hj hslot hst hres hwrite
    refine run_effect (by simp [Instr.wf, hh, hj]) hheld ?_
    simp only [hslot, hst, hres]
    refine (if_neg (by simp)).trans ?_
    simp only [unitLines_nil, hwrite]
    exact if_pos trivial
  case decay => exact fun s h hheld => next_effect hheld rfl
  case commit =>
    exact fun s src hheld hsrc hacc hok => gated_effect (by simp [Instr.wf, hsrc]) hheld hacc (if_neg (by simp [hok]))

/-! ## Rows at their home -/

/-- Settles O34. -/
theorem homeRowCommandsComplete : Obligations.HomeRowCommandsComplete := by
  unfold Obligations.HomeRowCommandsComplete
  refine ⟨?attempt, ?release, ?stamp, ?invalidated, ?updated, ?row, ?final⟩
  case attempt =>
    intro s id o hheld hop hkind hactive hturn
    have hnot : ¬ ((decide (o.kind = .update) || !o.active || !s.homeTurn o) = true) := by simp [hkind, hactive, hturn]
    dsimp only
    refine ⟨fun herr hstep hreg => next_effect hheld ?_, fun d us hstep hrow => next_effect hheld ?_,
      fun herr hstep => next_effect hheld ?_⟩
    · simp only [hop, if_neg hnot]
      refine (if_neg (by simp [hstep])).trans ((if_neg (by simp [herr])).trans ((if_pos hstep).trans ?_))
      simp only [State.firstStamp, hreg, Bool.not_true]
    · simp only [hop, if_neg hnot, if_pos hstep, State.rowRead, hrow]
      exact if_neg Bool.false_ne_true
    · simp only [hop, if_neg hnot]
      exact (if_neg (by simp [hstep])).trans ((if_neg (by simp [herr])).trans (if_neg (by simp [hstep])))
  case release =>
    intro s id o hheld hop hkind hactive hfree
    refine next_effect hheld ?_
    simp only [hop]
    exact if_neg (by simp [hkind, hactive, hfree])
  case stamp =>
    intro s u id o hheld hop hkind hactive hstep hturn herr hbad
    dsimp only
    intro hwrite hholders
    refine next_effect hheld ?_
    simp only [hop]
    refine (if_neg (by simp [hkind, hactive, hstep, hturn])).trans ((if_neg (by simp [herr, hbad])).trans ?_)
    simp only [if_true, hwrite, hholders]
    exact if_neg (by simp)
  case invalidated =>
    intro s id o hheld hop hkind hstep hacks
    refine next_effect hheld ?_
    simp only [hop]
    refine (if_neg (by simp [hkind, hstep])).trans ?_
    simp only [hacks, List.foldl_nil]
    exact (if_neg (by simp [hstep])).trans (if_pos (by simp))
  case updated =>
    intro s id o hheld hop hkind hstep hacks
    have hsame : ({ o with acks := [] } : HomeOp) = o := by cases o; cases hacks; rfl
    refine next_effect hheld ?_
    simp only [hop]
    refine (if_neg (by simp [hkind, hstep])).trans ?_
    simp only [hacks, List.foldl_nil]
    exact (if_pos (by simp [hstep])).trans (congrArg s.homeEnd hsame)
  case row =>
    intro s u id o hheld hop hkind hstep hturn hwrite
    refine next_effect hheld ?_
    simp only [hop]
    refine (if_neg (by simp [hkind, hstep, hturn])).trans ?_
    simp only [if_true, hwrite, Bool.not_true]
  case final =>
    intro s u id o hheld hop hkind hstep hturn hfail hwrite
    refine next_effect hheld ?_
    simp only [hop]
    refine (if_neg (by simp [hkind, hstep, hturn])).trans ?_
    simp only [if_true, hwrite, hfail, Bool.not_false, Bool.and_self]

end Sys2Proof.Machine
end

section
/-!
PROOF. O35, O36: requests of other nodes at their home, and the responses to this node's own (07_scoop_gather.md, 11_yalig_transactions.md
R521 to R532; 13_partitions.md R625 to R627).
-/

namespace Sys2Proof.Machine

theorem State.perform_of_take {s u : State} {k : Nat} {kind : Packet → Bool} {f : State → Packet → State} {p : Packet}
    (htake : s.takeInbox k kind = some (u, p)) : s.perform k kind f = f u p := by simp only [State.perform, htake]

/-! ## Requests with a key, and responses to a request that waits -/

/-- R521: a request that its key admits is performed for the key's partition. -/
theorem State.keyed_of_requestPart {s : State} {p : Packet} {perm : Fld} {ext : Option (Nat × Nat)} {c : Nat} {f : Nat → State}
    (hpart : s.requestPart p perm ext = some c) : s.keyed p perm ext f = f c := by simp only [State.keyed, hpart]

/-- R525: a good response goes to the client of its request. -/
theorem State.respond_of_ok {s v : State} {p : Packet} {op : Nat} {r : Req} {f : State → ReqClient → State}
    (htake : s.takeReq p op = some (v, r)) (hok : p.status = psOK) : s.respond p op f = f v r.client := by
  simp only [State.respond, htake, hok]
  rfl

/-- Settles O35. -/
theorem memoryRequestCommandsComplete : Obligations.MemoryRequestCommandsComplete := by
  unfold Obligations.MemoryRequestCommandsComplete
  refine ⟨?rd, ?wr, ?atom, ?fence⟩
  case rd =>
    intro s u k c env p q hheld htake hpart hregion hshape hoff hresp
    refine next_effect hheld ((State.perform_of_take htake).trans ((State.keyed_of_requestPart hpart).trans
      ((if_neg hregion).trans ((if_neg (by simp [hshape])).trans ?_))))
    simp only [hoff, hresp]
  case wr =>
    intro s u v k c env p hheld htake hpart hregion hshape hoff hstore
    refine perform_effect hheld htake ((State.keyed_of_requestPart hpart).trans
      ((if_neg hregion).trans ((if_neg (by simp [hshape])).trans ?_)))
    simp only [hoff, hstore, decide_true, Bool.true_and, Bool.or_eq_true, decide_eq_true_eq]
  case atom =>
    intro s u v k c p q old hheld htake hatop hpart hregion hoff hatom hresp
    refine perform_effect hheld htake ((if_neg (Nat.not_lt.mpr hatop)).trans ((State.keyed_of_requestPart hpart).trans
      ((if_neg hregion).trans ?_)))
    simp only [hoff, hatom, hresp, decide_true, Bool.not_false, Bool.true_and, Bool.or_eq_true, decide_eq_true_eq]
  case fence =>
    exact fun s u k c p hheld htake hpart => perform_effect hheld htake (State.keyed_of_requestPart hpart)

/-! ## Rows and messages -/

/-- R530: a single valid replica that no read uses is given up at once. -/
theorem State.rinv_single {u : State} {p : Packet} {r : RepSlot} {l : List RepSlot} (hl : l = [r]) (hst : r.st = .valid)
    (hidle : u.repReading r = false) :
    (if l.isEmpty then u.answer p psOK
    else
      let drain := l.filter fun r => decide (r.st = RepSt.valid) && u.repReading r
      let s := l.foldl (fun (s : State) r =>
        if drain.contains r then s.setRep { r with st := .draining none (some p) }
        else match r.st with
          | .valid => s.freeRep r
          | _ => s.setRep { r with st := .installing true }) u
      if drain.isEmpty then s.answer p psOK else s) = (u.freeRep r).answer p psOK := by
  subst hl
  have hdrain : ([r].filter fun r => decide (r.st = RepSt.valid) && u.repReading r) = [] := by simp [hidle]
  simp only [hdrain, List.foldl_cons, List.foldl_nil, hst]
  rfl

/-- Settles O36. -/
theorem rowRequestCommandsComplete : Obligations.RowRequestCommandsComplete := by
  unfold Obligations.RowRequestCommandsComplete
  refine ⟨?srd, ?more, ?supd, ?rinv, ?rdereg, ?msg, ?rdData, ?wrAck, ?acks, ?srdData, ?supdAck, ?rinvAck, ?timeout⟩
  case srd =>
    intro s u k stamp len c p hheld hlen htake hpart hoff hstamp
    refine run_effect (by simp [Instr.wf, hlen]) hheld ?_
    simp only [State.perform, htake, State.keyed_of_requestPart hpart, hoff]
    exact if_neg (by simp [hstamp])
  case more =>
    exact fun s u k stamp p hheld htake hlast => perform_effect hheld htake (if_pos (by simp [hlast]))
  case supd =>
    intro s u k stamp c p hheld htake hlast hfirst hclean
    dsimp only
    intro hpart hoff hhandoff hmirror hstamp
    refine perform_effect hheld htake ((if_neg (by simp [hlast])).trans ?_)
    have hdata : [p].flatMap (·.data) = p.data := by simp
    simp only [hfirst, List.nil_append, hdata, List.foldl_cons, List.foldl_nil, hclean, List.flatMap_nil]
    refine (State.keyed_of_requestPart hpart).trans ?_
    simp only [hoff]
    exact (if_neg (ne_true_of_eq_false hhandoff)).trans ((if_neg (ne_true_of_eq_false hmirror)).trans
      (if_neg (ne_true_of_eq_false (congrArg not hstamp))))
  case rinv =>
    intro s u k p r hheld htake hregion hreps hst hidle
    exact perform_effect hheld htake ((if_neg hregion).trans (State.rinv_single hreps hst hidle))
  case rdereg =>
    intro s u k c p hheld htake hpart hoff
    refine perform_effect hheld htake ((State.keyed_of_requestPart hpart).trans ?_)
    simp only [hoff]
  case msg =>
    intro s u v w k c m hheld htake hpart hc hring hroom
    dsimp only
    intro hcheck hbody hheader
    refine perform_effect hheld htake ((State.keyed_of_requestPart hpart).trans ((if_neg (by simp [hc, hring, hroom])).trans ?_))
    refine (if_neg (by rw [hcheck]; decide)).trans ((if_neg (not_not_intro hcheck)).trans ?_)
    rw [hbody]
    simp only [if_true, hheader]
  case rdData =>
    intro s u v k pp q slot p r hheld htake hreq hclient hok
    refine perform_effect hheld htake ((State.respond_of_ok hreq hok).trans ?_)
    simp only [hclient]
  case wrAck =>
    intro s u v k p r hheld htake hreq
    refine ⟨fun hbad => perform_effect hheld htake ?_, fun pp q slot hok hclient => perform_effect hheld htake ?_,
      fun hok hclient => perform_effect hheld htake ?_⟩ <;> simp only [hreq]
    · exact if_pos hbad
    · refine (if_neg (not_not_intro hok)).trans ?_
      simp only [hclient]
    · exact if_neg (not_not_intro hok)
  case acks =>
    intro s u v k p r hheld hok
    exact ⟨fun htake hreq => perform_effect hheld htake (State.respond_of_ok hreq hok),
      fun htake hreq => perform_effect hheld htake (State.respond_of_ok hreq hok),
      fun htake hreq => perform_effect hheld htake (State.respond_of_ok hreq hok)⟩
  case srdData =>
    intro s u k g j p r hheld htake hreq hok hlast hclient
    refine perform_effect hheld htake ?_
    simp only [hreq, hclient, hlast, Bool.false_eq_true, if_false]
    exact if_neg (not_not_intro hok)
  case supdAck =>
    intro s u v k g p r hheld htake hreq hclient hok
    refine perform_effect hheld htake ((State.respond_of_ok hreq hok).trans ?_)
    simp only [hclient]
  case rinvAck =>
    intro s u v k op node p r o hheld htake hreq hclient hok hop
    refine perform_effect hheld htake ((State.respond_of_ok hreq hok).trans ?_)
    simp only [hclient, hop]
  case timeout => exact fun s tag hheld => next_effect hheld rfl

end Sys2Proof.Machine
end

section
/-!
PROOF. O37 to O40: command queues and their vectors, the ordering unit, and the host side (08_memory_model.md, 12_tile_streams_host.md).
-/

namespace Sys2Proof.Machine

/-! ## HIF_SQ_CTRL (R600, R605) -/

section

variable {s : State} {p q : Nat} {w : Word} (hlow : 6 ≤ F.HIF_SQ_CTRL_LOG2_ENTRIES.get w) (hhigh : F.HIF_SQ_CTRL_LOG2_ENTRIES.get w ≤ 16)
  (hburst : F.HIF_SQ_CTRL_BURST.get w ≠ 0)
include hlow hhigh hburst

/-- A value in range is stored; what else it does depends on EN before and after, and on RESUME. -/
theorem State.writeSqCtrl_of_range
    (hstate : s.flag F.HIF_SQ_CTRL_EN (qInst p q) = true →
      F.HIF_SQ_CTRL_LOG2_ENTRIES.get w = F.HIF_SQ_CTRL_LOG2_ENTRIES.get (s.rd .HIF_SQ_CTRL (qInst p q)) ∧
        F.HIF_SQ_CTRL_DB_MEM.get w = F.HIF_SQ_CTRL_DB_MEM.get (s.rd .HIF_SQ_CTRL (qInst p q))) {u : State}
    (hu : (if (F.HIF_SQ_CTRL_EN.get w != 0 && !s.flag F.HIF_SQ_CTRL_EN (qInst p q)) = true then
        let u := ((((s.plainWrite .HIF_SQ_CTRL (qInst p q) w).setFld F.HIF_SQ_HEAD_INDEX 0 (qInst p q)).setFld F.HIF_SQ_TAIL_INDEX 0
          (qInst p q)).setFld F.HIF_CQ_HEAD_INDEX 0 (qInst p q)).setFld F.HIF_CQ_TAIL_INDEX 0 (qInst p q)
        u.setQueue p q { u.queue p q with raised := false, unreached := false }
      else s.plainWrite .HIF_SQ_CTRL (qInst p q) w).syncInflight p q = u) :
    s.writeSqCtrl p q w =
      if F.HIF_SQ_CTRL_RESUME.get w = 0 || !u.flag F.HIF_SQ_STATUS_HALTED (qInst p q) ||
        u.fld F.HIF_SQ_STATUS_ERR (qInst p q) ≠ qeBadEntry then (u, stOK)
      else
        let v := if F.HIF_SQ_CTRL_SKIP.get w = 0 then u
          else u.setFld F.HIF_SQ_HEAD_INDEX (ringAdd (sqSize u p q) (u.fld F.HIF_SQ_HEAD_INDEX (qInst p q)) 1) (qInst p q)
        ((v.setFlag F.HIF_SQ_STATUS_HALTED false (qInst p q)).setFld F.HIF_SQ_STATUS_ERR qeNone (qInst p q), stOK) := by
  subst hu
  refine (if_neg (by simp [hburst]; omega)).trans (if_neg fun hchange => ?_)
  obtain ⟨hwas, hdiff⟩ := Bool.and_eq_true_iff.1 hchange
  obtain ⟨hsize, hmem⟩ := hstate hwas
  simp [hsize, hmem] at hdiff

/-- A value that turns no queue on and does not resume one is stored. -/
theorem State.writeSqCtrl_of_disable
    (hsize : F.HIF_SQ_CTRL_LOG2_ENTRIES.get w = F.HIF_SQ_CTRL_LOG2_ENTRIES.get (s.rd .HIF_SQ_CTRL (qInst p q)))
    (hmem : F.HIF_SQ_CTRL_DB_MEM.get w = F.HIF_SQ_CTRL_DB_MEM.get (s.rd .HIF_SQ_CTRL (qInst p q)))
    (hen : F.HIF_SQ_CTRL_EN.get w = 0) (hresume : F.HIF_SQ_CTRL_RESUME.get w = 0) :
    s.writeSqCtrl p q w = ((s.plainWrite .HIF_SQ_CTRL (qInst p q) w).syncInflight p q, stOK) :=
  (State.writeSqCtrl_of_range hlow hhigh hburst (fun _ => ⟨hsize, hmem⟩) (congrArg (State.syncInflight · p q)
    (if_neg (by simp [hen])))).trans (if_pos (by simp [hresume]))

/-- A queue that is turned on begins empty. -/
theorem State.writeSqCtrl_of_enable (hoff : s.flag F.HIF_SQ_CTRL_EN (qInst p q) = false) (hen : F.HIF_SQ_CTRL_EN.get w = 1)
    (hresume : F.HIF_SQ_CTRL_RESUME.get w = 0) :
    let u := ((((s.plainWrite .HIF_SQ_CTRL (qInst p q) w).setFld F.HIF_SQ_HEAD_INDEX 0 (qInst p q)).setFld F.HIF_SQ_TAIL_INDEX 0
      (qInst p q)).setFld F.HIF_CQ_HEAD_INDEX 0 (qInst p q)).setFld F.HIF_CQ_TAIL_INDEX 0 (qInst p q)
    s.writeSqCtrl p q w = ((u.setQueue p q { u.queue p q with raised := false, unreached := false }).syncInflight p q, stOK) :=
  (State.writeSqCtrl_of_range hlow hhigh hburst (fun hon => absurd hon (by simp [hoff])) (congrArg (State.syncInflight · p q)
    (if_pos (by simp [hen, hoff])))).trans (if_pos (by simp [hresume]))

/-- RESUME leaves a halt by BAD_ENTRY. -/
theorem State.writeSqCtrl_of_resume {u : State} (hu : (s.plainWrite .HIF_SQ_CTRL (qInst p q) w).syncInflight p q = u)
    (hsize : F.HIF_SQ_CTRL_LOG2_ENTRIES.get w = F.HIF_SQ_CTRL_LOG2_ENTRIES.get (s.rd .HIF_SQ_CTRL (qInst p q)))
    (hmem : F.HIF_SQ_CTRL_DB_MEM.get w = F.HIF_SQ_CTRL_DB_MEM.get (s.rd .HIF_SQ_CTRL (qInst p q)))
    (hen : F.HIF_SQ_CTRL_EN.get w = F.HIF_SQ_CTRL_EN.get (s.rd .HIF_SQ_CTRL (qInst p q))) (hresume : F.HIF_SQ_CTRL_RESUME.get w = 1)
    (hhalted : u.flag F.HIF_SQ_STATUS_HALTED (qInst p q) = true) (herr : u.fld F.HIF_SQ_STATUS_ERR (qInst p q) = qeBadEntry) :
    let v := if F.HIF_SQ_CTRL_SKIP.get w = 0 then u
      else u.setFld F.HIF_SQ_HEAD_INDEX (ringAdd (sqSize u p q) (u.fld F.HIF_SQ_HEAD_INDEX (qInst p q)) 1) (qInst p q)
    s.writeSqCtrl p q w =
      ((v.setFlag F.HIF_SQ_STATUS_HALTED false (qInst p q)).setFld F.HIF_SQ_STATUS_ERR qeNone (qInst p q), stOK) := by
  have hkept : (F.HIF_SQ_CTRL_EN.get w != 0 && !s.flag F.HIF_SQ_CTRL_EN (qInst p q)) = false := by
    rw [hen]
    exact Bool.and_not_self _
  exact (State.writeSqCtrl_of_range hlow hhigh hburst (fun _ => ⟨hsize, hmem⟩) ((congrArg (State.syncInflight · p q)
    (if_neg (ne_true_of_eq_false hkept))).trans hu)).trans (if_neg (by simp [hresume, hhalted, herr]))

end

/-- Settles O37. -/
theorem queueCommandsComplete : Obligations.QueueCommandsComplete := by
  unfold Obligations.QueueCommandsComplete
  refine ⟨?doorbell, ?fetch, ?enable, ?disable, ?head, ?unmask⟩
  case doorbell =>
    intro s src p q v hheld hsrc hp hq hacc hmem
    exact gated_effect (by simp [Instr.wf, hsrc, hp, hq]) hheld hacc (if_neg (by simp [hmem]))
  case fetch =>
    intro s p q x env hheld hp hnext
    refine run_effect (by simp [Instr.wf, hp]) hheld ?_
    simp only [hnext]
  case enable =>
    intro s src p q v hheld hsrc hp hq hacc hoff
    dsimp only
    intro hen hlow hhigh hburst hresume
    exact guarded_effect (by simp [Instr.wf, hsrc, hp, hq]) hheld hacc
      (State.writeSqCtrl_of_enable hlow hhigh hburst hoff hen hresume)
  case disable =>
    intro s src p q v hheld hsrc hp hq hacc
    dsimp only
    intro hen hlow hhigh hsize hmem hburst hresume
    exact guarded_effect (by simp [Instr.wf, hsrc, hp, hq]) hheld hacc
      (State.writeSqCtrl_of_disable hlow hhigh hburst hsize hmem hen hresume)
  case head =>
    intro s src p q v hheld hsrc hp hq hv hacc hok
    refine gated_effect (by simp [Instr.wf, hsrc, hp, hq]) hheld hacc ?_
    simp only [State.writeCqHead, Nat.mod_eq_of_lt (show v < 2 ^ 17 from hv)]
    exact if_pos hok
  case unmask =>
    intro s fn vec hheld hfn hvec
    have hwf : (Instr.msixUnmask .pf fn vec).wf = true := by
      simp only [Instr.wf, Source.wf, hfn, decide_true, Bool.and_self, Bool.true_and, decide_eq_true_eq]
      split <;> omega
    exact run_effect hwf hheld (if_pos rfl)

/-- Settles O38. -/
theorem queueResumeCommandsComplete : Obligations.QueueResumeCommandsComplete := by
  unfold Obligations.QueueResumeCommandsComplete
  intro s src p q hheld hsrc hp hq hacc
  dsimp only
  intro hlow hhigh
  constructor
  · rintro ⟨hsize, hmem, hen, hburst, hresume, -⟩ hskip hhalted herr
    refine guarded_effect (by simp [Instr.wf, hsrc, hp, hq]) hheld hacc ((State.writeSqCtrl_of_resume (hsize ▸ hlow) (hsize ▸ hhigh) hburst
      rfl hsize hmem hen hresume hhalted herr).trans ?_)
    rw [if_pos hskip]
  · rintro ⟨hsize, hmem, hen, hburst, hresume, -⟩ hskip hhalted herr
    refine guarded_effect (by simp [Instr.wf, hsrc, hp, hq]) hheld hacc ((State.writeSqCtrl_of_resume (hsize ▸ hlow) (hsize ▸ hhigh) hburst
      rfl hsize hmem hen hresume hhalted herr).trans ?_)
    rw [if_neg (by rw [hskip]; decide)]

/-! ## The ordering unit -/

/-- Settles O39. -/
theorem orderingCommandsComplete : Obligations.OrderingCommandsComplete := by
  unfold Obligations.OrderingCommandsComplete
  refine ⟨?release, ?acquire, ?poll, ?timeout, ?fence, ?unreached, ?inv, ?invDone⟩
  case release =>
    intro s t u o hheld htake hreached
    dsimp only
    intro hcheck hremote hwrite
    refine next_effect hheld ?_
    simp only [htake]
    refine (if_neg (ne_true_of_eq_false hreached)).trans ?_
    simp only [hcheck, hwrite, if_true]
  case acquire =>
    intro s t o env hheld htake
    refine next_effect hheld ?_
    simp only [htake]
  case poll =>
    intro s p q o env hheld hp hq horder
    refine run_effect (by simp [Instr.wf, hp, hq]) hheld ?_
    simp only [horder]
  case timeout =>
    intro s p q o hheld hp hq hfind
    refine run_effect (by simp [Instr.wf, hp, hq]) hheld ?_
    simp only [hfind]
  case fence =>
    intro s t o hheld htake hreached
    refine next_effect hheld ?_
    simp only [htake]
    exact if_neg (ne_true_of_eq_false hreached)
  case unreached =>
    intro s t o hheld hunreached
    refine ⟨fun htake => next_effect hheld ?_, fun htake => next_effect hheld ?_⟩ <;>
      (simp only [htake]; exact if_pos hunreached)
  case inv =>
    intro s t o hheld htake hpresent hfault
    refine next_effect hheld ?_
    simp only [htake, State.invStart, hfault]
    exact if_neg (ne_true_of_eq_false hpresent)
  case invDone =>
    intro s p q o hheld hp hq horder hlen
    refine run_effect (by simp [Instr.wf, hp, hq]) hheld ?_
    simp only [horder]
    exact congrArg (State.endOrder · o osOK 0) (if_neg (Nat.not_lt.mpr hlen))

/-! ## The host side -/

/-- Settles O40. -/
theorem hostSideCommandsComplete : Obligations.HostSideCommandsComplete := by
  unfold Obligations.HostSideCommandsComplete
  refine ⟨?assert, ?releaseP, ?loss, ?pf, ?vf, ?config, ?enable, ?lock, ?chan, ?row⟩
  case assert =>
    intro s env hheld hhost
    exact congrArg Host.Outcome.next ((if_neg (ne_true_of_eq_false hhost)).trans (State.clocked_of_up _ _ hheld))
  case releaseP =>
    intro s gen width hgen hwidth hperst hhost
    exact (run_of_wf _ (by simp [Instr.wf, hgen, hwidth])).trans
      (congrArg Host.Outcome.next ((if_neg (by simp [hperst])).trans (if_neg (ne_true_of_eq_false hhost))))
  case loss => exact fun s env hheld => next_effect hheld rfl
  case pf => exact fun s env hheld => next_effect hheld rfl
  case vf => exact fun s p env hheld hp => run_effect (by simp [Instr.wf, hp]) hheld rfl
  case config => exact fun s r hheld hlocked => next_effect hheld (if_neg (by simp [hlocked]))
  case enable =>
    exact fun s n hheld hn hlocked hperst hfirst =>
      run_effect (by simp [Instr.wf, hn]) hheld ((if_neg (by simp [hlocked])).trans (if_neg (by simp [hperst, hfirst])))
  case lock => exact fun s hheld hperst => next_effect hheld (if_neg (ne_true_of_eq_false hperst))
  case chan => exact fun s c hheld hc hphase => run_effect (by simp [Instr.wf, hc]) hheld (if_pos hphase)
  case row => exact fun s g k hheld hg hk => run_effect (by simpa [Instr.wf, hg] using hk) hheld rfl

end Sys2Proof.Machine
end

section
/-!
PROOF. O41, O42, O43: partitions, single-engine resets, the error ring, and host accesses (12_tile_streams_host.md, 13_partitions.md,
14_integrity.md).
-/

namespace Sys2Proof.Machine

/-! ## A cleared partition -/

theorem State.ptn_raisePf (s : State) (vec p : Nat) : (s.raisePf vec).ptn p = s.ptn p := by
  unfold State.raisePf State.msix
  extract_lets k
  split <;> rfl

theorem State.ptn_raisePf_if (s : State) (b : Bool) (vec p : Nat) : (if b then s.raisePf vec else s).ptn p = s.ptn p := by
  cases b with
  | false => rfl
  | true => exact s.ptn_raisePf vec p

theorem State.ptn_setPtn_same {s : State} (h : srising none s.parts = true) (p : Nat) (x : PartSt) : (s.setPtn p x).ptn p = x :=
  sget_sput_same h

/-- A fold whose steps keep the partitions' states keeps them. -/
theorem State.parts_foldl {α : Type} {f : State → α → State} (hf : ∀ s a, (f s a).parts = s.parts) (l : List α) (s : State) :
    (l.foldl f s).parts = s.parts := by
  induction l generalizing s with
  | nil => rfl
  | cons a l ih => exact (ih (f s a)).trans (hf s a)

theorem State.parts_each {f : State → Nat → State} (hf : ∀ s k, (f s k).parts = s.parts) (s : State) (n : Nat) :
    (s.each n f).parts = s.parts := State.parts_foldl hf _ s

theorem State.parts_resetReg (s : State) (r : Reg) (k : Nat) : (s.resetReg r k).parts = s.parts := rfl

theorem State.parts_setQueue (s : State) (p q : Nat) (x : QueueSt) : (s.setQueue p q x).parts = s.parts := rfl

theorem State.parts_setMring (s : State) (p r : Nat) (x : MringSt) : (s.setMring p r x).parts = s.parts := rfl

theorem State.parts_resetPage (s : State) (p : Nat) : (s.resetPage p).parts = s.parts := by
  simp only [State.resetPage]
  rw [State.parts_each fun u v => by simp only [State.parts_resetReg],
    State.parts_each fun u r => u.parts_setMring p r {}, State.parts_each fun u q => u.parts_setQueue p q {}]
  generalize pageRegs = regs
  exact State.parts_foldl (fun u r => State.parts_each (fun v k => v.parts_resetReg _ _) u _) regs s

/-- A partition whose page has been reset, not held and without registers of its own, becomes ACTIVE. -/
def State.madeActive (s : State) (p : Nat) : State :=
  ((s.resetPage p).setPart p psActive).setFld F.PTN_STATUS_LAST_US
    (min (((s.resetPage p).time - (s.ptn p).since) / 1000) 65535) p

theorem State.parts_madeActive (s : State) (p : Nat) : (s.madeActive p).parts = s.parts := by
  have hpart : ∀ (u : State) (x : Nat), ((u.setPart p psActive).setFld F.PTN_STATUS_LAST_US x p).parts = u.parts := fun _ _ => rfl
  exact (hpart _ _).trans (s.parts_resetPage p)

section

variable {s : State} {p : Nat} (hp : p < 128) (hheld : s.held = false) (hstate : s.fld F.PTN_STATUS_STATE p = psClearing)
  (hfree : (s.ptn p).held = false) (hqos : (s.ptn p).qos = []) (hsorted : srising none s.parts = true)

include hp hheld hstate hfree hqos in
/-- What PARTITION_CLEARED does: the partition's state is that of a new one, but for the relaxed writes on their way (R592). -/
theorem exec_partitionCleared (env : Env) :
    exec (.partitionCleared p env) s = .next
      (let u := (s.madeActive p).setPtn p { loose := (s.ptn p).loose }
       if u.flag F.PTN_RST_VEC_EN then u.raisePf (u.fld F.PTN_RST_VEC_VEC) else u) := by
  refine run_effect (by simp [Instr.wf, hp]) hheld ((if_neg (not_not_intro hstate)).trans ?_)
  simp only [hqos, List.foldl_nil, hfree]
  exact if_neg Bool.false_ne_true

include hsorted in
/-- The state of the partition afterwards is what was put there. -/
theorem State.ptn_madeActive (x : PartSt) :
    (let u := (s.madeActive p).setPtn p x
     if u.flag F.PTN_RST_VEC_EN then u.raisePf (u.fld F.PTN_RST_VEC_VEC) else u).ptn p = x :=
  (State.ptn_raisePf_if _ _ _ _).trans (State.ptn_setPtn_same (by rw [State.parts_madeActive]; exact hsorted) p x)

end

/-- Partition 0 is being cleared, and host memory written with Relaxed Ordering for it has not been read back (R592). -/
def clearingLoose : State :=
  ({ coldHeld := false, parts := [(0, { loose := true })] } : State).setFld F.PTN_STATUS_STATE psClearing 0

/-- Refutes O41: partitionCleared keeps the note that relaxed writes of the partition may still be under way (R592), which the next
state of the statement drops. -/
theorem not_partitionCommandsComplete : ¬ Obligations.PartitionCommandsComplete := by
  unfold Obligations.PartitionCommandsComplete
  rintro ⟨-, -, -, hcleared, -⟩
  have hstate : clearingLoose.fld F.PTN_STATUS_STATE 0 = psClearing := by decide
  have hdropped := hcleared clearingLoose 0 [] rfl (by decide) hstate rfl rfl
  have hkept := exec_partitionCleared (p := 0) (by decide) rfl hstate rfl rfl []
  have hsame := congrArg (State.ptn · 0) (Host.Outcome.next.inj (hdropped.symm.trans hkept))
  have hloose : ({} : PartSt) = { loose := true } :=
    (State.ptn_madeActive rfl _).symm.trans (hsame.trans (State.ptn_madeActive rfl _))
  exact absurd hloose (by decide)

/-! ## Single engines and the error ring -/

/-- Settles O42. -/
theorem engineAndErrorCommandsComplete : Obligations.EngineAndErrorCommandsComplete := by
  unfold Obligations.EngineAndErrorCommandsComplete
  refine ⟨?reset, ?failure, ?resetDone, ?written, ?head, ?commit⟩
  case reset =>
    intro s src cls inst env hheld hsrc hcls hinst hcount hacc hidle
    exact guarded_effect (by simp [Instr.wf, hsrc, hcls, hinst]) hheld hacc
      ((if_neg (ne_true_of_eq_false hidle)).trans (if_neg (Nat.not_le.mpr hcount)))
  case failure => exact fun s cls inst env hheld hcount => run_effect (by simp [Instr.wf, hcount]) hheld rfl
  case resetDone =>
    intro s inst env hheld hinst hpending
    exact run_effect (by simp [Instr.wf, engCount, hinst]) hheld (if_neg (by simpa using hpending))
  case written =>
    intro s e rest hheld hwrites hraised
    refine next_effect hheld ?_
    simp only [hwrites, if_true]
    exact if_pos hraised
  case head =>
    intro s src v hheld hsrc hv hacc hok
    refine gated_effect (by simp [Instr.wf, hsrc]) hheld hacc ?_
    simp only [State.writeErrHead, Nat.mod_eq_of_lt (show v < 2 ^ 17 from hv)]
    exact if_pos hok
  case commit =>
    intro s idx sub k g r hheld hat hpending
    refine next_effect hheld ?_
    simp only [hat]
    exact if_pos hpending

/-! ## Host accesses -/

/-- Settles O43. -/
theorem hostAccessCommandsComplete : Obligations.HostAccessCommandsComplete := by
  unfold Obligations.HostAccessCommandsComplete
  refine ⟨?write, ?read8, ?read4, ?bar2Write, ?bar2Read, ?bar2Atomic⟩
  case write =>
    intro s src off o v x env hheld hsrc hoff halign hplace hmsix hmbx hreg hwidth hup
    have hstore : s.bar0Store src o 4 (v.toNat % 2 ^ 32) (sideOf src = .host) env =
        (s.regWrite src x.1 x.2 (BitVec.ofNat 64 (v.toNat % 2 ^ 32)) env).1 := by
      refine (if_neg (ne_true_of_eq_false hup)).trans ((if_pos rfl).trans ?_)
      simp only [State.wordWrite, hmsix, hreg]
      exact (if_neg (by simp; omega)).trans (if_neg hwidth)
    have hwrite : s.bar0Write src off 4 v none env = (s.regWrite src x.1 x.2 (BitVec.ofNat 64 (v.toNat % 2 ^ 32)) env).1 := by
      refine (if_neg (by simp [halign])).trans ?_
      simp only [hplace, ite_self]
      exact (if_neg Bool.false_ne_true).trans hstore
    have hwf : (Instr.registerWrite src off 4 v none env).wf = true := by
      rcases hsrc with rfl | rfl <;> simp [Instr.wf, Source.isBar, hoff]
    exact run_effect hwf hheld (congrArg (State.serveMailbox · env) hwrite)
  case read8 =>
    intro s off hheld hoff halign
    refine run_effect (by simp [Instr.wf, Source.isBar, hoff]) hheld ((if_neg (by simp [halign])).trans ?_)
    simp only [barOffset, if_pos hoff]
    rfl
  case read4 =>
    intro s off hheld hoff halign
    refine run_effect (by simp [Instr.wf, Source.isBar, hoff]) hheld ((if_neg (by simp [halign])).trans ?_)
    simp only [barOffset, if_pos hoff]
    rfl
  case bar2Write =>
    intro s x d hheld hne hlen hx hopen
    have hpos : 0 < d.length := List.length_pos_iff.mpr hne
    exact run_effect (by simpa [Instr.wf, hpos, hlen] using hx) hheld (if_neg (ne_true_of_eq_false hopen))
  case bar2Read =>
    intro s x n hheld hpos hn hx hopen
    exact run_effect (by simpa [Instr.wf, hpos, hn] using hx) hheld (if_neg (ne_true_of_eq_false hopen))
  case bar2Atomic =>
    intro s u x atop d old hheld hop hx hd hlen halign hopen hatom
    have hshape : ((atop = 0 || atop = 5 || atop = 6 || atop = 7) && d.length = atomOperand atop && x % atomWidth atop = 0) = true := by
      simpa [hlen, halign, or_assoc] using hop
    have hwf : atop < 16 := by omega
    refine run_effect (by simpa [Instr.wf, hwf, hd] using hx) hheld
      ((if_neg (by simp [hshape])).trans ((if_neg (ne_true_of_eq_false hopen)).trans ?_))
    simp only [hatom, ne_eq, not_true_eq_false, if_false]

end Sys2Proof.Machine
end

section
/-!
PROOF. O44, O45: the coherence domain (09_coherent_domains.md), and packets through the switch with their streams
(11_yalig_transactions.md).
-/

namespace Sys2Proof.Machine

/-! ## The coherence domain -/

/-- R434: a request of a member to a free line of the window is served. -/
theorem State.cohRequest_of_free {s : State} {p : Packet} {slot : Nat} (hregion : s.region p.off ≠ .control)
    (hmember : s.memberSlot p.src = some slot) (hwindow : s.windowed p.off = true) (hup : s.domState = cdUP)
    (hfree : s.cohBusy (p.off / 64) = false) (hfirst : (s.cohWait.any fun q => q.off / 64 == p.off / 64) = false) :
    s.cohRequest p = s.cohServe p slot := by
  refine (if_neg hregion).trans ?_
  simp only [hmember]
  exact (if_neg (by rw [hwindow, hup]; decide)).trans ((if_neg (not_not_intro hup)).trans (if_neg (by rw [hfree, hfirst]; decide)))

/-- R452: a collapse of a domain that is UP is announced first. -/
theorem State.agentDead_of_up {s : State} (hup : s.domState = cdUP) (why : Nat) (slot : Option Nat) :
    s.agentDead why slot = s.collapseNotice.collapse why slot := if_pos hup

/-- Settles O44. -/
theorem coherenceCommandsComplete : Obligations.CoherenceCommandsComplete := by
  unfold Obligations.CoherenceCommandsComplete
  refine ⟨?request, ?writeBack, ?evict, ?snoop, ?forward, ?snoopTimeout, ?control, ?reinitDone, ?commit⟩
  case request =>
    intro s u k slot env p hheld hregion hmember hwindow hup hfree hfirst
    have hserve := State.cohRequest_of_free hregion hmember hwindow hup hfree hfirst
    refine ⟨fun htake => next_effect hheld ?_, fun htake => perform_effect hheld htake hserve,
      fun htake => perform_effect hheld htake hserve⟩
    exact (State.perform_of_take htake).trans hserve
  case writeBack =>
    intro s u k slot p e hheld htake hregion hmember hdir howner hnone
    refine perform_effect hheld htake ((if_neg hregion).trans ?_)
    simp only [hmember, hdir, hnone]
    exact if_pos howner
  case evict =>
    intro s u k slot p e hheld htake hregion hmember hdir hholds hanswered
    refine perform_effect hheld htake ((if_neg hregion).trans ?_)
    simp only [hmember, hdir, hanswered, hholds]
    rfl
  case snoop =>
    intro s u k slot p t hheld hfind
    refine ⟨fun htake howner => perform_effect hheld htake ?_, fun htake => perform_effect hheld htake ?_⟩ <;> simp only [hfind]
    exact congrArg u.cohStep (if_neg howner)
  case forward =>
    intro s u k p t hheld htake hfind
    refine perform_effect hheld htake ?_
    simp only [hfind]
  case snoopTimeout =>
    intro s k slot t hheld hslot ht hwaits hup
    refine run_effect (by simp [Instr.wf, hslot]) hheld ?_
    simp only [ht]
    exact (if_pos hwaits).trans (State.agentDead_of_up hup 1 (some slot))
  case control =>
    intro s src hheld hsrc hacc
    refine ⟨fun hup => gated_effect (by simp [Instr.wf, hsrc]) hheld hacc ?_, fun hdown => gated_effect (by simp [Instr.wf, hsrc]) hheld hacc ?_⟩
    · simp only [State.domCtrl, if_true, Bool.false_and, Bool.false_eq_true, if_false]
      exact State.agentDead_of_up hup 5 none
    · exact if_pos (by simp [hdown])
  case reinitDone => exact fun s hheld hst => next_effect hheld (if_pos hst)
  case commit => exact fun s src hheld hsrc hacc hok => gated_effect (by simp [Instr.wf, hsrc]) hheld hacc (if_neg (by simp [hok]))

/-! ## The switch and the streams -/

/-- Settles O45. -/
theorem switchCommandsComplete : Obligations.SwitchCommandsComplete := by
  unfold Obligations.SwitchCommandsComplete
  refine ⟨?ingress, ?detour, ?egress, ?mirror, ?sack, ?sackTimer, ?resend, ?mgmt⟩
  case ingress =>
    intro s l p good rest hheld hl harrived
    refine run_effect (by simp [Instr.wf, hl]) hheld ?_
    simp only [harrived]
  case detour =>
    intro s l t p good rest hheld hl harrived
    dsimp only
    refine ⟨fun hhome => run_effect (by simp [Instr.wf, hl]) hheld ?_,
      fun haway hgood hheader htransit hpeers => run_effect (by simp [Instr.wf, hl]) hheld ?_⟩ <;> simp only [harrived]
    · exact if_pos hhome
    · exact (if_neg haway).trans ((if_neg (by simp [hgood])).trans ((if_neg (ne_true_of_eq_false hheader)).trans
        ((if_neg (ne_true_of_eq_false (congrArg not htransit))).trans (if_neg (by rw [List.isEmpty_iff]; exact hpeers)))))
  case egress =>
    intro s l a x hheld hl hup hchoose hroom
    refine run_effect (by simp [Instr.wf, hl]) hheld ((if_neg (by simp [hup])).trans ?_)
    simp only [hchoose]
    exact if_neg (ne_true_of_eq_false hroom)
  case mirror =>
    intro s c rest hheld hcaptures
    dsimp only
    intro hregion
    refine next_effect hheld ?_
    simp only [hcaptures]
    exact congrArg (State.wrap · F.SWC_MIR_TAIL_COUNT) (if_pos hregion)
  case sack =>
    intro s u k p hheld htake
    dsimp only
    exact fun hsome => perform_effect hheld htake (if_neg hsome)
  case sackTimer => exact fun s n vc hheld hn hvc hseen => run_effect (by simp [Instr.wf, hn, hvc]) hheld (if_pos hseen)
  case resend =>
    intro s n vc hheld hn hvc hstore halive hretries
    exact run_effect (by simp [Instr.wf, hn, hvc]) hheld ((if_neg (by simp [hstore, halive])).trans (if_neg (Nat.not_le.mpr hretries)))
  case mgmt =>
    intro s u k p hheld
    exact ⟨fun htake => perform_effect hheld htake rfl,
      fun htake hdomain hup => perform_effect hheld htake (if_pos (by simp [hdomain, hup])),
      fun htake => perform_effect hheld htake rfl⟩

end Sys2Proof.Machine
end

section
/-!
PROOF. O46, O47, O48: training, FLITs and lanes of a Yalig link (10_yalig_links.md).
-/

namespace Sys2Proof.Machine

/-! ## YL_LINK_CTRL (R474) -/

section

variable {s u : State} {l : Nat} {w : Word} (hu : s.plainWrite .YL_LINK_CTRL l w = u)
include hu

theorem State.writeLinkCtrl_of_disable (hoff : F.YL_LINK_CTRL_DISABLE.get w = 1) (hst : u.lstate l ≠ lsDISABLED) (hup : u.linkUp l = true) :
    s.writeLinkCtrl l w = u.leaveUp l lsDISABLED := by
  subst hu
  exact (if_pos (by simp [hoff])).trans ((if_neg hst).trans (if_pos hup))

theorem State.writeLinkCtrl_of_retrain (hoff : F.YL_LINK_CTRL_DISABLE.get w = 0) (hretrain : F.YL_LINK_CTRL_RETRAIN.get w = 1)
    (hst : u.lstate l ≠ lsDISABLED) (hup : u.linkUp l = true) : s.writeLinkCtrl l w = u.linkFault l := by
  subst hu
  simp only [State.writeLinkCtrl, hoff, hst, hretrain, decide_false, Bool.false_and, Bool.false_eq_true, if_false]
  exact (if_neg (by decide)).trans ((if_neg (by decide)).trans (if_pos hup))

theorem State.writeLinkCtrl_of_clear (hoff : F.YL_LINK_CTRL_DISABLE.get w = 0) (hretrain : F.YL_LINK_CTRL_RETRAIN.get w = 0)
    (hst : u.lstate l = lsDISABLED) (hlocked : u.ylLocked = true) (hen : u.flag F.YL_LINK_CFG_EN l = true) (hfree : u.linkHeld l = false) :
    s.writeLinkCtrl l w = u.setLstate l lsDETECT := by
  subst hu
  exact (if_neg (by simp [hoff])).trans ((if_pos hretrain).trans (if_pos (by rw [hlocked, hen, hfree]; simp [hst])))

end

/-- Settles O46. -/
theorem linkTrainingCommandsComplete : Obligations.LinkTrainingCommandsComplete := by
  unfold Obligations.LinkTrainingCommandsComplete
  refine ⟨?detect, ?oneLane, ?equalize, ?lock, ?negotiate, ?fast, ?retry, ?control, ?commit⟩
  case detect => exact fun s l hheld hl hst => run_effect (by simp [Instr.wf, hl]) hheld (if_neg (not_not_intro hst))
  case oneLane =>
    exact fun s l lane hheld hl hlane hst hen => run_effect (by simp [Instr.wf, hl, hlane]) hheld (if_neg (by simp [hst, hen]))
  case equalize =>
    exact fun s l hheld hl hst => ⟨run_effect (by simp [Instr.wf, hl]) hheld (if_pos hst), run_effect (by simp [Instr.wf, hl]) hheld (if_pos hst)⟩
  case lock =>
    exact fun s l hheld hl hst => ⟨run_effect (by simp [Instr.wf, hl]) hheld (if_neg (not_not_intro hst)),
      run_effect (by simp [Instr.wf, hl]) hheld (if_pos hst)⟩
  case negotiate => exact fun s l hheld hl hst => run_effect (by simp [Instr.wf, hl]) hheld (if_pos hst)
  case fast =>
    intro s l ok caps lane hheld hl hst
    dsimp only
    refine ⟨fun c hcaps hcheck => run_effect (by simp [Instr.wf, hl]) hheld ((if_neg (not_not_intro hst)).trans ?_), ?_⟩
    · simp only [hcaps, hcheck]
      rfl
    · rintro rfl hfast
      refine run_effect (by simp [Instr.wf, hl]) hheld ((if_neg (not_not_intro hst)).trans ?_)
      cases hcaps : capsOf caps <;> simp only [Bool.false_and, Bool.false_eq_true, if_false] <;> exact if_pos hfast
  case retry =>
    intro s l hheld hl hst hen hversion hrole
    exact run_effect (by simp [Instr.wf, hl]) hheld (if_neg (by simp [hst, hen, hversion, hrole]))
  case control =>
    intro s src l hheld hsrc hl hacc
    refine ⟨fun hoff hretrain hst hup => gated_effect (by simp [Instr.wf, hsrc, hl]) hheld hacc
        (State.writeLinkCtrl_of_retrain rfl hoff hretrain hst hup),
      fun hoff hst hup => gated_effect (by simp [Instr.wf, hsrc, hl]) hheld hacc (State.writeLinkCtrl_of_disable rfl hoff hst hup),
      fun hoff hretrain hst hlocked hen hfree => gated_effect (by simp [Instr.wf, hsrc, hl]) hheld hacc
        (State.writeLinkCtrl_of_clear rfl hoff hretrain hst hlocked hen hfree)⟩
  case commit =>
    intro s src hheld hsrc hacc hfirst hexpect
    refine gated_effect (by simp [Instr.wf, hsrc]) hheld hacc ((if_neg (ne_true_of_eq_false hfirst)).trans ?_)
    simp only [hexpect]

/-! ## FLITs -/

theorem LinkSt.judge_uncorrectable (x : LinkSt) (b : List Byte) : x.judge b true = .bad := by simp [LinkSt.judge]

/-- Settles O47. -/
theorem linkFlitCommandsComplete : Obligations.LinkFlitCommandsComplete := by
  unfold Obligations.LinkFlitCommandsComplete
  refine ⟨?sequenced, ?bad, ?ack, ?nak, ?timeouts⟩
  case sequenced =>
    intro s l cw s0 s1 b hheld hl hb hup
    dsimp only
    intro hjudge
    refine run_effect (by simp [Instr.wf, hl, hb]) hheld ((if_neg (by simp [hup])).trans ?_)
    simp only [hjudge]
  case bad =>
    intro s l cw s0 s1 b hheld hl hb hup
    refine run_effect (by simp [Instr.wf, hl, hb]) hheld ((if_neg (by simp [hup])).trans ?_)
    simp only [LinkSt.judge_uncorrectable, if_true]
  case ack =>
    intro s l hheld hl hup hunacked
    have hl' : l < 112 := by omega
    exact run_effect (by simp [Instr.wf, hl']) hheld ((if_neg (Nat.not_le.mpr hl)).trans (if_neg (by simp [hunacked, hup])))
  case nak =>
    intro s l hheld hl hup hnak hfew
    have hl' : l < 112 := by omega
    exact run_effect (by simp [Instr.wf, hl']) hheld ((if_neg (Nat.not_le.mpr hl)).trans
      ((if_neg (by simp [hnak, hup])).trans (if_neg (by omega))))
  case timeouts =>
    intro s l hheld hl
    have hl' : l < 112 := by omega
    exact ⟨run_effect (by simp [Instr.wf, hl']) hheld (if_neg (Nat.not_le.mpr hl)),
      fun hreplay => run_effect (by simp [Instr.wf, hl']) hheld ((if_neg (by simp [hreplay])).trans (if_neg (Nat.not_le.mpr hl)))⟩

/-! ## Lanes and reach -/

/-- Settles O48. -/
theorem linkLaneCommandsComplete : Obligations.LinkLaneCommandsComplete := by
  unfold Obligations.LinkLaneCommandsComplete
  refine ⟨?loss, ?marker, ?dropTimeout, ?test, ?reach, ?stale⟩
  case loss =>
    intro s l mask k hheld hl hmask hup hlost hfeature hen hdrop hlane
    refine run_effect (by simp [Instr.wf, hl, hmask]) hheld ((if_neg (by simp [hup])).trans ?_)
    simp only [hlost]
    exact if_neg (by simp [hfeature, hen, hdrop, hlane])
  case marker =>
    intro s l k ok hheld hl hdrop hup hfirst
    have hl' : l < 112 := by omega
    exact run_effect (by simp [Instr.wf, hl']) hheld ((if_neg (Nat.not_le.mpr hl)).trans
      ((if_neg (by simp [hdrop, hup])).trans (if_pos (by simp [hfirst]))))
  case dropTimeout =>
    intro s l k hheld hl hdrop hfirst
    have hl' : l < 112 := by omega
    exact run_effect (by simp [Instr.wf, hl']) hheld ((if_pos (by simp [hdrop, hfirst])).trans (if_neg (Nat.not_le.mpr hl)))
  case test =>
    intro s l ser0 ser1 hold hheld hl h0 h1
    have hl' : l < 112 := by omega
    have hwf : ∀ b, (Instr.laneTest l b ser0 ser1).wf = true := fun b => by simp [Instr.wf, hl, hl', h0, h1]
    dsimp only
    refine ⟨fun hdrop => run_effect (hwf _) hheld ((if_neg (Nat.not_le.mpr hl)).trans ?_),
      fun k hdrop hmarked hup => run_effect (hwf _) hheld ((if_neg (Nat.not_le.mpr hl)).trans ?_)⟩
    · have hdrop' : (((s.setFld F.YL_LANE_STATUS_RX0_SER ser0 l).setFld F.YL_LANE_STATUS_RX1_SER ser1 l).link l).drop = none := hdrop
      simp only [hdrop']
    · simp only [hdrop]
      exact if_neg (by simp [hmarked, hup])
  case reach =>
    intro s l hheld hl hpeer hup
    exact ⟨run_effect (by simp [Instr.wf, hl]) hheld (if_pos (by simp [hpeer, hup])),
      run_effect (by simp [Instr.wf, hl]) hheld (if_pos (by simp [hpeer, hup]))⟩
  case stale => exact fun s l hheld hl => run_effect (by simp [Instr.wf, hl]) hheld rfl

end Sys2Proof.Machine
end

section
/-!
PROOF. O49, O50, O51: the ports of TSP and their tiles (12_tile_streams_host.md), and mirrored programs (15_continuity.md).
-/

namespace Sys2Proof.Machine

/-! ## Ports -/

/-- The lanes lost of a port whose four lanes serve. -/
theorem lostLanes_of_first (rx : Nat) (hrx : rx = 15) : ((List.range 4).filter fun k => (1).testBit k && rx.testBit k) = [0] := by
  subst hrx
  decide

theorem lostLanes_of_third (rx : Nat) (hrx : rx = 15) : ((List.range 4).filter fun k => (4).testBit k && rx.testBit k) = [2] := by
  subst hrx
  decide

/-- Settles O49. -/
theorem tspPortCommandsComplete : Obligations.TspPortCommandsComplete := by
  unfold Obligations.TspPortCommandsComplete
  refine ⟨?train, ?negotiate, ?lanes, ?recover, ?retry, ?refLoss, ?refBack, ?control, ?commit⟩
  case train =>
    intro s t hheld ht hst href
    exact ⟨run_effect (by simp [Instr.wf, ht]) hheld (if_neg (by simp [hst, href])),
      run_effect (by simp [Instr.wf, ht]) hheld (if_pos (by simp [hst, href])),
      run_effect (by simp [Instr.wf, ht]) hheld (if_pos (by simp [hst, href]))⟩
  case negotiate => exact fun s t hheld ht hst => run_effect (by simp [Instr.wf, ht]) hheld (if_pos hst)
  case lanes =>
    intro s t mask hheld ht hmask hserves
    have hwf : (Instr.tspLaneLoss t mask).wf = true := by simp [Instr.wf, ht, hmask]
    refine ⟨fun hrx hlost => run_effect hwf hheld ((if_neg ?_).trans (if_pos (by simp [hrx]))), ?_⟩
    · rw [List.isEmpty_eq_false_iff.mpr hlost, hserves]
      decide
    · intro hrx hfeature hen hmask
      dsimp only
      rcases hmask with rfl | rfl
      · refine run_effect hwf hheld ?_
        simp only [lostLanes_of_first _ hrx]
        exact (if_neg (by simp [hserves])).trans (if_neg (by simp [hrx, hfeature, hen]))
      · refine run_effect hwf hheld ?_
        simp only [lostLanes_of_third _ hrx]
        exact (if_neg (by simp [hserves])).trans (if_neg (by simp [hrx, hfeature, hen]))
  case recover =>
    intro s t caps c hheld ht hst hcaps hok
    refine run_effect (by simp [Instr.wf, ht]) hheld ((if_neg (not_not_intro hst)).trans ?_)
    simp only [hcaps]
    exact if_pos (by simp [hok])
  case retry =>
    intro s t hheld ht hst hen hcause
    exact run_effect (by simp [Instr.wf, ht]) hheld (if_pos (by simp [hst, hen, hcause]))
  case refLoss => exact fun s k hheld hk hok => run_effect (by simp [Instr.wf, hk]) hheld (if_neg (by simp [hok]))
  case refBack => exact fun s k hheld hk => run_effect (by simp [Instr.wf, hk]) hheld rfl
  case control =>
    intro s src t hheld hsrc ht hacc
    dsimp only
    refine ⟨fun hoff hretrain hst => gated_effect (by simp [Instr.wf, hsrc, ht]) hheld hacc ?_,
      fun hoff hst => gated_effect (by simp [Instr.wf, hsrc, ht]) hheld hacc ?_⟩
    · exact (if_neg (by simp [hoff])).trans ((if_pos hretrain).trans (if_pos hst))
    · exact (if_pos (by simp [hoff])).trans (if_neg hst)
  case commit =>
    intro s src t hheld hsrc ht hacc
    dsimp only
    intro hsum hzero
    exact gated_effect (by simp [Instr.wf, hsrc, ht]) hheld hacc
      ((if_neg (Nat.not_lt.mpr hsum)).trans (if_neg (ne_true_of_eq_false hzero)))

/-! ## Tiles -/

/-- Settles O50. -/
theorem tspTileCommandsComplete : Obligations.TspTileCommandsComplete := by
  unfold Obligations.TspTileCommandsComplete
  refine ⟨?flit, ?unit, ?send⟩
  case flit =>
    intro s t b hheld ht hb hserves
    refine ⟨fun hjudge => run_effect (by simp [Instr.wf, ht, hb]) hheld ((if_neg (by simp [hserves])).trans ?_),
      run_effect (by simp [Instr.wf, ht, hb]) hheld ((if_neg (by simp [hserves])).trans ?_)⟩
    · simp only [hjudge]
    · simp only [LinkSt.judge_uncorrectable]
  case unit =>
    intro s t k q d rest hheld ht htiles hseq
    refine run_effect (by simp [Instr.wf, ht]) hheld ?_
    simp only [htiles]
    exact if_pos hseq.symm
  case send =>
    intro s t k x hheld ht hserves
    dsimp only
    intro hturn hnext
    refine run_effect (by simp [Instr.wf, ht]) hheld ((if_neg (by simp [hserves])).trans ?_)
    simp only [hturn, hnext]

/-! ## Mirrored programs -/

/-- Settles O51. -/
theorem mirrorCommandsComplete : Obligations.MirrorCommandsComplete := by
  unfold Obligations.MirrorCommandsComplete
  refine ⟨?copy, ?push, ?bank, ?handoff⟩
  case copy =>
    intro s n slot hheld hn hslot hcopying hmirrors hdone
    exact run_effect (by simp [Instr.wf, hn, hslot]) hheld (if_pos (by rw [hcopying, hmirrors, hdone]; decide))
  case push =>
    intro s n step es rest hheld hn hsteps hstage hmirrors hdone
    refine run_effect (by simp [Instr.wf, hn]) hheld ?_
    simp only [hsteps]
    exact if_pos (by simp [hstage, hmirrors, hdone])
  case bank =>
    intro s n step es rest hheld hn hsteps hmirrors hdone
    dsimp only
    refine ⟨fun hstage => run_effect (by simp [Instr.wf, hn]) hheld ?_, fun hstage => run_effect (by simp [Instr.wf, hn]) hheld ?_⟩ <;>
      (simp only [hsteps]; exact if_pos (by simp [hstage, hmirrors, hdone]))
  case handoff =>
    intro s h rest hheld hhand hidle
    dsimp only
    intro hfails
    refine next_effect hheld ?_
    simp only [hhand]
    exact (if_neg (by simp [hidle])).trans (if_neg (by simp [hfails]))

end Sys2Proof.Machine
end

section
/-!
PROOF. O52, O53, O54: continuity of a pair (15_continuity.md), the messages of a session and those that open one
(16_object_dictionary.md).
-/

namespace Sys2Proof.Machine

/-! ## Continuity -/

/-- R703: CNT_CTRL with TAKEOVER and the confirming value. -/
theorem State.writeCntCtrl_takeover {s : State} (hst : s.cntState = csPAIRED ∨ s.cntState = csSERVING) :
    s.writeCntCtrl (BitVec.ofNat 64 (0xA5 * 256 + 1)) = s.partnerLost llHOST := by
  have hlost : (if F.CNT_CTRL_TAKEOVER.get (BitVec.ofNat 64 (0xA5 * 256 + 1)) ≠ 0 &&
      (s.cntState = csPAIRED || s.cntState = csSERVING) then s.partnerLost llHOST else s) = s.partnerLost llHOST := by
    refine if_pos ?_
    rw [show F.CNT_CTRL_TAKEOVER.get (BitVec.ofNat 64 (0xA5 * 256 + 1)) = 1 by decide]
    simpa using hst
  have hno : F.CNT_CTRL_RESTART.get (BitVec.ofNat 64 (0xA5 * 256 + 1)) = 0 := by decide
  refine (if_neg (by decide)).trans ?_
  rw [hlost, hno]
  exact if_neg Bool.false_ne_true

/-- R704: CNT_CTRL with RESTART and the confirming value. -/
theorem State.writeCntCtrl_restart {s : State} (hst : s.cntState = csALONE) :
    s.writeCntCtrl (BitVec.ofNat 64 (0xA5 * 256 + 2)) = (s.setCnt csPAIRING).readPartner := by
  have hno : F.CNT_CTRL_TAKEOVER.get (BitVec.ofNat 64 (0xA5 * 256 + 2)) = 0 := by decide
  have hyes : F.CNT_CTRL_RESTART.get (BitVec.ofNat 64 (0xA5 * 256 + 2)) = 1 := by decide
  refine (if_neg (by decide)).trans ?_
  rw [hno, hyes, if_neg (show ¬ ((decide (0 ≠ 0) && _) = true) from Bool.false_ne_true)]
  exact if_pos (by simp [hst])

theorem State.peerCmd_of_front {s : State} {op m : Nat} {rest : List (Nat × Nat)} (f : State → List Nat → State)
    (hfront : s.peerCmds = (op, m) :: rest) : s.peerCmd op f = f { s with peerCmds := rest } (maskBits m) := by
  simp only [State.peerCmd, hfront, if_true]

/-- Settles O52. -/
theorem continuityCommandsComplete : Obligations.ContinuityCommandsComplete := by
  unfold Obligations.ContinuityCommandsComplete
  refine ⟨?paired, ?serving, ?retry, ?loss, ?control, ?commit, ?takeover, ?handback, ?sweep, ?frozen, ?bulk, ?delta⟩
  case paired =>
    intro s u env st hheld hst hpairing hother
    refine next_effect hheld ((if_neg (not_not_intro hst)).trans ?_)
    simp only [hpairing]
    exact if_neg hother
  case serving =>
    intro s u env hheld hst hpairing
    refine next_effect hheld ((if_neg (not_not_intro hst)).trans ?_)
    simp only [hpairing, if_true]
  case retry => exact fun s hheld hst => next_effect hheld (if_pos hst)
  case loss => exact fun s hheld hreach hdetours => next_effect hheld (if_neg (by simp [hreach, hdetours]))
  case control =>
    exact fun s src hheld hsrc hacc =>
      ⟨fun hst => gated_effect (by simp [Instr.wf, hsrc]) hheld hacc (State.writeCntCtrl_takeover hst),
        fun hst => gated_effect (by simp [Instr.wf, hsrc]) hheld hacc (State.writeCntCtrl_restart hst)⟩
  case commit => exact fun s src hheld hsrc hacc hok => gated_effect (by simp [Instr.wf, hsrc]) hheld hacc (if_pos hok)
  case takeover =>
    exact fun s m rest hheld hst hfront =>
      next_effect hheld ((State.peerCmd_of_front _ hfront).trans (if_neg (not_not_intro hst)))
  case handback =>
    exact fun s m rest hheld hst =>
      ⟨fun hfront => next_effect hheld ((State.peerCmd_of_front _ hfront).trans (if_neg (not_not_intro hst))),
        fun hfront => next_effect hheld ((State.peerCmd_of_front _ hfront).trans (if_neg (not_not_intro hst)))⟩
  case sweep =>
    intro s env hheld hst hfirst hidle hgood
    exact next_effect hheld ((if_neg (by simp [hst, hfirst, hidle])).trans (if_neg (ne_true_of_eq_false hgood)))
  case frozen =>
    intro s n env b hheld hn hst hheader hfrozen
    refine run_effect (by simp [Instr.wf, hn]) hheld ((if_neg (not_not_intro hst)).trans ?_)
    simp only [hheader]
    exact if_pos hfrozen
  case bulk =>
    intro s env hheld hst hswept
    dsimp only
    intro hsome
    exact next_effect hheld ((if_neg (by simp [hst, hswept])).trans (if_neg (by rw [List.isEmpty_iff]; exact hsome)))
  case delta =>
    intro s n env r b hheld hn hst hready hfind hheader
    refine run_effect (by simp [Instr.wf, hn]) hheld ?_
    simp only [hfind, hheader]
    exact if_neg (by simp [hst, hready])

/-! ## Messages of a session -/

/-- R775: a message that a session takes is answered in it; the answer to a close ends it. -/
theorem State.onSession_of_takes {s w : State} {type k t : Nat} {d : Dgram} {env : Env} {a : List Byte}
    (h : s.takesMessage w type d env k t a) :
    s.onSession type d env =
      if t = 0x1F then (w.answerIn k t d.reqId a).closeSession k else w.answerIn k t d.reqId a := by
  obtain ⟨x, b, v, hserves, hfind, hsession, hauth, htag, hseq, hloud, hwhole, hfresh, hserve⟩ := h
  refine (if_neg (by simp [hserves])).trans ?_
  simp only [hfind, hsession]
  refine (if_neg (by simp [hauth, htag, hseq])).trans ((if_neg (ne_true_of_eq_false hloud)).trans ?_)
  simp only [hwhole, hfresh, hserve]

/-- Settles O53. -/
theorem sessionMessagesComplete : Obligations.SessionMessagesComplete := by
  unfold Obligations.SessionMessagesComplete
  intro s w d env k t a hheld hopen
  have hanswer : ∀ {type : Nat}, s.takesMessage w type d env k t a → s.onSession type d env = w.answerIn k t d.reqId a :=
    fun h => (State.onSession_of_takes h).trans (if_neg hopen)
  exact ⟨fun h => next_effect hheld (hanswer h), fun h => next_effect hheld (congrArg (State.serveMailbox · env) (hanswer h)),
    fun h => next_effect hheld (hanswer h), fun h => next_effect hheld (hanswer h), fun h => next_effect hheld (hanswer h),
    fun h => next_effect hheld (hanswer h), fun h => next_effect hheld (hanswer h),
    fun h => next_effect hheld ((State.onSession_of_takes h).trans (if_pos rfl))⟩

/-! ## Messages outside a session -/

/-- R774: an open message that is whole is taken. -/
theorem State.onOpen_of_whole {s v : State} {type : Nat} {d : Dgram} {b : List Byte} {f : State → List Byte → State}
    (hserves : s.rxFrame.mgmtServes = true) (hopen : d.flags % 2 = 0) (hloud : s.rxFrame.silent d.toMac = false)
    (hwhole : s.rxFrame.assemble (8 + d.from_) type d = (v, .message b)) : s.onOpen type d f = f v b := by
  refine (if_neg (by simp [hserves])).trans ((if_neg (by simp [hopen])).trans ((if_neg (ne_true_of_eq_false hloud)).trans ?_))
  simp only [hwhole]

/-- Settles O54. -/
theorem sessionOpeningComplete : Obligations.SessionOpeningComplete := by
  unfold Obligations.SessionOpeningComplete
  refine ⟨?discover, ?hello, ?auth, ?fragment, ?idle, ?handshake⟩
  case discover =>
    intro s v d hheld hserves hopen hloud hwhole
    dsimp only
    intro hfew hnew
    exact next_effect hheld ((State.onOpen_of_whole hserves hopen hloud hwhole).trans
      ((if_neg (by rw [hnew]; simpa using hfew)).trans (if_neg (by simp))))
  case hello =>
    intro s v d b k hheld hserves hopen hloud hwhole hlen htime
    dsimp only
    intro hid hshake hroom
    refine next_effect hheld ((State.onOpen_of_whole hserves hopen hloud hwhole).trans
      ((if_neg (by simpa using htime)).trans ((if_neg (not_not_intro hlen)).trans
        ((if_neg (ne_true_of_eq_false (congrArg not hid))).trans ?_))))
    simp only [hshake]
    exact if_neg (Nat.not_le.mpr hroom)
  case auth =>
    intro s v w d prov x b j k role slot hheld hserves hfind hshake hauth htag hseq hloud hwhole hlen hgrant hslot hw
    subst hw
    refine next_effect hheld ((if_neg (by simp [hserves])).trans ?_)
    simp only [hfind, hshake]
    refine (if_neg (by simp [hauth, htag, hseq])).trans ((if_neg (ne_true_of_eq_false hloud)).trans ?_)
    simp only [hwhole]
    refine (if_neg (not_not_intro hlen)).trans ?_
    simp only [if_true, hgrant, hslot]
  case fragment => exact fun s k hheld => next_effect hheld rfl
  case idle => exact fun s k hheld hk => run_effect (by simp [Instr.wf, hk]) hheld rfl
  case handshake => exact fun s k hheld hk => run_effect (by simp [Instr.wf, hk]) hheld rfl

end Sys2Proof.Machine
end

section
/-!
PROOF. O55, O56: the mailbox and the saved configuration (16_object_dictionary.md), the lease and the management segment
(15_continuity.md).
-/

namespace Sys2Proof.Machine

/-! ## The mailbox and the configuration -/

/-- Settles O55. -/
theorem mailboxAndConfigComplete : Obligations.MailboxAndConfigComplete := by
  unfold Obligations.MailboxAndConfigComplete
  refine ⟨?doorbell, ?openS, ?net, ?anchor, ?deleg, ?saved, ?load⟩
  case doorbell => exact fun s src v env hheld hsrc => run_effect (by simp [Instr.wf, hsrc]) hheld rfl
  case openS => exact fun s reqId hheld hid => run_effect (by simpa [Instr.wf] using hid) hheld rfl
  case net =>
    intro s src hheld hsrc hacc
    dsimp only
    intro hen htimer
    exact gated_effect (by simp [Instr.wf, hsrc]) hheld hacc (if_neg (by simp [hen, htimer]))
  case anchor =>
    intro s src k hheld hsrc hk hacc
    dsimp only
    intro hvalid hrole
    refine gated_effect (by simp [Instr.wf, hsrc]) hheld hacc (if_pos ?_)
    exact List.any_eq_true.mpr ⟨k, List.mem_range.mpr hk, by rw [hvalid]; simpa using hrole⟩
  case deleg =>
    intro s src hheld hsrc hacc
    dsimp only
    exact fun hok => gated_effect (by simp [Instr.wf, hsrc]) hheld hacc (if_pos hok)
  case saved =>
    intro s copy gen device hheld hsaving howed
    dsimp only
    refine ⟨next_effect hheld ?_, next_effect hheld ?_⟩ <;>
      simp only [hsaving, howed, List.filter_nil, List.foldl_nil, if_true, Bool.false_eq_true, if_false]
  case load =>
    intro s w env hheld hready
    dsimp only
    refine ⟨fun c htry => next_effect hheld ((if_neg (by simp [hready])).trans ?_),
      fun htry => next_effect hheld ((if_neg (by simp [hready])).trans ?_)⟩ <;> simp only [htry]

/-! ## The lease and the management segment -/

/-- Settles O56. -/
theorem leaseAndNetComplete : Obligations.LeaseAndNetComplete := by
  unfold Obligations.LeaseAndNetComplete
  refine ⟨?renew, ?expiry, ?neighbor, ?echo, ?dad, ?dropped, ?loss, ?seen⟩
  case renew =>
    exact fun s h e hheld he hholder hepoch =>
      run_effect (by simpa [Instr.wf] using he) hheld (if_pos (by simp [hholder, hepoch]))
  case expiry =>
    intro s h hheld hnext hother
    refine next_effect hheld ?_
    simp only [hnext]
    exact if_neg hother.symm
  case neighbor =>
    exact fun s target hheld htarget hloud =>
      next_effect hheld ((if_neg (not_not_intro htarget)).trans (if_neg (ne_true_of_eq_false hloud)))
  case echo =>
    exact fun s target data hheld htarget hloud =>
      next_effect hheld ((if_neg (not_not_intro htarget)).trans (if_neg (ne_true_of_eq_false hloud)))
  case dad => exact fun s b hheld => next_effect hheld rfl
  case dropped =>
    intro s why hheld hwhy
    refine run_effect (by simp [Instr.wf, hwhy]) hheld ?_
    simp only [Bool.or_eq_true, decide_eq_true_eq]
  case loss =>
    intro s hheld
    dsimp only
    exact fun hactive => next_effect hheld (if_pos hactive)
  case seen =>
    intro s hheld
    dsimp only
    exact fun hen htwo => next_effect hheld (if_pos (Bool.and_eq_true_iff.mpr ⟨hen, decide_eq_true htwo⟩))

end Sys2Proof.Machine
end

section
/-!
PROOF. O57, O58: Scale (17_scale_metrology.md), and the boot of a half (18_boot_identity_life.md).
-/

namespace Sys2Proof.Machine

/-! ## Entries and chunks of an offer -/

/-- R752: a write of an entry that its access admits takes effect. -/
theorem State.entryWrite_of_ok {s t : State} {src : Source} {idx : Nat} (sub : Nat) {f : State → State × Nat}
    (hok : s.entryStatus src idx = stOK) (hf : f s = (t, stOK)) : (s.entryWrite src idx sub f).1 = t := by
  simp [State.entryWrite, hok, hf]

/-- A first chunk that is not yet the whole offer. -/
theorem chunkResult_first {held total tot len max : Nat} (hpos : 0 < tot) (hmax : tot ≤ max) (hlen : len < tot) :
    chunkResult held total 0 tot len max = (ofRECEIVING, true) := by
  refine (if_pos rfl).trans ((if_neg (by simp; omega)).trans ?_)
  rw [if_neg (Nat.ne_of_lt hlen)]

/-- A chunk at the place where the one before ended. -/
theorem chunkResult_next {off tot len : Nat} (max : Nat) (hpos : 0 < off) (hlen : off + len < tot) :
    chunkResult off tot off tot len max = (ofRECEIVING, true) := by
  refine (if_neg (Nat.ne_of_gt hpos)).trans ((if_neg (by simp)).trans ((if_neg (by omega)).trans ?_))
  rw [if_neg (Nat.ne_of_lt hlen)]

/-! ## Scale -/

/-- Settles O57. -/
theorem meteringCommandsComplete : Obligations.MeteringCommandsComplete := by
  unfold Obligations.MeteringCommandsComplete
  refine ⟨?gap, ?tick, ?comp, ?tokens, ?time, ?timeout, ?load, ?uncorr, ?persisted, ?offer, ?verified, ?notFlashed, ?flashed⟩
  case gap => exact fun s hheld hoff => next_effect hheld (if_pos (by simp [hoff]))
  case tick => exact fun s hheld hon => next_effect hheld (if_neg (by simp [hon]))
  case comp =>
    intro s p c hheld hp hc hfirst hdiff hen
    have hc' : c < 256 := by omega
    exact run_effect (by simp [Instr.wf, hp, hc']) hheld
      ((if_neg (Nat.not_le.mpr hc)).trans (if_neg (by rw [hfirst, hen]; simpa using hdiff)))
  case tokens =>
    exact fun s p hheld hp hon => run_effect (by simp [Instr.wf, hp]) hheld (if_pos hon)
  case time =>
    intro s resid want hheld hresid hlow hhigh hdown hup hdisc
    have hnear : ∀ v lo hi : Int, lo ≤ v → v ≤ hi → (if v < lo then lo else if hi < v then hi else v) = v := fun v lo hi h h' => by
      rw [if_neg (Int.not_lt.mpr h), if_neg (Int.not_lt.mpr h')]
    refine next_effect hheld ?_
    simp only [hnear want _ _ hdown hup, hnear want _ _ hlow hhigh, Nat.min_eq_left (show resid ≤ 65535 by omega), hdisc, hresid,
      decide_true, Bool.and_self]
  case timeout => exact fun s hheld => next_effect hheld rfl
  case load => exact fun s hheld hst => next_effect hheld ((if_neg (not_not_intro hst)).trans (if_pos rfl))
  case uncorr => exact fun s hheld hon => next_effect hheld (if_pos hon)
  case persisted =>
    intro s r q hheld hqueue hkind
    refine next_effect hheld ?_
    simp only [hqueue]
    exact if_neg (by simp [hkind])
  case offer =>
    intro s src data hheld hsrc hok hlen hpart hon hidle hnone hsome hmax
    have hwf : (Instr.sclOffer src 0 sclOfferMax data).wf = true := by simpa [Instr.wf, hsrc] using hmax
    refine run_effect hwf hheld (State.entryWrite_of_ok 1 hok ?_)
    refine (if_neg (Nat.not_lt.mpr hlen)).trans ((if_neg (by simp [hon])).trans ((if_neg (by simp [hidle, hnone])).trans ?_))
    simp only [chunkResult_first (Nat.zero_lt_of_lt hpart) (Nat.le_refl _) hpart, if_true, List.nil_append]
  case verified =>
    intro s v cls m hheld hon hst hnone hnew hv hm hcls
    have hwf : (Instr.offerVerifyDone true 2 v m cls).wf = true := by simp [Instr.wf, hv, hm, hcls]
    refine run_effect hwf hheld ((if_neg (by simp [hon, hst, hnone])).trans ((if_neg (by simp)).trans
      ((if_neg (by simp)).trans (if_neg ?_))))
    rw [if_neg (by decide)]
    exact Nat.not_le.mpr hnew
  case notFlashed =>
    intro s k v cls m hheld himage
    refine next_effect hheld ?_
    simp only [himage]
    exact if_pos rfl
  case flashed =>
    intro s v cls m hheld himage
    refine next_effect hheld ?_
    simp only [himage, if_true]
    exact if_neg (by simp)

/-! ## Boot -/

/-- Settles O58. -/
theorem bootCommandsComplete : Obligations.BootCommandsComplete := by
  unfold Obligations.BootCommandsComplete
  refine ⟨?rom, ?image, ?verify, ?serdes, ?svn, ?offer, ?offerDone⟩
  case rom =>
    intro s hheld hst
    exact next_effect hheld ((if_neg (not_not_intro hst)).trans (by simp only [reduceCtorEq, if_false, if_true]))
  case image =>
    intro s h a b k hheld hst hhalf hholder hother
    dsimp only
    intro hchoose
    refine next_effect hheld ((if_neg (not_not_intro hst)).trans ((if_pos (by simp [hhalf, hholder, Nat.not_le.mpr hother])).trans ?_))
    simp only [hchoose]
  case verify =>
    intro s h i hheld hst hpublished hkey hsig hrpmc hsvn
    refine next_effect hheld ((if_neg (not_not_intro hst)).trans ?_)
    have hkeyed : (!s.boot.rpmcKey && !s.flag F.BOOT_STATUS_ID_VALID) = false := by rw [hrpmc]; rfl
    simp only [hpublished, hkeyed, hkey, hsig, Bool.not_true, Bool.or_false, Bool.false_eq_true, if_false, if_neg (Nat.not_lt.mpr hsvn)]
  case serdes =>
    intro s h hheld hst hfirst
    dsimp only
    have hnone : ((List.range 24).filter (0).testBit) = [] := by simp
    refine run_effect (i := .serdesDone h 0) (by simp [Instr.wf]) hheld ((if_neg (not_not_intro hst)).trans ?_)
    simp only [hnone, List.map_nil, List.append_nil, List.foldl_nil]
    exact if_neg (ne_true_of_eq_false hfirst)
  case svn =>
    exact fun s src v hheld hsrc hacc hconfirm hgo hsvn =>
      gated_effect (by simp [Instr.wf, hsrc]) hheld hacc (if_pos (by simp [hconfirm, hgo, hsvn]))
  case offer =>
    intro s src off tot data hheld hsrc hoff htot hok hlen hidle hpos hheldAt hsame hpart
    have hresult : chunkResult (s.fld F.BOOT_OFFER_HELD) s.boot.offerTotal off tot data.length slotSize = (ofRECEIVING, true) := by
      rw [← hheldAt, ← hsame]
      exact chunkResult_next slotSize hpos hpart
    refine run_effect (by simpa [Instr.wf, hsrc] using And.intro hoff htot) hheld (State.entryWrite_of_ok 1 hok ?_)
    refine (if_neg (Nat.not_lt.mpr hlen)).trans ((if_neg hidle).trans ?_)
    simp only [hresult, if_true]
  case offerDone =>
    intro s i hheld hst hkey hsig hsvn
    refine next_effect hheld ((if_neg (not_not_intro hst)).trans (congrArg (s.setFld F.BOOT_OFFER_RESULT) ?_))
    exact (if_neg (by simp)).trans ((if_neg (by simp [hkey, hsig])).trans (if_neg (Nat.not_lt.mpr hsvn)))

end Sys2Proof.Machine
end

section
/-!
PROOF. O59, O60: attestation and the calendar (18_boot_identity_life.md), the life log, the sensors and the throttle
(19_package_electrical.md).
-/

namespace Sys2Proof.Machine

/-! ## Attestation and the calendar -/

section

variable {s : State} {u t2 : Nat} {net : Bool}
  (hen : s.flag (if net then F.BOOT_TIME_CTRL_EN_NET else F.BOOT_TIME_CTRL_EN_HOST) = true)
  (hsole : net = true ∨ s.flag F.BOOT_TIME_CTRL_EN_NET = false)
include hen hsole

/-- R845: a source that is enabled and does not stand behind the network is in use. -/
theorem State.source_in_use (recent : Bool) :
    ¬ (!s.flag (if net then F.BOOT_TIME_CTRL_EN_NET else F.BOOT_TIME_CTRL_EN_HOST) ||
      (!net && s.flag F.BOOT_TIME_CTRL_EN_NET && recent)) = true := by
  rw [hen]
  rcases hsole with rfl | hnet
  · simp
  · simp [hnet]

/-- R843: the first sample restores the calendar. -/
theorem State.sample_first (hfresh : s.flag F.BOOT_TIME_STATUS_RESTORED = false) :
    s.sample u t2 net = (s.restoreCalendar u t2).acceptSample net :=
  (if_neg (State.source_in_use hen hsole _)).trans (if_pos (congrArg not hfresh))

variable (hrestored : s.flag F.BOOT_TIME_STATUS_RESTORED = true)
include hrestored

/-- R845: a sample within a second of the calendar is accepted. -/
theorem State.sample_near (hnear : apart u ((t2 + s.fld F.BOOT_UTC_OFFSET_VALUE) % 2 ^ 64) ≤ 1000000000) :
    s.sample u t2 net = s.acceptSample net :=
  (if_neg (State.source_in_use hen hsole _)).trans ((if_neg (by rw [hrestored]; decide)).trans (if_pos hnear))

/-- R845: one further off is rejected while none has been accepted that could have grown old. -/
theorem State.sample_far (hfar : 1000000000 < apart u ((t2 + s.fld F.BOOT_UTC_OFFSET_VALUE) % 2 ^ 64)) (hlast : s.cal.last = none) :
    s.sample u t2 net = s.bump F.BOOT_TIME_STATUS_REJECTS :=
  (if_neg (State.source_in_use hen hsole _)).trans ((if_neg (by rw [hrestored]; decide)).trans
    ((if_neg (Nat.not_le.mpr hfar)).trans (if_neg (by rw [hlast]; exact Bool.false_ne_true))))

end

/-- Settles O59. -/
theorem attestationAndTimeComplete : Obligations.AttestationAndTimeComplete := by
  unfold Obligations.AttestationAndTimeComplete
  refine ⟨?hostNonce, ?netNonce, ?report, ?sync, ?follow, ?host, ?undisciplined⟩
  case hostNonce =>
    intro s src n hheld hsrc hok hlen
    have hattest : s.attest true n = ({ s with attestHost := some { nonce := n } }, stOK) :=
      (if_neg (not_not_intro hlen)).trans (if_pos rfl)
    exact run_effect (i := .attestNonce src true n) hsrc hheld (State.entryWrite_of_ok 1 hok hattest)
  case netNonce =>
    intro s src n hheld hsrc hok hlen hid
    have hattest : s.attest false n = ({ s with attestNet := some { nonce := n } }, stOK) :=
      (if_neg (not_not_intro hlen)).trans ((if_neg Bool.false_ne_true).trans (if_neg (by rw [hid]; decide)))
    exact run_effect (i := .attestNonce src false n) hsrc hheld (State.entryWrite_of_ok 3 hok hattest)
  case report =>
    intro s a hheld hid hnonce
    refine ⟨(List.range 4627).map (Config.freeByte s.free), by rw [List.length_map, List.length_range], next_effect hheld ?_⟩
    refine (if_neg (by rw [hid]; decide)).trans ((if_neg Bool.false_ne_true).trans ?_)
    rw [hnonce]
    rfl
  case sync =>
    exact fun s src n hheld hsrc hn hok => run_effect (by simpa [Instr.wf, hsrc] using hn) hheld (State.entryWrite_of_ok 2 hok rfl)
  case follow =>
    intro s src n t1 t2 hheld hsrc hn ht1 hok hsync hen hfresh
    refine run_effect (by simpa [Instr.wf, hsrc] using And.intro hn ht1) hheld (State.entryWrite_of_ok 3 hok (congrArg (·, stOK) ?_))
    simp only [State.follow, hsync, if_true]
    exact State.sample_first (net := true) hen (.inl rfl) hfresh
  case host =>
    intro s src u hheld hsrc hacc hen hnet
    have hwf : (Instr.bootTimeHost src u).wf = true := hsrc
    exact ⟨fun hfresh => gated_effect hwf hheld hacc (State.sample_first (net := false) hen (.inr hnet) hfresh),
      fun hrestored hnear => gated_effect hwf hheld hacc (State.sample_near (net := false) hen (.inr hnet) hrestored hnear),
      fun hrestored hfar hlast => gated_effect hwf hheld hacc (State.sample_far (net := false) hen (.inr hnet) hrestored hfar hlast)⟩
  case undisciplined => exact fun s hheld => next_effect hheld rfl

/-! ## The life log, the sensors and the throttle -/

/-- A step under an equation that is tested as a `Bool`. -/
theorem State.when_beq (s : State) (a b : Nat) (f : State → State) : s.when (a == b) f = if a = b then f s else s := by
  by_cases h : a = b <;> simp [State.when, h]

/-- A loop whose body leaves the state as it is. -/
theorem State.each_of_fixed {s : State} {f : State → Nat → State} (h : ∀ k, f s k = s) (n : Nat) : s.each n f = s := by
  unfold State.each
  induction List.range n with
  | nil => rfl
  | cons k l ih => rw [List.foldl_cons, h, ih]

/-- R852: an orderly shutdown that no running program delays. -/
theorem State.lifeCtrl_shutdown {s : State} (hstage : s.snaps.stage = 0) (hidle : ∀ n, s.live n = false) :
    s.lifeCtrl (F.LIFE_CTRL_CONFIRM.put (F.LIFE_CTRL_SHUTDOWN.put 0 1) 0xA5) =
      ({ s with snaps := { s.snaps with stage := 1 } } : State).advanceShutdown := by
  have hpark : (s.each 64 fun s n => if s.live n then s.setProg n { s.prog n with parkReq := true } else s) = s :=
    State.each_of_fixed (fun n => if_neg (ne_true_of_eq_false (hidle n))) 64
  have hnow : ¬ F.LIFE_CTRL_PERSIST_NOW.get (F.LIFE_CTRL_CONFIRM.put (F.LIFE_CTRL_SHUTDOWN.put 0 1) 0xA5) ≠ 0 := by decide
  have hconfirmed : ¬ (F.LIFE_CTRL_SHUTDOWN.get (F.LIFE_CTRL_CONFIRM.put (F.LIFE_CTRL_SHUTDOWN.put 0 1) 0xA5) = 0 ∨
      F.LIFE_CTRL_CONFIRM.get (F.LIFE_CTRL_CONFIRM.put (F.LIFE_CTRL_SHUTDOWN.put 0 1) 0xA5) ≠ 0xA5) := by decide
  unfold State.lifeCtrl
  simp only [if_neg hnow, hpark]
  exact if_neg (by simpa [hstage] using hconfirmed)

/-- A change of the throttle is carried out as what it makes of the state. -/
theorem State.throttled_congr {s : State} {f g : State → State} (h : f s = g s) : s.throttled f = s.throttled g := by
  simp only [State.throttled, h]

/-- A step of both halves, one after the other. -/
theorem State.each_two {s t u : State} {f : State → Nat → State} (h0 : f s 0 = t) (h1 : f t 1 = u) : s.each 2 f = u := by
  subst h0
  exact h1

/-- Settles O60. -/
theorem lifeAndThermalComplete : Obligations.LifeAndThermalComplete := by
  unfold Obligations.LifeAndThermalComplete
  refine ⟨?snap, ?shutdown, ?written, ?service, ?sensors, ?rails, ?avs, ?throttle, ?prochot, ?refclk⟩
  case snap =>
    refine fun s hheld => ⟨fun hbusy => next_effect hheld (if_pos hbusy), fun hidle => ?_⟩
    have hnone : ¬ s.snaps.busy.isSome = true := by rw [hidle]; exact Bool.false_ne_true
    intro t x u at_ v
    have hbegin : s.beginSnap = v := (if_neg hnone).trans (congrArg (State.emit · (.flashWrite at_ (t.snapBytes x.seq))) (State.when_beq _ _ _ _))
    exact ⟨next_effect hheld hbegin, fun src hsrc hacc => gated_effect (i := .persistNow src) hsrc hheld hacc hbegin⟩
  case shutdown =>
    exact fun s src hheld hsrc hacc hstage hidle =>
      gated_effect (by simp [Instr.wf, hsrc]) hheld hacc (State.lifeCtrl_shutdown hstage hidle)
  case written =>
    exact fun s ok hheld hbusy hstage =>
      next_effect hheld ((if_neg (by simpa using Option.isSome_iff_ne_none.mp hbusy)).trans (if_pos (by simp [hstage])))
  case service => exact fun s src v hheld hsrc hacc => gated_effect (i := .lifeServiceAdd src v) hsrc hheld hacc rfl
  case sensors => exact fun s dies hheld hlen => run_effect (by simp [Instr.wf, hlen]) hheld rfl
  case rails => exact fun s rails hheld hlen => run_effect (by simp [Instr.wf, hlen]) hheld rfl
  case avs =>
    intro s e w hheld hen
    refine ⟨fun heast hwest => next_effect hheld ?_, fun heast hwest => next_effect hheld ?_⟩
    · simp only [hen, if_true, ← heast, ← hwest]
    · simp only [hen, if_true, if_neg heast]
      exact if_neg hwest
  case throttle =>
    refine fun s hheld => ⟨fun heast hwest => ?_, fun heast hcause => ?_⟩
    · exact next_effect hheld (State.throttled_congr (State.each_two (if_pos heast) (if_pos hwest)))
    · dsimp only
      exact fun hwest => next_effect hheld (State.throttled_congr
        (State.each_two ((if_neg (not_not_intro heast)).trans (if_pos hcause)) (if_pos hwest)))
  case prochot => exact fun s low hheld => next_effect hheld rfl
  case refclk => exact fun s io q hheld hio hq => run_effect (by simp [Instr.wf, hio, hq]) hheld rfl

end Sys2Proof.Machine
end
